-- ==== Sys2Proof/Word.lean ====
section
/-! DEFINITION. The word types of the DM9720: bytes, 32-bit registers and 64-byte lines. -/

namespace Sys2Proof

/-- One byte of memory or of a payload. -/
abbrev Byte := BitVec 8

/-- A host-visible register (00_scope.md: registers are 32 bits wide). -/
abbrev Reg := BitVec 32

/-- One 64-byte line, byte 0 in bits [7:0] (00_scope.md R4). -/
abbrev Line := BitVec 512

/-- 2^n as a plain number. -/
abbrev pow2 (n : Nat) : Nat := 2 ^ n

end Sys2Proof
end

