-- ==== Sys2Proof/Syntax.lean ====
section
/-! DEFINITION. The commands of the DM9720: one constructor for each row of spec/opcode_table.json, with
the operands its rule names. Mailbox commands carry the mailbox and the input payload's bytes; rows that report
what the media, a neighbour or a pin did carry what was observed. -/

namespace Sys2Proof

/-- A mailbox: `src` is the head 0-7, or 8 for the lengthsman's sideband; `sec` the secondary mailbox (09 R256, 14 R373). -/
structure Mb where
  src : Nat
  sec : Bool := false
  deriving DecidableEq, Repr

/-- Meta0-State value of a CXL.mem request (07 R197). -/
inductive MetaVal where
  | any
  | shared
  | invalid
  deriving DecidableEq, Repr

/-- The answers of a host to a BISnp (07 R201). -/
inductive BiRspKind where
  | i
  | s
  | e
  deriving DecidableEq, Repr

/-- An HDM decoder's programmed fields, read at commit (09 R252, R253). `cxlOk`: the checks that CXL 3.1 itself defines pass
(event reason 4). -/
structure HdmCfg where
  base : Nat
  size : Nat
  iw : Nat
  ig : Nat
  pos : Nat
  skip : Nat
  lock : Bool
  cxlOk : Bool
  deriving DecidableEq, Repr

/-- What came back from the media for one read, and how its check ended (04 R104): the MAC matched; it mismatched and the
chip trial on device `dev` matches; it mismatched and every chip trial fails; the source returned a media error. -/
inductive ReadOutcome where
  | good
  | chipFix (dev : Nat)
  | bad
  | mediaError
  deriving DecidableEq, Repr

/-- How an in-line codec item ended (05 R141, R142): decompressed; decode failure after a matching MAC; compressed and verified;
verification mismatch. What an engine makes of a page follows from its microcode and the page (R143). -/
inductive CodecResult where
  | decoded
  | decodeFail
  | compressed
  | verifyMismatch
  deriving DecidableEq, Repr

/-- Kinds of page move (03 R86, 06 R178, R182). -/
inductive MoveKind where
  | promote
  | demote
  | merge
  | dredge
  | rebuild
  | rekey
  | reencrypt
  deriving DecidableEq, Repr

/-- Where a committing move put its page (03 R89): tier, location (frame number, warm sector index or cold unit index), size
in sectors, cold start sector, whether the result is all zeros (R74, R140). -/
structure MoveDest where
  tier : Nat
  loc : Nat
  size : Nat
  start : Nat
  zero : Bool
  deriving DecidableEq, Repr

/-- One block of a barge being committed (04 R110): its page, location, size and start sector. -/
structure BlockPut where
  page : Nat
  loc : Nat
  size : Nat
  start : Nat
  deriving DecidableEq, Repr

/-- One device's DQS oscillator count and read-pattern results at re-centring (10 R290). -/
structure DriftSample where
  chan : Nat
  sub : Nat
  slot : Nat
  dev : Nat
  count : Nat
  minusOk : Bool
  plusOk : Bool
  deriving DecidableEq, Repr

/-- One scrub read of a berth (10 R297, R298): channel, frame slot, line, and how its check ended. -/
structure ScrubRead where
  chan : Nat
  warm : Bool
  slot : Nat
  line : Nat
  out : ReadOutcome
  deriving DecidableEq, Repr

/-- What the agents of a berth did that the spec leaves to them: pages migration starts to move with their kind and target
tier, barges dredging starts on, warm and cold barges whose write starts, drift samples, scrub reads, and units of position that
outings complete: outing and count (02 R53; 03 R73, R79, R82; 04 R110; 10 R290, R297; 14 R383). -/
structure BerthPlan where
  moves : List (Nat × MoveKind × Nat)
  dredge : List (Nat × Nat)
  warm : List Nat
  cold : List Nat
  drift : List DriftSample
  scrub : List ScrubRead
  units : List (Nat × Nat)
  deriving DecidableEq, Repr

/-- A drive's SMART / Health log and temperature at a poll (11 R317; 17 R435). -/
structure DrivePoll where
  drive : Nat
  used : Nat
  spare : Nat
  spareThresh : Nat
  critical : Nat
  temp : Nat
  deriving DecidableEq, Repr

/-- A Stechaisk data frame with its extension (12 R325, R326). -/
structure Frame where
  seq : Nat := 0
  vc : Nat := 0
  pl : Bool := false
  ext : Bool := false
  opcode : Nat := 0
  dst : Nat := 0xFFF
  src : Nat := 0xFFF
  hops : Nat := 0
  cls : Nat := 0
  poison : Bool := false
  priority : Bool := false
  code : Nat := 0
  wtag : Nat := 0
  line : Nat := 0
  tag : Nat := 0
  payload : Line := 0
  mask : BitVec 64 := 0
  reqId : Nat := 0
  reqTag : Nat := 0
  deriving DecidableEq, Repr

/-- The CRC-32 with which a data frame arrives, and that of its extension frame (12 R326, R327). -/
structure FrameCrc where
  base : Nat
  ext : Nat := 0
  deriving DecidableEq, Repr

/-- A control frame as it arrives: the port, its eight bytes, the CRC-16 with it (12 R327). -/
structure CtlArrival where
  port : Nat
  bytes : List Byte
  crc : Nat
  deriving DecidableEq, Repr

/-- Payload of PROBE and PROBE_END (13 R369 table). -/
structure ProbeMsg where
  gen : Nat
  nextId : Nat
  west : Bool
  mode : Nat
  initiator : Nat
  baseId : Nat
  busy : Bool
  conflict : Bool
  deriving DecidableEq, Repr

/-- Payload of TOPO (13 R350, R369 table). -/
structure TopoMsg where
  gen : Nat
  n : Nat
  ring : Bool
  forwarding : Bool
  hopLimit : Nat
  lowest : Nat
  highest : Nat
  eastEnd : Nat
  westEnd : Nat
  deriving DecidableEq, Repr

/-- Result of the alignment of one lane (12 R322): slips, polarity, and the failure 0 none, 1 no lock, 2 no comma,
3 no valid code, 4 lane order. -/
structure LaneResult where
  slips : Nat
  invert : Bool
  fail : Nat
  deriving DecidableEq, Repr

/-- Result of DRAM training of one channel (10 R288-R290, 20 R492, R493): verification of a stored set failed; full training
failed at position `p`; trained, with the delays by register key. -/
inductive TrainResult where
  | verified
  | verifyFailed
  | fullFailed (pos slot stage : Nat)
  | trained (delays : List (Nat × Nat))
  deriving DecidableEq, Repr

/-- Result of a bring-up step of a drive (11 R303, R304 and the bring-up table). -/
inductive DriveStep where
  | ok
  | linkUp (width rate : Nat)
  | identified (lbas queues entries : Nat) (format needsFormat dealloc sanitize versionOk cryptoErase : Bool)
  | failed (requirement : Nat)
  deriving DecidableEq, Repr

/-- A block's reply to an Off request in handshake mode (15 R399). -/
inductive HsReply where
  | accept
  | refuse
  | delay (ticks : Nat)
  deriving DecidableEq, Repr

/-- One part of a firmware package transfer (17 R443): first, last, offset and bytes written; `digestsOk` is what hashing in
place finds after the last part; the versions and handover version of the header. -/
structure FwPart where
  first : Bool
  last : Bool
  abort : Bool
  slot : Nat
  digestsOk : Bool
  romDigest : Nat
  lmVer : Nat
  keeperVer : Nat
  codecVer : Nat
  handover : Nat
  deriving DecidableEq, Repr

/-- Kinds of IDE stream (06 R190): CXL.cachemem, the PCIe link stream, and selective streams of CXL.io. -/
inductive IdeKind where
  | cachemem | link | selective
  deriving DecidableEq, Repr

/-- IDE key management operations (06 R190). -/
inductive IdeOp where
  | query
  | program (stream : Nat) (kind : IdeKind) (skid : Bool)
  | go (stream : Nat) (kind : IdeKind)
  | stop (stream : Nat) (kind : IdeKind)
  deriving DecidableEq, Repr

/-- The request, item, move or link event that a performance counter or a sample sees (19 R471, R474). -/
structure PmcEvent where
  event : Nat
  master : Nat
  cls : Nat
  tier : Nat
  tierValid : Bool
  unit : Nat
  head : Nat
  addr : Nat
  addrValid : Bool
  latency : Nat
  latValid : Bool
  deriving DecidableEq, Repr

/-- Straps and fuses sampled at cold reset (20 R483). -/
structure Straps where
  mgmtHead : Nat
  optical0 : Bool
  optical1 : Bool
  lmBus : Bool
  lmAddr : Nat
  /-- Fuses: GRADE of GLB_IDENT (00 R3) and the serial number. -/
  grade : Nat := 0xC
  serial : Nat := 0
  deriving DecidableEq, Repr

/-- One image slot of the boot flash as the boot ROM finds it (20 R484, 17 R443). -/
structure FwImage where
  romOk : Bool := true
  lmOk : Bool := true
  valid : Bool := true
  romDigest : Nat := 0
  lmVer : Nat := 0
  keeperVer : Nat := 0
  codecVer : Nat := 0
  handover : Nat := 0
  deriving DecidableEq, Repr

/-- What the boot flash holds at power-up: both image slots and the active-slot record (20 R484). -/
structure FlashImage where
  slotA : FwImage
  slotB : FwImage
  activeB : Bool
  deriving DecidableEq, Repr

/-- The SPD of one DIMM (10 R269, R270, R272); `mrdimm`, capacity in GiB, ranks, die density, stack height, highest rate,
serial. `occupied` false for an empty slot. -/
structure SpdRead where
  slot : Nat
  occupied : Bool
  mrdimm : Bool
  gib : Nat
  ranks : Nat
  density : Nat
  stack : Nat
  rate : Nat
  serial : Nat
  deriving DecidableEq, Repr

/-- The commands. Each constructor is the row of spec/opcode_table.json named by its docstring. -/
inductive Instr where
  /-- REGISTER_WRITE (R5). A host write to a register that has no row of its own is honoured or ignored according to its access code. -/
  | registerWrite (head bar addr : Nat) (value : BitVec 32)
  /-- CTB_NOW_LO_READ (R58). A read of CTB_NOW_LO latches CTB_NOW_HI for the reading head. -/
  | ctbNowLoRead (head : Nat)
  /-- CTB_LOCAL_LO_READ (R58). A read of CTB_LOCAL_LO latches CTB_LOCAL_HI for the reading head. -/
  | ctbLocalLoRead (head : Nat)
  /-- WHD_ALIAS_WRITE (R253). A write to a decoder's ALIAS field takes effect, or is ignored while the decoder is committed. -/
  | whdAliasWrite (head dec : Nat) (value : BitVec 32)
  /-- HDM_DECODER_COMMIT (R253). Host software commits an HDM decoder; it is checked and committed, or Error Not Committed is set. -/
  | hdmDecoderCommit (head dec : Nat) (cfg : HdmCfg)
  /-- HDM_DECODER_UNCOMMIT (R253). Host software uncommits a decoder, which releases the lock on its ALIAS field. -/
  | hdmDecoderUncommit (head dec : Nat)
  /-- BI_ENABLE_WRITE (R249). A change of BI Enable switches the head between HDM-DB and HDM-H service; clearing it with lines held acts as a link loss for the directory. -/
  | biEnableWrite (head : Nat) (enable biId : Bool)
  /-- FUNCTION_LEVEL_RESET (R265). An FLR clears the head's state except its link, decoders and IDE streams, after the directory cleanup. -/
  | functionLevelReset (head : Nat)
  /-- CXL_RESET (R265). A write of the CXL Reset bit resets the head as an FLR does. -/
  | cxlReset (head : Nat)
  /-- D3HOT_ENTRY (R251). The head enters D3hot, stopping BAR decoding and MSI-X delivery but not its CXL.mem service. -/
  | d3hotEntry (head : Nat)
  /-- D0_ENTRY (R251). The head returns from D3hot to D0 without a reset. -/
  | d0Entry (head : Nat)
  /-- PMC_CNT_WRITE (R473). A write to a counter sets its value, plus any increment that falls in the same cycle. -/
  | pmcCntWrite (head n : Nat) (value : BitVec 32) (sameCycle : Nat)
  /-- PMC_OVF_CLEAR (R7). Writing 1 to an overflow bit clears it, unless an overflow sets it in the same cycle. -/
  | pmcOvfClear (head bank : Nat) (value : BitVec 32) (sameCycle : BitVec 16)
  /-- PMC_FREEZE_WRITE (R471). Setting or clearing FREEZE stops or restarts all counters. -/
  | pmcFreezeWrite (head : Nat) (freeze : Bool)
  /-- PMC_CLEAR_ALL (R471). Writing 1 to CLEAR_ALL zeroes every counter and overflow bit. -/
  | pmcClearAll (head : Nat)
  /-- HP_PERST_ASSERT (R246). Assertion of HPn_PERST_N is a conventional reset of both heads of the port. -/
  | hpPerstAssert (port : Nat)
  /-- HP_PERST_DEASSERT (R245). Deassertion of HPn_PERST_N samples HPn_BIF and places the standing vote for DOM_HPn. -/
  | hpPerstDeassert (port : Nat) (bifur : Bool)
  /-- HOT_RESET (R265). A hot reset is a conventional reset of the head. -/
  | hotReset (head : Nat)
  /-- LINK_DISABLE (R265). A link disable is a conventional reset of the head. -/
  | linkDisable (head : Nat)
  /-- HEAD_LINK_DOWN (R266). DL_Down on a head's link triggers directory cleanup, discards the head's mailbox output and raises LINK_DOWN. -/
  | headLinkDown (head cause : Nat)
  /-- HEAD_LINK_UP (R266). A head's link reaches DL_Active, raises LINK_UP and advertises full credits. -/
  | headLinkUp (head width rate : Nat)
  /-- PME_TURN_OFF (R250). PME_Turn_Off is answered with PME_TO_Ack, and service continues until the link falls. -/
  | pmeTurnOff (head : Nat)
  /-- VIRAL_RECEIVED (R264). Viral received from a host is logged for that head and has no other effect. -/
  | viralReceived (head : Nat)
  /-- IDE_INTEGRITY_FAILURE (R266). An IDE integrity failure raises IDE_INTEGRITY and takes the head's link down. -/
  | ideIntegrityFailure (head stream substream : Nat)
  /-- MEM_RD (R197). A MemRd is decoded, metered, ordered at the directory and served under the table for its MetaValue. -/
  | memRd (head : Nat) (mv : MetaVal) (addr : Nat)
  /-- MEM_RD_DATA (R197). A MemRdData is served under the directory table. -/
  | memRdData (head addr : Nat)
  /-- MEM_INV (R197). A MemInv is served under the directory table for its MetaValue. -/
  | memInv (head : Nat) (mv : MetaVal) (addr : Nat)
  /-- MEM_INV_NT (R197). A MemInvNT is served under the directory table. -/
  | memInvNt (head addr : Nat)
  /-- MEM_SPEC_RD (R199). A MemSpecRd may start a media fetch, changes no directory state and receives no response. -/
  | memSpecRd (head addr : Nat)
  /-- MEM_CLN_EVCT (R197). A MemClnEvct removes the head's presence and is answered with Cmp. -/
  | memClnEvct (head addr : Nat)
  /-- BI_CONFLICT (R200). A BIConflict is answered with BIConflictAck, at once or after the ordered request completes. -/
  | biConflict (head addr : Nat)
  /-- MEM_WR (R20). A MemWr is ordered and written to the hot copy or an overlay with a new minor counter. -/
  | memWr (head : Nat) (mv : MetaVal) (addr : Nat) (data : Line) (poison : Bool)
  /-- MEM_WR_PTL (R197). A MemWrPtl is ordered and written like a MemWr. -/
  | memWrPtl (head : Nat) (mv : MetaVal) (addr : Nat) (data : Line) (mask : BitVec 64)
  /-- BI_RSP (R201). A BIRsp answers an outstanding BISnp and may release the waiting transaction or require a further BISnpInv. -/
  | biRsp (head line : Nat) (rsp : BiRspKind)
  /-- SCHEDULER_DISPATCH (R229). When the tier engine can accept a request, the scheduler dispatches one request from the sluice fronts. -/
  | schedulerDispatch
  /-- PENDING_QUEUE_GRANT (R203). When a line's BUSY clears, its oldest waiting request is granted before any new arrival. -/
  | pendingQueueGrant (line : Nat)
  /-- SET_WAIT_RETRY (R206). When a way of a set frees, the oldest set waiter is retried. -/
  | setWaitRetry (set : Nat)
  /-- MAP_WALK_COMPLETE (R15). The map walker returns a map entry for a map cache miss. -/
  | mapWalkComplete (page : Nat)
  /-- DRAM_READ_RETURN (R19). A line or sectors return from DRAM and are checked before release. -/
  | dramReadReturn (rid : Nat) (out : ReadOutcome)
  /-- DEGRADED_FETCH_RETURN (R104). Data for a further trial of a degraded read arrives, and the trial is made. -/
  | degradedFetchReturn (rid : Nat) (out : ReadOutcome)
  /-- DRAM_WRITE_ACCEPTED (R20). Both channel write queues accept a line, and the write's completion is sent. -/
  | dramWriteAccepted (rid : Nat)
  /-- RETRY_BUFFER_RETIRE (R292). A command passes its alert window without an alert and leaves the retry buffer. -/
  | retryBufferRetire (chan : Nat)
  /-- WAITING_WRITE_RESUME (R179). A write held behind an unfinished re-encryption proceeds after the commit. -/
  | waitingWriteResume (page : Nat)
  /-- CODEC_ITEM_COMPLETE (R141). A codec engine finishes an in-line compression with verification or a decompression. -/
  | codecItemComplete (engine : Nat) (res : CodecResult)
  /-- CODEC_WATCHDOG_EXPIRE (R133). An item watchdog expiry makes the engine SUSPECT, and its items are re-issued elsewhere. -/
  | codecWatchdogExpire (engine : Nat)
  /-- CODEC_SELF_TEST_START (R132). Keeper firmware starts the known-answer test of a SUSPECT engine. -/
  | codecSelfTestStart (engine : Nat)
  /-- CODEC_SELF_TEST_DONE (R132). The self-test ends, and the engine returns to IN_SERVICE or becomes FAILED. -/
  | codecSelfTestDone (engine : Nat) (pass : Bool)
  /-- SUBMIT_JOB (R148). A hamper is checked and accepted as a new QUEUED job, or refused. -/
  | submitJob (m : Mb) (p : List Byte)
  /-- GET_JOB (R154). Returns a job's record, or the head's oldest notification for job ID 0xFFFF_FFFF. -/
  | getJob (m : Mb) (p : List Byte)
  /-- RESUME_JOB (R151). Gives a RESUMABLE job a new destination and queues it. -/
  | resumeJob (m : Mb) (p : List Byte)
  /-- CANCEL_JOB (R153). Stops a job at once or at its next segment boundary as CANCELLED. -/
  | cancelJob (m : Mb) (p : List Byte)
  /-- JOB_SEGMENT_DISPATCH (R129). A bulk engine with empty in-line queues takes a job's next segment. -/
  | jobSegmentDispatch (engine job : Nat)
  /-- JOB_SEGMENT_DONE (R151). A segment ends, and the job moves on or stops as DONE, RESUMABLE, NOSHRINK or FAILED. -/
  | jobSegmentDone (engine job : Nat)
  /-- JOB_RECORD_EXPIRE (R154). A finished job's record expires after 2^26 ticks. -/
  | jobRecordExpire (job : Nat)
  /-- TREF_EDGE (R38). A valid TREF_IN edge brings chain time to the nearest whole second by slewing or stepping. -/
  | trefEdge 
  /-- TREF_LOST (R37). Three expected edges missing mean TREF is lost and holdover begins. -/
  | trefLost 
  /-- HOLDOVER_EXPIRE (R36). Holdover ends 2^30 ticks after the loss of TREF, and the rank falls. -/
  | holdoverExpire 
  /-- TIME_FRAME_SEND (R43). At each multiple of 2^14 ticks the master, or a forwarding follower, sends a TIME pair. -/
  | timeFrameSend 
  /-- TIME_FRAME_RECEIVE (R44). A TIME pair received from upstream sets the offset, and the follower slews or steps. -/
  | timeFrameReceive (port : Nat) (seconds fraction w rank master hops : Nat) (intact : Bool)
  /-- UPSTREAM_LOSS (R46). No upstream frame for 2^16 ticks ends following, and election runs again. -/
  | upstreamLoss 
  /-- SET_CHAIN_TIME (R40). Sets chain time where a host setting may take effect. -/
  | setChainTime (m : Mb) (p : List Byte)
  /-- SET_TIME_SOURCE (R41). Enables or disables the TREF, chain and host time sources. -/
  | setTimeSource (m : Mb) (p : List Byte)
  /-- GET_CHAIN_TIME (R36). Returns chain time, local elapsed time, CTB_STATUS and CTB_OFFSET. -/
  | getChainTime (m : Mb) (p : List Byte)
  /-- SET_TIMESTAMP (R40). Sets chain time from nanoseconds, or records the difference in CTB_HOSTOFS. -/
  | setTimestamp (m : Mb) (p : List Byte)
  /-- GET_TIMESTAMP (R39). Returns chain time converted to nanoseconds. -/
  | getTimestamp (m : Mb) (p : List Byte)
  /-- REGULATION_WINDOW_BOUNDARY (R240). At each window boundary counters are snapshotted, parameters applied, the boost and f computed, the budget reset and red fronts recoloured. -/
  | regulationWindowBoundary 
  /-- BERTH_BOUNDARY (R52). A new berth begins, and each agent whose map has that berth may start work. -/
  | berthBoundary (plan : BerthPlan)
  /-- BERTH_CYCLE_BOUNDARY (R92). At each chain-time second, override counts and codec failure counts restart and per-cycle work runs. -/
  | berthCycleBoundary (polls : List DrivePoll)
  /-- MOVER_COMMIT (R89). A mover's writes end, and the map cache entry is updated in one commit. -/
  | moverCommit (page : Nat) (dest : MoveDest)
  /-- BARGE_WRITE_COMMIT (R110). Every present chunk of a barge has reached its devices, and its blocks' map entries are committed. -/
  | bargeWriteCommit (tier barge : Nat) (blocks : List BlockPut)
  /-- KEY_SOFT_LIMIT (R181). The newest key's use count reaching 2^55 opens a new epoch and a re-key outing. -/
  | keySoftLimit (range : Nat)
  /-- KEY_HARD_LIMIT (R181). A key's use count reaching 2^56 while an older epoch holds data halts the device. -/
  | keyHardLimit (range : Nat)
  /-- REKEY_LATE (R184). The newest key reaching 2^54 with an older epoch live raises REKEY_LATE and resumes a paused re-key. -/
  | rekeyLate (range : Nat)
  /-- KEEPER_STEP (R386). Keeper firmware records signalled unit completions and starts the commands due. -/
  | keeperStep 
  /-- UNIT_RECORD_LOST (R113). Keeper firmware records a fenced unit LOST and starts re-protection. -/
  | unitRecordLost (slot : Nat)
  /-- GRACE_EXPIRE (R126). GRACE passing without END_REPLACE starts re-protection and abandons the HELD DIMM. -/
  | graceExpire (slot : Nat)
  /-- HELD_DIMM_RESTORE (R123). A HELD DIMM exits self-refresh and catch-up runs before it is read. -/
  | heldDimmRestore (slot : Nat)
  /-- BEGIN_REPLACE (R125). Fences a slot, holds its channel partner and powers the slot down. -/
  | beginReplace (m : Mb) (p : List Byte)
  /-- END_REPLACE (R124). Powers and brings up a replaced unit and starts its refill. -/
  | endReplace (m : Mb) (p : List Byte)
  /-- GET_LOSS_LIST (R121). Returns loss-list entries from START_SEQ, filtered by head. -/
  | getLossList (m : Mb) (p : List Byte)
  /-- CLEAR_LOSS_ENTRY (R121). Writes zeros to an entry's lines and removes the entry. -/
  | clearLossEntry (m : Mb) (p : List Byte)
  /-- CLEAR_LOSS_WACK_TIMEOUT (R365). Missing WACKs for a CAUSE 0x05 clear fail the command with NO_ROUTE. -/
  | clearLossWackTimeout 
  /-- TANDEM_ACK_TIMEOUT (R128). A buddy acknowledgement missing for 2^15 ticks makes the range solo. -/
  | tandemAckTimeout (rid : Nat)
  /-- SET_TANDEM (R366). Makes a key range tandem with its east buddy, or clears it. -/
  | setTandem (m : Mb) (p : List Byte)
  /-- SNOOP_TIMEOUT (R210). A BISnp unanswered for SNOOP_LIMIT takes the head's link down. -/
  | snoopTimeout (head line : Nat)
  /-- CHAIN_SNOOP_TIMEOUT (R221). A chain snoop unanswered for 2^23 ticks fences the device for coherence. -/
  | chainSnoopTimeout (dev line : Nat)
  /-- RESERVATION_EXPIRE (R219). A line reservation ends after 2^8 ticks. -/
  | reservationExpire (line : Nat)
  /-- NAK_BACKOFF_RETRY (R218). A chain request refused with NAK is retried after its back-off. -/
  | nakBackoffRetry (rid : Nat)
  /-- RDS (R215). A visitor's shared read is granted at the home with snoops where needed. -/
  | rds (port : Nat) (f : Frame)
  /-- RDA (R215). A visitor's read for Any is granted at the home after invalidating other holders. -/
  | rda (port : Nat) (f : Frame)
  /-- RDCUR (R215). A current-value read is served at the home. -/
  | rdcur (port : Nat) (f : Frame)
  /-- WR (R215). A remote full-line write is performed at the home and answered with WACK. -/
  | wr (port : Nat) (f : Frame)
  /-- WRPTL (R215). A remote partial write with its byte mask is performed and answered with WACK. -/
  | wrptl (port : Nat) (f : Frame)
  /-- EVICT (R215). A visitor's eviction removes it from the chain presence record. -/
  | evict (port : Nat) (f : Frame)
  /-- SINV (R213). A home snoop invalidates the visitor's heads and the line goes to VI. -/
  | sinv (port : Nat) (f : Frame)
  /-- SDOWN (R213). A home snoop downgrades the visitor's Any holder and the line goes to VS. -/
  | sdown (port : Nat) (f : Frame)
  /-- SCUR (R213). A home snoop for the current value snoops the visitor's Any holder. -/
  | scur (port : Nat) (f : Frame)
  /-- SFWD (R216). A forwarding snoop makes the owner send FWD_DATA to the requester and answer the home. -/
  | sfwd (port : Nat) (f : Frame)
  /-- DATA (R217). A home's data response is delivered to the visitor's head and held snoops are answered. -/
  | data (port : Nat) (f : Frame)
  /-- FWD_DATA (R216). Data forwarded by the owner is delivered to the requester, or discarded if no longer outstanding. -/
  | fwdData (port : Nat) (f : Frame)
  /-- WACK (R364). A write acknowledgement completes the remote write, or is discarded. -/
  | wack (port : Nat) (f : Frame)
  /-- CHAIN_NAK (R218). A refused chain request schedules its retry, or applies the fence rejoin for REASON 3. -/
  | chainNak (port : Nat) (f : Frame)
  /-- SACK_NONE (R215). A visitor reports that it holds no copy. -/
  | sackNone (port : Nat) (f : Frame)
  /-- SACK_S (R215). A visitor reports that it keeps a shared copy. -/
  | sackS (port : Nat) (f : Frame)
  /-- SACK_D (R215). A visitor returns snoop writeback data, which the home writes to memory. -/
  | sackD (port : Nat) (f : Frame)
  /-- REJOIN (R221). A fenced visitor's REJOIN lifts the home's coherence fence. -/
  | rejoin (port : Nat) (f : Frame)
  /-- REMOTE_RESEND_WINDOW_END (R362). After 2^13 ticks the origin re-sends a write no more. -/
  | remoteResendWindowEnd (rid : Nat)
  /-- DUP_WRITE_EXPIRE (R362). A duplicate-write table entry expires after 2^14 ticks. -/
  | dupWriteExpire (src wtag : Nat)
  /-- UNDELIVERED_WRITE (R364). A remote write without WACK for 2^15 ticks is completed, listed as lost and entered in the undelivered-line table. -/
  | undeliveredWrite (rid : Nat)
  /-- PROBE (R348). A discovery probe assigns the next chain ID and travels on. -/
  | probe (port : Nat) (msg : ProbeMsg)
  /-- PROBE_END (R348). The end of the chain turns discovery westward, or reports BUSY. -/
  | probeEnd (port : Nat) (msg : ProbeMsg)
  /-- TOPO (R350). The topology is committed and the coherence mode is fixed. -/
  | topo (port : Nat) (msg : TopoMsg)
  /-- NEIGHBOUR (R347). A partner's identity, GEN and BOOT_ID are recorded for the port. -/
  | neighbour (port chainId gen bootId partner : Nat)
  /-- ROUTE_CUT (R351). A path is marked without a route, and unreachable-device handling applies. -/
  | routeCut (port chainId cutPort : Nat)
  /-- ROUTE_JOIN (R351). A path regains its route. -/
  | routeJoin (port chainId cutPort : Nat)
  /-- WINDOW_CHECK (R355). The home checks that an export admits the origin for the span and answers. -/
  | windowCheck (port src line sizeGib : Nat)
  /-- WINDOW_RSP (R356). The export check's answer completes the waiting window or tandem command. -/
  | windowRsp (port result bootId : Nat)
  /-- WINDOW_CHECK_TIMEOUT (R356). No WINDOW_RSP within 2^15 ticks fails the command with NO_ROUTE. -/
  | windowCheckTimeout 
  /-- CHAIN_DISCOVER (R348). Runs a FULL or EXTEND discovery from this device. -/
  | chainDiscover (m : Mb) (p : List Byte)
  /-- SET_REMOTE_WINDOW (R354). Creates or deletes an import or an export. -/
  | setRemoteWindow (m : Mb) (p : List Byte)
  /-- SET_HOP_LIMIT (R353). Sets the chain's hop limit. -/
  | setHopLimit (m : Mb) (p : List Byte)
  /-- LANE_SIGNAL_DETECT (R330). Every lane having signal for 1 ms moves an ABSENT port to ALIGN. -/
  | laneSignalDetect (port : Nat)
  /-- LANE_ALIGN_DONE (R322). Keeper firmware's lane alignment ends, and the port goes to DESKEW or DOWN with LANE_FAIL. -/
  | laneAlignDone (port : Nat) (res : List LaneResult)
  /-- DESKEW_DONE (R323). Deskew over eight markers ends, and the port goes to HANDSHAKE or DOWN with DESKEW_FAIL. -/
  | deskewDone (port : Nat) (depths : List Nat) (ok : Bool)
  /-- HELLO_RESEND (R332). In HANDSHAKE the port sends HELLO every 2 µs. -/
  | helloResend (port : Nat)
  /-- TRAIN_HELLO (R332). A received HELLO advances the handshake, or fails it on a wrong VERSION. -/
  | trainHello (port : Nat) (rxReady : Bool) (version peerPort headroom : Nat)
  /-- TRAIN_ECHO_REQ (R332). A received ECHO_REQ is answered at once with ECHO_RSP. -/
  | trainEchoReq (port sendTime round turnaround : Nat)
  /-- TRAIN_ECHO_RSP (R332). An echo answer yields one round-trip sample of the one-way delay. -/
  | trainEchoRsp (port sendTime round turnaround now : Nat)
  /-- TRAIN_ACCEPTED (R332). The partner's last accepted SEQ is recorded. -/
  | trainAccepted (port seq : Nat) (valid : Bool)
  /-- TRAIN_CREDIT_ABS (R332). The partner's absolute credit counts are recorded. -/
  | trainCreditAbs (port c0 c1 c2 c3 : Nat)
  /-- TRAIN_READY (R332). READY sent and received puts the port in UP with reset sequence numbers and credits. -/
  | trainReady (port : Nat)
  /-- TRAIN_LOOPBACK (R324). A LOOPBACK request makes the partner enter far-end loopback. -/
  | trainLoopback (port : Nat) (enter : Bool)
  /-- LOOPBACK_QUIET_END (R324). Quiet lanes end a loopback, and the port trains from ABSENT. -/
  | loopbackQuietEnd (port : Nat) (prbsErrors : List Nat)
  /-- DATA_FRAME_SEND (R336). A port with credit and no XOFF transmits a held data frame. -/
  | dataFrameSend (port : Nat)
  /-- DATA_FRAME_RECEIVE (R334). A received data frame is accepted, dropped with a NAK, or acknowledged as a duplicate. -/
  | dataFrameReceive (port : Nat) (f : Frame) (crc : FrameCrc)
  /-- ACK (R336). An acknowledgement frees held frames and restarts the replay timer. -/
  | ack (port seq : Nat)
  /-- LINK_NAK (R336). A link NAK replays held frames from the named SEQ. -/
  | linkNak (port seq : Nat)
  /-- XON (R340). XON lets the sender start data frames again. -/
  | xon (port : Nat)
  /-- XOFF (R340). XOFF stops the sender from starting data frames within 5 ns. -/
  | xoff (port : Nat)
  /-- CREDIT (R342). A CREDIT frame adds returned credits per VC. -/
  | credit (port c0 c1 c2 c3 : Nat)
  /-- CONTROL_FRAME_DROP (R344). A control frame with a bad CRC is dropped and SKL_LEAK rises. -/
  | controlFrameDrop (x : CtlArrival)
  /-- ACK_TIMER (R335). An ACK is sent 128 ns after the earliest unacknowledged acceptance. -/
  | ackTimer (port : Nat)
  /-- CREDIT_RETURN_TIMER (R342). A CREDIT frame is sent 128 ns after the oldest pending return. -/
  | creditReturnTimer (port : Nat)
  /-- FLOW_STATE_REPEAT (R340). The receiver repeats its flow state at least every 1 µs. -/
  | flowStateRepeat (port : Nat)
  /-- REPLAY_TIMER_EXPIRE (R336). The 2 µs replay timer replays from the oldest unacknowledged frame, or starts a retrain or DOWN by the count. -/
  | replayTimerExpire (port : Nat)
  /-- LANE_ERROR_BURST (R331). Partial lane signal loss or excess code violations start a retrain. -/
  | laneErrorBurst (port lane : Nat) (signalLost : Bool)
  /-- MARKER_MISALIGN (R331). A misaligned marker column after deskew starts a retrain. -/
  | markerMisalign (port : Nat)
  /-- RETRAIN_TIMEOUT (R331). A retrain not in UP after 10 ms ends in DOWN with HANDSHAKE_FAIL. -/
  | retrainTimeout (port : Nat)
  /-- ALL_LANES_SIGNAL_LOSS (R333). Every lane without signal for 1 µs puts the port DOWN with PARTNER_ABSENT. -/
  | allLanesSignalLoss (port : Nat)
  /-- DOWN_HOLD_EXPIRE (R333). After 1 s in DOWN the port goes to ABSENT unless it is disabled. -/
  | downHoldExpire (port : Nat)
  /-- GET_LINK_STATUS (R345). Returns a Stechaisk port's registers. -/
  | getLinkStatus (m : Mb) (p : List Byte)
  /-- RETRAIN_LINK (R345). Retrains, disables, enables or loops back a port, or sets its flow parameters. -/
  | retrainLink (m : Mb) (p : List Byte)
  /-- DRAM_ALERT (R293). A recognised ALERT_N stops the channel and starts a replay of the retry buffer. -/
  | dramAlert (chan : Nat) (writeCrc : Bool)
  /-- REPLAY_COMPLETE (R293). A replay ends, and issuing resumes. -/
  | replayComplete (chan : Nat)
  /-- REFRESH_DUE (R284). A refresh interval elapses, and refresh is postponed or forced after four intervals. -/
  | refreshDue (chan sub : Nat) (blocked : Bool)
  /-- SR_IDLE_EXPIRE (R286). The idle timer expiring puts the channel in self-refresh unless a vote keeps it active. -/
  | srIdleExpire (chan : Nat)
  /-- TEMP_POLL (R273). Every DIMM temperature sensor is polled, and thermal levels are applied. -/
  | tempPoll (chan : Nat) (t0 t1 pmic0 pmic1 : Option Nat)
  /-- PMIC_IBI (R274). A PMIC fault by in-band interrupt fences the DIMM. -/
  | pmicIbi (chan pos status : Nat)
  /-- DELAY_COMMIT (R289). Staged delay values of a subchannel are applied in a forced gap. -/
  | delayCommit (chan sub : Nat)
  /-- DIMM_TRAINING_DONE (R492). Full training or verification of a channel ends, and its set is stored or a DIMM is lost. -/
  | dimmTrainingDone (chan : Nat) (res : TrainResult) (spd : Option SpdRead)
  /-- NVME_COMPLETION (R309). An NVMe completion arrives; read data goes to a wharf, or an error starts a degraded read or retry. -/
  | nvmeCompletion (drive cid : Nat) (status : Nat) (out : ReadOutcome)
  /-- NVME_COMMAND_TIMEOUT (R310). A command without completion after 100 ms is aborted and counted. -/
  | nvmeCommandTimeout (drive cid : Nat)
  /-- NVME_ABORT_TIMEOUT (R302). An Abort not complete after 100 ms counts as a fatal status. -/
  | nvmeAbortTimeout (drive cid : Nat)
  /-- HEDGE_DELAY_EXPIRE (R312). A host-path cold read still open at its hedge delay starts a degraded read. -/
  | hedgeDelayExpire (drive cid : Nat)
  /-- DRIVE_PRESENCE_LOST (R315). FSn_PRSNT_N deasserting fences the drive and ends its outstanding work. -/
  | drivePresenceLost (drive : Nat)
  /-- DRIVE_PRESENCE_STABLE (R305). Presence held for 1 s in a slot whose unit is LOST or ABSENT raises DRIVE_INSERTED. -/
  | drivePresenceStable (drive : Nat)
  /-- DRIVE_FATAL_STATUS (R302). A drive fatal status fences the drive. -/
  | driveFatalStatus (drive status : Nat)
  /-- DRIVE_BRINGUP_STEP_DONE (R303). A step of drive bring-up ends, and the next starts or DRIVE_UNSUITABLE is raised. -/
  | driveBringupStepDone (drive : Nat) (res : DriveStep)
  /-- SANITIZE_DRIVE_DONE (R316). A drive reports sanitize complete, or fails and is fenced. -/
  | sanitizeDriveDone (drive : Nat) (ok : Bool)
  /-- CAST_VOTE (R394). Adds the issuer's vote for a domain, which may wake it. -/
  | castVote (m : Mb) (p : List Byte)
  /-- WITHDRAW_VOTE (R394). Removes the issuer's vote, which may start an Off. -/
  | withdrawVote (m : Mb) (p : List Byte)
  /-- DOMAIN_DRAIN_DONE (R396). Drain ends, and the domain's pads latch, it is isolated and switched off. -/
  | domainDrainDone (dom : Nat)
  /-- DOMAIN_DRAIN_TIMEOUT (R397). Drain unfinished after 10 ms abandons the Off with DOMAIN_STUCK. -/
  | domainDrainTimeout (dom : Nat)
  /-- HANDSHAKE_REPLY (R399). A block's accept, refuse or delay reply to an Off request is handled. -/
  | handshakeReply (dom block : Nat) (reply : HsReply)
  /-- HANDSHAKE_DELAY_EXPIRE (R399). A block's delay ends, and the arbiter asks it again. -/
  | handshakeDelayExpire (dom block : Nat)
  /-- DOMAIN_WAKE_DONE (R403). A domain wake completes with its pads held and its wake flag recorded. -/
  | domainWakeDone (dom : Nat)
  /-- DOMAIN_WAKE_FAIL (R404). A wake that cannot complete returns the domain to Off with WAKE_FAIL. -/
  | domainWakeFail (dom step : Nat)
  /-- PAD_RELEASE (R402). Keeper firmware restores a woken domain's configuration and releases its pads. -/
  | padRelease (dom : Nat)
  /-- GET_DOMAIN_STATE (R390). Returns the state of every domain. -/
  | getDomainState (m : Mb) (p : List Byte)
  /-- GET_WAKE_RECORD (R403). Returns a domain's wake record. -/
  | getWakeRecord (m : Mb) (p : List Byte)
  /-- SET_POWER_MODE (R399). Sets voting or handshake mode, SR_IDLE and SK_POWER. -/
  | setPowerMode (m : Mb) (p : List Byte)
  /-- SUPPLY_WARNING (R406). A monitor falling below its warning level braces the device. -/
  | supplyWarning (mon sample : Nat)
  /-- SUPPLY_RECOVER (R407). A dipped monitor rising above warning plus hysteresis starts the settle interval. -/
  | supplyRecover (mon sample : Nat)
  /-- BRACE_SETTLE_END (R407). The settle interval ends the brace, starts deferred wakes and raises DIP. -/
  | braceSettleEnd 
  /-- BROWNOUT (R408). A monitor at its reset level turns every domain but DOM_AON off and zeroizes keys. -/
  | brownout (mon sample : Nat)
  /-- BROWNOUT_RECOVERY (R408). Every monitor above warning for 100 ms after a brownout starts power-up again. -/
  | brownoutRecovery 
  /-- AUX_WARN (R409). VAUX_3V3 below its warning level commits pending log records. -/
  | auxWarn (sample : Nat)
  /-- SLOT_POWER (R428). Turns a slot on or off. -/
  | slotPower (m : Mb) (p : List Byte)
  /-- SLOT_CONFIG (R429). Sets a slot's e-fuse settings. -/
  | slotConfig (m : Mb) (p : List Byte)
  /-- SLOT_CLEAR_LATCH (R430). Returns a LATCHED slot, or a discharged FET_SHORT slot, to OFF. -/
  | slotClearLatch (m : Mb) (p : List Byte)
  /-- SLOT_STATUS (R410). Returns a slot's status. -/
  | slotStatus (m : Mb) (p : List Byte)
  /-- SLOT_STARTING_END (R414). STARTING ends after 10 ms with a low output, and RAMP begins. -/
  | slotStartingEnd (slot vout vin : Nat)
  /-- SLOT_RAMP_END (R415). The ramp ends, the gate is driven fully, and QUALIFY begins. -/
  | slotRampEnd (slot : Nat)
  /-- SLOT_QUALIFIED (R416). The 1,000th qualifying sample asserts PGOOD, and the slot enters ON. -/
  | slotQualified (slot : Nat)
  /-- SLOT_START_FAILURE (R417). A power-up that does not reach QUALIFY or ON in time is treated as a trip. -/
  | slotStartFailure (slot : Nat)
  /-- SLOT_LIMIT_REACHED (R418). A first limited sample holds the current and starts the fault timer; in ON it asserts INWARN_N. -/
  | slotLimitReached (slot sense : Nat)
  /-- SLOT_FAULT_TIMER_RESET (R418). Sixteen consecutive unlimited samples reset the fault timer. -/
  | slotFaultTimerReset (slot : Nat)
  /-- SLOT_TIMER_TRIP (R418). The fault timer expiring trips the slot into BACKOFF, LATCHED or STOPPING. -/
  | slotTimerTrip (slot sense : Nat)
  /-- SLOT_FAST_TRIP (R418). A sense voltage above three times the limit pulls the gate within 1 µs. -/
  | slotFastTrip (slot sense : Nat)
  /-- SLOT_BACKOFF_END (R419). The back-off ends, and the slot goes to STARTING, or to WAITING while braced. -/
  | slotBackoffEnd (slot : Nat)
  /-- SLOT_DISCHARGE_END (R423). The discharge interval ends, and STOPPING goes to OFF. -/
  | slotDischargeEnd (slot : Nat)
  /-- SLOT_FET_SHORT (R424). An output above 1.0 V for 5 ms with the gate off marks the slot FET_SHORT. -/
  | slotFetShort (slot vout : Nat)
  /-- DIE_TEMP_CROSSING (R437). The hottest valid die point crossing a level starts or ends shedding or throttling. -/
  | dieTempCrossing (point : Nat) (temp : Int) (frozen : Bool)
  /-- LOG_COMMIT (R440). Staged records are committed to the log ring. -/
  | logCommit (flashOk : Bool)
  /-- LOG_READ (R442). The board controller reads log ring records. -/
  | logRead (startSeq maxRecords : Nat)
  /-- MCTP_CONTROL (R433). An MCTP control message on the sideband is answered. -/
  | mctpControl (cmd arg : Nat)
  /-- MCTP_MESSAGE_DISCARD (R433). A sideband message of an unsupported type is discarded. -/
  | mctpMessageDiscard (msgType : Nat)
  /-- PLDM_FW_UPDATE (R443). A package is transferred into the inactive slot over PLDM and verified. -/
  | pldmFwUpdate (part : FwPart)
  /-- PLDM_ACTIVATE_FIRMWARE (R444). ActivateFirmware marks the slot for next cold reset or activates online. -/
  | pldmActivateFirmware (online slotB : Bool)
  /-- SET_SENSOR_THRESHOLDS (R436). Sets board-event thresholds on a PLDM sensor. -/
  | setSensorThresholds (sensor : Nat) (warnHigh critHigh fatalHigh warnLow critLow fatalLow : Int)
  /-- GET_SENSOR_READING (R435). Returns a PLDM numeric sensor's latest sample. -/
  | getSensorReading (sensor : Nat)
  /-- DEVICE_RESET_REQUEST (R497). A PLDM SetStateEffecterStates device reset is refused or starts the device reset. -/
  | deviceResetRequest (effecter state : Nat)
  /-- DEVICE_RESET_RESUME (R498). Keeper firmware takes over from the resume record, channels return and outings resume. -/
  | deviceResetResume 
  /-- LENGTHSMAN_RESTART_DONE (R445). The lengthsman runs its new image, and the Keeper step of activation begins. -/
  | lengthsmanRestartDone 
  /-- KEEPER_TAKEOVER_DONE (R445). The new Keeper image completes takeover, and cluster rolls begin. -/
  | keeperTakeoverDone 
  /-- KEEPER_TAKEOVER_TIMEOUT (R446). Takeover unfinished after 1.2 s restarts the previous Keeper image. -/
  | keeperTakeoverTimeout 
  /-- CLUSTER_ROLL_DONE (R447). A cluster finishes loading new microcode and testing, and the next cluster rolls. -/
  | clusterRollDone (cluster : Nat) (pass : BitVec 8)
  /-- KEEPER_CORE_WATCHDOG (R448). A Keeper core silent for 10 ms is held in reset, or Keeper firmware reloads. -/
  | keeperCoreWatchdog (core lastStep : Nat)
  /-- SPDM_GET_VERSION (R261). The SPDM responder returns its version. -/
  | spdmGetVersion (who : Nat)
  /-- SPDM_GET_CAPABILITIES (R261). The SPDM responder returns its capabilities. -/
  | spdmGetCapabilities (who : Nat)
  /-- SPDM_NEGOTIATE_ALGORITHMS (R261). The SPDM responder selects the algorithms. -/
  | spdmNegotiateAlgorithms (who : Nat)
  /-- SPDM_GET_DIGESTS (R261). The SPDM responder returns its certificate digests. -/
  | spdmGetDigests (who : Nat)
  /-- SPDM_GET_CERTIFICATE (R261). The SPDM responder returns its certificate chain. -/
  | spdmGetCertificate (who slot : Nat)
  /-- SPDM_CHALLENGE (R261). The SPDM responder answers a challenge. -/
  | spdmChallenge (who slot nonce : Nat)
  /-- SPDM_GET_MEASUREMENTS (R449). Returns the signed measurement indices. -/
  | spdmGetMeasurements (who index nonce : Nat)
  /-- SPDM_KEY_EXCHANGE (R261). Starts an SPDM session key exchange. -/
  | spdmKeyExchange (who session : Nat)
  /-- SPDM_FINISH (R261). Completes an SPDM session establishment. -/
  | spdmFinish (who session : Nat)
  /-- SPDM_END_SESSION (R261). Ends an SPDM session. -/
  | spdmEndSession (who session : Nat)
  /-- SPDM_KEY_UPDATE (R261). Updates an SPDM session's keys. -/
  | spdmKeyUpdate (who session : Nat)
  /-- SPDM_HEARTBEAT (R261). Keeps an SPDM session alive. -/
  | spdmHeartbeat (who session : Nat)
  /-- IDE_KM (R190). IDE key programming within an SPDM session. -/
  | ideKm (head session : Nat) (op : IdeOp)
  /-- DOE_DISCOVERY (R261). Returns the DOE protocols supported. -/
  | doeDiscovery (head index : Nat)
  /-- CXL_TABLE_ACCESS (R262). Returns the CDAT. -/
  | cxlTableAccess (head entry : Nat)
  /-- IDENTIFY (R257). Standard CXL Identify. -/
  | identify (m : Mb) (p : List Byte)
  /-- BACKGROUND_OPERATION_STATUS (R375). Reports the issuer's background command. -/
  | backgroundOperationStatus (m : Mb) (p : List Byte)
  /-- GET_RESPONSE_MESSAGE_LIMIT (R377). Returns the response message limit. -/
  | getResponseMessageLimit (m : Mb) (p : List Byte)
  /-- SET_RESPONSE_MESSAGE_LIMIT (R377). Sets the response message limit, up to 64 KiB. -/
  | setResponseMessageLimit (m : Mb) (p : List Byte)
  /-- GET_EVENT_RECORDS (R465). Returns records of one of the head's event logs. -/
  | getEventRecords (m : Mb) (p : List Byte)
  /-- CLEAR_EVENT_RECORDS (R465). Frees event log records and clears overflow when the log empties. -/
  | clearEventRecords (m : Mb) (p : List Byte)
  /-- GET_EVENT_INTERRUPT_POLICY (R466). Reports the fixed MSI-X vectors. -/
  | getEventInterruptPolicy (m : Mb) (p : List Byte)
  /-- SET_EVENT_INTERRUPT_POLICY (R466). Selects MSI-X per log; FW Interrupt is refused. -/
  | setEventInterruptPolicy (m : Mb) (p : List Byte)
  /-- GET_FW_INFO (R443). Returns firmware slot information. -/
  | getFwInfo (m : Mb) (p : List Byte)
  /-- TRANSFER_FW (R443). Transfers a package part into the inactive slot and verifies it after the last part. -/
  | transferFw (m : Mb) (part : FwPart)
  /-- ACTIVATE_FW (R444). Activates a slot at next cold reset or online. -/
  | activateFw (m : Mb) (p : List Byte)
  /-- GET_SUPPORTED_LOGS (R388). Lists the Command Effects Log and the Walben logs. -/
  | getSupportedLogs (m : Mb) (p : List Byte)
  /-- GET_LOG (R388). Returns the Command Effects, Outing or Command Log. -/
  | getLog (m : Mb) (p : List Byte)
  /-- GET_SUPPORTED_FEATURES (R257). Returns no features. -/
  | getSupportedFeatures (m : Mb) (p : List Byte)
  /-- IDENTIFY_MEMORY_DEVICE (R258). Reports the capacity and log sizes. -/
  | identifyMemoryDevice (m : Mb) (p : List Byte)
  /-- GET_HEALTH_INFO (R259). Reports health, media status, life used and temperatures. -/
  | getHealthInfo (m : Mb) (p : List Byte)
  /-- GET_ALERT_CONFIG (R259). Returns the alert thresholds. -/
  | getAlertConfig (m : Mb) (p : List Byte)
  /-- SET_ALERT_CONFIG (R259). Sets alert thresholds on the health fields. -/
  | setAlertConfig (m : Mb) (p : List Byte)
  /-- GET_POISON_LIST (R120). Returns runs of lost lines from the loss list. -/
  | getPoisonList (m : Mb) (p : List Byte)
  /-- INJECT_POISON (R260). Writes a line poisoned and adds a CAUSE 0x06 loss entry. -/
  | injectPoison (m : Mb) (p : List Byte)
  /-- CLEAR_POISON (R260). Writes supplied data to a line and clears its loss bit. -/
  | clearPoison (m : Mb) (p : List Byte)
  /-- SANITIZE (R188). Crypto-erases every range, overwrites DRAM and sanitises every drive as an outing. -/
  | sanitize (m : Mb) (p : List Byte)
  /-- SECURE_ERASE (R188). Crypto-erases every range and the device range and clears the loss list. -/
  | secureErase (m : Mb) (p : List Byte)
  /-- UNSUPPORTED_COMMAND (R370). An unlisted opcode returns Unsupported. -/
  | unsupportedCommand (m : Mb) (opcode : Nat) (p : List Byte)
  /-- BACKGROUND_START_PHASE_END (R374). A background command's start phase ends, and its result and completion interrupt are given. -/
  | backgroundStartPhaseEnd (src : Nat)
  /-- IDENTIFY_WALBEN (R380). Returns the Walben identity record. -/
  | identifyWalben (m : Mb) (p : List Byte)
  /-- GET_HEALTH_SUMMARY (R98). Returns the device health summary. -/
  | getHealthSummary (m : Mb) (p : List Byte)
  /-- SET_MANAGING_HEAD (R379). Hands the managing role to another head. -/
  | setManagingHead (m : Mb) (p : List Byte)
  /-- SET_KEY_RANGE (R162). Creates, changes or deletes a key range. -/
  | setKeyRange (m : Mb) (p : List Byte)
  /-- GET_KEY_RANGE (R191). Returns a key range's attributes and state. -/
  | getKeyRange (m : Mb) (p : List Byte)
  /-- REKEY_RANGE (R185). Starts a re-key outing to a new epoch. -/
  | rekeyRange (m : Mb) (p : List Byte)
  /-- CRYPTO_ERASE (R187). Zeroizes a range's keys at once and starts its erase outing. -/
  | cryptoErase (m : Mb) (p : List Byte)
  /-- SET_TIER_GEOMETRY (R94). Commits tier geometry and placement policy. -/
  | setTierGeometry (m : Mb) (p : List Byte)
  /-- GET_CAPACITY (R61). Returns capacity, tier use and override counts. -/
  | getCapacity (m : Mb) (p : List Byte)
  /-- PLACE_HINT (R75). Sets an exclusion or hint on a page range. -/
  | placeHint (m : Mb) (p : List Byte)
  /-- PIN_PAGES (R76). Pins a page range to a tier. -/
  | pinPages (m : Mb) (p : List Byte)
  /-- UNPIN_PAGES (R75). Clears the pins of a page range. -/
  | unpinPages (m : Mb) (p : List Byte)
  /-- STAGE_PAGES (R95). Starts a stage outing that moves a page range into a tier. -/
  | stagePages (m : Mb) (p : List Byte)
  /-- GET_HEAT (R97). Returns heat, tier and flags per page. -/
  | getHeat (m : Mb) (p : List Byte)
  /-- SET_SLUICE (R244). Sets burst sizes, PIR, class weight or window exponent. -/
  | setSluice (m : Mb) (p : List Byte)
  /-- GET_SLUICE (R244). Returns a sluice's parameters and state. -/
  | getSluice (m : Mb) (p : List Byte)
  /-- SET_GUARANTEE (R235). Sets a master's CIRs and WRITE_FRACTION under admission. -/
  | setGuarantee (m : Mb) (p : List Byte)
  /-- GET_BW_COUNTERS (R243). Returns the last window's bandwidth counts. -/
  | getBwCounters (m : Mb) (p : List Byte)
  /-- GET_DELIVERABLE_FLOOR (R233). Returns the floor and its terms. -/
  | getDeliverableFloor (m : Mb) (p : List Byte)
  /-- SET_MASTER_ATTR (R236). Sets a master attribute or an agent's berth map. -/
  | setMasterAttr (m : Mb) (p : List Byte)
  /-- LIST_OUTINGS (R381). Lists outing records from an ID. -/
  | listOutings (m : Mb) (p : List Byte)
  /-- GET_OUTING (R383). Returns an outing's record. -/
  | getOuting (m : Mb) (p : List Byte)
  /-- PAUSE_OUTING (R385). Stops an outing from starting new units. -/
  | pauseOuting (m : Mb) (p : List Byte)
  /-- RESUME_OUTING (R385). Lets a paused outing start units again. -/
  | resumeOuting (m : Mb) (p : List Byte)
  /-- ABORT_OUTING (R385). Ends a stage outing as ABORTED. -/
  | abortOuting (m : Mb) (p : List Byte)
  /-- GET_FAULT_STATE (R457). Returns collector states. -/
  | getFaultState (m : Mb) (p : List Byte)
  /-- CLEAR_FAULT (R459). Returns collectors to NORMAL, clears recoveries or sets QUIET. -/
  | clearFault (m : Mb) (p : List Byte)
  /-- GET_HISTORY (R456). Returns a checker group's history queue. -/
  | getHistory (m : Mb) (p : List Byte)
  /-- SET_REACTION (R461). Sets the class of a range of event sources. -/
  | setReaction (m : Mb) (p : List Byte)
  /-- QUIET_TIMER_EXPIRE (R458). A collector quiet for QUIET returns to NORMAL and counts a recovery. -/
  | quietTimerExpire (coll : Nat)
  /-- COUNTER_OVERFLOW (R471). A counter passing 0xFF_FFFF reloads, sets its overflow bit, carries or arms a sample. -/
  | counterOverflow (n : Nat) (inc : Nat) (ev : PmcEvent)
  /-- SAMPLE_CAPTURE (R474). A later event of the same kind is captured as a sample record. -/
  | sampleCapture (n : Nat) (ev : PmcEvent)
  /-- SAMPLE_ABANDON (R474). A sample not captured within 64 events is abandoned. -/
  | sampleAbandon (n : Nat)
  /-- TEST_UNLOCK (R476). Returns a challenge, or verifies a signed reply and opens test scopes. -/
  | testUnlock (m : Mb) (p : List Byte)
  /-- NONCE_EXPIRE (R476). An unlock nonce lapses after 60 s. -/
  | nonceExpire 
  /-- UNLOCK_EXPIRE (R477). An unlock's DURATION ends, and perturbations and injections are cleared. -/
  | unlockExpire 
  /-- SET_PERTURB (R478). Writes or clears a perturbation entry, or relocks the scopes. -/
  | setPerturb (m : Mb) (p : List Byte)
  /-- PERTURB_EXPIRE (R478). A perturbation entry clears when its DURATION expires. -/
  | perturbExpire (entry : Nat)
  /-- INJECT (R482). Raises an imitation event, arms a check-bit inversion or cancels armed injections. -/
  | inject (m : Mb) (p : List Byte)
  /-- AUX_POWER_ON (R483). DOM_AON leaves power-on reset, samples the straps and fuses, and the boot ROM loads the active image. -/
  | auxPowerOn (straps : Straps) (flash : FlashImage)
  /-- MAIN_SEQUENCE_START (R485). VG3 good for 100 ms starts the main rail sequence. -/
  | mainSequenceStart 
  /-- RAIL_GOOD (R485). A rail has been good for 100 µs, and the next step starts after 1 ms. -/
  | railGood (step : Nat)
  /-- RAIL_TIMEOUT (R486). A rail not good in time ends the sequence and powers down in reverse. -/
  | railTimeout (step : Nat)
  /-- SEQUENCE_BACKOFF_END (R486). The back-off after a failed sequence ends, and the sequence starts again. -/
  | sequenceBackoffEnd 
  /-- KEEPER_START (R487). After SYS_PWROK and the DOM_KEEP SRAM clear, Keeper firmware is loaded, measured and started. -/
  | keeperStart 
  /-- BRINGUP_BATCH_DONE (R489). A batch of slots ends ON, LATCHED or FET_SHORT, and the next batch starts. -/
  | bringupBatchDone (drives : Bool) (spds : List SpdRead)
  /-- DRIVE_BRINGUP_TIMEOUT (R490). A drive still in bring-up 180 s after Keeper start is treated as failed. -/
  | driveBringupTimeout (drive : Nat)
  /-- GEOMETRY_COMMIT_DEFAULT (R495). Bring-up ending commits the default geometry and sets Memory_Active. -/
  | geometryCommitDefault 
  /-- SKREF_LOST (R509). A failure of the 156.25 MHz Stechaisk reference takes both Stechaisk ports to DOWN and raises SKREF_LOST. -/
  | skrefLost 
  /-- MGMTREF_LOST (R508). A failure of MREF_IN moves FSn_REFCLK and local elapsed time to the internal oscillator within 10 µs and raises MGMTREF_LOST. -/
  | mgmtrefLost 
  /-- MREF_IN_RESTORED (R508). MREF_IN present again for 100 ms qualifies the switch back from the internal oscillator at the next berth cycle boundary. -/
  | mrefInRestored 
  /-- PLL_UNLOCK (R467). A core or fabric PLL losing lock raises the FT event PLL_UNLOCK, which halts the device. -/
  | pllUnlock (pll : Nat)
  /-- AUX_POWER_LOSS (R409). VAUX_3V3 reaching its reset level makes DOM_AON's power-on reset act: all slot state is lost and only a cold reset returns the device. -/
  | auxPowerLoss 
  /-- LOCAL_TICK (R224). Each tick of local elapsed time refills every sluice's token buckets and increments counters counting EVENT 0x30. -/
  | localTick 
  /-- SENSOR_THRESHOLD_CROSSING (R436). A sensor sample crossing a threshold set through SetSensorThresholds raises a PLDM PlatformEventMessage to the board controller. -/
  | sensorThresholdCrossing (sensor : Nat) (reading : Int)
  /-- DYNAMIC_ADDRESS_ASSIGNMENT (R432). On an I3C sideband the bus owner assigns the lengthsman a dynamic address with SETDASA or ENTDAA. -/
  | dynamicAddressAssignment (addr : Nat) (entdaa : Bool)
  deriving DecidableEq, Repr

end Sys2Proof
end

