-- ==== Sys2Proof/Config.lean ====
section
/-! DEFINITION. What one device fixes, and the free values: constants without a body, so that no proof can lean on a value
the spec leaves open. Each is named in a log entry. -/

namespace Sys2Proof.Config

/-- PART of GLB_IDENT (00 R3). -/
def part : Nat := 0x9720

/-- REV_MAJOR and REV_MINOR of GLB_IDENT (00 R3). -/
def revision : Nat := 0xB0

/-- Tick of chain time: 2^24 per second (00 R8). -/
def second : Nat := 2 ^ 24

/-- A draw of the device's random number generator for a root key (06 R163); the argument numbers the draws (log 4). -/
opaque rootKey : Nat → BitVec 256

/-- A draw for BOOT_ID (13 R347; log 4). -/
opaque bootId : Nat → BitVec 32

/-- A draw for the unlock nonce (19 R476; log 4). -/
opaque nonce : Nat → BitVec 256

/-- The draw of 0 to 7 in a NAK back-off (07 R218; log 4). -/
opaque backoffDraw : Nat → BitVec 3

/-- The place at which the search for a free frame begins; the spec does not say which free frame is taken (log 5). -/
opaque frameChoice : Nat → Nat

/-- How many further requests reach the directory in the cycle of a dispatch; the spec gives no number (07 R202; log 66). -/
opaque cycleMates : Nat → Nat

/-- Which of the entries of a full map cache set that may be chosen is the victim; the spec does not say (03 R67; log 19). -/
opaque cacheVictim : Nat → Nat

/-- Which operation of each run of 2^DUTY eligible ones a perturbation acts on; the argument numbers the runs (19, SET_PERTURB;
log 18). -/
opaque dutyPick : Nat → Nat

/-- What an LZ77 parse is made of: a byte, or a copy of earlier bytes. -/
inductive Token where
  | lit (b : Byte)
  | copy (len dist : Nat)
  deriving DecidableEq, Repr

/-- The parse that codec microcode of a version chooses for some bytes after a window, distances up to a bound (05 R143; log 7). -/
opaque parse : Nat → Nat → List Byte → List Byte → List Token

/-- The block with dynamic codes that microcode of a version makes of a parse, last block or not (05 R136, R143; log 7). -/
opaque dynBlock : Nat → Bool → List Token → List Bool

/-- Verification of a signed unlock reply: key, nonce and scopes, the reply (19 R476; log 7). -/
opaque verifyUnlock : List Byte → List Byte → Bool

/-- What an SPDM or DOE response carries beyond what the manual states, by request code and argument (09 R261; log 7). -/
opaque spdmBody : Nat → Nat → Nat → List Byte

/-- Bytes of a standard CXL output that the manual leaves to CXL 3.1, by opcode (09 R257; log 8). -/
opaque cxlByte : Nat → Nat → Byte

/-- The running Keeper firmware can hand over to an image with this handover version (17 R444; log 9). -/
opaque handoverOk : Nat → Nat → Bool

/-- WSC of a job that a stream error of 05 R147 fails: the manual names none (log 23). -/
opaque streamWsc : Nat

/-- OSC_RUN, the clocks for which the DQS interval oscillator runs at a re-centring: the manual gives no number (10 R290;
log 24). -/
opaque oscRun : Nat

/-- The oscillator count that a device reset records anew for a device: draw, channel, register offset (20 R498; log 24). -/
opaque oscCount : Nat → Nat → Nat → BitVec 16

/-- The SHA-384 digest of measurement index i when its component has this version, first 16 bytes as a number (17 R449;
log 7). -/
opaque digest : Nat → Nat → BitVec 128

/-- The address masks that Keeper firmware chooses for a module organisation other than the standard one, by organisation and
select (10 R280). -/
opaque mapMask : Nat → Nat → Nat

/-- ROW_BITS for such an organisation (10 R280). -/
opaque rowBits : Nat → Nat

end Sys2Proof.Config
end

