-- ==== Sys2Proof/Machine/State.lean ====
section
/-! DEFINITION. The state of the DM9720: one structure of plain data for each chapter of the spec, put together in
`State`, and the state after reset. Sparse tables are lists of pairs; what an absent key means is said at the field. -/

namespace Sys2Proof.Machine

/-- Why a step stops. -/
inductive Fault where
  /-- The command names a unit the device does not have (head 9, slot 48, drive 16 ...). Raised by the meanings of rows
  that carry a unit number, through `onUnit`. Safe: no such command can reach the hardware. -/
  | noSuchUnit
  deriving DecidableEq, Repr

/-- Why the model gives a command no meaning. -/
inductive Refusal where
  /-- The row has no meaning in this model yet. Every row has one, so no arm of `exec` raises it; safe. -/
  | notModelled (mnemonic : String)
  deriving DecidableEq, Repr

/-- Completions without data to a host (07 R197, R200). -/
inductive NdrKind where
  | cmp
  | cmpS
  | cmpE
  | biConflictAck
  deriving DecidableEq, Repr

/-- Back-invalidate snoops to a host (07 R198). -/
inductive SnpKind where
  | inv
  | data
  | cur
  deriving DecidableEq, Repr

/-- Link control frames (12 R328). -/
inductive CtlFrame where
  | ack (seq : Nat)
  | nak (seq : Nat)
  | xon
  | xoff
  | credit (c0 c1 c2 c3 : Nat)
  | hello (version headroom port : Nat) (rxReady : Bool)
  | echoReq (time round : Nat)
  | echoRsp (time round turnaround : Nat)
  | accepted (seq : Nat) (valid : Bool)
  | creditAbs (c0 c1 c2 c3 : Nat)
  | ready
  | loopback (enter : Bool)
  | time (sec frac w rank master hops : Nat)
  deriving DecidableEq, Repr

/-- What leaves the device. The list in `State.tx` is the model's own record, newest first (log 6). -/
inductive Tx where
  | ndr (head line : Nat) (kind : NdrKind) (devLoad : Nat)
  | drs (head line : Nat) (data : Line) (poison : Bool) (devLoad : Nat)
  | biSnp (head line : Nat) (kind : SnpKind)
  | msix (head vector : Nat)
  | viral (head : Nat)
  | pmeToAck (head : Nat)
  | resetDone (head : Nat)
  | credits (head : Nat)
  | ctl (port : Nat) (c : CtlFrame)
  | frame (port : Nat) (f : Frame)
  | discovery (port : Nat) (opcode : Nat) (fields : List Nat)
  | nvme (drive cid opcode lba blocks : Nat)
  | reg (head addr value : Nat)
  | mctp (msgType : Nat) (data : List Byte)
  | pldmEvent (sensor : Nat) (reading : Int) (level : Nat)
  | doe (who : Nat) (code : Nat) (data : List Byte)
  | bootRestart
  | drop (what id : Nat)
  deriving DecidableEq, Repr

/-- What a request in flight asks for (07 R197, R211). -/
inductive ReqKind where
  | rd
  | rdData
  | inv
  | invNt
  | clnEvct
  | wr
  | wrPtl
  | rds
  | rda
  | rdcur
  | evict
  deriving DecidableEq, Repr

/-- Where a request in flight is (01 R11). -/
inductive ReqSt where
  /-- In a sluice (step 2). -/
  | sluice
  /-- In the pending queue (07 R207). -/
  | queued
  /-- Granted, waiting for snoops or an eviction record. -/
  | snoops
  /-- Waiting for the map walker (01 R15). -/
  | walk
  /-- A request waits for an earlier write of its line to enter the in-flight write table (01 R30; 07 R204). -/
  | order
  /-- A Tier H line read on channel `chan` (04 R104): step 1 the first copy, 2 the other copy, 3 and 4 the re-reads; channels
  whose own data failed; whether some trial could not be made. -/
  | line (chan step : Nat) (bad : List Nat) (missing : Bool)
  /-- Sectors of a warm or cold block: trial 0 the fetch, then the trials of R104 in order; whether some trial could not be
  made; whether the block's own data failed its check; whether a Whole verdict raises no event (11 R312, R314). -/
  | block (trial : Nat) (missing checked quiet : Bool)
  /-- A codec engine holds the block: engine, and whether a first decode failed (05 R142). -/
  | codec (engine : Nat) (again : Bool)
  /-- No engine in service (05 R135); the engine of a first decode failure (R142). -/
  | codecWait (first : Option Nat)
  /-- A write waits for the sideband of its line, read from one copy (01 R20 step 1): into the overlay or the frame; frame;
  channel read; whether the other copy has been tried. -/
  | sideband (overlay : Bool) (frame chan : Nat) (again : Bool)
  /-- A write issued to the channel queues: into the overlay or the frame; minor counter; frame (01 R20). -/
  | write (overlay : Bool) (minor frame : Nat)
  /-- A write waits: for an overlay (03 R80) or a re-encryption (06 R179). -/
  | waiting
  /-- On the chain, as the outstanding remote request of this tag (01 R28). -/
  | remote (tag : Nat)
  /-- A tandem write accepted locally waits for the buddy (04 R127). -/
  | tandem
  deriving DecidableEq, Repr

/-- A request in flight. `head` is 0-7, or 8 and 9 for requests that came over SK0 and SK1, whose origin, tag and write tag
follow; 13 for a line of a map page that the map walker reads (01 R15), 14 for a line the device itself writes, 15 for a line
that scrub reads (10 R297). -/
structure Req where
  id : Nat
  kind : ReqKind
  mv : MetaVal
  head : Nat
  cls : Nat
  line : Nat
  data : Line := 0
  mask : BitVec 64 := BitVec.allOnes 64
  poison : Bool := false
  src : Nat := 0
  tag : Nat := 0
  wtag : Nat := 0
  priority : Bool := false
  st : ReqSt := .sluice
  /-- The completion it gets, and the GRANT of a chain request (07 R197, R215). -/
  resp : NdrKind := .cmp
  grant : Nat := 0
  /-- Served by the directory, so that its completion carries a state. -/
  ordered : Bool := false
  /-- Location its media read is from, for the drain count (03 R85): tier and location. -/
  src_ : Option (Nat × Nat) := none
  /-- The head was reset: its response is discarded (07 R209). -/
  dead : Bool := false
  /-- It arrived while the line's page was marked; the drive command that reads it (11). -/
  cid : Option (Nat × Nat) := none
  /-- The Read of its raw block's tag sector is out; how the block's own Read ended, or that the tag's failed, while one of
  them is still awaited (05 R139; 11 R307). -/
  tagOut : Bool := false
  early : Option ReadOutcome := none
  /-- The engine of a first decode failure (05 R142). -/
  failed : Option Nat := none
  /-- It passed decode before a crypto-erase of its range: it completes under the old keys (06 R187). -/
  erased : Bool := false
  /-- Its head was served with HDM-DB semantics when the request reached decode (09 R249). -/
  db : Bool := false
  /-- Local elapsed time of its arrival at the port (19, latency buckets). -/
  since : Nat := 0
  deriving DecidableEq, Repr

/-- An entry of the in-flight write table (01 R21): line, minor counter, copies that have not reached the DRAM devices, as
channels. -/
structure IfwtEnt where
  line : Nat
  minor : Nat
  chans : List Nat
  deriving DecidableEq, Repr

/-- Requests in flight and the in-flight write table (01_request_path.md). -/
structure ReqState where
  reqs : List Req := []
  next : Nat := 0
  /-- The in-flight write table (01 R21): at most 4,096 entries. -/
  ifwt : List IfwtEnt := []
  /-- Corrected lines that wait for room in the table: line, channel (04 R105). -/
  fixes : List (Nat × Nat) := []
  deriving DecidableEq, Repr

/-- One event as R454 records it. -/
structure EventRec where
  eseq : Nat
  source : Nat
  cls : Nat
  injected : Bool
  kind : Nat
  head : Nat
  time : Nat
  contents : List Byte
  deriving DecidableEq, Repr

/-- An entry of a history queue (18 R456). -/
structure HistEntry where
  eseq : Nat
  source : Nat
  cls : Nat
  injected : Bool
  kind : Nat
  head : Nat
  count : Nat
  stamp : Nat
  /-- Start of the regulation window of its first event, which decides merging. -/
  window : Nat
  deriving DecidableEq, Repr

/-- A checker group's history (18 R456): at most 8 entries, newest first. -/
structure Group where
  entries : List HistEntry := []
  count : Nat := 0
  newest : Nat := 0
  deriving DecidableEq, Repr

/-- A collector (18 R457-R459). -/
structure Collector where
  fault : Bool := false
  overflow : Bool := false
  first : Nat := 0
  firstClass : Nat := 0
  firstEseq : Nat := 0
  firstTime : Nat := 0
  events : Nat := 0
  worst : Nat := 0
  recoveries : Nat := 0
  quiet : Nat := 24
  pend : BitVec 32 := 0
  /-- Local time at which the quiet timer last restarted. -/
  since : Nat := 0
  haltCause : Bool := false
  deriving DecidableEq, Repr

/-- Fault collection (18_faults.md). -/
structure FaultState where
  eseq : Nat := 0
  /-- Sources whose class differs from their default (18 R461). -/
  react : List (Nat × Nat) := []
  groups : List Group := List.replicate 79 {}
  colls : List Collector := List.replicate 48 {}
  /-- Sources whose first CE event of this berth cycle has been delivered (18 R462). -/
  ceSeen : List Nat := []
  /-- Events of class CE since cold reset (Get Health Info, 09 R259). -/
  ceCount : Nat := 0
  halted : Bool := false
  haltSource : Nat := 0
  haltTime : Nat := 0
  /-- Local elapsed time of the halt: quiet timers stand still from it (18 R460). -/
  haltElapsed : Nat := 0
  deriving DecidableEq, Repr

/-- Chain time and local elapsed time (02_chain_time.md). -/
structure TimeState where
  /-- Chain time, 64 bits, ticks of 2^-24 s (02 R36, R8). -/
  chain : Nat := 0
  /-- Local elapsed time, never set, stepped or slewed (02). -/
  elapsed : Nat := 0
  /-- Per-head latches of CTB_NOW_HI and CTB_LOCAL_HI (02 R58). -/
  nowHi : List Nat := List.replicate 8 0
  localHi : List Nat := List.replicate 8 0
  /-- SRC_EN: TREF, chain and host sources enabled (02 R41). -/
  enTref : Bool := true
  enChain : Bool := true
  enHost : Bool := true
  /-- TREF is held: valid edges arrive (rank 3) (02 R37). -/
  trefHeld : Bool := false
  /-- Local time at which TREF was lost; holdover lasts 2^30 ticks from it (02 R36 table, R41). -/
  lostAt : Option Nat := none
  /-- Chain time has been set by a host since the last cold reset (02 table of ranks). -/
  hostSet : Bool := false
  /-- The next edge is the first after chain time was set or stepped, or after a cold reset or brownout (02 R37). -/
  firstEdge : Bool := true
  /-- Local time of the last valid edge, and the consecutive expected edges missed when TREF was last lost (02 R36, R37). -/
  lastEdge : Nat := 0
  missed : Nat := 0
  /-- The last tick moved chain time by two, slewing (02 R45, R51). -/
  jumped : Bool := false
  /-- Local times of the last host setting of a master at rank 1, of the last valid edge that may hold off a frame, and of the last
  frame that made a master at rank 1 a follower: what falls in one tick counts as one cycle (02 R48). -/
  hostAt : Option Nat := none
  edgeAt : Option Nat := none
  yieldAt : Option Nat := none
  /-- Edges outside the window of R37, and whether one fell in this berth cycle (event TREF_OUTSIDE). -/
  outside : Nat := 0
  outsideInCycle : Bool := false
  /-- Signed ticks to remove by slewing over 2^14 ticks, and the ticks of it left (02 R45). -/
  slew : Int := 0
  slewLeft : Nat := 0
  /-- Following a master: port, hop count, master's chain ID and rank, local time of the last frame (02 R44, R46). -/
  following : Bool := false
  upstream : Nat := 0
  hops : Nat := 0
  masterId : Nat := 0xFFF
  masterRank : Nat := 0
  lastFrame : Nat := 0
  /-- Sending own TIME frames as master (02 R42, R43). -/
  master : Bool := false
  /-- A frame waits to be forwarded at the next multiple of 2^14 ticks (02 R44). -/
  forward : Bool := false
  /-- CTB_OFFSET and CTB_HOSTOFS, signed 24 bits, saturating. -/
  offset : Int := 0
  hostOfs : Int := 0
  /-- Regulation window exponent in force and next (02 R51). -/
  w : Nat := 10
  wNext : Nat := 10
  /-- Coordinated berth mask and the seven berth maps (02 R50, R53). -/
  coord : BitVec 64 := 0x00FF000000000000
  berth : List (BitVec 64) := [0xFFFFFFFFFFFFFFFF, 0xFFFFFFFFFFFFFFFF, 0xFFFFFFFFFFFFFFFF, 0xFFFFFFFFFFFFFFFF,
    0xAAAAAAAAAAAAAAAA, 0x0000000100000001, 0x8000800080008000]
  /-- Whether the device is untimed (02 R49). -/
  untimed : Bool := true
  /-- Chain times of the last window and berth boundaries run, and local times of the last drift and decay runs (02 R52,
  R55); none before the first. -/
  lastWindow : Nat := 0
  lastBerth : Nat := 0
  lastDrift : Option Nat := none
  lastDecay : Option Nat := none
  lastCycle : Nat := 0
  deriving DecidableEq, Repr

/-- Placement thresholds (03, table of thresholds; R93, R94). -/
structure Policy where
  promoteW : Nat := 24
  promoteC : Nat := 8
  demoteH : Nat := 4
  demoteW : Nat := 2
  hotHigh : Nat := 90
  hotLow : Nat := 80
  warmHigh : Nat := 90
  warmLow : Nat := 80
  ovlSoft : Nat := 4
  /-- In 0.1 % of the floor. -/
  dredgeBoost : Nat := 50
  thresh : Nat := 65536
  deriving DecidableEq, Repr

/-- The committed geometry (03 R59-R61): shares, stripe, populated channels below 8, committed drives, capacities in
bytes. -/
structure Geometry where
  hotShare : Nat := 25
  coldK : Nat := 12
  coldM : Nat := 4
  low : List Nat := []
  drives : List Nat := []
  /-- LBAs of the cold region of every drive (11 R304). -/
  lMin : Nat := 0
  offeredGib : Nat := 0
  uHot : Nat := 0
  uWarm : Nat := 0
  uCold : Nat := 0
  hotFrames : Nat := 0
  warmBarges : Nat := 0
  coldBarges : Nat := 0
  deriving DecidableEq, Repr

/-- An overlay (03 R66, R78): its Tier H frame, line-valid mask, age order, and whether it was written in this berth cycle;
`queued` for merging. -/
structure Overlay where
  frame : Nat
  mask : BitVec 64
  seq : Nat
  written : Bool
  queued : Bool := false
  deriving DecidableEq, Repr

/-- What a codec engine made of a page (05 R136-R143): SIZE, both sector counts, whether dynamic codes were used, the engine, and
the stream; a raw block has none. -/
structure BlockMade where
  size : Nat
  sFix : Nat
  sDyn : Nat
  dynamic : Bool
  engine : Nat
  stream : List Byte
  deriving DecidableEq, Repr

/-- A block as it is stored (05 R136-R139; 06 R171, R172): the fields of its header, the extent of a Tier C block as barge and
generation, and its MAC or raw tag. -/
structure BlockSeal where
  made : BlockMade
  major : Nat
  epoch : Nat
  bypass : Bool
  barge : Nat
  gen : Nat
  tag : BitVec 128
  deriving DecidableEq, Repr

/-- A level-0 map entry (03 R65, R66), with the overlay's descriptor beside it. An unlisted page is a zero page without an
overlay. PIN is held in `MapState.pins`, MOVING is the page's lock. -/
structure PageEnt where
  tier : Nat := 0
  loc : Nat := 0
  size : Nat := 0
  start : Nat := 0
  heat : Nat := 0
  zero : Bool := true
  overlay : Option Overlay := none
  loss : Bool := false
  queued : Bool := false
  /-- The heat sample that queued it reached PROMOTE_W (03 R72). -/
  hot : Bool := false
  major : Nat := 0
  /-- The page's epoch; EPOCH_LO is its low byte (06 R166). -/
  epoch : Nat := 0
  /-- What stands in the barge for the page (05 R136). -/
  block : Option BlockSeal := none
  deriving DecidableEq, Repr

/-- Pages with a PIN value (03 R75). -/
structure PinSpan where
  start : Nat
  count : Nat
  value : Nat
  deriving DecidableEq, Repr

/-- A page lock (03 R85; 06 R176, R178). -/
structure Lock where
  page : Nat
  kind : MoveKind
  /-- Target tier. -/
  tier : Nat
  /-- Outing it belongs to, 0 none. -/
  outing : Nat
  snap : BitVec 64
  wm : BitVec 64
  tEpoch : Nat
  tMajor : Nat
  reserved : Bool := false
  /-- What a codec engine made of the page. -/
  block : Option BlockMade := none
  /-- The mover has begun to read its source: no in-flight write of the page was left (03 R87). -/
  reading : Bool := false
  /-- The overlay was taken for the move, and the lines that the mover has written into it (03 R88). -/
  filled : Bool := false
  done : BitVec 64 := 0
  /-- Remaining traffic moves to port P1 (06 R179). -/
  urgent : Bool := false
  deriving DecidableEq, Repr

/-- A location that becomes free when no read from it is in flight (03 R89). -/
structure OldLoc where
  tier : Nat
  loc : Nat
  size : Nat
  /-- The page whose lock is held until then, and whether that is a reserved one (03 R85). -/
  lock : Option (Nat × Bool) := none
  deriving DecidableEq, Repr

/-- Line sideband as the last write of the line left it (06 R169): minor counter, poison, bypass, first 7 bytes of the tag. -/
structure LineSide where
  minor : Nat
  poison : Bool
  bypass : Bool
  mac : BitVec 56
  deriving DecidableEq, Repr

/-- The page map and the tier engine (03_tiers_and_placement.md). -/
structure MapState where
  geo : Geometry := {}
  pol : Policy := {}
  /-- Policy fields set and not yet in force: they take effect at the next berth (03 R94). -/
  polNext : Option Policy := none
  pages : List (Nat × PageEnt) := []
  pins : List PinSpan := []
  locks : List Lock := []
  old : List OldLoc := []
  /-- Sidebands: key 2 × line, plus 1 for the overlay's copy; an unlisted line has minor counter 0 (06 R177). -/
  side : List (Nat × LineSide) := []
  ovlSeq : Nat := 0
  /-- Map cache: pages held, oldest first, with the mark of R70. -/
  cache : List (Nat × Bool) := []
  /-- Decay stamps of map pages that have one, and the walk cache (03 R68, R70). -/
  stamps : List (Nat × Nat) := []
  walk : List Nat := []
  /-- Host requests numbered (03 R69): number of the last. -/
  heatSeq : Nat := 0
  /-- Override counts of this berth cycle and of the previous one, and the loops whose ADVISORY was raised (03 R92). -/
  overrides : List Nat := [0, 0, 0, 0, 0, 0]
  overridePrev : List Nat := [0, 0, 0, 0, 0, 0]
  advised : List Nat := []
  /-- Free space of Tier W, Tier C is below 5 % (03 R81). -/
  urgentW : Bool := false
  urgentC : Bool := false
  /-- Writes wait at the hard overlay limit (03 R80). -/
  ovlFull : Bool := false
  /-- Where migration's scans of Tier H and Tier W continue (03 R73). -/
  scanH : Nat := 0
  scanW : Nat := 0
  deriving DecidableEq, Repr

/-- Health of a DIMM or drive, with the codes of R98. -/
inductive Health where
  | healthy
  | lost
  | held
  | refill
  | absent
  | untrusted
  deriving DecidableEq, Repr

/-- A unit: the DIMM of slot 0-31 or the drive of slot 32-47 (04 R98-R126). -/
structure UnitSt where
  health : Health := .absent
  fenced : Bool := false
  /-- Cause of the fence, coded under R515. -/
  cause : Nat := 0
  /-- Reads charged in this regulation window (04 R99). -/
  charged : Nat := 0
  /-- Refill watermarks: frames and warm barges, or chunks of a drive (04 R122). -/
  hotMark : Nat := 0
  warmMark : Nat := 0
  /-- Frames written on the partner alone while HELD (04 R123). -/
  catchUp : List Nat := []
  /-- What the SPD of the module said (10 R269, R270). -/
  spd : SpdRead := ⟨0, false, false, 0, 0, 0, 0, 0, 0⟩
  deriving DecidableEq, Repr

/-- A loss-list entry (04 R118). -/
structure LossEntry where
  seq : Nat
  cause : Nat
  tier : Nat
  map : Bool
  unit : Nat
  page : Nat
  mask : BitVec 64
  time : Nat
  deriving DecidableEq, Repr

/-- An open replacement (04 R123-R126): slot, local time at which GRACE ends, whether END_REPLACE is under way, whether
GRACE has expired, and the module replaced. -/
structure Replacement where
  slot : Nat
  grace : Nat
  reprotect : Bool
  ending : Bool := false
  expired : Bool := false
  /-- The new DIMM has been trained: its refill starts when the HELD partner is back (steps 8-10). -/
  trained : Bool := false
  spd : SpdRead
  deriving DecidableEq, Repr

/-- A warm barge (04 R102): member mask, whether it is live (written whole) or being written, and the blocks written in it that
have not been committed (04 R110). -/
structure WarmBarge where
  members : BitVec 16
  live : Bool
  blocks : List BlockPut := []
  deriving DecidableEq, Repr

/-- A cold barge (04 R103): chunks absent when it was written, generation, liveness, retired (06 R172), and the blocks written in
it that have not been committed. -/
structure ColdBarge where
  absent : List Nat
  gen : Nat
  live : Bool
  retired : Bool := false
  blocks : List BlockPut := []
  deriving DecidableEq, Repr

/-- A tandem range (04 R127, R128; 13 R366-R368). -/
structure TandemRange where
  range : Nat
  buddy : Nat
  homeBase : Nat
  bootId : Nat
  solo : Bool
  resyncing : Bool
  /-- Pages marked in the resync bitmap. -/
  marked : List Nat
  deriving DecidableEq, Repr

/-- Durability (04_durability.md). -/
structure DurState where
  units : List UnitSt := List.replicate 48 {}
  loss : List LossEntry := []
  lossSeq : Nat := 0
  /-- Lost lines that no entry of their own stands for: those of a MAP entry's pages, and those lost while the list was full
  (04 R117-R119). -/
  lines : List (Nat × BitVec 64) := []
  overflow : Bool := false
  repl : List Replacement := []
  warm : List (Nat × WarmBarge) := []
  cold : List (Nat × ColdBarge) := []
  tandem : List TandemRange := []
  /-- Barges queued for dredging whatever their live fraction: tier, barge (10 R298; 11 R309). -/
  dredge : List (Nat × Nat) := []
  /-- Open injected-poison entries are counted from the loss list (09 R260). Lines a host wrote poisoned (04 R120). -/
  hostPoison : List Nat := []
  deriving DecidableEq, Repr

/-- States of a codec engine (05 R132). -/
inductive EngSt where
  | off
  | inService
  | suspect
  | testing
  | failed
  deriving DecidableEq, Repr

/-- An in-line item (05 R129): decompression for request `id`, or compression of page `id`; `first` is the engine of a first
decode failure (05 R142). -/
structure Item where
  dec : Bool
  id : Nat
  page : Nat
  first : Option Nat
  deriving DecidableEq, Repr

/-- A codec engine (05 R129-R134): its queues, and the item under way. -/
structure Engine where
  st : EngSt := .off
  /-- Verification mismatches and charged decode failures of this berth cycle. -/
  fails : Nat := 0
  dec : List Item := []
  comp : List Item := []
  now : Option Item := none
  /-- Job whose segment runs. -/
  seg : Option Nat := none
  /-- Held pages, most recently used first: page, tier, location (05 R131). -/
  slots : List (Nat × Nat × Nat) := []
  /-- Local time before which a stalled item or segment does not end (19, CODEC_STALL). -/
  stallEnds : Nat := 0
  deriving DecidableEq, Repr

/-- States of a job, with the codes of GET_JOB (05). -/
inductive JobSt where
  | queued
  | running
  | resumable
  | done
  | noshrink
  | failed
  | cancelled
  deriving DecidableEq, Repr

/-- A bulk job (05 R146-R156). -/
structure Job where
  id : Nat
  issuer : Nat
  func : Nat
  cls : Nat
  notify : Bool
  srcAddr : Nat
  srcLen : Nat
  dstAddr : Nat
  dstLen : Nat
  p0 : Nat
  p1 : Nat
  tag : Nat
  st : JobSt := .queued
  engine : Nat := 0xFF
  wsc : Nat := 0
  used : Nat := 0
  outTotal : Nat := 0
  outSeg : Nat := 0
  result : Nat := 0
  time : Nat := 0
  /-- Local time it stopped for good (05 R154). -/
  stopped : Nat := 0
  /-- CANCEL_JOB waits for the segment's end, with the mailbox to answer (05 R153). -/
  cancel : Option Mb := none
  /-- A key range it touches was reconfigured or erased (05 R150). -/
  denied : Bool := false
  /-- The stream state (05 R151): the window, source bytes read of a stream to decode, bits and bytes of output not yet written, the
  running check sum, the history of R146, whether the header is out, and whether the stream is complete. -/
  win : List Byte := []
  inp : List Byte := []
  bits : List Bool := []
  pend : List Byte := []
  sum : Nat := 0
  gain : Int := 0
  opened : Bool := false
  ended : Bool := false
  deriving DecidableEq, Repr

/-- A notification (05 R156): job, state and chain time. -/
structure Notice where
  job : Nat
  st : JobSt
  time : Nat
  deriving DecidableEq, Repr

/-- Codec engines and bulk jobs (05_compression.md). -/
structure CodecState where
  engines : List Engine := List.replicate 32 {}
  jobs : List Job := []
  nextJob : Nat := 0
  notes : List (List Notice) := List.replicate 8 []
  notesLost : List Bool := List.replicate 8 false
  /-- Lines of imports read for the next segments of jobs: line, data, poison (05 R149). -/
  fetched : List (Nat × Line × Bool) := []
  /-- CODEC_UNAVAILABLE has been raised for the present state (05 R135). -/
  unavailable : Bool := false
  deriving DecidableEq, Repr

/-- A key range (06 R161-R187). -/
structure KeyRange where
  valid : Bool := false
  bypass : Bool := false
  priv : Bool := false
  codecStatic : Bool := false
  mask : BitVec 8 := 0
  baseGib : Nat := 0
  sizeGib : Nat := 0
  /-- Root key of the newest key; all zero when zeroized. -/
  root : BitVec 256 := 0
  keyed : Bool := false
  epoch : Nat := 0
  live : Nat := 1
  useNew : Nat := 0
  useOld : Nat := 0
  /-- Open re-key outing, open erase outing. -/
  rekey : Option Nat := none
  erase : Option Nat := none
  /-- The spans being erased, first page and end, rising and apart, and the watermark (06 R187, R162); pages at or above the
  watermark that a write has cleared since the erase was accepted. -/
  eraseSpans : List (Nat × Nat) := []
  eraseFresh : List Nat := []
  watermark : Nat := 0
  /-- The range was deleted and is still being erased (06 R162). -/
  deleted : Bool := false
  lateRaised : Bool := false
  /-- Codec history (05 R143). -/
  histP : Nat := 0
  histG : Int := 0
  deriving DecidableEq, Repr

/-- Key ranges and the device range (06_encryption.md). -/
structure KeyState where
  ranges : List KeyRange := List.replicate 16 {}
  /-- The device range: root key, epoch (06 R164). -/
  device : KeyRange := {}
  /-- Reserve counter table: MAJOR and EPOCH_LO by reserve frame (06 R168). -/
  reserve : List (Nat × Nat × Nat) := []
  /-- Pages whose re-encryption has been started or waits for a lock (06 R178). -/
  reenc : List Nat := []
  /-- A Sanitize is under way (06 R188); its outing. -/
  sanitize : Option Nat := none
  deriving DecidableEq, Repr

/-- STATE of a directory entry (07 R194, R195). -/
inductive DirSt where
  | invalid
  | shared
  | any
  deriving DecidableEq, Repr

/-- A directory entry with its chain presence record (07 R194, R195, R214). An unlisted line is held by nobody. -/
structure DirEnt where
  st : DirSt := .invalid
  pres : BitVec 8 := 0
  /-- Chain IDs of the other devices that hold the line; CHAIN is set while it is not empty. In a grouped vector
  (R214) a bit stands for its whole group, which `chainSend` snoops. -/
  chain : List Nat := []
  busy : Bool := false
  /-- Directory cycle of the last use, from which AGE follows. -/
  used : Nat := 0
  deriving DecidableEq, Repr

/-- An open transaction: the request and what it leaves (07 R197, R215). -/
structure Txn where
  line : Nat
  rid : Nat
  st : DirSt
  /-- Heads to be present afterwards beside the holders that keep a copy. -/
  pres : BitVec 8
  chain : List Nat
  /-- Holders that answered with a copy they keep. -/
  kept : BitVec 8 := 0
  keptDev : List Nat := []
  /-- An SFWD was sent: the owner answers the requester (07 R216). -/
  forwarded : Bool := false
  /-- Line of the eviction record whose snoops the request waits for (07 R205). -/
  evict : Option Nat := none
  /-- The media access or response has been started. -/
  started : Bool := false
  deriving DecidableEq, Repr

/-- An unanswered BISnp (07 R210): local time it was sent; `evict` for an eviction record. -/
structure SnoopOut where
  head : Nat
  line : Nat
  kind : SnpKind
  since : Nat
  evict : Bool
  deriving DecidableEq, Repr

/-- An unanswered chain snoop (07 R221): opcode 0x10-0x13; for SFWD the requester, its tag and the GRANT. -/
structure ChainSnoop where
  dev : Nat
  line : Nat
  opcode : Nat
  since : Nat
  evict : Bool
  reqId : Nat := 0
  reqTag : Nat := 0
  grant : Nat := 0
  deriving DecidableEq, Repr

/-- A waiting host request (07 R207): on its line, or on the set-wait list; whose reserved entry it holds, if any. -/
structure PqEnt where
  rid : Nat
  line : Nat
  setWait : Bool
  reserved : Option Nat
  deriving DecidableEq, Repr

/-- A reservation (07 R219): line, requester's chain ID and tag; local time at which the 2^8 ticks end, once the line has
come free. -/
structure Reservation where
  line : Nat
  src : Nat
  tag : Nat
  ends : Option Nat
  deriving DecidableEq, Repr

/-- The directory (07_coherence.md). -/
structure DirState where
  ents : List (Nat × DirEnt) := []
  /-- The rotating pointer (07 R202) and the directory cycle. -/
  ptr : Nat := 0
  cycle : Nat := 0
  txns : List Txn := []
  snoops : List SnoopOut := []
  chSnoops : List ChainSnoop := []
  /-- Lines in eviction records (07 R205). -/
  evict : List Nat := []
  pq : List PqEnt := []
  resv : List Reservation := []
  /-- PENDING_SHARED_FULL may be raised: an entry came free since, and none in this window (07 R207). -/
  fullFree : Bool := true
  fullWindow : Bool := false
  /-- Heads and lines whose BIConflictAck follows a completion: head, line (07 R200). -/
  conflicts : List (Nat × Nat) := []
  deriving DecidableEq, Repr

/-- Colours of a request at the front of a sluice (08 R225). -/
inductive Colour where
  | green
  | yellow
  | red
  deriving DecidableEq, Repr

/-- A sluice's parameters (08 R244): burst sizes in units of 64 bytes, rates in MB/s. -/
structure SlPar where
  cbs : Nat := 0x100
  pir : Nat := 0xFFFFFF
  pbs : Nat := 0x4000
  cir : Nat := 0
  deriving DecidableEq, Repr

/-- What SET_SLUICE, SET_GUARANTEE and SET_MASTER_ATTR set; it takes effect at a boundary (08 R240). -/
structure SlConfig where
  par : List SlPar := List.replicate 128 {}
  weights : List Nat := List.replicate 8 1
  hp : List Bool := List.replicate 16 false
  defClass : List Nat := List.replicate 16 0
  berth : List (BitVec 64) := [0xFFFFFFFFFFFFFFFF, 0xFFFFFFFFFFFFFFFF, 0xFFFFFFFFFFFFFFFF, 0xFFFFFFFFFFFFFFFF,
    0xAAAAAAAAAAAAAAAA, 0x0000000100000001, 0x8000800080008000]
  rebuildRate : Nat := 150000
  coldRate : Nat := 4000
  rekeyFloor : Nat := 20000
  bulk : BitVec 32 := 0x03030303
  snoopLimit : List Nat := List.replicate 8 17
  scrubPeriod : Nat := 24
  writeFraction : Nat := 25
  deriving DecidableEq, Repr

/-- An entry of a sluice queue: the request, its charge in bytes, its line. -/
structure QEnt where
  rid : Nat
  charge : Nat
  line : Nat
  deriving DecidableEq, Repr

/-- A sluice: tokens in units of 2^-16 byte, queue, front, tags and counts (08 R224-R230, R243). -/
structure Sluice where
  tc : Nat := 0x100 * 64 * 65536
  tp : Int := 0x4000 * 64 * 65536
  queue : List QEnt := []
  colour : Option Colour := none
  /-- The scheduler tier in which the queue was last backlogged: 0 high-priority, 1 guaranteed, 2 shared. -/
  tier : Option Nat := none
  sTag : List Nat := [0, 0, 0]
  fTag : List Nat := [0, 0, 0]
  green : Nat := 0
  yellow : Nat := 0
  red : Nat := 0
  disp : Nat := 0
  deriving DecidableEq, Repr

/-- The BWC_ registers of the last completed window (08 R243). -/
structure BwcSnap where
  seq : Nat := 0
  start : Nat := 0
  floor : Nat := 0
  factor : Nat := 0x800000
  shortRun : Nat := 0
  admitted : Nat := 0xEA60
  budget : Nat := 0
  hp : Nat := 0
  status : Nat := 0
  dramp : List Nat := [0, 0, 0, 0]
  counts : List (Nat × Nat × Nat × Nat) := List.replicate 128 (0, 0, 0, 0)
  deriving DecidableEq, Repr

/-- Sluices and scheduler (08_sluices.md). -/
structure SluiceState where
  cfg : SlConfig := {}
  next : SlConfig := {}
  sl : List Sluice := List.replicate 128 {}
  /-- Virtual time of each scheduler tier (08 R230). -/
  v : List Nat := [0, 0, 0]
  /-- Requests that may not enter their sluice yet (08 R227, R228), oldest first: sluice, entry. -/
  waiting : List (Nat × QEnt) := []
  /-- Bytes dispatched in the window against the budget, and to high-priority masters other than M12 (08 R231, R237). -/
  used : Nat := 0
  budget : Nat := 0
  hpBytes : Nat := 0
  dramp : List Nat := [0, 0, 0, 0]
  /-- F in force; none before the first (08 R234). -/
  floor : Option Nat := none
  /-- f of the window as a fraction (08 R237). -/
  fNum : Nat := 1
  fDen : Nat := 1
  shortRun : Nat := 0
  shortfall : Bool := false
  /-- Windows in the shortfall and the lowest f x 2^23 in it (event SHORTFALL_CLEAR). -/
  shortWindows : Nat := 0
  lowest : Nat := 0x800000
  boost : Nat := 0
  rebuildExcl : Bool := false
  /-- The shared tier is held since a brace or throttle, until the boundary after it (08 R232). -/
  sharedHold : Bool := false
  braced : Bool := false
  windowStart : Nat := 0
  seq : Nat := 0
  snap : BwcSnap := {}
  /-- Masters whose SLUICE_FULL was raised in this window (08 R227). -/
  fullRaised : List Nat := []
  deriving DecidableEq, Repr

/-- An HDM decoder of a head (09 R252, R253). -/
structure Decoder where
  base : Nat := 0
  size : Nat := 0
  iw : Nat := 1
  ig : Nat := 256
  pos : Nat := 0
  skip : Nat := 0
  lock : Bool := false
  committed : Bool := false
  notCommitted : Bool := false
  alias2 : Nat := 0
  deriving DecidableEq, Repr

/-- One of a head's four event logs (18 R465). -/
structure EventLog where
  records : List EventRec := []
  overflow : Bool := false
  lost : Nat := 0
  firstLost : Nat := 0
  lastLost : Nat := 0
  deriving DecidableEq, Repr

/-- CXL return codes that the manual names (14 R389, 09 R257). -/
inductive Rc where
  | success
  | backgroundStarted
  | invalidInput
  | unsupported
  | retryRequired
  | busy
  | mediaDisabled
  | fwTransferInProgress
  | fwTransferOutOfOrder
  | fwVerificationFailed
  | activationRolledBack
  | activationColdReset
  | invalidHandle
  | invalidPhysicalAddress
  | injectPoisonLimit
  | invalidSecurityState
  | invalidPayloadLength
  | invalidLog
  deriving DecidableEq, Repr

/-- A mailbox (14 R371, R372; 09 R256). -/
structure Mailbox where
  opcode : Nat := 0
  rc : Rc := .success
  wsc : Nat := 0
  out : List Byte := []
  /-- Doorbell interrupt and background complete interrupt enables (18 R466). -/
  irq : Bool := false
  bgIrq : Bool := false
  deriving DecidableEq, Repr

/-- What a background command does when its start phase ends (14 R374). -/
inductive BgOp where
  | rekey (range outing : Nat)
  | erase (range outing : Nat)
  | discover
  | endReplace (slot : Nat)
  | sanitize (outing : Nat)
  | activate
  deriving DecidableEq, Repr

/-- A head's or the sideband's background command (14 R374). -/
structure BgSlot where
  opcode : Nat := 0
  busy : Bool := false
  percent : Nat := 0
  rc : Rc := .success
  wsc : Nat := 0
  sec : Bool := false
  op : Option BgOp := none
  /-- The start phase's own work has ended with this result (return code, WSC, output). -/
  result : Option (Rc × Nat × List Byte) := none
  /-- A reset of the head discards the result (09 R265). -/
  discard : Bool := false
  deriving DecidableEq, Repr

/-- An SPDM responder session (09 R261; 17 R449). -/
structure SpdmSession where
  id : Nat
  open_ : Bool
  deriving DecidableEq, Repr

/-- The SPDM connection of a head, or of the sideband (who = 8). -/
structure SpdmState where
  version : Bool := false
  caps : Bool := false
  algs : Bool := false
  sessions : List SpdmSession := []
  deriving DecidableEq, Repr

/-- An IDE stream of a head (06 R190): its number and kind, containment or skid mode, keys programmed, secure. -/
structure IdeStream where
  stream : Nat
  kind : IdeKind
  skid : Bool
  keyed : Bool
  secure : Bool
  deriving DecidableEq, Repr

/-- The alert thresholds of Set Alert Config (09 R257, R259). -/
structure AlertConfig where
  valid : Nat := 0
  lifeUsed : Nat := 0
  overTemp : Nat := 0
  underTemp : Nat := 0
  volErr : Nat := 0
  persErr : Nat := 0
  deriving DecidableEq, Repr

/-- One head (09_host_ports.md). -/
structure Head where
  present : Bool := false
  up : Bool := false
  width : Nat := 0
  rate : Nat := 0
  biEnable : Bool := false
  biId : Bool := false
  d3 : Bool := false
  decoders : List Decoder := List.replicate 8 {}
  mb0 : Mailbox := {}
  mb1 : Mailbox := {}
  bg : BgSlot := {}
  limit : Nat := 65536
  logs : List EventLog := List.replicate 4 {}
  /-- Event logs for which Set Event Interrupt Policy selects MSI-X. -/
  policy : List Bool := [false, false, false, false]
  /-- MSI-X vector masks and pending bits. -/
  mask : BitVec 64 := BitVec.allOnes 64
  msiPend : BitVec 64 := 0
  spdm : SpdmState := {}
  ide : List IdeStream := []
  memActive : Bool := false
  viral : Bool := false
  /-- PME_Turn_Off was answered; the next link fall is L2/L3 entry (09 R250). -/
  pme : Bool := false
  /-- A reset has begun whose completion waits for the head's requests in the device (09 R265). -/
  resetting : Bool := false
  /-- Responses that RESPONSE_DELAY holds back, in their order, with the local time at which each leaves (19, perturbation kinds). -/
  late : List (Nat × Tx) := []
  deriving DecidableEq, Repr

/-- The host ports. -/
structure HostState where
  heads : List Head := List.replicate 8 {}
  /-- HPn_BIF as sampled at PERST deassertion, and whether HPn_PERST_N is asserted (09 R245). -/
  bifur : List Bool := [false, false, false, false]
  perst : List Bool := [true, true, true, true]
  deriving DecidableEq, Repr

/-- A command at a channel (10 R281): its row in the scheduling order (3 read retry, 4 P0, 5 P1, 6 P2, 7 P3), whether it reads,
the number of its request (a read) or its line (a write), its channel-local address. -/
structure DramCmd where
  order : Nat
  read : Bool
  key : Nat
  addr : Nat
  deriving DecidableEq, Repr

/-- A DDR5 channel (10_ddr5_channels.md). -/
structure Chan where
  /-- Training runs (20 R492); pads work; self-refresh (10 R286). -/
  training : Bool := false
  sr : Bool := false
  /-- Local time since which every port has been empty (10 R286), and of the last idle-timer restart. -/
  idleAt : Nat := 0
  /-- Commands in the queues of the ports, oldest first; commands issued whose alert window has not passed, in the 64-entry
  retry buffer, oldest first; the open row of each bank (10 R281, R283, R292). -/
  ports : List DramCmd := []
  retry : List DramCmd := []
  rows : List (Nat × Nat) := []
  /-- A replay is under way, and how many of the same buffer contents have been made (10 R293, R294). -/
  replaying : Bool := false
  replays : Nat := 0
  capar : Nat := 0
  wcrc : Nat := 0
  replayCount : Nat := 0
  retryCount : Nat := 0
  srCount : Nat := 0
  /-- Temperatures of positions 0 and 1, levels of R285 in force there (0 none to 3), polls their sensor missed in a row, PMIC fault; tREFI halved; throttle level. -/
  temp : List Nat := [0, 0]
  level : List Nat := [0, 0]
  missed : List Nat := [0, 0]
  hot : Bool := false
  throttle : Nat := 0
  lastPoll : Nat := 0
  /-- Refresh intervals postponed, subchannel 0 and 1, and refreshes issued (10 R284). -/
  postponed : List Nat := [0, 0]
  refreshes : List Nat := [0, 0]
  /-- Delays in force and staged, by register offset in the channel's block (10 R288, R289). -/
  delays : List (Nat × Nat) := []
  staged : List (Nat × Nat) := []
  /-- Subchannels whose commit waits for the end of a replay (10 R289). -/
  commits : List Nat := []
  /-- Next frame slot of the scrub pass, its local start, SCRUB_LATE raised in it (10 R296). -/
  scrub : Nat := 0
  scrubAt : Nat := 0
  scrubLate : Bool := false
  deriving DecidableEq, Repr

/-- The DRAM channels and the registers common to them. -/
structure DdrState where
  chans : List Chan := List.replicate 16 {}
  population : BitVec 16 := 0
  /-- Transfer rate of each channel and the one rate of R272, MT/s. -/
  rate : List Nat := List.replicate 16 0
  rateMts : Nat := 0
  mrdimm : Bool := false
  twoDpc : Bool := false
  gib : Nat := 0
  masks : List Nat := [0, 0, 0, 0, 0, 0, 0, 0, 0, 0, 0, 0]
  rowBits : Nat := 0
  hotBase : Nat := 0
  warmBase : Nat := 0
  frames : Nat := 0
  deriving DecidableEq, Repr

/-- What an NVMe command outstanding on a drive is for (11 R306, R307). -/
inductive CmdFor where
  /-- A host-path read of a request; `probe` while the drive is read-avoided (11 R314). -/
  | read (rid : Nat) (probe : Bool)
  /-- A hedged or degraded read of a request. -/
  | hedge (rid : Nat)
  /-- The Read of a request's raw block's tag sector (11 R307). -/
  | tag (rid : Nat)
  /-- A mover's read of a page's block. -/
  | mover (page : Nat)
  /-- A chunk write of barge `barge`, and whether it is the retry (11 R308). -/
  | chunk (barge : Nat) (again : Bool)
  | dealloc
  deriving DecidableEq, Repr

/-- An NVMe command outstanding (11 R306-R310). -/
structure NvmeCmd where
  cid : Nat
  why : CmdFor
  qp : Nat
  lba : Nat
  /-- LBAs (11 R307). -/
  len : Nat := 1
  since : Nat
  /-- Local time its Abort was issued (11 R310). -/
  abort : Option Nat := none
  hedged : Bool := false
  /-- The class of work is at its limit: the command waits in the port (11 R306). -/
  waiting : Bool := false
  deriving DecidableEq, Repr

/-- A drive port with its drive (11_drive_ports.md). -/
structure Drive where
  /-- Bring-up step under way, 0 when none (11, bringing a drive into service), and the local time it began. -/
  step : Nat := 0
  stepAt : Nat := 0
  /-- The bring-up follows END_REPLACE. -/
  replace : Bool := false
  lbas : Nat := 0
  width : Nat := 0
  rate : Nat := 0
  cmds : List NvmeCmd := []
  /-- Commands in a row that ended in error or timed out (04 R99). -/
  errors : Nat := 0
  /-- E in microseconds (11 R311), 200 at bring-up. -/
  e : Nat := 200
  /-- Host-path reads, hedges, probe reads and hedged probes of this berth cycle; read-avoided; reads counted towards the
  next probe (11 R314). -/
  reads : Nat := 0
  hedges : Nat := 0
  probes : Nat := 0
  probeHedges : Nat := 0
  avoided : Bool := false
  turn : Nat := 0
  /-- Host-path reads completed on queue pairs 1-16 in this berth cycle, by their latency in microseconds (11 R311). -/
  hist : List (Nat × Nat) := []
  /-- SANICAP offers Crypto Erase (11 R303, R316). -/
  cryptoErase : Bool := false
  /-- SMART values last reported and what DRIVE_WEAR has been raised for (11 R317). -/
  used : Nat := 0
  spare : Nat := 100
  critical : Nat := 0
  wearLevel : Nat := 0
  wearSpare : Bool := false
  wearCrit : Bool := false
  /-- FSn_PRSNT_N asserted since this local time; DRIVE_INSERTED raised for it (11 R305). -/
  since : Nat := 0
  inserted : Bool := false
  /-- A Sanitize command runs (11 R316). -/
  sanitizing : Bool := false
  deriving DecidableEq, Repr

/-- A barge being written to the drives or the channels (04 R110): tier, barge, units whose chunk has not arrived. -/
structure BargeWrite where
  tier : Nat
  barge : Nat
  waiting : List Nat
  /-- A chunk write failed twice: the barge is abandoned (11 R308). -/
  abandoned : Bool
  deriving DecidableEq, Repr

/-- The drive ports. -/
structure DrivesState where
  drives : List Drive := List.replicate 16 {}
  nextCid : Nat := 0
  writes : List BargeWrite := []
  deriving DecidableEq, Repr

/-- State codes of a Stechaisk port (12 R330, SKL_STATUS). -/
inductive PortSt where
  | off
  | absent
  | align
  | deskew
  | handshake
  | up
  | down
  | loopSerial
  | loopParallel
  | loopFar
  | loopFarRemote
  deriving DecidableEq, Repr

/-- A lane of a port (12, SKL_LANE and SKL_LANE_ERR). -/
structure Lane where
  slips : Nat := 0
  invert : Bool := false
  depth : Nat := 0
  signal : Bool := false
  failed : Bool := false
  errors : Nat := 0
  deriving DecidableEq, Repr

/-- A data frame a port holds (12 R336, R343): transmitted under the current training with `frame.seq`; its credit consumed. -/
structure HeldFrame where
  frame : Frame
  sent : Bool := false
  credit : Bool := false
  deriving DecidableEq, Repr

/-- A Stechaisk port (12_stechaisk_link.md). -/
structure Port where
  st : PortSt := .off
  retraining : Bool := false
  /-- Local times at which training began and DOWN was entered. -/
  trainAt : Nat := 0
  downAt : Nat := 0
  downCause : Nat := 0
  disabled : Bool := false
  /-- Transmitters quiet before ABSENT, until this local time (12 R324). -/
  quiet : Option Nat := none
  optical : Bool := false
  headroom : Nat := 32
  leakLimit : Nat := 0x20
  leakRetrain : Bool := true
  /-- SKL_DELAY, in 2^-8 ticks (12 R332). -/
  delay : Nat := 0
  txNext : Nat := 0
  rxExpected : Nat := 0
  replays : Nat := 0
  retrains : Nat := 0
  downs : Nat := 0
  /-- Frames held, oldest first: the transmitted ones stand before the others (12 R336). -/
  held : List HeldFrame := []
  /-- Consecutive replays that began at the oldest frame (12 R337), and whether a retrain has followed. -/
  count : Nat := 0
  /-- Local time the replay timer last restarted. -/
  timerAt : Nat := 0
  /-- Receive buffer (12 R340). -/
  rx : List Frame := []
  free : Nat := 0x40000
  /-- Credits held and absolute counts of the last training, VC 0-3 (12 R342). -/
  avail : List Nat := [0, 0, 0, 0]
  granted : List Nat := [0, 0, 0, 0]
  /-- Free trackers offered, returns not yet sent, local time of the oldest. -/
  trackers : List Nat := [1024, 1024, 512, 64]
  returns : List Nat := [0, 0, 0, 0]
  returnAt : Option Nat := none
  /-- Frames accepted since the last ACK or NAK and local time of the earliest (12 R335). -/
  unacked : Nat := 0
  unackedAt : Nat := 0
  /-- Local time of the last NAK (12 R334). -/
  nakAt : Option Nat := none
  xoffSent : Bool := false
  xoffHeld : Bool := false
  flowAt : Nat := 0
  leak : Nat := 0
  crcErr : Nat := 0
  ctrlDrop : Nat := 0
  lanes : List Lane := List.replicate 16 {}
  /-- Handshake (12 R332): a training came from ABSENT; own deskew done and HELLO with RX_READY sent and received; rounds
  answered and the sum of (round trip - turnaround) in symbol clocks; ACCEPTED, CREDIT_ABS and READY received; READY sent. -/
  fromAbsent : Bool := true
  helloSent : Bool := false
  helloRx : Bool := false
  helloAt : Nat := 0
  rounds : List Nat := []
  roundSum : Nat := 0
  accepted : Option (Nat × Bool) := none
  credits : Bool := false
  readySent : Bool := false
  readyRx : Bool := false
  /-- The partner's ACCEPTED is ignored at this handshake: the frames were handed over (12 R339). -/
  handed : Bool := false
  /-- SPILL_START, SPILL_FULL, RX_OVERFLOW have been raised (12 R338, R334). -/
  spilled : Bool := false
  spillFull : Bool := false
  /-- Frames of local masters that wait before the port while its buffer is full (12 R338). -/
  backlog : List Frame := []
  overflow : Bool := false
  deriving DecidableEq, Repr

/-- The Stechaisk ports; the voted bits are `PowerState.skPower`. -/
structure SklState where
  ports : List Port := [{}, {}]
  deriving DecidableEq, Repr

/-- A NEIGHBOUR message last received on a port (13 R347). -/
structure Neighbour where
  id : Nat
  gen : Nat
  bootId : Nat
  partner : Nat
  deriving DecidableEq, Repr

/-- An import or export (13 R354-R358). -/
structure Window where
  localGib : Nat
  sizeGib : Nat
  peer : Nat
  homeGib : Nat := 0
  poisoned : Bool := false
  /-- Deletion waits for outstanding requests (13 R358). -/
  closing : Bool := false
  deriving DecidableEq, Repr

/-- Visitor states (07 R212). -/
inductive VSt where
  | shared
  | any
  deriving DecidableEq, Repr

/-- A line in the visitor cache (13 R359): home, line at the home, the origin's own line, state, presence of the device's
heads and the head in Any, data, recency. -/
structure VLine where
  home : Nat
  line : Nat
  own : Nat
  st : VSt
  pres : BitVec 8
  anyHead : Option Nat
  data : Line
  poison : Bool
  used : Nat
  deriving DecidableEq, Repr

/-- What an outstanding remote operation is for. -/
inductive RemoteFor where
  /-- A head's request. -/
  | req (r : Req)
  /-- A tandem write of range r for a request that has been accepted locally. -/
  | tandem (range rid : Nat)
  /-- A resync copy of range r, page p (13 R368). -/
  | resync (range page : Nat)
  /-- A zero write of CLEAR_LOSS_ENTRY for entry seq, line bit (13 R365). -/
  | clear (seq bit : Nat)
  deriving DecidableEq, Repr

/-- A remote operation outstanding at the origin (07 R211-R219; 13 R361-R364). -/
structure Remote where
  tag : Nat
  why : RemoteFor
  opcode : Nat
  home : Nat
  line : Nat
  own : Nat
  window : Nat
  wtag : Nat
  cls : Nat
  data : Line
  mask : BitVec 64
  poison : Bool
  /-- Local times of acceptance and of the first transmission; none while it waits for a route or an earlier write. -/
  since : Nat
  sent : Option Nat
  naks : Nat
  retryAt : Option Nat
  /-- A snoop held until its answer has been delivered (07 R217). -/
  held : Option Frame
  deriving DecidableEq, Repr

/-- Snoops of a home under way at this visitor: the frame, heads still to answer, writeback data (07 R213). -/
structure VSnoop where
  frame : Frame
  wait : BitVec 8
  kept : Bool
  data : Option Line
  deriving DecidableEq, Repr

/-- A discovery this device runs (13 R348): mode, base, the mailbox, next ID, direction it probes, IDs given. -/
structure Discovery where
  extend : Bool
  base : Nat
  src : Nat
  nextId : Nat
  west : Bool
  since : Nat
  count : Nat
  deriving DecidableEq, Repr

/-- What a WINDOW_CHECK that is out will complete (13 R356). -/
inductive CheckFor where
  | window (index : Nat) (w : Window)
  | tandem (range baseGib : Nat)
  deriving DecidableEq, Repr

/-- An outstanding WINDOW_CHECK: what for, its mailbox, opcode, peer, local time sent. -/
structure WindowWait where
  why : CheckFor
  peer : Nat
  since : Nat
  deriving DecidableEq, Repr

/-- The chain layer (13_chains_and_rings.md). -/
structure ChainState where
  /-- Chain ID, 0xFFF while unassigned (13 R346). -/
  id : Nat := 0xFFF
  gen : Nat := 0
  n : Nat := 1
  ring : Bool := false
  forwarding : Bool := false
  hopLimit : Nat := 16
  lowest : Nat := 0xFFF
  highest : Nat := 0xFFF
  eastEnd : Nat := 0xFFF
  westEnd : Nat := 0xFFF
  neighbours : List (Option Neighbour) := [none, none]
  /-- Cuts received and not joined: port they came in on, chain ID and port at the cut (13 R351). -/
  cuts : List (Nat × Nat × Nat) := []
  discovery : Option Discovery := none
  /-- Another device's discovery this device takes part in: initiator, ID to commit. -/
  probed : Option (Nat × Nat) := none
  imports : List (Nat × Window) := []
  exports : List (Nat × Window) := []
  visitor : List VLine := []
  vclock : Nat := 0
  remotes : List Remote := []
  nextTag : Nat := 0
  nextWtag : Nat := 0
  vsnoops : List VSnoop := []
  /-- Duplicate-write table: SRC, WTAG, local time of entry (13 R362). -/
  dups : List (Nat × Nat × Nat) := []
  /-- Undelivered-line table: own lines (13 R364). -/
  undelivered : List Nat := []
  wait : Option WindowWait := none
  /-- Devices fenced for coherence (07 R221). -/
  fenced : List Nat := []
  /-- Homes whose REMOTE_NO_ROUTE was raised in this window (13 R363). -/
  noRoute : List Nat := []
  /-- Imports whose WINDOW_LOST was raised. -/
  lost : List Nat := []
  deriving DecidableEq, Repr

/-- An outing record (14 R381-R386). `kind` is the code of the kind table, `state` 0 RUNNING, 1 PAUSED, 2 DONE,
3 ABORTED, 4 FAILED, `issuer` 0-7 head, 8 sideband, 0xFF device. -/
structure Outing where
  id : Nat
  kind : Nat
  state : Nat := 0
  hold : Nat := 0
  deviceStarted : Bool := false
  wsc : Nat := 0
  issuer : Nat := 0xFF
  done : Nat := 0
  total : Nat := 0
  percent : Nat := 0
  subject : Nat := 0xFFFFFFFF
  start : Nat := 0
  last : Nat := 0
  ended : Nat := 0
  linked : Nat := 0xFFFFFFFF
  unitsCycle : Nat := 0
  unitsLast : Nat := 0
  /-- Unit completions that hardware has signalled and no Keeper step has recorded (14 R386). -/
  signalled : Nat := 0
  /-- The pages, barges or frames that remain to be done, where the model keeps them as a list. -/
  work : List Nat := []
  /-- Units under way. -/
  flying : List Nat := []
  /-- Target tier of a stage outing (03 R95). -/
  tier : Nat := 0
  deriving DecidableEq, Repr

/-- A Command Log record (14 R388). -/
structure CmdLog where
  seq : Nat
  opcode : Nat
  issuer : Nat
  rc : Rc
  wsc : Nat
  outing : Nat
  time : Nat
  deriving DecidableEq, Repr

/-- Crity: the sideband's mailbox, the managing head, outings, the Command Log (14_crity_commands.md). -/
structure CrityState where
  sb : Mailbox := {}
  sbBg : BgSlot := {}
  sbLimit : Nat := 4096
  /-- Thresholds of Set Alert Config on the fields of Get Health Info (09 R257, R259). -/
  alerts : AlertConfig := {}
  managing : Option Nat := none
  outings : List Outing := []
  nextOuting : Nat := 1
  cmdLog : List CmdLog := []
  cmdSeq : Nat := 0
  /-- The mailbox whose command waits for chain answers (14 R373), and the local time it began. -/
  waiting : Option (Mb × Nat × List Byte × Nat) := none
  /-- A command that waited is being started (14 R373). -/
  releasing : Bool := false
  deriving DecidableEq, Repr

/-- State of a power domain, with the codes of PWR_DOMAIN (15). -/
inductive DomSt where
  | off
  | on
  | draining
  | poweringOff
  | waking
  | asking
  deriving DecidableEq, Repr

/-- A power domain and its wake record (15 R390-R404). -/
structure Domain where
  st : DomSt := .off
  padsHeld : Bool := true
  suspended : Bool := false
  eligible : Bool := false
  votes : BitVec 12 := 0
  wakeFlag : Nat := 0
  deferred : Bool := false
  failed : Bool := false
  voter : Nat := 0xFF
  wakes : Nat := 0
  wakeTime : Nat := 0
  latency : Nat := 0
  offSpan : Nat := 0
  offTime : Nat := 0
  /-- Local times at which the drain began, the domain went Off, the wake began. -/
  drainAt : Nat := 0
  offAt : Nat := 0
  wakeAt : Nat := 0
  /-- A wake that is due waits for the brace to end, with its flag and voter (15 R406). -/
  dueFlag : Option (Nat × Nat) := none
  /-- The Off is tried again at the next berth cycle boundary (15 R397, R399). -/
  retry : Bool := false
  /-- Handshake: delays used by the block asked, local end of a delay (15 R399). -/
  delays : Nat := 0
  delayEnd : Option Nat := none
  /-- A failed wake: no retry before a new vote from an empty mask (15 R404). -/
  noRetry : Bool := false
  /-- A brownout came since the last wake: the next one carries flag BROWNOUT (15 R408). -/
  brown : Bool := false
  deriving DecidableEq, Repr

/-- A supply monitor (15 R405-R408). -/
structure Monitor where
  now : Nat := 0
  min : Nat := 0xFFFFFF
  /-- Below warning, or above it and settling. -/
  below : Bool := false
  dipped : Bool := false
  dipStart : Nat := 0
  dipEnd : Nat := 0
  settleAt : Nat := 0
  deriving DecidableEq, Repr

/-- Domains, votes, modes, monitors (15_power_domains.md). -/
structure PowerState where
  doms : List Domain :=
    ({ st := .on, padsHeld := false } : Domain) :: List.replicate 43 ({} : Domain)
  /-- MODE: handshake mode in force; a change waits for transitions under way to end (15 R400). -/
  handshake : Bool := false
  modeNext : Option Bool := none
  srIdle : Nat := 12
  skPower : BitVec 2 := 3
  brace : Bool := false
  mons : List Monitor := List.replicate 11 {}
  deriving DecidableEq, Repr

/-- Settings of a slot's electronic fuse, in the units of SLOT_CONFIG (16 R412, R429). -/
structure SlotCfg where
  retries : Nat := 3
  rampRate : Nat := 15
  ilim : Nat := 250
  inrush : Nat := 50
  faultTime : Nat := 20
  discharge : Nat := 50
  rsense : Nat := 50
  deriving DecidableEq, Repr

/-- State codes of a slot (16, slot states). -/
inductive SlotSt where
  | off
  | waiting
  | starting
  | ramp
  | qualify
  | on
  | stopping
  | backoff
  | latched
  | fetShort
  deriving DecidableEq, Repr

/-- A slot (16_hot_plug_slots.md). -/
structure Slot where
  st : SlotSt := .off
  pgood : Bool := false
  commanded : Bool := false
  limited : Bool := false
  timer : Bool := false
  present : Bool := false
  warn : Bool := false
  /-- OVERLOAD_WARN has been raised in this regulation window. -/
  warned : Bool := false
  cause : Nat := 0
  attempt : Nat := 0
  cfg : SlotCfg := {}
  staged : SlotCfg := {}
  vin : Nat := 0
  vout : Nat := 0
  /-- Local time since which VOUT_SNS has read below 1.0 V (16 R430). -/
  lowAt : Nat := 0
  sense : Nat := 0
  gateDrive : Nat := 0
  trips : Nat := 0
  tripsThisUp : Nat := 0
  warnings : Nat := 0
  tripTime : Nat := 0
  changeTime : Nat := 0
  /-- Local times of the entry to this state and of the start of the fault timer. -/
  entered : Nat := 0
  timerAt : Nat := 0
  /-- Local time at which the count of qualifying samples last restarted (16 R416). -/
  qualAt : Nat := 0
  /-- A discharge interval runs, since this local time (16 R423); after cold reset it runs at every slot. -/
  discharging : Option Nat := some 0
  pwrdis : Bool := true
  perst : Bool := true
  deriving DecidableEq, Repr

/-- The slots MS0-MS31 and FS0-FS15. -/
structure SlotsState where
  slots : List Slot := List.replicate 48 {}
  deriving DecidableEq, Repr

/-- A log ring record (17 R439); the check word is computed when the record is read. -/
structure LogRec where
  seq : Nat
  type : Nat
  cls : Nat
  untimed : Bool
  dropped : Bool
  source : Nat
  time : Nat
  bootId : Nat
  count : Nat
  stamp : Nat
  detail : List Byte
  deriving DecidableEq, Repr

/-- The steps of an online activation (17 R445). -/
inductive ActStep where
  | lengthsman
  | keeper
  | restoring
  | rolling (cluster : Nat)
  deriving DecidableEq, Repr

/-- An activation under way (17 R444-R447): slot, step, the mailbox that asked (none for PLDM), local time of the pause. -/
structure Activation where
  slotB : Bool
  step : ActStep
  who : Option Mb
  pauseAt : Nat := 0
  /-- Reload of the active image because fewer than two cores remain (17 R448). -/
  reload : Bool := false
  deriving DecidableEq, Repr

/-- An open firmware transfer (17 R443): path (the mailbox's source, or 9 for PLDM), target slot. -/
structure FwTransfer where
  path : Nat
  slotB : Bool
  deriving DecidableEq, Repr

/-- PLDM thresholds of a sensor (17 R436). -/
structure SensorThr where
  sensor : Nat
  warnHigh : Int
  critHigh : Int
  fatalHigh : Int
  warnLow : Int
  critLow : Int
  fatalLow : Int
  deriving DecidableEq, Repr

/-- Where an owner's state and its copy stand (17 R452): state kind, unit, owner's value and sequence, copy's value and
sequence. -/
structure Advisory where
  kind : Nat
  unit : Nat
  value : Nat
  seq : Nat
  copy : Nat
  copySeq : Nat
  deriving DecidableEq, Repr

/-- A stored training set of a channel: its four keys and every delay by register key (20 R491). -/
structure TrainingSet where
  chan : Nat
  rate : Nat
  mrdimm : Bool
  serials : List Nat
  delays : List (Nat × Nat)
  deriving DecidableEq, Repr

/-- The lengthsman (17_lengthsman.md). -/
structure LmState where
  /-- I3C sideband (strap LM_BUS), LM_ADDR, dynamic address, endpoint ID (17 R432). -/
  i3c : Bool := false
  addr : Nat := 0
  dynAddr : Option Nat := none
  eid : Nat := 0
  /-- The lengthsman restarts during an activation and answers nothing (17 R445). -/
  restarting : Bool := false
  spdm : SpdmState := {}
  thresholds : List SensorThr := []
  /-- Latest sample of every PLDM sensor not held elsewhere, by sensor ID (17 R435). -/
  samples : List (Nat × Int) := []
  /-- Die points: sample, excluded, local time of the last change (17 R437). -/
  die : List Int := List.replicate 64 0
  dieExcluded : List Bool := List.replicate 64 false
  dieAt : List Nat := List.replicate 64 0
  /-- GLB_TEMP_MAX and GLB_THERM: hottest point, its index, level, valid points. -/
  tempMax : Int := 0
  tempPoint : Nat := 0
  therm : Nat := 0
  valid : Nat := 0
  /-- Boot flash: the image slots, the active-slot record, the slot image that runs, the running versions. -/
  imgA : FwImage := {}
  imgB : FwImage := {}
  activeB : Bool := false
  runB : Bool := false
  lmVer : Nat := 0
  keeperVer : Nat := 0
  codecVer : Nat := 0
  romDigest : Nat := 0
  handover : Nat := 0
  /-- Versions of the microcode each cluster loaded (17 R445). -/
  clusterVer : List Nat := [0, 0, 0, 0]
  transfer : Option FwTransfer := none
  activation : Option Activation := none
  /-- Measurement indices 1-6, as the version or digest number measured (17 R449). -/
  meas : List Nat := [0, 0, 0, 0, 0, 0]
  /-- Keeper cores running (17 R448). -/
  cores : BitVec 8 := 0
  coresHeld : BitVec 8 := 0
  /-- Cores that failed again after a reload: in reset until cold reset (17 R448). -/
  coresOut : BitVec 8 := 0
  /-- Log ring, newest first; next SEQ; staged records, newest first (17 R439-R441). -/
  ring : List LogRec := []
  nextSeq : Nat := 0
  staged : List LogRec := []
  /-- CE events counted per source this cycle beyond the first, CE and DE records written this cycle, dropped. -/
  ceCounts : List (Nat × Nat) := []
  cycleRecs : Nat := 0
  droppedFlag : Bool := false
  droppedCount : Nat := 0
  advisory : List Advisory := []
  /-- Slot settings stored in the boot flash by SLOT_CONFIG (16 R429), by slot. -/
  savedSlots : List (Nat × List Nat) := []
  /-- Stored DRAM training sets, oldest first (20 R491). -/
  training : List TrainingSet := []
  deriving DecidableEq, Repr

/-- A sample waiting for its event (19 R474): top counter, event of the chain's bottom counter, master, unit, events passed. -/
structure PendSample where
  top : Nat
  event : Nat
  master : Nat
  unit : Nat
  skid : Nat
  deriving DecidableEq, Repr

/-- A perturbation entry (19 R476-R480): `ends` the local time at which it clears, none until cleared; `ops` the eligible
operations seen, `applied` those perturbed. -/
structure Perturb where
  kind : Nat := 0
  target : Nat := 0
  duty : Nat := 0
  amount : Nat := 0
  ends : Option Nat := none
  ops : Nat := 0
  applied : Nat := 0
  deriving DecidableEq, Repr

/-- An armed injection (19 R482). -/
structure Armed where
  checker : Nat
  scope1 : Bool
  replays : Bool
  bits : Nat
  unit : Nat
  pageEn : Bool
  page : Nat
  left : Nat
  used : Nat
  deriving DecidableEq, Repr

/-- Performance counters, perturbation and injection (19_counters_and_test.md). -/
structure PmcState where
  freeze : Bool := false
  cnt : List Nat := List.replicate 192 0
  sel : List Nat := List.replicate 192 0
  rld : List Nat := List.replicate 192 0
  ovf : List (BitVec 16) := List.replicate 12 0
  sseq : Nat := 0
  /-- Ring of sample records by index; an unwritten record reads zero (19 R475). -/
  ring : List (Nat × List Byte) := []
  pend : List PendSample := []
  /-- The nonce that is out, and the local time it was given. -/
  nonce : Option (BitVec 256 × Nat) := none
  /-- Scopes unlocked and the local time at which the unlock ends. -/
  scope : BitVec 2 := 0
  unlockEnds : Nat := 0
  ptb : List Perturb := List.replicate 16 {}
  armed : List Armed := []
  replaced : Nat := 0
  deriving DecidableEq, Repr

/-- Where power-up stands (20_power_up_and_reset.md). -/
inductive Phase where
  /-- VAUX_3V3 absent or below its reset level. -/
  | auxOff
  /-- The boot ROM found no intact image (20 R484). -/
  | recovery
  /-- DOM_AON runs; the main rails are off. -/
  | aux
  /-- Step 1-6 of the main sequence: waiting for the rail of this step (20 R485). -/
  | sequence (step : Nat)
  /-- SYS_PWROK is high; DOM_KEEP wakes (20 R487). -/
  | keepWake
  /-- Keeper firmware runs; bring-up before the first geometry (20 R489). -/
  | bringup
  /-- The geometry is committed (20 R495). -/
  | ready
  deriving DecidableEq, Repr

/-- Power-up and reset (20_power_up_and_reset.md; 21_pins_and_electrical.md R508, R509). -/
structure BootState where
  phase : Phase := .auxOff
  /-- Straps and fuses as sampled. -/
  mgmtHead : Nat := 0
  optical0 : Bool := false
  optical1 : Bool := false
  grade : Nat := 0xC
  serial : Nat := 0
  /-- BOOT_ID, drawn at cold reset and at brownout (13 R347). -/
  bootId : BitVec 32 := 0
  /-- Rails are off after a brownout, and the supplies have not been good for 100 ms yet (15 R408; 20 R485). -/
  brownout : Bool := false
  /-- SUP_EN[5:0] and SYS_PWROK (20 R485, R487). -/
  supEn : BitVec 6 := 0
  pwrOk : Bool := false
  /-- Failed sequences in a row and the local end of the back-off (20 R486). -/
  failed : Nat := 0
  backoff : Option Nat := none
  /-- Local time at which Keeper firmware started (20 R490). -/
  keeperAt : Nat := 0
  /-- Next batch of DIMM slots (0-4) and of drive slots (0-2) (20 R489). -/
  dimmBatch : Nat := 0
  driveBatch : Nat := 0
  /-- Batches under way. -/
  dimmBusy : Bool := false
  driveBusy : Bool := false
  mbReady : Bool := false
  mediaReady : Bool := false
  /-- A device reset is under way since this local time (20 R498). -/
  devReset : Option Nat := none
  /-- Local time runs on the internal oscillator; a switch back waits for the cycle (21 R508). -/
  internalOsc : Bool := false
  switchBack : Bool := false
  deriving DecidableEq, Repr

/-- A mailbox command whose doorbell is set and which waits (14 R373): opcode, mailbox, input, and the part of a
Transfer FW. -/
structure HeldCmd where
  opcode : Nat
  m : Mb
  p : List Byte
  part : Option FwPart
  deriving DecidableEq, Repr

/-- The whole device. `pending` is the queue of commands, first in, first out; `held` the commands whose doorbells are set
but which wait (14 R373); `tx` and `free` are the model's own (log 6, log 4). -/
structure State where
  pending : List Instr := []
  held : List HeldCmd := []
  tx : List Tx := []
  free : Nat := 0
  time : TimeState := {}
  flt : FaultState := {}
  host : HostState := {}
  crity : CrityState := {}
  power : PowerState := {}
  slots : SlotsState := {}
  lm : LmState := {}
  boot : BootState := {}
  dur : DurState := {}
  keys : KeyState := {}
  req : ReqState := {}
  map : MapState := {}
  codec : CodecState := {}
  dir : DirState := {}
  slu : SluiceState := {}
  ddr : DdrState := {}
  drives : DrivesState := {}
  skl : SklState := {}
  chain : ChainState := {}
  pmc : PmcState := {}
  /-- Plaintext of the memory space by device-local byte address: addresses rising, no zero byte listed; an unlisted byte
  reads as zero, as a zero page does (03 R65, R74; 20 R496). -/
  mem : List Host.Cell := []
  deriving DecidableEq, Repr

/-- The device before auxiliary power comes up, every register at the value it has after cold reset: AUX_POWER_ON is the
command that starts the cold reset (20 R483; log 2). -/
def State.reset : State := {}

end Sys2Proof.Machine
end

