-- ==== Sys2Proof/Machine/Operands.lean ====
section
/-! DEFINITION. Operand forms: little-endian fields of payloads and records (00 R4), saturating counters, sparse tables,
slot, channel and group numbering. -/

namespace Sys2Proof.Machine

/-! ### Bytes -/

/-- `n` bytes of `v`, least significant first (00 R4). -/
def le (n v : Nat) : List Byte := (List.range n).map fun i => BitVec.ofNat 8 (v / 2 ^ (8 * i))

/-- Byte `i` of a payload, 0 beyond its end. -/
def byteAt (p : List Byte) (i : Nat) : Nat := (p.getD i 0).toNat

/-- The little-endian field of `n` bytes at offset `off`. -/
def ofLe (p : List Byte) (off n : Nat) : Nat :=
  (List.range n).foldl (fun acc i => acc + byteAt p (off + i) * 2 ^ (8 * i)) 0

/-- Bit `b` of byte `i`. -/
def bitAt (p : List Byte) (i b : Nat) : Bool := (byteAt p i).testBit b

/-- A number as one bit. -/
def b2n (b : Bool) : Nat := if b then 1 else 0

/-- `n` bytes of zero: reserved fields read as zero (00 R5). -/
def zeros (n : Nat) : List Byte := List.replicate n 0

/-- A signed value in `bits` bits of two's complement. -/
def twos (bits : Nat) (v : Int) : Nat := (v % (2 ^ bits : Int)).toNat

/-- Signed saturation at ±(2^(bits-1) - 1) (02, CTB_OFFSET). -/
def satSigned (bits : Nat) (v : Int) : Int :=
  let m : Int := 2 ^ (bits - 1) - 1
  if v > m then m else if v < -m then -m else v

/-- Add `k` to a count that saturates at all ones in `bits` bits. -/
def addSat (bits v k : Nat) : Nat := min (v + k) (2 ^ bits - 1)

/-- The cut of a value to `bits` bits. -/
def wrap (bits v : Nat) : Nat := v % 2 ^ bits

/-! ### Sparse tables -/

/-- The value at key `k`. -/
def aget {α : Type} (l : List (Nat × α)) (k : Nat) : Option α := (l.find? (·.1 == k)).map (·.2)

/-- Remove key `k`. -/
def adel {α : Type} (l : List (Nat × α)) (k : Nat) : List (Nat × α) := l.filter (·.1 != k)

/-- Set key `k`. -/
def aset {α : Type} (l : List (Nat × α)) (k : Nat) (v : α) : List (Nat × α) := (k, v) :: adel l k

/-! ### Numbers of units -/

/-- The channel of DIMM slot `s` (16: slot number 2 × channel + position). -/
def slotChannel (s : Nat) : Nat := s / 2

/-- The DIMM slot at the same position on the partner channel c XOR 8 (04, pair). -/
def pairSlot (s : Nat) : Nat := (s + 16) % 32

/-- The other DIMM of the channel. -/
def otherSlot (s : Nat) : Nat := if s % 2 = 0 then s + 1 else s - 1

/-- The supply group that feeds a slot (15 R405). -/
def slotGroup (s : Nat) : Nat := if s < 16 then 0 else if s < 32 then 1 else 2

/-- Whether a slot number names a drive slot. -/
def isDrive (s : Nat) : Bool := 32 ≤ s

/-- Domain codes (15 R390). -/
def domHP (n : Nat) : Nat := 2 + n
def domDC (c : Nat) : Nat := 6 + c
def domDP (p : Nat) : Nat := 22 + p
def domCEC (c : Nat) : Nat := 38 + c
def domSK (k : Nat) : Nat := 42 + k

/-! ### Event sources (18, sources and checker groups) -/

/-- Source of event `k` of head `h` (09, event sources). -/
def srcHead (h k : Nat) : Nat := 32 * (h / 2) + 16 * (h % 2) + k
def srcChannel (c k : Nat) : Nat := 640 + 32 * c + k
def srcDrive (p k : Nat) : Nat := 1152 + 8 * p + k
def srcPort (p k : Nat) : Nat := 1280 + 32 * p + k
def srcCodec (e k : Nat) : Nat := 448 + 4 * e + k
def srcSlot (s : Nat) : Nat := 1408 + s
def srcMonitor (r : Nat) : Nat := 1456 + r

/-- Default class of a source, 1 CE, 2 DE, 3 UC, 4 FT; none for a reserved source (18 and the event tables of the
chapters it names). -/
def defaultClass (s : Nat) : Option Nat :=
  if s < 128 then
    (if s % 16 = 5 then some 3 else if s % 16 ≤ 8 then some 1 else none)
  else if s < 192 then
    (if s = 129 then some 4 else if s = 133 then some 2 else if s ≤ 132 then some 1 else none)
  else if s < 304 then
    (if s = 195 then some 2 else if s = 197 then some 4 else if s ≤ 196 then some 1 else none)
  else if s < 320 then
    (if s ≤ 305 then some 3 else if s ≤ 315 then some 1 else none)
  else if s < 448 then
    (if s = 320 ∨ s = 322 ∨ s = 327 then some 2
     else if s = 321 ∨ s = 325 ∨ s = 326 ∨ s = 328 then some 3
     else if s = 323 ∨ s = 324 then some 1 else none)
  else if s < 576 then
    (if s % 4 = 1 then some 2 else some 1)
  else if s < 640 then
    (if s = 576 ∨ s = 577 ∨ s = 580 then some 4 else if s = 578 ∨ s = 579 then some 1 else none)
  else if s < 1152 then
    (if s % 32 = 2 ∨ s % 32 = 8 then some 2 else if s % 32 ≤ 12 then some 1 else none)
  else if s < 1280 then
    (if s % 8 = 0 then some 2 else some 1)
  else if s < 1344 then
    (if s % 32 ≤ 12 then some 1 else none)
  else if s < 1408 then
    (if s < 1363 then some 1 else none)
  else if s < 1456 then some 1
  else if s < 1472 then (if s < 1467 then some 1 else none)
  else if s < 1504 then
    (if s = 1472 ∨ s = 1480 then some 2 else if s = 1482 then some 4 else if s < 1482 then some 1 else none)
  else if s < 1536 then
    (if s = 1505 ∨ s = 1507 then some 2 else if s = 1512 then some 4 else if s ≤ 1515 then some 1 else none)
  else none

/-- The floor below which SET_REACTION may not lower a source (18 R461). -/
def classFloor (dflt : Nat) : Nat :=
  if dflt = 4 then 4 else if dflt = 3 then 3 else if dflt = 2 then 1 else 0

/-- The checker group of a source (18, sources and checker groups). -/
def groupOf (s : Nat) : Nat :=
  if s < 128 then s / 32
  else if s < 192 then 4
  else if s < 320 then 5
  else if s < 448 then 6
  else if s < 576 then 7 + (s - 448) / 4
  else if s < 640 then 39
  else if s < 1152 then 40 + (s - 640) / 32
  else if s < 1280 then 56 + (s - 1152) / 8
  else if s < 1344 then 72 + (s - 1280) / 32
  else if s < 1408 then 74
  else if s < 1456 then 75
  else if s < 1472 then 76
  else if s < 1504 then 77
  else 78

/-! ### CRC32C (05 R159), used by the log ring's CHECK (17 R439) -/

/-- One bit of the reflected CRC with polynomial constant `k`. -/
def crcBit (k crc : Nat) : Nat := if crc % 2 = 1 then (crc / 2) ^^^ k else crc / 2

/-- One byte of a reflected CRC. -/
def crcByte (k crc : Nat) (b : Byte) : Nat :=
  (List.range 8).foldl (fun c _ => crcBit k c) (crc ^^^ b.toNat)

/-- CRC32C: reflected 0x1EDC6F41, initial and final value all ones. -/
def crc32c (bs : List Byte) : Nat := (bs.foldl (crcByte 0x82F63B78) 0xFFFFFFFF) ^^^ 0xFFFFFFFF

end Sys2Proof.Machine
end

