-- ==== Sys2Proof/Machine/Aes.lean ====
section
/-! DEFINITION. The cryptographic functions that the manual names: AES-256 (FIPS 197), CMAC (NIST SP 800-38B), GHASH (NIST SP
800-38D) and the counter-mode KDF (NIST SP 800-108r1) (06 R165-R171). Their texts are outside the manual (log 7). -/

namespace Sys2Proof.Machine

/-- Bytes of a number, most significant first, and back. -/
def be (n v : Nat) : List Byte := (le n v).reverse
def ofBe (l : List Byte) : Nat := l.foldl (fun n b => 256 * n + b.toNat) 0

/-- Bytes XORed one by one. -/
def xorBytes (a b : List Byte) : List Byte := List.zipWith (· ^^^ ·) a b

/-! ### AES-256 -/

/-- Multiplication by x in the field of AES. -/
def aesX (a : Byte) : Byte := if a.getLsbD 7 then (a <<< 1) ^^^ 0x1B else a <<< 1

/-- The product in the field of AES, over the bits of `b` from bit `n` on. -/
def aesMul : Nat → Byte → Byte → Byte
  | 0, _, _ => 0
  | n + 1, a, b => (if b.getLsbD 0 then a else 0) ^^^ aesMul n (aesX a) (b >>> 1)

/-- The square, and the inverse: the 254th power. -/
def aesSq (a : Byte) : Byte := aesMul 8 a a
def aesInv (a : Byte) : Byte :=
  let p2 := aesSq a
  let p3 := aesMul 8 p2 a
  let p12 := aesSq (aesSq p3)
  let p15 := aesMul 8 p12 p3
  let p240 := aesSq (aesSq (aesSq (aesSq p15)))
  aesMul 8 p240 (aesMul 8 p12 p2)

/-- The substitution box. -/
def aesSub (a : Byte) : Byte :=
  let v := aesInv a
  v ^^^ v.rotateLeft 1 ^^^ v.rotateLeft 2 ^^^ v.rotateLeft 3 ^^^ v.rotateLeft 4 ^^^ 0x63

/-- Rows of the state shifted: byte r + 4c comes from column c + r. -/
def aesShift (s : List Byte) : List Byte :=
  (List.range 16).map fun i => s.getD ((i % 4 + 4 * ((i / 4 + i % 4) % 4)) % 16) 0

/-- A column of the state mixed. -/
def aesMixCol (c : List Byte) : List Byte :=
  (List.range 4).map fun i =>
    let at_ := fun k : Nat => c.getD ((i + k) % 4) 0
    aesX (at_ 0) ^^^ (aesX (at_ 1) ^^^ at_ 1) ^^^ at_ 2 ^^^ at_ 3

def aesMix (s : List Byte) : List Byte :=
  ((List.range 4).map fun c => aesMixCol ((s.drop (4 * c)).take 4)).flatten

/-- The next word of the key schedule, from the words so far, the last first; `i` is its index. -/
def aesNextWord (ws : List (List Byte)) (i : Nat) (rcon : Byte) : List Byte :=
  let last := ws.headD []
  let t :=
    if i % 8 = 0 then xorBytes ((last.drop 1 ++ last.take 1).map aesSub) [rcon, 0, 0, 0]
    else if i % 8 = 4 then last.map aesSub else last
  xorBytes (ws.getD 7 []) t

/-- The 60 words of the key schedule, the last first. -/
def aesSchedule (key : List Byte) : List (List Byte) :=
  let first := ((List.range 8).map fun i => (key.drop (4 * i)).take 4).reverse
  ((List.range 52).foldl (fun (x : List (List Byte) × Byte) k =>
    let i := k + 8
    (aesNextWord x.1 i x.2 :: x.1, if i % 8 = 0 then aesX x.2 else x.2)) (first, 1)).1

/-- AES-256 of one block: its bytes, the first as the standard writes it first. -/
def aesBytes (key block : List Byte) : List Byte :=
  let ws := (aesSchedule key).reverse
  let rk := fun r : Nat => ((ws.drop (4 * r)).take 4).flatten
  let s := (List.range 13).foldl (fun s r =>
    xorBytes (aesMix (aesShift (s.map aesSub))) (rk (r + 1))) (xorBytes block (rk 0))
  xorBytes (aesShift (s.map aesSub)) (rk 14)

/-- AES-256 of a block whose bits [127:120] are its first byte (06 R167). -/
def aes (key : BitVec 256) (block : BitVec 128) : List Byte := aesBytes (be 32 key.toNat) (be 16 block.toNat)

/-! ### CMAC and the KDF -/

/-- Doubling in the field of CMAC. -/
def cmacDouble (b : List Byte) : List Byte :=
  let v := ofBe b
  be 16 (Nat.xor (2 * v % 2 ^ 128) (if 2 ^ 127 ≤ v then 0x87 else 0))

/-- CBC over whole blocks, the last one already masked. -/
def cbcMac (key : List Byte) : List Byte → List (List Byte) → List Byte
  | x, [] => x
  | x, b :: t => cbcMac key (aesBytes key (xorBytes x b)) t

/-- The 16-byte blocks of a message; the last may be short. -/
def blocks16 (m : List Byte) : List (List Byte) :=
  (List.range ((m.length + 15) / 16)).map fun i => (m.drop (16 * i)).take 16

/-- AES-256-CMAC. -/
def cmac (key msg : List Byte) : List Byte :=
  let k1 := cmacDouble (aesBytes key (zeros 16))
  let k2 := cmacDouble k1
  let bs := blocks16 msg
  let last := bs.getLastD []
  let fin := if last.length = 16 then xorBytes last k1
    else xorBytes (last ++ [0x80] ++ zeros (15 - last.length)) k2
  cbcMac key (zeros 16) (bs.dropLast ++ [fin])

/-- ASCII bytes of a label. -/
def ascii (s : String) : List Byte := s.toList.map fun c => BitVec.ofNat 8 c.toNat

/-- What is fed to the PRF after the block counter: label, separator, context and output length (06 R165). -/
def kdfInput (label : String) (context : List Byte) (bits : Nat) : List Byte :=
  ascii label ++ [0] ++ context ++ be 4 bits

/-- The KDF in counter mode, with a 32-bit block counter from 1 (06 R165): `bits` of output. -/
def kdf (root : BitVec 256) (label : String) (context : List Byte) (bits : Nat) : List Byte :=
  (((List.range ((bits + 127) / 128)).map fun i =>
    cmac (be 32 root.toNat) (be 4 (i + 1) ++ kdfInput label context bits)).flatten).take (bits / 8)

/-! ### GHASH -/

/-- The product in the field of GCM, over the bits of `x` from the first on; bit 0 of GCM is the highest of the number. -/
def gcmMul : Nat → Nat → Nat → Nat
  | 0, _, _ => 0
  | n + 1, x, v =>
    let half := v / 2
    let v' := if v % 2 = 1 then Nat.xor half (0xE1 * 2 ^ 120) else half
    Nat.xor (if x.testBit n then v else 0) (gcmMul n x v')

/-- GHASH of 16-byte blocks under a hash key. -/
def ghash (h : List Byte) (bs : List (List Byte)) : List Byte :=
  be 16 (bs.foldl (fun y b => gcmMul 128 (Nat.xor y (ofBe b)) (ofBe h)) 0)

/-- The length block: bits of AD and of ciphertext (06 R170, R171). -/
def lengthBlock (ad ct : Nat) : List Byte := be 8 ad ++ be 8 ct

end Sys2Proof.Machine
end

