-- ==== Sys2Proof/Machine/Deflate.lean ====
section
/-! DEFINITION. DEFLATE streams and their zlib and gzip framings, decoded and encoded (05 R136, R137, R146, R147), and the check
sums of the manual (05 R146; 12 R327). RFC 1950, 1951 and 1952 are outside the manual (log 7). -/

namespace Sys2Proof.Machine

open Config (Token)

/-! ### Check sums -/

/-- A reflected CRC of `bits` bits over bytes that continues from a result. -/
def crcOver (bits poly prior : Nat) (bs : List Byte) : Nat :=
  let ones := 2 ^ bits - 1
  (bs.foldl (crcByte poly) (prior ^^^ ones)) ^^^ ones

/-- The CRC-32 of RFC 1952 (05 R146; 12 R327). -/
def crc32 (bs : List Byte) : Nat := crcOver 32 0xEDB88320 0 bs

/-- The CRC-16 of control frames (12 R327): polynomial 0x1021, not reflected, preset 0xFFFF. -/
def crc16 (bs : List Byte) : Nat :=
  bs.foldl (fun c b => (List.range 8).foldl (fun x _ =>
    if 0x8000 ≤ x then (2 * x ^^^ 0x11021) else 2 * x) (c ^^^ b.toNat * 256)) 0xFFFF

/-- Adler-32 over bytes that continues from a value; the first is 1 (05 R146). -/
def adlerOver (prior : Nat) (bs : List Byte) : Nat :=
  let x := bs.foldl (fun (x : Nat × Nat) b => let a := (x.1 + b.toNat) % 65521; (a, (x.2 + a) % 65521))
    (prior % 65536, prior / 65536)
  x.2 * 65536 + x.1

/-! ### Bits -/

/-- Bits of bytes, the least significant of each byte first. -/
def bitsLsb (bs : List Byte) : List Bool := (bs.map fun b => (List.range 8).map fun i => b.getLsbD i).flatten

/-- The number of a list of bits, the first the least significant. -/
def ofBits : List Bool → Nat
  | [] => 0
  | b :: t => b2n b + 2 * ofBits t

/-- Whole bytes of a list of bits, and the bits left; `n` bounds the bytes. -/
def packBits : Nat → List Bool → List Byte × List Bool
  | 0, l => ([], l)
  | n + 1, l =>
    if l.length < 8 then ([], l)
    else
      let r := packBits n (l.drop 8)
      (BitVec.ofNat 8 (ofBits (l.take 8)) :: r.1, r.2)

/-- Bytes of a list of bits, the last filled up with zeros. -/
def packAll (l : List Bool) : List Byte :=
  let r := packBits (l.length / 8) l
  if r.2.isEmpty then r.1 else r.1 ++ [BitVec.ofNat 8 (ofBits r.2)]

/-- `n` bits of `v`, the least significant first. -/
def bitsOfNat (n v : Nat) : List Bool := (List.range n).map v.testBit

/-! ### Codes (RFC 1951, 3.2) -/

/-- A canonical code: length, code, symbol. -/
def canonical (lens : List Nat) : List (Nat × Nat × Nat) :=
  let syms := lens.zipIdx
  let count := fun n : Nat => if n = 0 then 0 else lens.countP (· == n)
  ((List.range 15).foldl (fun (x : Nat × List (Nat × Nat × Nat)) i =>
    let n := i + 1
    let first := (x.1 + count i) * 2
    let mine := syms.filterMap fun y => if y.1 = n then some y.2 else none
    (first, x.2 ++ mine.mapIdx fun k v => (n, first + k, v))) (0, [])).2

/-- More codes of some length than there is room for. -/
def overFull (lens : List Nat) : Bool :=
  decide (2 ^ 15 < (lens.map fun n => if n = 0 then 0 else 2 ^ (15 - n)).sum)

/-- A symbol read from bits. -/
inductive SymRes where
  | sym (v : Nat) (rest : List Bool)
  | short
  | bad

/-- Read a symbol: `n` bits at most remain, `len` were read as `code`. -/
def readSym (t : List (Nat × Nat × Nat)) : Nat → Nat → Nat → List Bool → SymRes
  | 0, _, _, _ => .bad
  | _, _, _, [] => .short
  | n + 1, len, code, b :: bits =>
    let code := 2 * code + b2n b
    match t.find? fun x => x.1 == len + 1 && x.2.1 == code with
    | some x => .sym x.2.2 bits
    | none => readSym t n (len + 1) code bits

/-- Extra bits and base of the length code 257 + i, and of the distance code i. -/
def lenExtra (i : Nat) : Nat := if i < 8 ∨ i = 28 then 0 else (i - 4) / 4
def lenBase (i : Nat) : Nat :=
  if i < 8 then 3 + i else if i = 28 then 258 else 3 + (4 + i % 4) * 2 ^ lenExtra i
def distExtra (i : Nat) : Nat := if i < 4 then 0 else (i - 2) / 2
def distBase (i : Nat) : Nat := if i < 4 then 1 + i else 1 + (2 + i % 2) * 2 ^ distExtra i

/-- Code lengths of the fixed codes. -/
def fixedLit : List Nat :=
  List.replicate 144 8 ++ List.replicate 112 9 ++ List.replicate 24 7 ++ List.replicate 8 8
def fixedDist : List Nat := List.replicate 30 5

/-! ### Decoding -/

/-- What decoding came to: the output, last byte first; `more` where the input ended too early. -/
inductive InfRes where
  | done (out : List Byte) (rest : List Bool)
  | more (out : List Byte)
  | bad

/-- Output with a copy of `len` bytes from `dist` back. -/
def copyBack (dist : Nat) : Nat → List Byte → List Byte
  | 0, out => out
  | n + 1, out => copyBack dist n (out.getD (dist - 1) 0 :: out)

/-- Symbols of a block up to its end; `max` is the longest distance allowed. -/
def inflSyms (lit dist : List (Nat × Nat × Nat)) (max : Nat) : Nat → List Bool → List Byte → InfRes
  | 0, _, out => .more out
  | n + 1, bits, out =>
    match readSym lit 15 0 0 bits with
    | .bad => .bad
    | .short => .more out
    | .sym v rest =>
      if v < 256 then inflSyms lit dist max n rest (BitVec.ofNat 8 v :: out)
      else if v = 256 then .done out rest
      else if 286 ≤ v then .bad
      else
        let e := lenExtra (v - 257)
        let len := lenBase (v - 257) + ofBits (rest.take e)
        match readSym dist 15 0 0 (rest.drop e) with
        | .bad => .bad
        | .short => .more out
        | .sym d rest' =>
          let x := distExtra d
          let back := distBase d + ofBits (rest'.take x)
          if rest'.length < x then .more out
          else if 30 ≤ d ∨ max < back ∨ out.length < back then .bad
          else inflSyms lit dist max n (rest'.drop x) (copyBack back len out)

/-- Code lengths of a dynamic block, `need` of them, by the code-length code `cl`; the lengths so far, last first. -/
def readLens (cl : List (Nat × Nat × Nat)) (need : Nat) : Nat → List Bool → List Nat → Option (Option (List Nat × List Bool))
  | 0, _, _ => some none
  | n + 1, bits, acc =>
    if need ≤ acc.length then (if need = acc.length then some (some (acc.reverse, bits)) else none)
    else match readSym cl 7 0 0 bits with
      | .bad => none
      | .short => some none
      | .sym v rest =>
        if v < 16 then readLens cl need n rest (v :: acc)
        else
          let e := if v = 16 then 2 else if v = 17 then 3 else 7
          if rest.length < e then some none
          else if v = 16 ∧ acc = [] then none
          else
            let rep := ofBits (rest.take e) + if v = 18 then 11 else 3
            readLens cl need n (rest.drop e) (List.replicate rep (if v = 16 then acc.headD 0 else 0) ++ acc)

/-- The order in which the lengths of the code-length code stand. -/
def clOrder : List Nat := [16, 17, 18, 0, 8, 7, 9, 6, 10, 5, 11, 4, 12, 3, 13, 2, 14, 1, 15]

/-- The two codes of a dynamic block: none where they are invalid, `some none` where the input is short. -/
def dynCodes (bits : List Bool) :
    Option (Option (List (Nat × Nat × Nat) × List (Nat × Nat × Nat) × List Bool)) :=
  let hlit := ofBits (bits.take 5) + 257
  let hdist := ofBits ((bits.drop 5).take 5) + 1
  let hclen := ofBits ((bits.drop 10).take 4) + 4
  let rest := bits.drop 14
  if rest.length < 3 * hclen then some none
  else
    let given := (List.range hclen).map fun i => (clOrder.getD i 0, ofBits ((rest.drop (3 * i)).take 3))
    let cl := (List.range 19).map fun k => (aget given k).getD 0
    if overFull cl ∨ 286 < hlit ∨ 30 < hdist then none
    else match readLens (canonical cl) (hlit + hdist) (bits.length + 1) (rest.drop (3 * hclen)) [] with
      | none => none
      | some none => some none
      | some (some (lens, rest)) =>
        let lit := lens.take hlit
        let dist := lens.drop hlit
        if overFull lit ∨ overFull dist ∨ lit.getD 256 0 = 0 then none else some (some (canonical lit, canonical dist, rest))

/-- A stored block: `all` is the number of bits of the whole input, from which the place in its byte follows. -/
def inflStored (all : Nat) (bits : List Bool) (out : List Byte) : InfRes :=
  let bits := bits.drop (bits.length % 8)
  let len := ofBits (bits.take 16)
  let rest := bits.drop 32
  if bits.length < 32 ∨ all < bits.length then .more out
  else if len + ofBits ((bits.drop 16).take 16) ≠ 65535 then .bad
  else
    let data := (packBits len (rest.take (8 * len))).1
    if rest.length < 8 * len then .more (data.reverse ++ out) else .done (data.reverse ++ out) (rest.drop (8 * len))

/-- Blocks up to the last one. `stored` admits stored blocks; the first argument bounds the blocks. -/
def inflBlocks (stored : Bool) (max all : Nat) : Nat → List Bool → List Byte → InfRes
  | 0, _, out => .more out
  | n + 1, bits, out =>
    match bits with
    | fin :: b0 :: b1 :: rest =>
      let r : InfRes :=
        if b0 = false ∧ b1 = false then (if stored then inflStored all rest out else .bad)
        else if b0 = true ∧ b1 = false then inflSyms (canonical fixedLit) (canonical fixedDist) max rest.length rest out
        else if b0 = false then
          match dynCodes rest with
          | none => .bad
          | some none => .more out
          | some (some (lit, dist, rest)) => inflSyms lit dist max (rest.length + 1) rest out
        else .bad
      match r with
      | .done out rest => if fin then .done out rest else inflBlocks stored max all n rest out
      | .more out => .more out
      | .bad => .bad
    | _ => .more out

/-- A raw DEFLATE stream at the head of some bytes. -/
def inflate (stored : Bool) (max : Nat) (bs : List Byte) : InfRes :=
  inflBlocks stored max (8 * bs.length) (8 * bs.length + 1) (bitsLsb bs) []

/-- The page of an in-line stream (05 R137): none is a decode failure. -/
def inflatePage (stream : List Byte) : Option (List Byte) :=
  match inflate false 4096 stream with
  | .done out _ => if out.length = 4096 then some out.reverse else none
  | .more _ | .bad => none

/-! ### Framings (05 R146, R147) -/

/-- What the decoding of a framed stream came to: output, source bytes up to its end once it is complete, or an error. -/
structure Decoded where
  out : List Byte
  used : Option Nat
  bad : Bool

/-- The header of a zlib stream: none too short, `some none` not acceptable, else its length. -/
def zlibHeader (log : Nat) (bs : List Byte) : Option (Option Nat) :=
  let cmf := byteAt bs 0
  let flg := byteAt bs 1
  if bs.length < 2 then none
  else if cmf % 16 ≠ 8 ∨ log < cmf / 16 + 8 ∨ flg.testBit 5 = true ∨ (256 * cmf + flg) % 31 ≠ 0 then some none
  else some (some 2)

/-- Bytes of a zero-terminated string, its end included. -/
def cstring (bs : List Byte) : Option Nat := (bs.findIdx? (· == 0)).map (· + 1)

/-- The header of a gzip member. -/
def gzipHeader (bs : List Byte) : Option (Option Nat) :=
  let flg := byteAt bs 3
  if bs.length < 10 then none
  else if ofLe bs 0 2 ≠ 0x8B1F ∨ byteAt bs 2 ≠ 8 ∨ 32 ≤ flg then some none
  else
    let skipX : Option Nat :=
      if flg.testBit 2 then (if bs.length < 12 then none else some (12 + ofLe bs 10 2)) else some 10
    let skipS : Bool → Option Nat → Option Nat := fun on o =>
      match o with
      | some n => if on then (cstring (bs.drop n)).map (n + ·) else some n
      | none => none
    match skipS (flg.testBit 4) (skipS (flg.testBit 3) skipX) with
    | some n =>
      if flg.testBit 1 then
        if bs.length < n + 2 then none
        else if ofLe bs n 2 = crc32 (bs.take n) % 65536 then some (some (n + 2)) else some none
      else if bs.length < n then none else some (some n)
    | none => none

/-- Bytes of the trailer of a framing. -/
def trailerLen (framing : Nat) : Nat := if framing = 1 then 4 else if framing = 2 then 8 else 0

/-- The trailer of an output. -/
def trailerOk (framing : Nat) (out t : List Byte) : Bool :=
  if framing = 1 then ofBeBytes (t.take 4) == adlerOver 1 out
  else if framing = 2 then ofLe t 0 4 == crc32 out && ofLe t 4 4 == out.length % 2 ^ 32
  else true
where
  /-- A number whose first byte is the most significant. -/
  ofBeBytes (l : List Byte) : Nat := l.foldl (fun n b => 256 * n + b.toNat) 0

/-- Decode a stream, or what has come of it, with windows up to 2^`log` (05 R147). -/
def decodeStream (framing log : Nat) (bs : List Byte) : Decoded :=
  let head := if framing = 1 then zlibHeader log bs else if framing = 2 then gzipHeader bs else some (some 0)
  match head with
  | none => ⟨[], none, false⟩
  | some none => ⟨[], none, true⟩
  | some (some n) =>
    match inflate true (2 ^ log) (bs.drop n) with
    | .bad => ⟨[], none, true⟩
    | .more out => ⟨out.reverse, none, false⟩
    | .done out rest =>
      let out := out.reverse
      let body := bs.length - rest.length / 8
      let t := bs.drop body
      if t.length < trailerLen framing then ⟨out, none, false⟩
      else if trailerOk framing out t then ⟨out, some (body + trailerLen framing), false⟩
      else ⟨out, none, true⟩

/-! ### Encoding (05 R136, R143, R146) -/

/-- Output of tokens after earlier bytes, last byte first. -/
def expandTokens (out : List Byte) (ts : List Token) : List Byte :=
  ts.foldl (fun o t => match t with
    | .lit b => b :: o
    | .copy len dist => copyBack dist len o) out

/-- A token that DEFLATE can say, with a distance within `max` and within what came before. -/
def tokensOk (max : Nat) (out : List Byte) (ts : List Token) : Bool :=
  (ts.foldl (fun (x : Bool × Nat) t => match t with
    | .lit _ => (x.1, x.2 + 1)
    | .copy len dist =>
      (x.1 && decide (3 ≤ len ∧ len ≤ 258) && decide (1 ≤ dist ∧ dist ≤ max ∧ dist ≤ x.2), x.2 + len)) (true, out.length)).1

/-- The parse of some bytes after a window (05 R143): the microcode's, where it is one; else each byte by itself. -/
def parseOf (ver max : Nat) (win bs : List Byte) : List Token :=
  let t := Config.parse ver max win bs
  if tokensOk max win.reverse t && (expandTokens win.reverse t == bs.reverse ++ win.reverse) then t else bs.map .lit

/-- A code of `n` bits, the most significant first. -/
def codeBits (n v : Nat) : List Bool := (bitsOfNat n v).reverse

/-- The bits of a symbol in a canonical code. -/
def symBits (t : List (Nat × Nat × Nat)) (v : Nat) : List Bool :=
  match t.find? fun x => x.2.2 == v with
  | some x => codeBits x.1 x.2.1
  | none => []

/-- The last of the codes whose base is not above a value. -/
def codeFor (n : Nat) (base : Nat → Nat) (v : Nat) : Nat :=
  (((List.range n).filter fun i => decide (base i ≤ v)).getLast?).getD 0

/-- A token in fixed codes. -/
def fixedToken (t : Token) : List Bool :=
  match t with
  | .lit b => symBits (canonical fixedLit) b.toNat
  | .copy len dist =>
    let l := if len = 258 then 28 else codeFor 28 lenBase len
    let d := codeFor 30 distBase dist
    symBits (canonical fixedLit) (257 + l) ++ bitsOfNat (lenExtra l) (len - lenBase l)
      ++ symBits (canonical fixedDist) d ++ bitsOfNat (distExtra d) (dist - distBase d)

/-- A block with fixed codes. -/
def fixedBlock (fin : Bool) (ts : List Token) : List Bool :=
  [fin, true, false] ++ (ts.map fixedToken).flatten ++ symBits (canonical fixedLit) 256

/-- A block with dynamic codes: the microcode's, where it is a block of type 0b10 that says these tokens after what came
before; else one with fixed codes. -/
def dynBlock (ver : Nat) (fin : Bool) (win : List Byte) (ts : List Token) : List Bool :=
  let b := Config.dynBlock ver fin ts
  let ok := b.take 3 == [fin, false, true] &&
    (match dynCodes (b.drop 3) with
     | some (some (lit, dist, rest)) =>
       (match inflSyms lit dist 32768 (rest.length + 1) rest win.reverse with
        | .done out rest => out == expandTokens win.reverse ts && rest.isEmpty
        | .more _ | .bad => false)
     | _ => false)
  if ok then b else fixedBlock fin ts

/-- The stream of a page in one kind of codes (05 R136). -/
def pageStream (ver : Nat) (dynamic : Bool) (page : List Byte) : List Byte :=
  let ts := parseOf ver 4096 [] page
  packAll (if dynamic then dynBlock ver true [] ts else fixedBlock true ts)

/-- The header of a COMPRESS output (05 R146). -/
def streamHeader (framing log : Nat) : List Byte :=
  if framing = 1 then
    let cmf := (log - 8) * 16 + 8
    let flg := 2 * 64
    let chk := (31 - (256 * cmf + flg) % 31) % 31
    [BitVec.ofNat 8 cmf, BitVec.ofNat 8 (flg + chk)]
  else if framing = 2 then [0x1F, 0x8B, 8, 0, 0, 0, 0, 0, 0, 255]
  else []

/-- Its trailer, from the check sum over the data and their length. -/
def streamTrailer (framing sum len : Nat) : List Byte :=
  if framing = 1 then (le 4 sum).reverse else if framing = 2 then le 4 sum ++ le 4 len else []

end Sys2Proof.Machine
end

