-- ==== Sys2Proof/Machine/Flags.lean ====
section
/-! DEFINITION. Flags and conditions computed from the state: classes in force, rank and untimed, health and redundancy,
key-range admission, semantics of a head, return codes of status codes. -/

namespace Sys2Proof.Machine

/-! ### Access to parts of the state -/

def State.head (s : State) (h : Nat) : Head := s.host.heads.getD h {}
def State.slot (s : State) (i : Nat) : Slot := s.slots.slots.getD i {}
def State.dom (s : State) (d : Nat) : Domain := s.power.doms.getD d {}
def State.mon (s : State) (r : Nat) : Monitor := s.power.mons.getD r {}
def State.unit (s : State) (i : Nat) : UnitSt := s.dur.units.getD i {}
/-- Key range `r`; 16 is the device range (06 R164, R170). -/
def State.range (s : State) (r : Nat) : KeyRange := if r = 16 then s.keys.device else s.keys.ranges.getD r {}
def State.coll (s : State) (n : Nat) : Collector := s.flt.colls.getD n {}
def State.group (s : State) (n : Nat) : Group := s.flt.groups.getD n {}

/-! ### Events -/

/-- Class in force of a source: the reaction table's entry, or the default (18 R461); 0 (NONE) for a reserved source. -/
def classOf (s : State) (src : Nat) : Nat := (aget s.flt.react src).getD ((defaultClass src).getD 0)

/-! ### Key ranges -/

/-- One GiB in bytes. -/
def gib : Nat := 2 ^ 30

/-- Whether byte address `a` lies in key range `r` (06 R161). -/
def KeyRange.covers (r : KeyRange) (a : Nat) : Bool :=
  r.valid && decide (r.baseGib * gib ≤ a) && decide (a < (r.baseGib + r.sizeGib) * gib)

/-- The valid key range of a device-local byte address (06 R161). -/
def rangeAt (s : State) (a : Nat) : Option Nat :=
  (List.range 16).find? fun r => (s.range r).covers a

/-- The range under which an address is encrypted: the device range (16) holds the map's own pages, at and above byte 2^52 of
the model's numbering (06 R164, R168). -/
def keyRangeOf (s : State) (a : Nat) : Option Nat := if 2 ^ 52 ≤ a then some 16 else rangeAt s a

/-- The number whose bit `i` is `f i`, for `i` below `n`. -/
def bitsOf (n : Nat) (f : Nat → Bool) : Nat := ((List.range n).map fun i => b2n (f i) * 2 ^ i).sum

/-- Whether the head mask of the address's range admits a head; no range admits none (06 R161). -/
def admits (s : State) (h a : Nat) : Bool :=
  match rangeAt s a with
  | some r => (s.range r).mask.getLsbD h
  | none => false

/-! ### Heads -/

/-- The head carries a link: present and up. -/
def headUp (s : State) (h : Nat) : Bool := (s.head h).present && (s.head h).up

/-- Whether the link runs in 256-byte flit mode: at 64 GT/s only (09 R248). -/
def Head.flit256 (h : Head) : Bool := h.up && h.rate == 64

/-- Whether the head is served with HDM-DB semantics (09 R249). -/
def Head.biActive (h : Head) : Bool := h.flit256 && h.biEnable && h.biId

/-- Port of a head. -/
def portOf (h : Nat) : Nat := h / 2

/-- Whether head `h` manages (14 R378). -/
def isManaging (s : State) (h : Nat) : Bool := s.crity.managing == some h

/-! ### Health and redundancy -/

/-- A unit that is not HEALTHY in the sense of R98: LOST, HELD, REFILL or UNTRUSTED. -/
def Health.reduced : Health → Bool
  | .lost | .held | .refill | .untrusted => true
  | .healthy | .absent => false

/-- State codes of R98. -/
def Health.code : Health → Nat
  | .healthy => 0 | .lost => 1 | .held => 2 | .refill => 3 | .absent => 4 | .untrusted => 5

/-- Some unit is not HEALTHY (04 R98, 14 GET_HEALTH_SUMMARY). -/
def reduced (s : State) : Bool := s.dur.units.any (·.health.reduced)

/-- A unit may be read: in service and not fenced (04 R98, R99). -/
def UnitSt.readable (u : UnitSt) : Bool := u.health == .healthy && !u.fenced

/-- Channels with every fitted DIMM HEALTHY and unfenced, of which warm barges take their members (04 R102). -/
def healthyChannel (s : State) (c : Nat) : Bool :=
  let a := s.unit (2 * c)
  let b := s.unit (2 * c + 1)
  (a.readable || b.readable) && (a.readable || a.health == .absent) && (b.readable || b.health == .absent)

/-! ### Chain time -/

/-- A tick count within 64 bits (02 R8). -/
def wrap64 (n : Nat) : Nat := n % 2 ^ 64

/-- The device's rank: 3 TREF, 2 holdover, 1 host, 0 free (02, table of ranks; R41 caps it at 1 while TREF_IN is
disabled). -/
def TimeState.rank (t : TimeState) : Nat :=
  if t.trefHeld && t.enTref then 3
  else if t.enTref && t.lostAt.isSome then 2
  else if t.hostSet then 1
  else 0

/-- Untimed: rank 0 and no upstream (02 R49). -/
def TimeState.isUntimed (t : TimeState) : Bool := t.rank == 0 && !t.following

/-- Seconds and fraction of a chain time (02 R8). -/
def seconds (t : Nat) : Nat := t / 2 ^ 24
def fraction (t : Nat) : Nat := t % 2 ^ 24

/-- The berth in force: chain time bits [23:18] (02 R52). -/
def TimeState.berthNow (t : TimeState) : Nat := t.chain / 2 ^ 18 % 64

/-- Start of the current regulation window (02 R51). -/
def TimeState.windowStart (t : TimeState) : Nat := t.chain / 2 ^ t.w * 2 ^ t.w

/-- The berth map of agent `a` has the berth in force (02 R53). -/
def TimeState.inBerth (t : TimeState) (a : Nat) : Bool := (t.berth.getD a 0).getLsbD t.berthNow

/-! ### Status codes -/

/-- The CXL return code of a Walben status code (14 R389). -/
def rcOf (wsc : Nat) : Rc :=
  if wsc = 0 then .success
  else if wsc = 0x0001 then .unsupported
  else if wsc = 0x0004 then .invalidPayloadLength
  else if wsc = 0x0006 then .mediaDisabled
  else if wsc = 0x0205 ∨ wsc = 0x0306 ∨ wsc = 0x0502 ∨ wsc = 0x0605 ∨ wsc = 0x0703 then .busy
  else if wsc = 0x0506 ∨ wsc = 0x0508 then .retryRequired
  else if wsc = 0x0A01 ∨ wsc = 0x0A02 then .invalidSecurityState
  else .invalidInput

/-- The number of a return code in logs. PRESUMED: the numbers of CXL 3.1, which the manual does not repeat (log 8). -/
def Rc.code : Rc → Nat
  | .success => 0x0 | .backgroundStarted => 0x1 | .invalidInput => 0x2 | .unsupported => 0x3
  | .retryRequired => 0x5 | .busy => 0x6 | .mediaDisabled => 0x7 | .fwTransferInProgress => 0x8
  | .fwTransferOutOfOrder => 0x9 | .fwVerificationFailed => 0xA | .activationRolledBack => 0xC
  | .activationColdReset => 0xD | .invalidHandle => 0xE | .invalidPhysicalAddress => 0xF
  | .injectPoisonLimit => 0x10 | .invalidSecurityState => 0x13 | .invalidPayloadLength => 0x16
  | .invalidLog => 0x17

/-! ### State codes -/

/-- STATE of PWR_DOMAIN (15). -/
def DomSt.code : DomSt → Nat
  | .off => 0 | .on => 1 | .draining => 2 | .poweringOff => 3 | .waking => 4 | .asking => 5

/-- State codes of a slot (16). -/
def SlotSt.code : SlotSt → Nat
  | .off => 0 | .waiting => 1 | .starting => 2 | .ramp => 3 | .qualify => 4 | .on => 5 | .stopping => 6
  | .backoff => 7 | .latched => 8 | .fetShort => 9

/-- The gate is on in RAMP, QUALIFY and ON (16). -/
def SlotSt.gateOn : SlotSt → Bool
  | .ramp | .qualify | .on => true
  | .off | .waiting | .starting | .stopping | .backoff | .latched | .fetShort => false

/-- A power-up is under way or the slot is ON. -/
def SlotSt.powering : SlotSt → Bool
  | .waiting | .starting | .ramp | .qualify | .on | .backoff => true
  | .off | .stopping | .latched | .fetShort => false

/-! ### Outings (14 R381-R387) -/

/-- RUNNING or PAUSED. -/
def Outing.open_ (o : Outing) : Bool := decide (o.state ≤ 1)

/-- Kinds PAUSE_OUTING accepts (14 table of kinds). -/
def kindPausable (k : Nat) : Bool := k != 0x05 && k != 0x0B

/-- Only stage outings can be aborted (14 table of kinds). -/
def kindAbortable (k : Nat) : Bool := k == 0x0A

/-- The master an outing runs as (14 table of kinds). -/
def kindMaster (k : Nat) : Nat :=
  if k ≤ 0x07 then 12 else if k = 0x0A then 10 else 13

/-- PERCENT of an open outing (14 R383). -/
def openPercent (done total : Nat) : Nat := if total = 0 then 10000 else min 9999 (10000 * done / total)

/-- The power phase in which Keeper firmware runs. -/
def Phase.keeper : Phase → Bool
  | .bringup | .ready => true
  | .auxOff | .recovery | .aux | .sequence _ | .keepWake => false

/-- The lengthsman runs: its image is loaded and it is not restarting (17 R445; 20 R484). -/
def lmRuns (s : State) : Bool :=
  !s.lm.restarting && (match s.boot.phase with | .auxOff | .recovery => false | _ => true)

/-- Control is paused: a Keeper takeover is under way (17 R445, R448), or a device reset reloads Keeper firmware
(20 R498). -/
def keeperPaused (s : State) : Bool :=
  (match s.lm.activation with
   | some a => (match a.step with | .keeper | .restoring => true | _ => false)
   | none => false)
  || s.boot.devReset.isSome

end Sys2Proof.Machine
end

