-- ==== Sys2Proof/Machine/Ops.lean ====
section
/-! DEFINITION. The named operations over the state: memory, registers' homes, interrupts, events and their delivery
(18 R453-R466), log records (17 R439-R440), outings (14 R381-R386), the loss list (04 R118), halt (18 R467). -/

namespace Sys2Proof.Machine

/-- The outcomes of a command. -/
abbrev Out := Host.Outcome State Fault Refusal

/-- A command that names unit `n` of `bound` such units; a unit the device does not have stops the step. -/
def onUnit (n bound : Nat) (t : State) : Out := if n < bound then .next t else .fault .noSuchUnit

/-! ### Memory: (address, byte) pairs, addresses rising, no zero byte listed -/

/-- The canonical form of memory. -/
def Memory.wf : List Host.Cell → Bool
  | [] => true
  | [c] => c.2 != 0
  | c :: d :: t => decide (c.1 < d.1) && c.2 != 0 && Memory.wf (d :: t)

/-- The byte at an address; an unlisted byte reads as zero (03 R65, R74). -/
def Memory.read : List Host.Cell → Nat → Byte
  | [], _ => 0
  | (k, b) :: t, a => if a = k then b else Memory.read t a

/-- Write one byte, keeping the form. -/
def Memory.write : List Host.Cell → Nat → Byte → List Host.Cell
  | [], a, v => if v = 0 then [] else [(a, v)]
  | (k, b) :: t, a, v =>
    if a < k then (if v = 0 then (k, b) :: t else (a, v) :: (k, b) :: t)
    else if a = k then (if v = 0 then t else (a, v) :: t)
    else (k, b) :: Memory.write t a v

/-- Write `bs` from address `a` upwards. -/
def Memory.writeBytes : List Host.Cell → Nat → List Byte → List Host.Cell
  | m, _, [] => m
  | m, a, b :: bs => Memory.writeBytes (Memory.write m a b) (a + 1) bs

/-- `n` bytes from address `a`. -/
def Memory.readBytes (m : List Host.Cell) (a n : Nat) : List Byte := (List.range n).map fun i => Memory.read m (a + i)

/-- Zero every byte of page `p` (03 R74; 06 R187). -/
def Memory.clearPage (m : List Host.Cell) (p : Nat) : List Host.Cell := m.filter fun c => c.1 / 4096 != p

/-- Byte `i` of a line: byte 0 in bits [7:0] (00 R4). -/
def lineByte (d : Line) (i : Nat) : Byte := (d >>> (8 * i)).setWidth 8

/-- The bytes of a line. -/
def lineBytes (d : Line) : List Byte := (List.range 64).map (lineByte d)

/-- The line at line number `l` (byte address 64 l). -/
def Memory.readLine (m : List Host.Cell) (l : Nat) : Line := BitVec.ofNat 512 (ofLe (Memory.readBytes m (64 * l) 64) 0 64)

/-- The bytes a partial write leaves in line `l`: byte i from the data where mask bit i is set (07 R197). -/
def mergeLine (old new : Line) (mask : BitVec 64) : List Byte :=
  (List.range 64).map fun i => if mask.getLsbD i then lineByte new i else lineByte old i

/-- Write a whole line. -/
def Memory.writeLine (m : List Host.Cell) (l : Nat) (d : Line) : List Host.Cell :=
  Memory.writeBytes m (64 * l) (lineBytes d)

/-! ### Homes of state -/

def State.modHead (s : State) (h : Nat) (f : Head → Head) : State :=
  { s with host := { s.host with heads := s.host.heads.modify h f } }
def State.modSlot (s : State) (i : Nat) (f : Slot → Slot) : State :=
  { s with slots := { s.slots with slots := s.slots.slots.modify i f } }
def State.modDom (s : State) (d : Nat) (f : Domain → Domain) : State :=
  { s with power := { s.power with doms := s.power.doms.modify d f } }
def State.modMon (s : State) (r : Nat) (f : Monitor → Monitor) : State :=
  { s with power := { s.power with mons := s.power.mons.modify r f } }
def State.modUnit (s : State) (i : Nat) (f : UnitSt → UnitSt) : State :=
  { s with dur := { s.dur with units := s.dur.units.modify i f } }
def State.modRange (s : State) (r : Nat) (f : KeyRange → KeyRange) : State :=
  { s with keys :=
    if r = 16 then { s.keys with device := f s.keys.device } else { s.keys with ranges := s.keys.ranges.modify r f } }
def State.emit (s : State) (t : Tx) : State := { s with tx := t :: s.tx }

/-! ### Interrupts (18 R466) -/

/-- Fire MSI-X vector `v` of head `h`: sent when unmasked, else its pending bit is set; D3hot stops delivery (09 R251). -/
def fire (h v : Nat) (s : State) : State :=
  if (s.head h).d3 || (s.head h).mask.getLsbD v
  then s.modHead h fun x => { x with msiPend := x.msiPend ||| BitVec.ofNat 64 (2 ^ v) }
  else s.emit (.msix h v)

/-- Fire a vector on every head of a list. -/
def fireAll (hs : List Nat) (v : Nat) (s : State) : State := hs.foldl (fun t h => fire h v t) s

/-! ### Log records (17 R439, R440) -/

/-- Stage a record for the log ring: the next SEQ is taken at once, the ring is written at LOG_COMMIT. -/
def stage (type cls source count : Nat) (detail : List Byte) (s : State) : State :=
  let r : LogRec := {
    seq := s.lm.nextSeq, type := type, cls := cls, untimed := s.time.untimed,
    dropped := s.lm.droppedFlag, source := source, time := s.time.chain, bootId := s.boot.bootId.toNat,
    count := count, stamp := wrap 24 (seconds s.time.elapsed), detail := (detail ++ zeros 32).take 32 }
  { s with lm := { s.lm with nextSeq := wrap 32 (s.lm.nextSeq + 1), staged := r :: s.lm.staged, droppedFlag := false } }

/-- Count one record dropped at the cap of R440. -/
def dropRec (s : State) : State :=
  { s with lm := { s.lm with droppedFlag := true, droppedCount := addSat 24 s.lm.droppedCount 1 } }

/-- What an event writes to the log ring (17 R440): UC and FT always, DE and the first CE of each source in a berth cycle
up to 128 records a cycle, later CE events counted. -/
def stageEvent (r : EventRec) (first : Bool) (s : State) : State :=
  let detail := le 4 r.eseq ++ r.contents
  if 3 ≤ r.cls then stage 0x01 r.cls r.source 1 detail s
  else if r.cls = 2 ∨ (r.cls = 1 ∧ first = true) then
    if s.lm.cycleRecs < 128 then
      stage 0x01 r.cls r.source 1 detail { s with lm := { s.lm with cycleRecs := s.lm.cycleRecs + 1 } }
    else dropRec s
  else if r.cls = 1 then
    let n := ((aget s.lm.ceCounts r.source).getD 0) + 1
    { s with lm := { s.lm with ceCounts := aset s.lm.ceCounts r.source n } }
  else s

/-! ### Events (18 R453-R465) -/

/-- What an event concerns, which decides the heads it is delivered to (18 R463). -/
inductive Scope where
  | all
  | head (h : Nat)
  | addr (a : Nat)
  deriving DecidableEq, Repr

/-- The heads an event is delivered to (18 R463): only heads whose link is up. -/
def recipients (s : State) (sc : Scope) : List Nat :=
  (List.range 8).filter fun h => headUp s h &&
    (match sc with
     | .all => true
     | .head x => h == x || isManaging s h
     | .addr a => (match rangeAt s a with
        | some _ => admits s h a || isManaging s h
        | none => true))

/-- Enter an event in its group's history queue, merging it into the newest entry where R456 says so. -/
def histEnter (r : EventRec) (window : Nat) (g : Group) : Group :=
  match g.entries with
  | e :: rest =>
    if e.source = r.source ∧ e.kind = r.kind ∧ e.window = window
    then { g with entries := { e with count := addSat 24 e.count 1 } :: rest }
    else { g with entries := (⟨r.eseq, r.source, r.cls, r.injected, r.kind, r.head, 1,
      r.time / 2 ^ 10 % 2 ^ 24, window⟩ :: g.entries).take 8 }
  | [] => { g with entries := [⟨r.eseq, r.source, r.cls, r.injected, r.kind, r.head, 1,
      r.time / 2 ^ 10 % 2 ^ 24, window⟩] }

/-- An event of class CE or above reaches its collector (18 R457). -/
def collEnter (r : EventRec) (now : Nat) (c : Collector) : Collector :=
  let off := r.source % 32
  let c := { c with pend := c.pend ||| BitVec.ofNat 32 (2 ^ off), since := now }
  if c.fault then
    { c with overflow := true, events := addSat 24 c.events 1, worst := max c.worst r.cls }
  else
    { c with fault := true, first := off, firstClass := r.cls, firstEseq := r.eseq, firstTime := r.time, events := 1,
             worst := max c.worst r.cls }

/-- What an event does to fault collection: ESEQ, counts, history and collector (18 R453, R456, R457; frozen while
halted, R460). -/
def fltRecord (r : EventRec) (window now : Nat) (f : FaultState) : FaultState :=
  let g := groupOf r.source
  let f := { f with
    eseq := wrap 32 (f.eseq + 1)
    ceCount := f.ceCount + b2n (r.cls == 1)
    ceSeen := if r.cls = 1 ∧ ¬ f.ceSeen.contains r.source then r.source :: f.ceSeen else f.ceSeen
    groups := f.groups.modify g fun x => { x with
      count := addSat 24 x.count 1, newest := if f.halted then x.newest else r.time } }
  if f.halted then f
  else { f with
    groups := f.groups.modify g (histEnter r window)
    colls := if r.cls = 0 then f.colls else f.colls.modify (r.source / 32) (collEnter r now) }

/-- Add a record to one of a head's event logs, or count it as lost when the log is full (18 R465), and fire the log's
vector where the policy selects MSI-X (18 R466). -/
def logTo (r : EventRec) (h : Nat) (s : State) : State :=
  let i := r.cls - 1
  let l := (s.head h).logs.getD i {}
  if l.records.length < 1024 then
    let s := s.modHead h fun x => { x with logs := x.logs.modify i fun l => { l with records := l.records ++ [r] } }
    if (s.head h).policy.getD i false then fire h r.cls s else s
  else
    s.modHead h fun x => { x with logs := x.logs.modify i fun l =>
      { l with overflow := true, lost := l.lost + 1, firstLost := if l.overflow then l.firstLost else r.time,
               lastLost := r.time } }

/-- Deliver an event (18 R462, R463, R466). -/
def deliver (r : EventRec) (sc : Scope) (first enters : Bool) (s : State) : State :=
  let hs := recipients s sc
  let s := if r.cls = 0 ∨ (r.cls = 1 ∧ first = false) then s else hs.foldl (fun t h => logTo r h t) s
  let s := if enters then fireAll hs (8 + r.source / 32) s else s
  let s := if r.source = 1361 ∨ r.source = 1362 then fireAll hs 56 s else s
  if r.source = 1360 then fireAll hs 57 s else s

/-- Raise one event without the halt of an FT class: number, stamp, history, collector, delivery, log ring. -/
def report (inj : Bool) (src kind hd : Nat) (sc : Scope) (contents : List Byte) (s : State) : State :=
  let cls := classOf s src
  let r : EventRec := { eseq := s.flt.eseq, source := src, cls := cls, injected := inj, kind := kind, head := hd,
                        time := s.time.chain, contents := contents.take 28 }
  let first := !s.flt.ceSeen.contains src
  let enters := !s.flt.halted && cls != 0 && !(s.coll (src / 32)).fault
  let s := { s with flt := fltRecord r s.time.windowStart s.time.elapsed s.flt }
  stageEvent r first (deliver r sc first enters s)

/-! ### Outings (14 R381-R386) -/

def findOuting (s : State) (id : Nat) : Option Outing := s.crity.outings.find? (·.id == id)

def State.modOuting (s : State) (id : Nat) (f : Outing → Outing) : State :=
  { s with crity := { s.crity with outings := s.crity.outings.map fun o => if o.id = id then f o else o } }

/-- The ID after `n` (14 R381): 0 and 0xFFFF_FFFF are never used. -/
def nextId (n : Nat) : Nat := if 0xFFFFFFFE ≤ n then 1 else n + 1

/-- Vector 6 for an outing whose STATE changed: its issuing head and the managing head (18 R466). -/
def outingVector (o : Outing) (s : State) : State :=
  fireAll ((List.range 8).filter fun h => (s.head h).present && (o.issuer == h || isManaging s h)) 6 s

/-- Keep the open outings and the 256 that finished last (14 R381). -/
def pruneOutings (l : List Outing) : List Outing :=
  let done := l.filter fun o => !o.open_
  if done.length ≤ 256 then l
  else match done with
    | o :: rest =>
      let oldest := rest.foldl (fun (a : Outing) b => if b.ended < a.ended then b else a) o
      l.filter fun x => x.id != oldest.id
    | [] => l

/-- Open an outing (14 R381-R383): its ID is the counter's value; TOTAL 0 is DONE at once. -/
def openOuting (kind issuer subject total : Nat) (work : List Nat) (s : State) : State :=
  let id := s.crity.nextOuting
  let now := s.time.chain
  let o : Outing := {
    id := id, kind := kind, state := if total = 0 then 2 else 0, deviceStarted := issuer == 0xFF,
    issuer := issuer, total := total, percent := if total = 0 then 10000 else 0, subject := subject, start := now,
    last := now, ended := if total = 0 then now else 0, work := work
    hold := if s.power.brace ∧ total ≠ 0 then 1 else 0 }
  { s with crity := { s.crity with outings := pruneOutings (s.crity.outings ++ [o]), nextOuting := nextId id } }

/-- End an open outing in state 2, 3 or 4 (14 R383, R384). -/
def endOuting (id st wsc : Nat) (s : State) : State :=
  match findOuting s id with
  | some o =>
    if o.open_ then
      let s := s.modOuting id fun o =>
        { o with state := st, wsc := wsc, hold := 0, last := s.time.chain, ended := s.time.chain,
                 percent := if st = 2 then 10000 else o.percent, flying := [] }
      outingVector o { s with crity := { s.crity with outings := pruneOutings s.crity.outings } }
    else s
  | none => s

/-- Hardware signals that `n` units of an outing are done (14 R386): recorded at the next Keeper step. -/
def signalUnits (id n : Nat) (s : State) : State := s.modOuting id fun o => { o with signalled := o.signalled + n }

/-! ### The loss list (04 R118, R119) -/

/-- The lost lines of a page: those its entries cover, and those held beside them. -/
def lossCovered (s : State) (page : Nat) : BitVec 64 :=
  s.dur.loss.foldl (fun m e => if e.page = page ∧ e.map = false then m ||| e.mask else m)
    ((aget s.dur.lines page).getD 0)

/-- The pages of an entry: one, or the 256 of a MAP entry (04 R118). -/
def LossEntry.pages (e : LossEntry) : List Nat := if e.map then (List.range 256).map (e.page + ·) else [e.page]

/-- Lost lines that no entry of their own stands for. -/
def holdLost (l : List (Nat × BitVec 64)) (d : DurState) : DurState :=
  { d with lines := l.foldl (fun m x => aset m x.1 (((aget m x.1).getD 0) ||| x.2)) d.lines }

/-- Make a loss-list entry for the lines newly lost (04 R118), or set OVERFLOW when the list is full (R119). Vector 5
fires on every head the page's range admits (18 R466). -/
def addLoss (cause tier : Nat) (map : Bool) (unit page : Nat) (mask : BitVec 64) (s : State) : State :=
  let e : LossEntry := ⟨s.dur.lossSeq, cause, tier, map, unit, page, mask, s.time.chain⟩
  let new := if map then (if e.pages.all fun p => lossCovered s p == BitVec.allOnes 64 then 0 else mask)
    else mask &&& ~~~ (lossCovered s page)
  if new = 0 then s
  else if 1048576 ≤ s.dur.loss.length then
    { s with dur := { holdLost (e.pages.map fun p => (p, new)) s.dur with overflow := true } }
  else
    let d := if map then holdLost (e.pages.map fun p => (p, new)) s.dur else s.dur
    let s := { s with dur := { d with loss := d.loss ++ [{ e with mask := new }], lossSeq := wrap 32 (d.lossSeq + 1) } }
    fireAll ((List.range 8).filter fun h => headUp s h && admits s h (4096 * page)) 5 s

/-- Drop empty entries, and MAP entries none of whose pages has a lost line any more; OVERFLOW clears when the list has fallen
below half full (04 R111, R119). -/
def tidyLoss (d : DurState) : DurState :=
  let l := d.loss.filter fun e =>
    if e.map then d.lines.any fun x => decide (e.page ≤ x.1) && decide (x.1 < e.page + 256) else e.mask != 0
  { d with loss := l, overflow := d.overflow && decide (524288 ≤ l.length) }

/-- A full-line write clears the line's bit in every entry of the page (04 R111). -/
def clearLossLine (page : Nat) (line : Nat) (d : DurState) : DurState :=
  let keep : BitVec 64 := ~~~ (BitVec.ofNat 64 (2 ^ line))
  let e : LossEntry → LossEntry := fun e => if e.page = page ∧ e.map = false then { e with mask := e.mask &&& keep } else e
  let x : Nat × BitVec 64 → Nat × BitVec 64 := fun x => if x.1 = page then (x.1, x.2 &&& keep) else x
  tidyLoss { d with loss := d.loss.map e, lines := (d.lines.map x).filter (·.2 != 0) }

/-- Pages whose lines are no longer lost: entries of them go. -/
def forgetLost (gone : Nat → Bool) (d : DurState) : DurState :=
  tidyLoss { d with
    loss := d.loss.filter fun e => e.map || !gone e.page, lines := d.lines.filter fun x => !gone x.1 }

end Sys2Proof.Machine
end

