-- ==== Sys2Proof/Machine/Events.lean ====
section
/-! DEFINITION. Raising an event, and the halt that an event of class FT causes (18 R453-R469); fencing a unit (04 R99),
and losing lines (04 R105, R118). -/

namespace Sys2Proof.Machine

/-- Zeroize every key (06 R164): root keys, and with them every key derived from them. -/
def zeroizeKeys (k : KeyState) : KeyState :=
  { k with
    ranges := k.ranges.map fun r => { r with root := 0, keyed := false }
    device := { k.device with root := 0, keyed := false } }

/-- Viral is signalled on every head whose link is up (09 R264; 18 R467). -/
def signalViral (s : State) : State :=
  (List.range 8).foldl (fun t h =>
    if headUp t h then (t.modHead h fun x => { x with viral := true }).emit (.viral h) else t) s

/-- Every open outing ends FAILED with DEVICE_HALTED (14 R376; 18 R468). -/
def failOutings (s : State) : State :=
  (s.crity.outings.filter (·.open_)).foldl (fun t o => endOuting o.id 4 0x0006 t) s

/-! ### Answers to hosts -/

/-- The request writes memory. -/
def ReqKind.isWrite : ReqKind → Bool
  | .wr | .wrPtl => true
  | .rd | .rdData | .inv | .invNt | .clnEvct | .rds | .rda | .rdcur | .evict => false

/-- The request returns a line. -/
def ReqKind.isRead : ReqKind → Bool
  | .rd | .rdData | .rds | .rda | .rdcur => true
  | .inv | .invNt | .clnEvct | .wr | .wrPtl | .evict => false

/-- DevLoad (09 R263): 0 Light, 1 Optimal, 2 Moderate, 3 Severe. -/
def devLoad (s : State) (h : Nat) : Nat :=
  let mine := (List.range 8).map fun c => s.slu.sl.getD (8 * h + c) {}
  if mine.any (fun x => decide (128 ≤ x.queue.length)) || s.dir.pq.any (fun q => q.reserved == some h) then 3
  else if mine.any (fun x => x.colour == some .red) || decide (s.slu.budget ≤ s.slu.used) then 2
  else if mine.any (fun x => !x.queue.isEmpty) then 1
  else 0

/-- A response to a head that may receive one: present, link up, not reset since (07 R209). -/
def canAnswer (s : State) (r : Req) : Bool := !r.dead && headUp s r.head

/-- A request is answered as the halted device answers: a read with poison, any other with its completion (18 R468). -/
def haltAnswer (s : State) (r : Req) : State :=
  if r.head < 8 ∧ canAnswer s r = true then
    if r.kind.isRead then s.emit (.drs r.head r.line 0 true (devLoad s r.head))
    else s.emit (.ndr r.head r.line .cmp (devLoad s r.head))
  else s

/-- Every request queued at the halt is answered or dropped, and no snoop affects any transaction any more (18 R468). -/
def haltRequests (s : State) : State :=
  let s := s.req.reqs.foldl haltAnswer s
  let quiet : Sluice → Sluice := fun x => { x with queue := [], colour := none, tier := none }
  { s with
    req := { s.req with reqs := [] }
    slu := { s.slu with sl := s.slu.sl.map quiet, waiting := [] }
    dir := { s.dir with
      txns := [], snoops := [], chSnoops := [], evict := [], pq := [], resv := [], conflicts := []
      ents := s.dir.ents.map fun x => (x.1, { x.2 with busy := false }) } }

/-- JOB_DONE (05 R156; 18 R466): appended to the issuer's queue of 256, when vector 7 fires; or LOST. -/
def notifyJob (j : Job) (st : JobSt) (s : State) : State :=
  if !j.notify then s
  else
    let q := s.codec.notes.getD j.issuer []
    if q.length < 256 then
      fire j.issuer 7
        { s with codec := { s.codec with notes := s.codec.notes.set j.issuer (q ++ [⟨j.id, st, s.time.chain⟩]) } }
    else { s with codec := { s.codec with notesLost := s.codec.notesLost.set j.issuer true } }

/-- QUEUED, RUNNING or RESUMABLE (05 R148). -/
def Job.open_ (j : Job) : Bool :=
  match j.st with
  | .queued | .running | .resumable => true
  | .done | .noshrink | .failed | .cancelled => false

/-- Open jobs end FAILED with DEVICE_HALTED (18 R468). -/
def haltJob (now chain : Nat) (j : Job) : Job :=
  match j.st with
  | .queued | .running | .resumable => { j with st := .failed, wsc := 0x0006, engine := 0xFF, time := chain, stopped := now }
  | .done | .noshrink | .failed | .cancelled => j

/-- The notifications of the jobs that a halt ends (05 R156). -/
def haltNotices (s : State) : State := (s.codec.jobs.filter (·.open_)).foldl (fun t j => notifyJob j .failed t) s

/-- Engines, channels, drives and Stechaisk ports stop (18 R467). -/
def haltUnits (s : State) : State :=
  let idle : Engine → Engine := fun x => { x with now := none, dec := [], comp := [], seg := none }
  let down : Port → Port := fun x =>
    match x.st with
    | .off | .absent | .down => x
    | _ => { x with st := .down, retraining := false, downAt := s.time.elapsed, downs := addSat 8 x.downs 1 }
  { s with
    codec := { s.codec with
      engines := s.codec.engines.map idle, jobs := s.codec.jobs.map (haltJob s.time.elapsed s.time.chain) }
    ddr := { s.ddr with chans := s.ddr.chans.map fun x => { x with sr := true } }
    drives := { s.drives with drives := s.drives.drives.map fun x => { x with cmds := [] } }
    skl := { s.skl with ports := s.skl.ports.map down }
    slots := { s.slots with slots := s.slots.slots.mapIdx fun i x => if isDrive i then { x with perst := true } else x } }

/-- A command under way ends with DEVICE_HALTED (18 R469): the one that waited for the chain, and the background commands,
whose results their next row reports. -/
def haltCommands (s : State) : State :=
  let bg : BgSlot → BgSlot := fun b => if b.busy then { b with result := some (.mediaDisabled, 0x0006, []) } else b
  let ans : Mailbox → Mailbox := fun b =>
    { b with rc := .mediaDisabled, wsc := 0x0006, out := le 2 0x0006 ++ le 2 0xFFFF }
  let s := match s.crity.waiting with
    | some (m, _, _, _) =>
      if m.src = 8 then { s with crity := { s.crity with sb := ans s.crity.sb } }
      else s.modHead m.src fun h => if m.sec then { h with mb1 := ans h.mb1 } else { h with mb0 := ans h.mb0 }
    | none => s
  { s with
    crity := { s.crity with waiting := none, sbBg := bg s.crity.sbBg }
    host := { s.host with heads := s.host.heads.map fun h => { h with bg := bg h.bg } } }

/-- A test unlock ends: every perturbation entry and armed injection is cleared (19 R477). -/
def relock (s : State) : State :=
  { s with pmc := { s.pmc with scope := 0, ptb := List.replicate 16 {}, armed := [] } }

/-- The halt (18 R467, R468): caused by source `src`, whose event has these contents. A test unlock ends with it (19 R477). -/
def haltDevice (src : Nat) (contents : List Byte) (s : State) : State :=
  let s := { s with flt := { s.flt with
    halted := true, haltSource := src, haltTime := s.time.chain, haltElapsed := s.time.elapsed
    colls := s.flt.colls.modify (src / 32) fun c => { c with haltCause := true } } }
  let s := signalViral s
  let s := { s with keys := zeroizeKeys s.keys }
  let s := haltCommands (haltUnits (haltNotices (haltRequests (failOutings (relock s)))))
  stage 0x05 4 src 1 (le 4 (wrap 32 (s.flt.eseq + 2 ^ 32 - 1)) ++ contents.take 28) s

/-- Raise one event; `inj` marks one that the injection unit raises (18 R455). An FT event halts a device that is not
halted (18 R467, R469). -/
def raiseI (inj : Bool) (src kind hd : Nat) (sc : Scope) (contents : List Byte) (s : State) : State :=
  let t := report inj src kind hd sc contents s
  if classOf s src = 4 ∧ s.flt.halted = false then haltDevice src contents t else t

/-- Raise one event of the device's own. -/
def raise (src kind hd : Nat) (sc : Scope) (contents : List Byte) (s : State) : State :=
  raiseI false src kind hd sc contents s

/-- Raise an event that concerns the whole device. -/
def raiseAll (src kind : Nat) (contents : List Byte) (s : State) : State := raise src kind 0xFF .all contents s

/-- Raise event `k` of head `h` (09, event sources). -/
def raiseHead (h k : Nat) (contents : List Byte) (s : State) : State := raise (srcHead h k) 0 h (.head h) contents s

/-- Raise an event whose contents name a device-local address (18 R463). -/
def raiseAddr (src a : Nat) (contents : List Byte) (s : State) : State := raise src 0 0xFF (.addr a) contents s

/-- The HEAD byte of an event that concerns one head; 0xFF where none is concerned (18 R454). -/
def concerned (h : Nat) : Nat := if h < 8 then h else 0xFF

/-- Raise an event that names an address and concerns the head that issued the access (18 R454). -/
def raiseAddrOf (h src a : Nat) (contents : List Byte) (s : State) : State := raise src 0 (concerned h) (.addr a) contents s

/-- A unit is neither read nor written from now on (04 R99); the event carries the cause under R515. -/
def fence (slot cause : Nat) (s : State) : State :=
  if (s.unit slot).fenced ∨ (s.unit slot).health = .absent then s
  else
    let s := s.modUnit slot fun u => { u with fenced := true, cause := cause }
    if isDrive slot then raiseAll (srcDrive (slot - 32) 0) 0 [BitVec.ofNat 8 cause] s
    else raiseAll 327 0 [BitVec.ofNat 8 slot, BitVec.ofNat 8 cause] s

/-- Lines lost (04 R105, R118, R119): the entry, and LOSS_OVERFLOW when the list turns out to be full. -/
def lose (cause tier : Nat) (map : Bool) (unit page : Nat) (mask : BitVec 64) (s : State) : State :=
  let t := addLoss cause tier map unit page mask s
  if t.dur.overflow ∧ s.dur.overflow = false then raiseAll 325 0 (le 4 s.dur.loss.length) t else t

end Sys2Proof.Machine
end

