-- ==== Sys2Proof/Machine/Mailbox.lean ====
section
/-! DEFINITION. How a mailbox command is carried, checked, answered and logged (14 R370-R377, R388; 09 R256, R257, R514;
17 R434). -/

namespace Sys2Proof.Machine

/-- What a command's own work comes to. -/
inductive CmdRes where
  /-- Success with this output. -/
  | ok (out : List Byte) (s : State)
  /-- A Crity failure: WSC and DETAIL (14 R372). -/
  | fail (wsc detail : Nat)
  /-- A standard command's failure: return code and Vendor Specific Extended Status. -/
  | std (rc : Rc) (wsc : Nat)
  /-- An answer with a return code that also changes the state. -/
  | done (rc : Rc) (wsc : Nat) (out : List Byte) (s : State)
  /-- A background command starts (14 R374). -/
  | bg (op : BgOp) (s : State)
  /-- A background command whose start phase needs no more work: its result is ready. -/
  | bgDone (op : BgOp) (out : List Byte) (s : State)
  /-- The command waits for chain answers (14 R373). -/
  | wait (s : State)

/-- One field check of R371: the byte offset of the field, whether it holds, the WSC of its failure. -/
structure Check where
  off : Nat
  good : Bool
  wsc : Nat

/-- A row of the Crity opcode table (14 R380) with the checks of R371. -/
structure CmdSpec where
  opcode : Nat
  /-- Input lengths the table admits. -/
  len : Nat → Bool
  /-- Issuers: managing head; any head; the sideband, which may depend on the payload. -/
  mgt : Bool := false
  any : Bool := false
  adm : State → Nat → List Byte → Bool := fun _ _ _ => false
  sb : List Byte → Bool := fun _ => true
  read : Bool := false
  /-- Reserved fields: offset of the first byte and mask, little-endian; the WSC where the chapter names one. -/
  resv : List (Nat × Nat) := []
  resvWsc : Nat := 0x0003
  checks : List Byte → State → List Check := fun _ _ => []
  /-- The lengthsman answers it itself while Keeper firmware does not run (17 R434). -/
  lmOwn : Bool := false

/-- The mailbox a command came through. -/
def mailboxOf (s : State) (m : Mb) : Mailbox :=
  if m.src = 8 then s.crity.sb else if m.sec then (s.head m.src).mb1 else (s.head m.src).mb0

def State.modMailbox (s : State) (m : Mb) (f : Mailbox → Mailbox) : State :=
  if m.src = 8 then { s with crity := { s.crity with sb := f s.crity.sb } }
  else if m.sec then s.modHead m.src fun h => { h with mb1 := f h.mb1 }
  else s.modHead m.src fun h => { h with mb0 := f h.mb0 }

/-- The background slot of the head or of the sideband (14 R374). -/
def bgOf (s : State) (src : Nat) : BgSlot := if src = 8 then s.crity.sbBg else (s.head src).bg

def State.modBg (s : State) (src : Nat) (f : BgSlot → BgSlot) : State :=
  if src = 8 then { s with crity := { s.crity with sbBg := f s.crity.sbBg } }
  else s.modHead src fun h => { h with bg := f h.bg }

/-- Answer a command: return code, extended status, output (14 R372); vector 0 of a head whose doorbell interrupt is
enabled (18 R466). The output of a command whose head has lost its link is discarded (09 R266). -/
def reply (m : Mb) (opcode : Nat) (rc : Rc) (wsc : Nat) (out : List Byte) (s : State) : State :=
  if m.src < 8 ∧ headUp s m.src = false then s else
  let s := s.modMailbox m fun b => { b with opcode := opcode, rc := rc, wsc := wsc, out := out }
  if m.src < 8 ∧ (mailboxOf s m).irq = true then fire m.src 0 s else s

/-- The Command Log keeps the 1,024 most recent Crity commands that were not read commands (14 R388). -/
def logCommand (opcode issuer : Nat) (rc : Rc) (wsc outing : Nat) (s : State) : State :=
  let r : CmdLog := ⟨s.crity.cmdSeq, opcode, issuer, rc, wsc, outing, s.time.chain⟩
  let l := s.crity.cmdLog ++ [r]
  { s with crity := { s.crity with cmdSeq := wrap 32 (s.crity.cmdSeq + 1), cmdLog := l.drop (l.length - 1024) } }

/-- Response message limit of the issuer (14 R377; 17 R434). -/
def limitOf (s : State) (src : Nat) : Nat := if src = 8 then s.crity.sbLimit else (s.head src).limit

/-- The mailbox can take a command now: the head is present with its link up and BAR0 decoded (09 R251) and mailboxes are
ready (20 R489), or the lengthsman answers the sideband. -/
def canIssue (s : State) (m : Mb) : Bool :=
  if s.crity.releasing then true
  else if m.src = 8 then lmRuns s
  else decide (m.src < 8) && headUp s m.src && !(s.head m.src).d3 && !(s.head m.src).resetting && s.boot.mbReady

/-- Commands wait while Keeper firmware reloads or a foreground command waits for the chain (14 R373). -/
def mustWait (s : State) : Bool := keeperPaused s || s.crity.waiting.isSome

/-- Keeper firmware does not run because main power is off or the device is halted (17 R434). -/
def keeperOff (s : State) : Bool := !s.boot.phase.keeper || s.flt.halted

/-- The issuer is permitted by the opcode table (14 R380). -/
def permitted (spec : CmdSpec) (s : State) (m : Mb) (p : List Byte) : Bool :=
  if m.src = 8 then spec.sb p
  else spec.any || (spec.mgt && isManaging s m.src) || spec.adm s m.src p

/-- The first reserved field of the input that is not zero. -/
def resvBad (spec : CmdSpec) (p : List Byte) : Option Nat :=
  (spec.resv.find? fun x => ofLe p x.1 (x.2.log2 / 8 + 1) &&& x.2 != 0).map (·.1)

/-- The first failing check of R371, in its order: WSC and DETAIL. -/
def precheck (spec : CmdSpec) (s : State) (m : Mb) (p : List Byte) : Option (Nat × Nat) :=
  if !spec.len p.length then some (0x0004, 0xFFFF)
  else if !permitted spec s m p then some (if spec.mgt && m.src != 8 then 0x0001 else 0x0002, 0xFFFF)
  else if s.flt.halted && !spec.read && !(m.src == 8 && spec.lmOwn) then some (0x0006, 0xFFFF)
  else match resvBad spec p with
    | some o => some (spec.resvWsc, o)
    | none => ((spec.checks p s).find? fun c => !c.good).map fun c => (c.wsc, c.off)

/-- A Crity failure: return code by R389, WSC and DETAIL in the output (14 R372). -/
def failCmd (spec : CmdSpec) (m : Mb) (wsc detail : Nat) (s : State) : State :=
  let s := reply m spec.opcode (rcOf wsc) wsc (le 2 wsc ++ le 2 detail) s
  if spec.read then s else logCommand spec.opcode m.src (rcOf wsc) wsc 0xFFFFFFFF s

/-- A background command finds its issuer's slot taken (14 R374). -/
def busyCmd (spec : CmdSpec) (m : Mb) (s : State) : State :=
  let s := reply m spec.opcode .busy 0 [] s
  if spec.read then s else logCommand spec.opcode m.src .busy 0 0xFFFFFFFF s

/-- The command's own effect has halted the device: a command under way ends with DEVICE_HALTED (18 R469). -/
def haltsItself (s t : State) : Bool := t.flt.halted && !s.flt.halted

/-- The outing that a command started, for the Command Log: the ID counter moved from its value. -/
def outingStarted (s t : State) : Nat :=
  if t.crity.nextOuting = s.crity.nextOuting then 0xFFFFFFFF else s.crity.nextOuting

/-- Run a Crity command whose own work is `own` (14 R371-R377). -/
def runCrity (spec : CmdSpec) (m : Mb) (p : List Byte) (own : State → CmdRes) (s : State) : State :=
  if !canIssue s m then s
  else if m.src = 8 ∧ keeperOff s ∧ spec.lmOwn = false then
    reply m spec.opcode .mediaDisabled 0x0006 (le 2 0x0006 ++ le 2 0xFFFF) s
  else if mustWait s && !(m.src == 8 && keeperOff s) then { s with held := s.held ++ [⟨spec.opcode, m, p, none⟩] }
  else match precheck spec s m p with
    | some (w, d) => failCmd spec m w d s
    | none =>
      match own s with
      | .ok out t =>
        if limitOf s m.src < out.length then failCmd spec m 0x0004 0xFFFF s
        else if haltsItself s t && !spec.read then failCmd spec m 0x0006 0xFFFF t
        else
          let t := reply m spec.opcode .success 0 out t
          if spec.read then t else logCommand spec.opcode m.src .success 0 (outingStarted s t) t
      | .fail w d => failCmd spec m w d s
      | .std rc w => reply m spec.opcode rc w [] s
      | .done rc w out t =>
        let t := reply m spec.opcode rc w out t
        if spec.read then t else logCommand spec.opcode m.src rc w 0xFFFFFFFF t
      | .bg op t =>
        if (bgOf s m.src).busy then busyCmd spec m s
        else (reply m spec.opcode .backgroundStarted 0 [] t).modBg m.src fun _ =>
          { opcode := spec.opcode, busy := true, percent := 0, sec := m.sec, op := some op }
      | .bgDone op out t =>
        if (bgOf s m.src).busy then busyCmd spec m s
        else (reply m spec.opcode .backgroundStarted 0 [] t).modBg m.src fun _ =>
          { opcode := spec.opcode, busy := true, percent := 0, sec := m.sec, op := some op,
            result := some (.success, 0, out) }
      | .wait t => { t with crity := { t.crity with waiting := some (m, spec.opcode, p, t.time.elapsed) } }

/-- Finish the foreground command that waited for the chain (14 R373): its success or failure. -/
def finishWaiting (m : Mb) (opcode : Nat) (wsc : Nat) (s : State) : State :=
  let s := { s with crity := { s.crity with waiting := none } }
  let s := if wsc = 0 then reply m opcode .success 0 [] s
    else reply m opcode (rcOf wsc) wsc (le 2 wsc ++ le 2 0xFFFF) s
  logCommand opcode m.src (rcOf wsc) wsc 0xFFFFFFFF s

/-- Issuers of a standard command (09 R257, R514). -/
structure StdSpec where
  opcode : Nat
  /-- Only the managing head, beside the sideband. -/
  managing : Bool := false
  sb : Bool := true
  /-- The lengthsman answers it itself while Keeper firmware does not run (17 R434). -/
  lmOwn : Bool := false

/-- Run a standard CXL command (09 R256, R257, R514; 14 R372-R374). -/
def runStd (spec : StdSpec) (m : Mb) (p : List Byte) (own : State → CmdRes) (s : State) : State :=
  if !canIssue s m then s
  else if m.src = 8 ∧ spec.sb = false then reply m spec.opcode .unsupported 0 [] s
  else if m.src = 8 ∧ keeperOff s ∧ spec.lmOwn = false then
    reply m spec.opcode .mediaDisabled 0x0006 [] s
  else if mustWait s && !(m.src == 8 && keeperOff s) then { s with held := s.held ++ [⟨spec.opcode, m, p, none⟩] }
  else if spec.managing && m.src != 8 && !isManaging s m.src then
    reply m spec.opcode .unsupported 0x0001 [] s
  else match own s with
    | .ok out t =>
      if limitOf s m.src < out.length then reply m spec.opcode .invalidPayloadLength 0 [] s
      else reply m spec.opcode .success 0 out t
    | .fail w _ => reply m spec.opcode (rcOf w) w [] s
    | .std rc w => reply m spec.opcode rc w [] s
    | .done rc w out t => reply m spec.opcode rc w out t
    | .bg op t =>
      if (bgOf s m.src).busy then reply m spec.opcode .busy 0 [] s
      else (reply m spec.opcode .backgroundStarted 0 [] t).modBg m.src fun _ =>
        { opcode := spec.opcode, busy := true, percent := 0, sec := m.sec, op := some op }
    | .bgDone op out t =>
      if (bgOf s m.src).busy then reply m spec.opcode .busy 0 [] s
      else (reply m spec.opcode .backgroundStarted 0 [] t).modBg m.src fun _ =>
        { opcode := spec.opcode, busy := true, percent := 0, sec := m.sec, op := some op,
          result := some (.success, 0, out) }
    | .wait t => { t with crity := { t.crity with waiting := some (m, spec.opcode, p, t.time.elapsed) } }

/-- The start phase of a background command ends (14 R374): percentage 100, return code, WSC and output in the mailbox that
carried it, vector 0 where the background interrupt is enabled; a reset of the head discards the result (09 R265). -/
def endBackground (src : Nat) (rc : Rc) (wsc : Nat) (out : List Byte) (outing : Nat) (s : State) : State :=
  let b := bgOf s src
  let m : Mb := ⟨src, b.sec⟩
  let s := s.modBg src fun x => { x with busy := false, percent := 100, rc := rc, wsc := wsc, op := none,
                                          result := none, discard := false }
  let s := if 0xC000 ≤ b.opcode then logCommand b.opcode src rc wsc outing s else s
  if b.discard || (decide (src < 8) && !headUp s src) then s
  else
    let s := s.modMailbox m fun x => { x with opcode := b.opcode, rc := rc, wsc := wsc, out := out }
    if src < 8 ∧ (mailboxOf s m).bgIrq = true then fire src 0 s else s

end Sys2Proof.Machine
end

