-- ==== Sys2Proof/Machine/Pmc.lean ====
section
/-! DEFINITION. Performance counters, samples, test unlock, perturbation and injection (19 R471-R482). -/

namespace Sys2Proof.Machine

/-! ### Selection -/

/-- Fields of PMC_SEL. -/
def selEvent (v : Nat) : Nat := v % 256
def selChain (v : Nat) : Bool := v.testBit 26
def selSample (v : Nat) : Bool := v.testBit 27

/-- Event codes that are not reserved (19, table of events). -/
def eventExists (e : Nat) : Bool :=
  (decide (1 ≤ e) && decide (e ≤ 5)) || (decide (8 ≤ e) && decide (e ≤ 0x12) && e != 0x13) ||
  (decide (0x18 ≤ e) && decide (e ≤ 0x1C)) || (decide (0x20 ≤ e) && decide (e ≤ 0x24)) ||
  (decide (0x28 ≤ e) && decide (e ≤ 0x2A)) || e == 0x30

/-- Filters an event uses: master, class, tier, unit. -/
def usesMaster (e : Nat) : Bool := (decide (1 ≤ e) && decide (e ≤ 0x1C))
def usesClass (e : Nat) : Bool := (decide (1 ≤ e) && decide (e ≤ 0x12))
def usesTier (e : Nat) : Bool :=
  e == 1 || e == 2 || e == 4 || (decide (8 ≤ e) && decide (e ≤ 15)) || (decide (0x28 ≤ e) && decide (e ≤ 0x2A))
def usesUnit (e : Nat) : Bool := decide (0x18 ≤ e) && decide (e ≤ 0x24)

/-- The counter's selection matches an event: a filter enabled for an event that does not use it matches nothing. -/
def selMatches (v : Nat) (ev : PmcEvent) : Bool :=
  let e := ev.event
  selEvent v == e && eventExists e
    && (!v.testBit 12 || (usesMaster e && v / 2 ^ 8 % 16 == ev.master))
    && (!v.testBit 16 || (usesClass e && v / 2 ^ 13 % 8 == ev.cls))
    && (!v.testBit 19 || (usesTier e && ev.tierValid && v / 2 ^ 17 % 4 == ev.tier))
    && (!v.testBit 25 || (usesUnit e && v / 2 ^ 20 % 32 == ev.unit))

/-- Counter `n` is fed by the carries of counter `n - 1` (19 R472). -/
def fedByChain (p : PmcState) (n : Nat) : Bool := n % 16 != 0 && selChain (p.sel.getD (n - 1) 0)

/-- The bottom counter of the chain that `n` belongs to. -/
def chainBottom (p : PmcState) : Nat → Nat
  | 0 => 0
  | n + 1 => if fedByChain p (n + 1) then chainBottom p n else n + 1

/-! ### Samples (19 R474, R475) -/

/-- Sample kinds: 0 none, 1 request, 2 completion, 3 item, 4 move, 5 link. -/
def sampleKind (e : Nat) : Nat :=
  if e = 0x30 then 0
  else if e ≤ 5 ∨ (0x10 ≤ e ∧ e ≤ 0x12) then 1
  else if e ≤ 15 then 2
  else if e ≤ 0x1C then 3
  else if e ≤ 0x24 then 5 else 4

/-- The 32 bytes of a sample record (19 R475). -/
def sampleBytes (s : State) (top skid event : Nat) (ev : PmcEvent) : List Byte :=
  let q := s.pmc.sseq
  le 3 q ++ le 1 top ++ le 1 event ++ le 1 (min skid 63 + 64 * b2n ev.addrValid + 128 * b2n ev.latValid)
    ++ le 1 (ev.master % 16 + 16 * (ev.cls % 8)) ++ le 1 (if ev.master ≤ 7 then ev.head else 0xFF) ++ le 8 ev.addr
    ++ le 8 s.time.chain ++ le 3 (min ev.latency 0xFFFFFF) ++ le 1 (ev.tier % 4 + 4 * b2n ev.tierValid + 8 * (ev.unit % 32))
    ++ le 3 q ++ zeros 1

/-- Write a sample into the ring. -/
def capture (top skid event : Nat) (ev : PmcEvent) (s : State) : State :=
  { s with pmc := { s.pmc with
    ring := aset s.pmc.ring (s.pmc.sseq % 256) (sampleBytes s top skid event ev), sseq := wrap 24 (s.pmc.sseq + 1) } }

/-- An overflow of a chain's top counter with SAMPLE set starts a sample; a link sample is captured at once. -/
def startSample (top : Nat) (ev : PmcEvent) (s : State) : State :=
  let e := selEvent (s.pmc.sel.getD (chainBottom s.pmc top) 0)
  if sampleKind e = 0 then s
  else if sampleKind e = 5 then capture top 0 e ev s
  else { s with pmc := { s.pmc with pend := s.pmc.pend ++ [⟨top, e, ev.master, ev.unit, 0⟩] } }

/-! ### Counting (19 R471, R472) -/

/-- Add `inc` to counter `n`, with overflow, carry and sample. A chain never crosses its bank, so 16 steps suffice. -/
def addCount (ev : PmcEvent) : Nat → Nat → Nat → State → State
  | 0, _, _, s => s
  | fuel + 1, n, inc, s =>
    let v := s.pmc.cnt.getD n 0 + inc
    if v < 2 ^ 24 then { s with pmc := { s.pmc with cnt := s.pmc.cnt.set n v } }
    else
      let sel := s.pmc.sel.getD n 0
      let s := { s with pmc := { s.pmc with
        cnt := s.pmc.cnt.set n (wrap 24 (s.pmc.rld.getD n 0 + (v - 2 ^ 24)))
        ovf := s.pmc.ovf.modify (n / 16) fun o => o ||| BitVec.ofNat 16 (2 ^ (n % 16)) } }
      if selChain sel then addCount ev fuel (n + 1) 1 s
      else if selSample sel then startSample n ev s else s

/-- Counter `n` counts by its own selection: not frozen, EVENT non-zero, not fed by a chain. -/
def countsSelf (p : PmcState) (n : Nat) : Bool := !p.freeze && !fedByChain p n && selEvent (p.sel.getD n 0) != 0

/-- Counting point of a request event (19, table of events): step 5, the sluice's colouring, and each other code its own. -/
def countPoint (e : Nat) : Nat := if e = 2 then 1 else if e = 0x11 ∨ e = 0x12 then 0x10 else e

/-- An event passes the counting point of a sample's event: requests the same one, other kinds any of their kind (19 R474). -/
def samePoint (a b : Nat) : Bool := sampleKind a == sampleKind b && (sampleKind a != 1 || countPoint a == countPoint b)

/-- A sample of the same kind and master (of the same engine for items) sees one more event pass. -/
def passSamples (ev : PmcEvent) (l : List PendSample) : List PendSample :=
  l.map fun x =>
    if samePoint x.event ev.event = true ∧ x.master = ev.master ∧ (sampleKind ev.event ≠ 3 ∨ x.unit = ev.unit)
    then { x with skid := x.skid + 1 } else x

/-- One event of the data path reaches the counters. -/
def pmcCount (ev : PmcEvent) (s : State) : State :=
  if s.pmc.freeze ∨ s.pmc.sel.all (· == 0) then s
  else
    let s := { s with pmc := { s.pmc with pend := passSamples ev s.pmc.pend } }
    (List.range 192).foldl (fun t n =>
      if countsSelf s.pmc n && selMatches (s.pmc.sel.getD n 0) ev then addCount ev 16 n 1 t else t) s

/-- An event with its master and class only. -/
def evOf (event master cls : Nat) : PmcEvent :=
  { event := event, master := master, cls := cls, tier := 0, tierValid := false, unit := 0, head := master, addr := 0
    addrValid := false, latency := 0, latValid := false }

/-- A link event (19 R474, R475): the sample it makes names the port or channel and the SEQ in ADDR. -/
def linkEvent (event master unit addr : Nat) : PmcEvent :=
  { evOf event master 0 with unit := unit, addr := addr, addrValid := true }

/-- A link event of a DRAM channel, which has no SEQ; its master reads 15 (log 47). -/
def chanEvent (event c : Nat) : PmcEvent := linkEvent event 15 c (c * 2 ^ 13)

/-- COUNTER_OVERFLOW (19 R471): an increment that the other rows do not make themselves carries counter `n` past
0xFF_FFFF. -/
def execCounterOverflow (n inc : Nat) (ev : PmcEvent) (s : State) : Out :=
  onUnit n 192 (if countsSelf s.pmc n && selMatches (s.pmc.sel.getD n 0) ev
      && decide (2 ^ 24 ≤ s.pmc.cnt.getD n 0 + inc) then addCount ev 16 n inc s else s)

/-- SAMPLE_CAPTURE (19 R474): the next event of the kind and master is captured. -/
def execSampleCapture (n : Nat) (ev : PmcEvent) (s : State) : Out :=
  onUnit n 192 (match s.pmc.pend.find? fun x => x.top == n && x.master == ev.master
      && samePoint x.event ev.event && (sampleKind ev.event != 3 || x.unit == ev.unit) && decide (x.skid ≤ 63) with
    | some x => capture n x.skid x.event ev { s with pmc := { s.pmc with pend := s.pmc.pend.erase x } }
    | none => s)

/-- SAMPLE_ABANDON (19 R474): 64 events passed without a capture; no record is written. -/
def execSampleAbandon (n : Nat) (s : State) : Out :=
  onUnit n 192 { s with pmc := { s.pmc with pend := s.pmc.pend.filter fun x => x.top != n || decide (x.skid < 64) } }

/-! ### Register writes -/

/-- A BAR2 write of head `h` is honoured: link up, not in D3hot, from the managing head; else BAR2_WRITE_DENIED (09 R251,
R255). -/
def bar2Write (h addr : Nat) (own : State → State) (s : State) : State :=
  if !headUp s h || (s.head h).d3 || (s.head h).resetting then s
  else if isManaging s h then own s
  else raiseHead h 6 (le 4 addr) s

/-- PMC_CNT_WRITE (19 R473): the written value plus the increments of the same cycle, which overflow as any other (R471). -/
def execPmcCntWrite (head n : Nat) (value : BitVec 32) (sameCycle : Nat) (s : State) : Out :=
  onUnit head 8 (if n < 192 then bar2Write head (0x81000 + 16 * n) (fun s =>
      addCount (evOf (selEvent (s.pmc.sel.getD n 0)) 0 0) 16 n sameCycle
        { s with pmc := { s.pmc with cnt := s.pmc.cnt.set n (value.toNat % 2 ^ 24) } }) s
    else s)

/-- PMC_OVF_CLEAR (00 R7; 19): written ones clear, and an event of the same cycle leaves its bit set. -/
def execPmcOvfClear (head bank : Nat) (value : BitVec 32) (sameCycle : BitVec 16) (s : State) : Out :=
  onUnit head 8 (if bank < 12 then bar2Write head (0x80010 + 4 * bank) (fun s =>
      { s with pmc := { s.pmc with ovf := s.pmc.ovf.modify bank fun o => (o &&& ~~~ (value.setWidth 16)) ||| sameCycle } }) s
    else s)

/-- PMC_FREEZE_WRITE (19 R473). -/
def execPmcFreezeWrite (head : Nat) (freeze : Bool) (s : State) : Out :=
  onUnit head 8 (bar2Write head 0x80000 (fun s => { s with pmc := { s.pmc with freeze := freeze } }) s)

/-- PMC_CLEAR_ALL (19, PMC_CTL): every PMC_CNT and PMC_OVF is zeroed. -/
def execPmcClearAll (head : Nat) (s : State) : Out :=
  onUnit head 8 (bar2Write head 0x80000 (fun s => { s with pmc := { s.pmc with
    cnt := List.replicate 192 0, ovf := List.replicate 12 0 } }) s)

/-! ### Test unlock (19 R476, R477) -/

def testUnlockSpec : CmdSpec where
  opcode := 0xC900
  len := fun n => n == 0 || n == 160
  mgt := true
  resv := [(48, 2 ^ 128 - 1)]

/-- A new nonce and the challenge. -/
def challenge (s : State) : CmdRes :=
  let n := Config.nonce s.free
  .ok (le 32 n.toNat ++ le 8 s.boot.serial ++ le 4 s.boot.bootId.toNat ++ zeros 20)
    { s with free := s.free + 1, pmc := { s.pmc with nonce := some (n, s.time.elapsed) } }

/-- SCOPE and DURATION of a reply. -/
def replyScope (p : List Byte) : Nat := ofLe p 40 4
def replySeconds (p : List Byte) : Nat := ofLe p 44 4

/-- What a reply fails with, and the offset of its field (19 R476; 14 R371): SCOPE or DURATION out of range, the nonce, SERIAL,
the signature. -/
def replyBad (p : List Byte) (s : State) : Option (Nat × Nat) :=
  let fresh := match s.pmc.nonce with
    | some (n, t) => n.toNat == ofLe p 0 32 && decide (s.time.elapsed < t + 60 * Config.second)
    | none => false
  if replyScope p = 0 ∨ 4 ≤ replyScope p then some (0x0007, 40)
  else if replySeconds p = 0 ∨ 86400 < replySeconds p then some (0x0007, 44)
  else if !fresh then some (0x0A02, 0)
  else if ofLe p 32 8 ≠ s.boot.serial then some (0x0A02, 32)
  else if !Config.verifyUnlock (p.take 64) (p.drop 64) then some (0x0A02, 64)
  else none

/-- The reply's outcome: it consumes the nonce in any case (19 R476). -/
def unlockOutcome (p : List Byte) (bad : Option (Nat × Nat)) (s : State) : CmdRes :=
  let used := { s with pmc := { s.pmc with nonce := none } }
  match bad with
  | some (w, d) => .done (rcOf w) w (le 2 w ++ le 2 d) used
  | none => .ok [] { used with pmc := { used.pmc with
      scope := BitVec.ofNat 2 (replyScope p), unlockEnds := s.time.elapsed + replySeconds p * Config.second } }

/-- The reply to the challenge (19 R476). -/
def unlockReply (p : List Byte) (s : State) : CmdRes := unlockOutcome p (replyBad p s) s

/-- TEST_UNLOCK (19 R476). -/
def execTestUnlock (m : Mb) (p : List Byte) (s : State) : Out :=
  .next (runCrity testUnlockSpec m p (fun s => if p.isEmpty then challenge s else unlockReply p s) s)

/-- NONCE_EXPIRE (19 R476): 60 s of local elapsed time. -/
def execNonceExpire (s : State) : Out :=
  .next (match s.pmc.nonce with
    | some (_, t) => if t + 60 * Config.second ≤ s.time.elapsed then { s with pmc := { s.pmc with nonce := none } } else s
    | none => s)

/-- UNLOCK_EXPIRE (19 R477). -/
def execUnlockExpire (s : State) : Out :=
  .next (if s.pmc.scope ≠ 0 ∧ s.pmc.unlockEnds ≤ s.time.elapsed then relock s else s)

/-! ### Perturbation (19 R478-R480) -/

/-- TARGET and AMOUNT in the ranges of the kind. -/
def perturbOk (kind target amount w : Nat) : Bool :=
  if kind = 1 then decide (target ≤ 7) && decide (1 ≤ amount) && decide (amount ≤ 1000000)
  else if kind = 2 then decide (target ≤ 15) && decide (1 ≤ amount) && decide (amount ≤ 2 ^ w)
  else if kind = 3 then (decide (target ≤ 15) || target == 0xFFFF) && decide (1 ≤ amount) && decide (amount ≤ 255)
  else if kind = 4 then (decide (target ≤ 31) || target == 0xFFFF) && decide (1 ≤ amount) && decide (amount ≤ 100000)
  else if kind = 5 then target == 0xFFFF && amount == 0
  else if kind = 6 then decide (target ≤ 47) && decide (amount ≤ 50000)
  else kind == 0

def setPerturbSpec : CmdSpec where
  opcode := 0xC901
  len := fun n => n == 32
  mgt := true
  resv := [(2, 0xFE), (3, 0xFF), (7, 0xFF), (11, 0xFF), (16, 2 ^ 128 - 1)]
  checks := fun p s =>
    let r := bitAt p 2 0
    [⟨0, r || decide (byteAt p 0 ≤ 15), 0x0007⟩, ⟨1, r || decide (byteAt p 1 ≤ 6), 0x0007⟩,
     ⟨4, r || perturbOk (byteAt p 1) (ofLe p 4 2) (ofLe p 8 3) s.time.w, 0x0007⟩,
     ⟨6, r || decide (byteAt p 6 ≤ 10), 0x0007⟩]

/-- The entry a SET_PERTURB writes. -/
def perturbOf (p : List Byte) (now : Nat) : Perturb :=
  { kind := byteAt p 1, target := ofLe p 4 2, duty := byteAt p 6, amount := ofLe p 8 3
    ends := if ofLe p 12 4 = 0 then none else some (now + ofLe p 12 4) }

/-- SET_PERTURB (19 R478). -/
def execSetPerturb (m : Mb) (p : List Byte) (s : State) : Out :=
  .next (runCrity setPerturbSpec m p (fun s =>
    if bitAt p 2 0 then .ok [] (relock s)
    else if s.pmc.scope.getLsbD 0 = false then .fail 0x0A01 0xFFFF
    else
      let e : Perturb := if byteAt p 1 = 0 then {} else perturbOf p s.time.elapsed
      .ok [] { s with pmc := { s.pmc with ptb := s.pmc.ptb.set (byteAt p 0) e } }) s)

/-- PERTURB_EXPIRE (19 R478). -/
def execPerturbExpire (entry : Nat) (s : State) : Out :=
  onUnit entry 16 (match (s.pmc.ptb.getD entry {}).ends with
    | some t => if t ≤ s.time.elapsed then { s with pmc := { s.pmc with ptb := s.pmc.ptb.set entry {} } } else s
    | none => s)

/-- The entry acts on its next eligible operation: one in 2^DUTY of them; which one of each run is free (19, SET_PERTURB; log
18). -/
def Perturb.acts (e : Perturb) : Bool :=
  e.duty == 0 || e.ops % 2 ^ e.duty == Config.dutyPick (e.ops / 2 ^ e.duty) % 2 ^ e.duty

/-- A perturbation of kind `k` on target `t` acts on this operation. -/
def chosen (k t : Nat) (s : State) : Bool :=
  s.pmc.ptb.any fun e => e.kind == k && (e.target == t || e.target == 0xFFFF) && e.acts

/-- The entry counts the operation. -/
def notePerturb (k t : Nat) (s : State) : State :=
  let f : Perturb → Perturb := fun e =>
    if e.kind = k ∧ (e.target = t ∨ e.target = 0xFFFF) then
      { e with ops := e.ops + 1, applied := if e.acts then addSat 24 e.applied 1 else e.applied }
    else e
  { s with pmc := { s.pmc with ptb := s.pmc.ptb.map f } }

/-- Ticks of a time in nanoseconds, rounded up: a perturbation delays by at least its AMOUNT. -/
def nsTicks (ns : Nat) : Nat := (ns * 2 ^ 24 + 999999999) / 1000000000

/-- Delay of an operation that entries of kind `k` act on, in ticks. -/
def stallTicks (k t : Nat) (s : State) : Nat :=
  ((s.pmc.ptb.filter fun e => e.kind == k && (e.target == t || e.target == 0xFFFF) && e.acts).map fun e => nsTicks e.amount).sum

/-- BACKPRESSURE holds a master back: the first AMOUNT ticks of a regulation window that an entry acts on (19, perturbation
kinds). -/
def pressed (s : State) (m : Nat) : Bool :=
  s.pmc.ptb.any fun e => e.kind == 2 && e.target == m && e.acts && decide (s.time.chain % 2 ^ s.time.w < e.amount)

/-- A regulation window begins: the next operation of every BACKPRESSURE entry. -/
def pressWindow (s : State) : State := (List.range 16).foldl (fun t m => notePerturb 2 m t) s

/-- The offset added to a slot's sense voltage, in SENSE units of 10 nV (19, SLOT_OFFSET). -/
def slotOffset (s : State) (i : Nat) : Nat :=
  ((s.pmc.ptb.filter fun e => e.kind == 6 && e.target == i).map fun e => e.amount * 100).sum

/-! ### Injection (19 R481, R482) -/

/-- Ranges of a check-bit injection: CHECKER and its UNIT. -/
def checkerOk (c u : Nat) : Bool :=
  let any := u == 0xFFFF
  if c = 1 then any || decide (u ≤ 31)
  else if c = 2 ∨ c = 3 then any || decide (u ≤ 47)
  else if c = 4 ∨ c = 5 ∨ c = 13 then any || decide (u ≤ 15)
  else if c = 6 ∨ c = 7 ∨ c = 12 then any
  else if c = 8 ∨ c = 9 then any || decide (u ≤ 1)
  else if c = 10 then any || decide (u ≤ 7)
  else if c = 11 then any || decide (u ≤ 31)
  else false

def injectSpec : CmdSpec where
  opcode := 0xC902
  len := fun n => n == 32
  mgt := true
  resv := [(16, 2 ^ 128 - 1)]
  checks := fun p _ =>
    let k1 := byteAt p 0 == 1
    [⟨0, decide (byteAt p 0 ≤ 2), 0x0007⟩,
     ⟨1, !k1 || checkerOk (byteAt p 1) (ofLe p 4 2), 0x0007⟩,
     ⟨2, !k1 || (byteAt p 2 &&& 0xF0 == 0 && (byteAt p 2 / 4 % 4 == 1 || byteAt p 2 / 4 % 4 == 2)), 0x0007⟩,
     ⟨3, if k1 then byteAt p 3 &&& 0xFE == 0 else byteAt p 0 != 0 || decide (byteAt p 3 ≤ 7) || byteAt p 3 == 0xFF, 0x0007⟩,
     ⟨4, byteAt p 0 != 0 || (defaultClass (ofLe p 4 2)).isSome, 0x0901⟩,
     ⟨6, !k1 || decide (1 ≤ ofLe p 6 2), 0x0007⟩,
     ⟨8, !k1 || decide (ofLe p 8 8 < 2 ^ 40), 0x0007⟩]

/-- The injection a command arms. -/
def armOf (p : List Byte) : Armed :=
  { checker := byteAt p 1, scope1 := bitAt p 2 0, replays := bitAt p 2 1, bits := byteAt p 2 / 4 % 4, unit := ofLe p 4 2
    pageEn := bitAt p 3 0, page := ofLe p 8 5, left := ofLe p 6 2, used := 0 }

/-- Arm an injection: a ninth replaces the oldest (19 R482). -/
def arm (a : Armed) (x : PmcState) : PmcState :=
  if 8 ≤ x.armed.length then { x with armed := x.armed.drop 1 ++ [a], replaced := addSat 24 x.replaced 1 }
  else { x with armed := x.armed ++ [a] }

/-- The device-local address that CONTENTS `c` of a source name, where they name a page or a line (event tables of 05, 13 and 18). -/
def namedAddr (src : Nat) (c : List Byte) : Option Nat :=
  if src = 130 then some (64 * ofLe c 1 8)
  else if src = 133 ∨ src = 307 then some (64 * ofLe c 2 8)
  else if src = 304 ∨ src = 320 ∨ src = 321 then some (4096 * ofLe c 1 8)
  else if src = 326 ∨ src = 328 ∨ src = 576 then some (4096 * ofLe c 0 8)
  else if 448 ≤ src ∧ src < 576 then
    if src % 4 = 0 ∨ src % 4 = 3 then some (4096 * ofLe c 0 8)
    else if src % 4 = 1 ∧ ofLe c 0 1 < 2 then some (4096 * ofLe c 1 8) else none
  else none

/-- What an imitation event concerns (18 R463; 19 R481): the head of a host-port source, 16 sources each; the address that its
CONTENTS name; or the whole device. -/
def imitationScope (src : Nat) (c : List Byte) : Scope :=
  if src < 128 then .head (src / 16) else ((namedAddr src c).map Scope.addr).getD .all

/-- INJECT's own effect (19 R481, R482). -/
def inject (p : List Byte) (s : State) : CmdRes :=
  if s.pmc.scope.getLsbD 1 = false then .fail 0x0A01 0xFFFF
  else if byteAt p 0 = 0 then
    let c := (p.drop 8).take 8
    .ok [] (raiseI true (ofLe p 4 2) (byteAt p 2) (byteAt p 3) (imitationScope (ofLe p 4 2) (c ++ zeros 8)) c s)
  else if byteAt p 0 = 1 then .ok [] { s with pmc := arm (armOf p) s.pmc }
  else .ok [] { s with pmc := { s.pmc with armed := [] } }

/-- INJECT (19 R481, R482). -/
def execInject (m : Mb) (p : List Byte) (s : State) : Out := .next (runCrity injectSpec m p (inject p) s)

/-- The armed injection that this operation of a checker uses, if any. -/
def armedFor (c u page : Nat) (s : State) : Option Armed :=
  s.pmc.armed.find? fun a => a.checker == c && (a.unit == u || a.unit == 0xFFFF) && (!a.pageEn || a.page == page)

/-- Use one operation of an armed injection up. -/
def useArmed (a : Armed) (s : State) : State :=
  let f : Armed → Option Armed := fun x =>
    if x = a then (if x.left ≤ 1 then none else some { x with left := x.left - 1, used := addSat 24 x.used 1 }) else some x
  { s with pmc := { s.pmc with armed := s.pmc.armed.filterMap f } }

/-- An operation of a structure with an ECC checker: one bit is corrected with a CE event, two halt the device (19 R482).
`ce` none where the correction raises no event. -/
def eccOp (c : Nat) (ce : Option Nat) (ue : Nat) (contents : List Byte) (s : State) : State :=
  match armedFor c 0xFFFF 0 s with
  | some a =>
    let s := useArmed a s
    if a.bits = 2 then raiseAll ue 0 contents s
    else match ce with
      | some src => raiseAll src 0 contents s
      | none => s
  | none => s

end Sys2Proof.Machine
end

