-- ==== Sys2Proof/Machine/Map.lean ====
section
/-! DEFINITION. The page map: entries, pins, placement of copies and chunks, capacity, heat, overlays and page locks
(03 R59-R92; 04 R101-R103; 06 R176). -/

namespace Sys2Proof.Machine

/-! ### Entries -/

def State.page (s : State) (p : Nat) : PageEnt := (aget s.map.pages p).getD {}

def State.modPage (s : State) (p : Nat) (f : PageEnt → PageEnt) : State :=
  { s with map := { s.map with pages := aset s.map.pages p (f (s.page p)) } }

def State.modGeo (s : State) (f : Geometry → Geometry) : State := { s with map := { s.map with geo := f s.map.geo } }

/-- The first page number of the map's own pages in `MapState.pages` (03 R65; 06 R168): level-0 map page i is page
`ownPages + i` there, level-1 map page j is `ownPages + 2^38 + j`; pages of hosts lie below. -/
def ownPages : Nat := 2 ^ 40

/-- A zero page without an overlay (03; 01 R27). -/
def PageEnt.isZero (e : PageEnt) : Bool := e.zero && e.overlay.isNone

/-- The page holds data outside tier `t`: in an overlay over a zero page, or in another tier (03 R95). -/
def PageEnt.outside (e : PageEnt) (t : Nat) : Bool := !e.isZero && (e.zero || e.tier != t)

/-- Every page is a zero page without an overlay (03 R93). -/
def allZero (s : State) : Bool := s.map.pages.all fun x => decide (ownPages ≤ x.1) || x.2.isZero

/-- Some page of a span of pages is not a zero page without an overlay. -/
def spanUsed (s : State) (first count : Nat) : Bool :=
  s.map.pages.any fun x => decide (first ≤ x.1) && decide (x.1 < first + count) && !x.2.isZero

/-- Offered pages. -/
def offeredPages (s : State) : Nat := s.map.geo.offeredGib * 2 ^ 18

/-! ### Pins (03 R75-R77) -/

/-- The PIN value of a page. -/
def pinOf (s : State) (p : Nat) : Nat :=
  ((s.map.pins.find? fun x => decide (x.start ≤ p) && decide (p < x.start + x.count)).map (·.value)).getD 0

/-- Cut a span out of another: what lies before and after it. -/
def PinSpan.cut (x : PinSpan) (a n : Nat) : List PinSpan :=
  let e := x.start + x.count
  let lo := if x.start < a then [{ x with count := min e a - x.start }] else []
  let hi := if a + n < e then [{ x with start := max x.start (a + n), count := e - max x.start (a + n) }] else []
  lo ++ hi

/-- The PIN value of pages `a` to `a + n - 1` becomes `v`; the spans stay disjoint. -/
def setPin (a n v : Nat) (l : List PinSpan) : List PinSpan :=
  let rest := (l.map fun x => x.cut a n).flatten
  if v = 0 then rest else ⟨a, n, v⟩ :: rest

/-- Pages whose PIN is one of `vs`. -/
def pinned (l : List PinSpan) (vs : List Nat) : Nat := ((l.filter fun x => vs.contains x.value).map (·.count)).sum

/-- The tiers a PIN value permits: H 0, W 1, C 2. -/
def pinAllows (v t : Nat) : Bool :=
  if v = 1 then t == 0 else if v = 2 then t == 1 else if v = 7 then t == 2
  else if v = 3 then t != 2 else if v = 4 then t != 0 else true

/-! ### Where copies and chunks lie (04 R101-R103; 10 R276-R280) -/

/-- Members of a channel mask, ascending. -/
def membersOf (m : BitVec 16) : List Nat := (List.range 16).filter fun c => m.getLsbD c

/-- Number of populated channels of the committed geometry. -/
def Geometry.n (g : Geometry) : Nat := 2 * g.low.length

/-- The lower channel of a Tier H frame; its partner is that number plus 8 (04 R101). -/
def frameLow (s : State) (f : Nat) : Nat := s.map.geo.low.getD (f % max 1 s.map.geo.low.length) 0

/-- Parity of the bits of `v` below 40. -/
def parity40 (v : Nat) : Bool := (List.range 40).foldl (fun b i => b != v.testBit i) false

/-- DIMM position of a channel-local address: the POS select (10 R278, R280). -/
def posOf (s : State) (addr : Nat) : Nat := b2n (parity40 (addr &&& s.ddr.masks.getD 11 0))

/-- Primary bit of a mask: its lowest set bit (10 R278). -/
def primaryBit (m : Nat) : Option Nat := (List.range 40).find? m.testBit

/-- Address bits 6 to 39 that are not primary bits, in ascending order (10 R278). -/
def restBits (masks : List Nat) : List Nat :=
  ((List.range 34).map (· + 6)).filter fun b => !(masks.any fun m => primaryBit m == some b)

/-- The bits of `addr` at the places of a list, the first lowest. -/
def gather (addr : Nat) : List Nat → Nat
  | [] => 0
  | b :: t => b2n (addr.testBit b) + 2 * gather addr t

/-- The twelve selects of a channel-local address as one number: subchannel, pseudo-channel, bank group, bank, rank, chip,
position (10 R278). -/
def bankOf (s : State) (addr : Nat) : Nat :=
  bitsOf 12 fun k => parity40 (addr &&& s.ddr.masks.getD k 0)

/-- Row and first column of a channel-local address (10 R278). -/
def rowOf (s : State) (addr : Nat) : Nat := gather addr (((restBits s.ddr.masks).drop 7).take s.ddr.rowBits)
def colOf (s : State) (addr : Nat) : Nat := 16 * gather addr ((restBits s.ddr.masks).take 7)

/-- The rules of R279 on a set of masks: `used` the selects that the modules use, `cap` the channel's capacity in bytes. -/
def masksOk (masks : List Nat) (rowBits cap : Nat) (used : List Nat) (two : Bool) : Bool :=
  let at_ := fun k : Nat => masks.getD k 0
  ((List.range 12).all fun k => match primaryBit (at_ k) with
    | some b => (List.range 12).all fun j => j == k || !(at_ j).testBit b
    | none => true)
    && ((List.range 12).all fun k => used.contains k || at_ k == 0)
    && (if two then at_ 11 % 2 ^ 12 == 0 else at_ 11 == 0)
    && ((restBits masks).countP fun b => decide (2 ^ b < cap)) == 7 + rowBits

/-- The DIMM slot that holds a Tier H frame on channel `c`. -/
def frameDimm (s : State) (c f : Nat) : Nat :=
  2 * c + posOf s (4096 * (s.ddr.hotBase + f / max 1 s.map.geo.low.length))

/-- The DIMM slot that holds warm slot `b` on channel `c`. -/
def warmDimm (s : State) (c b : Nat) : Nat := 2 * c + posOf s (4096 * (s.ddr.warmBase + b))

/-- Sectors of a warm barge's data space, and the barge of a sector (03 R64). -/
def warmSectors (g : Geometry) : Nat := 16 * (g.n - 2)
def warmBarge (g : Geometry) (loc : Nat) : Nat := loc / max 1 (warmSectors g)

/-- The data chunks a warm block touches. -/
def warmChunks (g : Geometry) (loc size : Nat) : List Nat :=
  let o := loc % max 1 (warmSectors g)
  (List.range ((o + size - 1) / 16 + 1)).filter fun t => decide (o / 16 ≤ t)

/-- The channel of chunk `t` of warm barge `b` (04 R102). -/
def warmChannel (s : State) (b t : Nat) : Nat :=
  let m := membersOf ((aget s.dur.warm b).map (·.members) |>.getD s.ddr.population)
  m.getD ((t + b) % max 1 m.length) 0

/-- Units of a cold barge's data space; barge and chunk of a unit (03 R64). -/
def coldBarge (g : Geometry) (loc : Nat) : Nat := loc / max 1 (8 * g.coldK)
def coldChunk (g : Geometry) (loc : Nat) : Nat := loc % max 1 (8 * g.coldK) / 8

/-- The drive of chunk `j` of cold barge `b`, and its row (04 R103). -/
def coldRow (g : Geometry) (b j : Nat) : Nat := (b * (g.coldK + g.coldM) + j) / max 1 g.drives.length
def coldDrive (g : Geometry) (b j : Nat) : Nat :=
  let q := b * (g.coldK + g.coldM) + j
  g.drives.getD ((q + coldRow g b j) % max 1 g.drives.length) 0

/-- The slots whose units hold a page's data: both copies, the chunks its block touches, or the drive of its chunk. -/
def pageUnits (s : State) (e : PageEnt) : List Nat :=
  if e.zero then []
  else if e.tier = 0 then
    [frameDimm s (frameLow s e.loc) e.loc, frameDimm s (frameLow s e.loc + 8) e.loc]
  else if e.tier = 1 then
    let b := warmBarge s.map.geo e.loc
    (warmChunks s.map.geo e.loc e.size).map fun t => warmDimm s (warmChannel s b t) b
  else [32 + coldDrive s.map.geo (coldBarge s.map.geo e.loc) (coldChunk s.map.geo e.loc)]

/-- Chunks of a warm barge that can be read: members whose DIMM is in service and, in REFILL, below the watermark
(04 R98, R99, R122). -/
def warmReadable (s : State) (b c : Nat) : Bool :=
  let u := s.unit (warmDimm s c b)
  !u.fenced && (u.health == .healthy || (u.health == .refill && decide (b < u.warmMark)))

/-- A Tier H copy can be read: frame below the hot watermark of a unit in REFILL (04 R122). -/
def copyReadable (s : State) (c f : Nat) : Bool :=
  let u := s.unit (frameDimm s c f)
  !u.fenced && (u.health == .healthy || (u.health == .refill && decide (f < u.hotMark)))

/-- A chunk of a cold barge can be read: written, drive in service, refilled (04 R103, R122). -/
def coldReadable (s : State) (b j : Nat) : Bool :=
  let d := coldDrive s.map.geo b j
  let u := s.unit (32 + d)
  let written := match aget s.dur.cold b with
    | some x => !x.absent.contains j
    | none => true
  written && !u.fenced
    && (u.health == .healthy || (u.health == .refill && decide (coldRow s.map.geo b j < u.hotMark)))

/-! ### Capacity (03 R59, R71, R81) -/

/-- Level-1 map pages, held in Tier H (03 R65). -/
def levelOnePages (s : State) : Nat := (offeredPages s + 65535) / 65536

/-- Level-1 map page `j`, and its entry when the map is laid out: the first frames of Tier H, which level 1 never leaves (03 R62,
R65; log 40). -/
def levelOnePage (j : Nat) : Nat := ownPages + 2 ^ 38 + j
def levelOneEntries (s : State) : List (Nat × PageEnt) :=
  (List.range (levelOnePages s)).map fun j => (levelOnePage j, { zero := false, tier := 0, loc := j })

/-- Frames in use: Tier H pages, those of the map among them, overlays, locations that drain (03 R71). -/
def usedFrames (s : State) : List Nat :=
  (s.map.pages.filterMap fun x => if !x.2.zero && x.2.tier == 0 then some x.2.loc else none)
    ++ (s.map.pages.filterMap fun x => x.2.overlay.map (·.frame))
    ++ (s.map.old.filterMap fun o => if o.tier = 0 then some o.loc else none)

/-- Overlays in use. -/
def overlayCount (s : State) : Nat := s.map.pages.countP fun x => x.2.overlay.isSome

/-- Soft and hard overlay limits in frames (03 R78, R80). -/
def ovlSoftLimit (s : State) : Nat := s.map.geo.hotFrames * s.map.pol.ovlSoft / 64
def ovlHardLimit (s : State) : Nat := 2 * ovlSoftLimit s

/-- Pages of hosts held in a tier. -/
def pagesIn (s : State) (t : Nat) : Nat :=
  s.map.pages.countP fun x => decide (x.1 < ownPages) && !x.2.zero && x.2.tier == t

/-- Sectors in use in a barge tier. -/
def sectorsIn (s : State) (t : Nat) : Nat :=
  ((s.map.pages.filter fun x => !x.2.zero && x.2.tier == t).map fun x => x.2.size).sum

/-- Data sectors of the barge tiers, without the tag sectors (05 R139). -/
def warmData (g : Geometry) : Nat := g.warmBarges * (warmSectors g - 1)
def coldData (g : Geometry) : Nat := g.coldBarges * g.coldK * 127

/-- Fill in hundredths of a percent (03 R71). -/
def fillOf (s : State) (t : Nat) : Nat :=
  if t = 0 then (usedFrames s).length * 10000 / max 1 s.map.geo.hotFrames
  else if t = 1 then sectorsIn s 1 * 10000 / max 1 (warmData s.map.geo)
  else sectorsIn s 2 * 10000 / max 1 (coldData s.map.geo)

/-- Free space of a barge tier in hundredths of a percent: the barges that hold nothing (03 R81). -/
def freeSpace (s : State) (t : Nat) : Nat :=
  if t = 1 then (s.map.geo.warmBarges - s.dur.warm.length) * 10000 / max 1 s.map.geo.warmBarges
  else (s.map.geo.coldBarges - s.dur.cold.countP (fun x => x.2.live || x.2.retired)) * 10000 / max 1 s.map.geo.coldBarges

/-- A pair both of whose DIMMs are HEALTHY takes new frames (04 R114). -/
def frameOk (s : State) (f : Nat) : Bool :=
  (s.unit (frameDimm s (frameLow s f) f)).readable && (s.unit (frameDimm s (frameLow s f + 8) f)).readable

/-- A free frame on a healthy pair: the search starts where the free value says (log 5). -/
def freeFrame (s : State) : Option Nat :=
  let used := usedFrames s
  let total := s.map.geo.hotFrames
  let start := Config.frameChoice s.free
  ((List.range (min total ((used.length + 1) * (s.map.geo.n + 2)))).map fun i => (start + i) % total).find?
    fun f => !used.contains f && frameOk s f

/-! ### Overrides (03 R92) -/

/-- Count one override of a loop; ADVISORY once per loop and cycle when the count reaches OVERRIDE_THRESH. -/
def countOverride (loop : Nat) (s : State) : State :=
  let n := addSat 24 (s.map.overrides.getD loop 0) 1
  let s := { s with map := { s.map with overrides := s.map.overrides.set loop n } }
  if s.map.pol.thresh ≤ n ∧ ¬ s.map.advised.contains loop then
    raiseAll 192 0 (le 1 loop ++ le 4 n) { s with map := { s.map with advised := loop :: s.map.advised } }
  else s

/-! ### Heat and the map cache (03 R67-R72) -/

/-- Number of a page's map page. -/
def mapPage (p : Nat) : Nat := p / 256

/-- Lag of a map page: berth cycles since its stamp; a stamp ahead of the count counts as no lag (03 R70). DESIGN CHOICE: a
modulo-256 difference of 128 or more is a stamp that is ahead; the manual gives no bound (log 62). -/
def lagOf (s : State) (p : Nat) : Nat :=
  let count := seconds s.time.chain % 256
  let stamp := (aget s.map.stamps (mapPage p)).getD count
  let d := (count + 256 - stamp) % 256
  if 128 ≤ d then 0 else d

/-- The entry is in the map cache; entries of the map's own pages are held with level 1 and the root. -/
def cached (s : State) (p : Nat) : Bool := decide (ownPages ≤ p) || s.map.cache.any (·.1 == p)

/-- Effective heat (03 R70). -/
def heatOf (s : State) (p : Nat) : Nat :=
  let h := (s.page p).heat
  if cached s p then h else if 8 ≤ lagOf s p then 0 else h / 2 ^ lagOf s p

/-- The page's lock, if one is held: MOVING. -/
def lockOf (s : State) (p : Nat) : Option Lock := s.map.locks.find? (·.page == p)

/-- Set of the map cache that holds a page: 65,536 sets of 16 ways (03 R67; the index is the model's, log 19). -/
def cacheSet (p : Nat) : Nat := p % 65536

/-- Halve one page's stored heat. -/
def halveHeat (p : Nat) (s : State) : State := s.modPage p fun e => { e with heat := e.heat / 2 }

/-! ### Promotion thresholds (03 R72, PIN table) -/

def halfUp (n : Nat) (hot : Bool) : Nat := if hot then (n + 1) / 2 else n

def promoteW (s : State) (p : Nat) : Nat := halfUp s.map.pol.promoteW (pinOf s p == 5)
def promoteC (s : State) (p : Nat) : Nat := halfUp s.map.pol.promoteC (pinOf s p == 5)

/-- A heat sample brings page `p` from heat `a` to `b`: at a threshold it is queued for migration, or, where its PIN forbids
the promotion, an override of loop 0 is counted (03 R72, R92). -/
def sampleThreshold (p a b : Nat) (s : State) : State :=
  let e := s.page p
  let reach := fun t : Nat => decide (a < t) && decide (t ≤ b)
  if e.zero then s
  else
    let toH := (e.tier == 1 || e.tier == 2) && reach (promoteW s p)
    let toW := e.tier == 2 && reach (promoteC s p)
    let forbid := (toH && !pinAllows (pinOf s p) 0) || (toW && !pinAllows (pinOf s p) 1)
    let allow := (toH && pinAllows (pinOf s p) 0) || (toW && pinAllows (pinOf s p) 1)
    let s := if forbid then countOverride 0 s else s
    if allow then s.modPage p fun e =>
      { e with queued := true, hot := e.hot || (toH && pinAllows (pinOf s p) 0), overlay := e.overlay.map fun o => { o with queued := true } } else s

/-- A host request passes the page map stage: every sixteenth is a heat sample (03 R69). -/
def heatSample (p : Nat) (s : State) : State :=
  let n := s.map.heatSeq + 1
  let s := { s with map := { s.map with heatSeq := n } }
  if n % 16 = 0 then
    let a := (s.page p).heat
    let b := min 255 (a + 1)
    sampleThreshold p a b (s.modPage p fun e => { e with heat := b })
  else s

/-! ### Epochs and target counters (06 R166, R176, R180) -/

/-- Pages of a range that a re-key moves: in epoch `e`, and not Tier C blocks without an overlay (06 R182). -/
def rekeyPages (s : State) (r e : Nat) : List Nat :=
  (s.map.pages.filter fun x => keyRangeOf s (4096 * x.1) == some r && x.2.epoch == e && !x.2.isZero
    && (x.2.tier != 2 || x.2.zero || x.2.overlay.isSome)).map (·.1)

/-- A range opens its next epoch, and a re-key outing starts (06 R180-R182, R185); with no page to move the older epoch is
retired at once. -/
def openEpoch (r issuer : Nat) (s : State) : State :=
  let k := s.range r
  let work := rekeyPages s r k.epoch
  let id := s.crity.nextOuting
  let s := openOuting 0x08 issuer r work.length work s
  s.modRange r fun x => { x with
    epoch := x.epoch + 1, useNew := 0, lateRaised := false, live := if work.isEmpty then 1 else 2
    useOld := if work.isEmpty then 0 else x.useNew, rekey := if work.isEmpty then none else some id }

/-- The target counters of a whole-page encryption, and the state after an epoch that R180 opens, or its halt (06 R176,
R180). -/
def lockTarget (p : Nat) (s : State) : (Nat × Nat) × State :=
  let e := s.page p
  match keyRangeOf s (4096 * p) with
  | some r =>
    let k := s.range r
    if e.epoch ≠ k.epoch then ((k.epoch, 0), s)
    else if e.major + 1 < 2 ^ 48 then ((e.epoch, e.major + 1), s)
    else if k.live = 1 then ((k.epoch + 1, 0), openEpoch r 0xFF s)
    else ((e.epoch, e.major), raiseAll 577 0 (le 1 r ++ le 4 k.epoch ++ le 8 k.useNew) s)
  | none => ((e.epoch, e.major + 1), s)

/-! ### Overlays -/

/-- Take an overlay for page `p` in frame `f` (01 R26; 03 R66, R78). -/
def makeOverlay (p f : Nat) (s : State) : State :=
  let o : Overlay := { frame := f, mask := 0, seq := s.map.ovlSeq, written := true }
  let s := { s with free := s.free + 1, map := { s.map with ovlSeq := s.map.ovlSeq + 1 } }
  s.modPage p fun e => { e with overlay := some o }

/-- Sides of the lines of page `p` for which `keep` does not hold are dropped. -/
def dropSides (p : Nat) (keep : Nat → Bool → Bool) (s : State) : State :=
  { s with map := { s.map with side := s.map.side.filter fun x =>
      x.1 / 2 / 64 != p || keep (x.1 / 2 % 64) (x.1 % 2 == 1) } }

/-! ### Old locations (03 R89) -/

/-- Reads in flight from a location. -/
def draining (s : State) (t loc : Nat) : Nat := s.req.reqs.countP fun r => r.src_ == some (t, loc)

/-- A location the map no longer names: it becomes free when its drain count is zero. -/
def retireLoc (t loc size : Nat) (s : State) : State :=
  if draining s t loc = 0 then s else { s with map := { s.map with old := ⟨t, loc, size, none⟩ :: s.map.old } }

/-- DRAIN_COMPLETE: locations without a read in flight are freed. -/
def sweepOld (s : State) : State :=
  { s with map := { s.map with old := s.map.old.filter fun o => draining s o.tier o.loc != 0 } }

/-! ### Locks (03 R85; 06 R178) -/

/-- Locks in use, reserved ones or the others: a lock is held after its commit until the old location has drained. -/
def locksUsed (s : State) (reserved : Bool) : Nat :=
  s.map.locks.countP (·.reserved == reserved) + s.map.old.countP fun o => (o.lock.map (·.2)) == some reserved

/-- A lock is free: 1,024 in all, 16 of them only for re-encryption. -/
def lockFree (s : State) (reserved : Bool) : Bool := decide (locksUsed s reserved < if reserved then 16 else 1008)

/-- A lock of the page is held until an old location of it has drained. -/
def lockDrains (s : State) (p : Nat) : Bool := s.map.old.any fun o => (o.lock.map (·.1)) == some p

/-- The moves that encrypt the page anew (06 R176). -/
def encrypts : MoveKind → Bool
  | .demote | .merge | .rekey | .reencrypt => true
  | .promote | .dredge | .rebuild => false

/-- Take the lock of a page for a move (03 R85). A re-encryption without a reserved lock takes none. -/
def takeLock (kind : MoveKind) (p tier outing : Nat) (s : State) : State :=
  let e := s.page p
  let snap := match kind with
    | .dredge | .rebuild => 0
    | _ => (e.overlay.map (·.mask)).getD 0
  let (t, s) := if encrypts kind then lockTarget p s else ((e.epoch, e.major), s)
  let l : Lock := {
    page := p, kind := kind, tier := tier, outing := outing, snap := snap, wm := 0, tEpoch := t.1, tMajor := t.2
    reserved := kind == .reencrypt }
  { s with map := { s.map with locks := s.map.locks ++ [l] } }

/-- Release a lock; a block that was written for the move and is not committed is garbage. -/
def dropLock (p : Nat) (s : State) : State :=
  let w : Nat × WarmBarge → Nat × WarmBarge := fun x => (x.1, { x.2 with blocks := x.2.blocks.filter (·.page != p) })
  let c : Nat × ColdBarge → Nat × ColdBarge := fun x => (x.1, { x.2 with blocks := x.2.blocks.filter (·.page != p) })
  { s with
    map := { s.map with locks := s.map.locks.filter (·.page != p) }
    dur := { s.dur with warm := s.dur.warm.map w, cold := s.dur.cold.map c } }

/-- The lock of a committed move is released, or kept until the old location at `t`, `loc` has drained (03 R85). -/
def passLock (l : Lock) (t loc : Nat) (s : State) : State :=
  let keep : OldLoc → OldLoc := fun o =>
    if o.tier = t ∧ o.loc = loc ∧ o.lock = none then { o with lock := some (l.page, l.reserved) } else o
  dropLock l.page { s with map := { s.map with old := s.map.old.map keep } }

/-- A move is aborted before commit: its destination is freed, an overlay that was being filled for it among them, and the page is
queued again (03 R77, R90). Lines that hosts wrote stay in the overlay. -/
def abortMove (p : Nat) (requeue : Bool) (s : State) : State :=
  match lockOf s p with
  | some l =>
    let keep : BitVec 64 := l.snap ||| l.wm
    let s := if l.filled && keep == 0 then
        (match (s.page p).overlay with
         | some o => dropSides p (fun _ ovl => !ovl) (retireLoc 0 o.frame 0 s)
         | none => s)
      else s
    (dropLock p s).modPage p fun e => { e with
      queued := requeue || e.queued
      overlay := if !l.filled then e.overlay else if keep = 0 then none else e.overlay.map fun o => { o with mask := keep } }
  | none => s

end Sys2Proof.Machine
end

