-- ==== Sys2Proof/Machine/Crypto.lean ====
section
/-! DEFINITION. Keys, counter blocks, line and block tags, key-use counts, block headers and the choice of codes (05 R136-R145;
06 R165-R181). -/

namespace Sys2Proof.Machine

/-! ### Keys (06 R165) -/

/-- Working key K(r, e) and hash key H(r, e) of range `r` (16 the device range) (06 R165). -/
def workingKey (root : BitVec 256) (r e : Nat) : BitVec 256 :=
  BitVec.ofNat 256 (ofBe (kdf root "DMWK" (be 1 r ++ be 3 e) 256))
def hashKey (root : BitVec 256) (r e : Nat) : List Byte := kdf root "DMWH" (be 1 r ++ be 3 e) 128

/-- Extent key X(r, b, g) and extent hash key Y(r, b, g) (06 R165, R172). -/
def extentKey (root : BitVec 256) (r b g : Nat) : BitVec 256 :=
  BitVec.ofNat 256 (ofBe (kdf root "DMXK" (be 1 r ++ be 5 b ++ be 2 g) 256))
def extentHashKey (root : BitVec 256) (r b g : Nat) : List Byte := kdf root "DMXH" (be 1 r ++ be 5 b ++ be 2 g) 128

/-- The number that a page has in counter blocks, AD blocks and tags: a page of the device range has its device range page
number (06 R168). -/
def pageNo (p : Nat) : Nat := if p < ownPages then p else p - ownPages

/-- A counter block (06 R167): TYPE, PAGE, MAJOR, LINE, MINOR, BLOCK. -/
def counterBlock (type page major line minor block : Nat) : BitVec 128 :=
  BitVec.ofNat 128 (type % 4 * 2 ^ 126 + page % 2 ^ 40 * 2 ^ 86 + major % 2 ^ 48 * 2 ^ 38 + line % 64 * 2 ^ 32
    + minor % 64 * 2 ^ 26 + block % 256)

/-! ### Lines (06 R167, R169, R170, R173) -/

/-- Ciphertext of a line: four blocks of keystream, none in a bypass range (06 R167, R173). -/
def lineCipher (key : BitVec 256) (page major line minor : Nat) (bypass : Bool) (d : Line) : List Byte :=
  let x := le 64 d.toNat
  if bypass then x
  else xorBytes x ((List.range 4).map fun b => aes key (counterBlock 0 page major line minor b)).flatten

/-- The AD block of a line tag (06 R170). DESIGN CHOICE: it and the ciphertext enter GHASH byte 0 first, bits [7:0] of the AD block
being its byte 0; the table gives bit numbers only (log 65). -/
def lineAd (page line minor range major : Nat) (poison bypass : Bool) : List Byte :=
  le 16 (page % 2 ^ 40 + line % 64 * 2 ^ 40 + minor % 64 * 2 ^ 46 + b2n poison * 2 ^ 52 + b2n bypass * 2 ^ 53
    + range % 32 * 2 ^ 54 + major % 2 ^ 48 * 2 ^ 64)

/-- The line tag, of which the sideband keeps the first 7 bytes (06 R169, R170). -/
def lineTag (root : BitVec 256) (range epoch page major line minor : Nat) (poison bypass : Bool) (d : Line) : List Byte :=
  let k := workingKey root range epoch
  let ct := lineCipher k page major line minor bypass d
  xorBytes (ghash (hashKey root range epoch)
      (lineAd page line minor range major poison bypass :: (blocks16 ct ++ [lengthBlock 128 512])))
    (aes k (counterBlock 2 page major line minor 0))

/-- Device 9's symbol: MAC, MINOR, POISON, BYPASS (06 R169). -/
def sidebandSymbol (x : LineSide) : BitVec 64 :=
  BitVec.ofNat 64 (x.mac.toNat + x.minor % 64 * 2 ^ 56 + b2n x.poison * 2 ^ 62 + b2n x.bypass * 2 ^ 63)

/-- Device 8's symbol: the XOR of the symbols of devices 0-7 and 9 (04 R101). -/
def chipParity (symbols : List (BitVec 64)) : BitVec 64 := symbols.foldl (· ^^^ ·) 0

/-- The ten symbols of a line in one copy (04 R101; 06 R169): ciphertext on devices 0-7, chip parity on 8, the sideband on 9. -/
def lineSymbols (ct : List Byte) (side : LineSide) : List (BitVec 64) :=
  let data := (List.range 8).map fun d => BitVec.ofNat 64 (ofLe ct (8 * d) 8)
  data ++ [chipParity (data ++ [sidebandSymbol side]), sidebandSymbol side]

/-- Rebuild the symbol of device `d` from the others (04 R104, step 1). -/
def chipRebuild (symbols : List (BitVec 64)) (d : Nat) : List (BitVec 64) :=
  symbols.set d (chipParity (symbols.set d 0))

/-- Count AES blocks computed under the newest key, or the older one, of the range of a page while encrypting. Once the newer epoch
is open, the older key's count has stopped (06 R181). -/
def useKey (p epoch blocks : Nat) (s : State) : State :=
  match keyRangeOf s (4096 * p) with
  | some r => s.modRange r fun x => if epoch = x.epoch then { x with useNew := x.useNew + blocks } else x
  | none => s

/-- AES blocks of one line: four of keystream and one tag mask; of a block of SIZE sectors; of a raw block. -/
def lineBlocks : Nat := 5
def blockBlocks (size : Nat) : Nat := if size = 16 then 257 else (size * 256 - 32) / 16 + 1

/-- The sideband a write of a line leaves: it is encrypted under these counters (06 R170, R176). -/
def sideOf (s : State) (line minor epoch major : Nat) (poison : Bool) (d : Line) : LineSide :=
  let r := (keyRangeOf s (64 * line)).getD 16
  let k := s.range r
  { minor := minor, poison := poison, bypass := k.bypass
    mac := BitVec.ofNat 56 (ofLe (lineTag k.root r epoch (pageNo (line / 64)) major (line % 64) minor poison k.bypass d) 0 7) }

/-! ### Blocks (05 R136-R139; 06 R171, R172) -/

/-- SIZE of a block whose stream has `l` bytes (05 R138); 16 is raw. -/
def blockSize (l : Nat) : Nat := if l ≤ 3808 then (32 + l + 255) / 256 else 16

/-- Header bytes 16-31 (05 R136, R137). A raw block's first AD block has the same form, with LENGTH, TABLES and ENGINE zero (06
R171). -/
def headerTail (b : BlockSeal) : List Byte :=
  let raw := b.made.size == 16
  le 6 b.major ++ le 3 b.epoch ++ le 2 (if raw then 0 else b.made.stream.length)
    ++ le 1 ((if raw then 0 else if b.made.dynamic then 2 else 1) + 4 * b2n b.bypass)
    ++ le 1 (if raw then 0 else b.made.engine) ++ le 1 1 ++ le 2 0

/-- What is encrypted: the stream and its padding to the end of the last sector, or the 4,096 bytes of a raw block (05 R136,
R138). -/
def blockPlain (made : BlockMade) (page : List Byte) : List Byte :=
  if made.size = 16 then page else made.stream ++ zeros (made.size * 256 - 32 - made.stream.length)

/-- The stored bytes of what is encrypted (06 R167, R171, R173). -/
def blockCipher (key : BitVec 256) (page major : Nat) (bypass : Bool) (d : List Byte) : List Byte :=
  if bypass then d
  else xorBytes d ((List.range ((d.length + 15) / 16)).map fun b => aes key (counterBlock 1 page major 0 0 b)).flatten

/-- The block MAC, or the raw tag (06 R171): two AD blocks, the encrypted bytes, the length block, and the mask. -/
def blockTag (key : BitVec 256) (hkey : List Byte) (page range : Nat) (b : BlockSeal) (d : List Byte) : List Byte :=
  let ct := blockCipher key page b.major b.bypass d
  xorBytes
    (ghash hkey (headerTail b :: le 16 (page % 2 ^ 40 + range % 32 * 2 ^ 40) :: (blocks16 ct ++ [lengthBlock 256 (8 * ct.length)])))
    (aes key (counterBlock 3 page b.major 0 0 0))

/-- The stored sectors of a compressed block: its header and the encrypted stream (05 R136). -/
def blockBytes (key : BitVec 256) (page : Nat) (b : BlockSeal) : List Byte :=
  le 16 b.tag.toNat ++ headerTail b ++ blockCipher key page b.major b.bypass (blockPlain b.made [])

/-- The bytes of a page. -/
def pageBytes (s : State) (p : Nat) : List Byte := Memory.readBytes s.mem (4096 * p) 4096

/-- The tag that a stored block of a page must have: under K(r, e) in Tier W, under X(r, b, g) in Tier C (06 R171, R172). -/
def sealTag (s : State) (p tier : Nat) (b : BlockSeal) : BitVec 128 :=
  let r := (keyRangeOf s (4096 * p)).getD 16
  let k := s.range r
  let key := if tier = 2 then extentKey k.root r b.barge b.gen else workingKey k.root r b.epoch
  let hkey := if tier = 2 then extentHashKey k.root r b.barge b.gen else hashKey k.root r b.epoch
  BitVec.ofNat 128 (ofLe (blockTag key hkey (pageNo p) r b (blockPlain b.made (pageBytes s p))) 0 16)

/-- Seal a block for its place (06 R171, R172, R175): EPOCH is zero in Tier C. -/
def sealBlock (s : State) (p tier barge gen epoch major : Nat) (made : BlockMade) : BlockSeal :=
  let r := (keyRangeOf s (4096 * p)).getD 16
  let b : BlockSeal := {
    made := made, major := major, epoch := if tier = 2 then 0 else epoch, bypass := (s.range r).bypass
    barge := barge, gen := gen, tag := 0 }
  { b with tag := sealTag s p tier b }

/-- The block that stands for a page matches its tag and decodes to the page (05 R137; 06 R174). -/
def sealOk (s : State) (p : Nat) : Bool :=
  let e := s.page p
  match e.block with
  | some b => b.tag == sealTag s p e.tier { b with bypass := (s.range ((keyRangeOf s (4096 * p)).getD 16)).bypass }
  | none => true

/-- Slot of a raw block's tag in the tag sector of its warm barge or cold chunk (05 R139). -/
def tagSlot (g : Geometry) (tier loc start : Nat) : Nat :=
  if tier = 1 then loc % max 1 (warmSectors g) / 16 else (loc % 8 * 16 + start) / 16

/-- The tag sector of a warm barge of width `w`: the last of its data space (05 R139). -/
def warmTagSector (w : Nat) : Nat := 16 * (w - 2) - 1

/-! ### The choice of codes (05 R143-R145) -/

/-- The range history takes one committed block (05 R143). -/
def historyUpdate (p sFix sDyn : Nat) (s : State) : State :=
  match keyRangeOf s (4096 * p) with
  | some r => s.modRange r fun x =>
      { x with histG := x.histG - x.histG / 16 + ((sFix : Int) - sDyn), histP := min (x.histP + 1) 1024 }
  | none => s

/-- The adaptive rule would choose dynamic codes (05 R144). -/
def wantsDynamic (k : KeyRange) : Bool := decide (1024 ≤ k.histP) && decide (16 ≤ k.histG)

/-- Dynamic codes are used: the adaptive rule, not forced static, and no brace (05 R144, R145). -/
def usesDynamic (s : State) (p : Nat) : Bool :=
  match keyRangeOf s (4096 * p) with
  | some r => wantsDynamic (s.range r) && !(s.range r).codecStatic && !s.power.brace
  | none => false

/-- What engine `e` makes of a page (05 R136, R138, R143-R145): the parse of its microcode, the sector counts of both kinds of
codes, and the stream in the codes chosen. -/
def makeBlock (s : State) (e p : Nat) : BlockMade :=
  let ver := s.lm.clusterVer.getD (e / 8) 0
  let bytes := pageBytes s p
  let fix := pageStream ver false bytes
  let dyn := pageStream ver true bytes
  let d := usesDynamic s p
  let stream := if d then dyn else fix
  let size := blockSize stream.length
  { size := size, sFix := blockSize fix.length, sDyn := blockSize dyn.length, dynamic := d, engine := e
    stream := if size = 16 then [] else stream }

/-- A page stored raw after a verification mismatch (05 R141). -/
def rawBlock (s : State) (e p : Nat) : BlockMade := { makeBlock s e p with size := 16, stream := [] }

end Sys2Proof.Machine
end

