-- ==== Sys2Proof/Machine/LinkOps.lean ====
section
/-! DEFINITION. Holding, sending and consuming Stechaisk frames, and the routes of the chain (12 R325-R343; 13 R351, R352). -/

namespace Sys2Proof.Machine

def State.port (s : State) (p : Nat) : Port := s.skl.ports.getD p {}

def State.modPort (s : State) (p : Nat) (f : Port → Port) : State :=
  { s with skl := { s.skl with ports := s.skl.ports.modify p f } }

def State.modChain (s : State) (f : ChainState → ChainState) : State := { s with chain := f s.chain }

/-- Raise event `k` of port `p` (12, event sources). -/
def portEvent (p k : Nat) (contents : List Byte) (s : State) : State := raiseAll (srcPort p k) 0 contents s

/-- Element-wise change of a four-entry count. -/
def bump (l : List Nat) (v k : Nat) : List Nat := l.modify v (· + k)

/-- Count DRAM bytes at a port, P0 to P3 (08 R243). -/
def countDram (port bytes : Nat) (s : State) : State :=
  { s with slu := { s.slu with dramp := bump s.slu.dramp port bytes } }

/-! ### Routes -/

/-- The device is assigned (13 R346). -/
def assigned (s : State) : Bool := s.chain.id != 0xFFF

/-- Place of a chain ID along the chain, east positive, in the numbering of a FULL discovery: IDs rise eastwards from the
lowest to the east end, and westwards beyond it (13 R348; log 20). -/
def chainPos (c : ChainState) (x : Nat) : Int :=
  if c.ring ∨ x ≤ c.eastEnd then (x : Int) - c.lowest else (c.eastEnd : Int) - x

/-- Hops to a device in direction `d`, 0 east and 1 west; none where an open chain does not lead there. -/
def hopsTo (s : State) (x d : Nat) : Option Nat :=
  let c := s.chain
  let diff := if d = 0 then chainPos c x - chainPos c c.id else chainPos c c.id - chainPos c x
  if c.ring then some ((diff % (max 1 c.n : Nat)).toNat)
  else if 0 < diff then some diff.toNat else none

/-- Place of the link that a cut names: the device at its west end (13 R351). -/
def cutPos (c : ChainState) (id port : Nat) : Int := if port = 0 then chainPos c id else chainPos c id - 1

/-- The cut lies on the path of `h` hops in direction `d`. -/
def cutOnPath (s : State) (d h : Nat) (cut : Nat × Nat × Nat) : Bool :=
  let c := s.chain
  let me := chainPos c c.id
  let w := cutPos c cut.2.1 cut.2.2
  let off := if d = 0 then w - me else me - 1 - w
  let off := if c.ring then off % (max 1 c.n : Nat) else off
  decide (0 ≤ off) && decide (off < h)

/-- The ring is closed: every link of it has a route, a retraining one included (13 R351). -/
def closedRing (s : State) : Bool :=
  s.chain.ring && s.chain.cuts.isEmpty && s.skl.ports.all fun p => p.st == .up || p.retraining

/-- The port can carry frames away: UP, or retraining in an open chain, where its frames stay held (12 R339). -/
def portOpen (s : State) (p : Nat) : Bool :=
  (s.port p).st == .up || ((s.port p).retraining && !s.chain.ring)

/-- There is a route to a device in direction `d`. -/
def routeIn (s : State) (x d : Nat) : Bool :=
  match hopsTo s x d with
  | some h => portOpen s d && !(s.chain.cuts.any (cutOnPath s d h))
  | none => false

/-- The direction of a frame: the route with fewer hops, east on a tie (13 R352). -/
def direction (s : State) (x : Nat) : Option Nat :=
  if x = s.chain.id then none
  else match routeIn s x 0, routeIn s x 1 with
    | true, true => if (hopsTo s x 1).getD 0 < (hopsTo s x 0).getD 0 then some 1 else some 0
    | true, false => some 0
    | false, true => some 1
    | false, false => none

/-- Whether the peer lies within the hop limit on every route present (13 R353). -/
def withinHops (s : State) (x : Nat) : Bool :=
  (List.range 2).all fun d => !routeIn s x d || decide ((hopsTo s x d).getD 0 ≤ s.chain.hopLimit)

/-! ### Holding frames (12 R336, R338) -/

/-- Frames a port holds in all. -/
def heldMax : Nat := 66560

/-- SPILL_START at the first frame beyond the chip, SPILL_FULL when every slot is in use (12 R338). -/
def spillEvents (p : Nat) (s : State) : State :=
  let n := (s.port p).held.length
  let s := if n ≤ 1024 ∨ (s.port p).spilled then s
    else portEvent p 9 (le 4 n) (s.modPort p fun x => { x with spilled := true })
  if n < heldMax ∨ (s.port p).spillFull then s
  else portEvent p 10 [] (s.modPort p fun x => { x with spillFull := true })

/-- The buffer of a port is full, or frames wait before it: it takes no further frame (12 R338). -/
def portFull (s : State) (p : Nat) : Bool := decide (heldMax ≤ (s.port p).held.length) || !(s.port p).backlog.isEmpty

/-- A frame enters the replay buffer of a port; beyond 1,024 the oldest on the chip moves to its slot of 128 bytes in the spill
pound, by DRAM port P1 (12 R336, R338). -/
def take (p : Nat) (f : Frame) (s : State) : State :=
  let s := if 1024 ≤ (s.port p).held.length then countDram 1 128 s else s
  spillEvents p (s.modPort p fun x => { x with held := x.held ++ [{ frame := f }] })

/-- A port takes a frame from the device; while its buffer is full the frame waits before it (12 R336, R338). -/
def hold (p : Nat) (f : Frame) (s : State) : State :=
  if portFull s p then s.modPort p fun x => { x with backlog := x.backlog ++ [f] } else take p f s

/-- Room in the buffer is given to the frames that wait before the port, in order. -/
def takeBacklog (p : Nat) (s : State) : State :=
  let n := heldMax - (s.port p).held.length
  let l := (s.port p).backlog.take n
  l.foldl (fun t f => take p f t) (s.modPort p fun x => { x with backlog := x.backlog.drop n })

/-- Frames that a port sends on two sequence numbers: a base and its extension (12 R326). -/
def seqSpan (f : Frame) : Nat := if f.ext then 2 else 1

/-- Send a message to a device in the direction of R352; nothing is sent where no route exists. -/
def sendTo (dst : Nat) (f : Frame) (s : State) : State :=
  match direction s dst with
  | some d => hold d { f with dst := dst, src := s.chain.id } s
  | none => s

/-- A broadcast message on port `p` (13 R369): DST 0xFFF. -/
def sendOn (p : Nat) (f : Frame) (s : State) : State := hold p { f with dst := 0xFFF, src := s.chain.id, vc := 3 } s

/-! ### Receive buffer (12 R340, R342) -/

/-- Bytes an accepted frame takes. -/
def frameBytes (f : Frame) : Nat := (if f.pl then 80 else 16) + (if f.ext then 16 else 0)

/-- Send a control frame on port `p`. -/
def control (p : Nat) (c : CtlFrame) (s : State) : State := s.emit (.ctl p c)

/-- XOFF when free space falls below HEADROOM, XON when it rises to HEADROOM + 32 KiB (12 R340). -/
def flowState (p : Nat) (s : State) : State :=
  let x := s.port p
  if x.st ≠ .up then s
  else if x.free < x.headroom * 1024 ∧ x.xoffSent = false then
    control p .xoff (s.modPort p fun x => { x with xoffSent := true, flowAt := s.time.elapsed })
  else if (x.headroom + 32) * 1024 ≤ x.free ∧ x.xoffSent then
    control p .xon (s.modPort p fun x => { x with xoffSent := false, flowAt := s.time.elapsed })
  else s

/-- Send the credits to return (12 R342). -/
def sendCredits (p : Nat) (s : State) : State :=
  let r := (s.port p).returns
  control p (.credit (r.getD 0 0) (r.getD 1 0) (r.getD 2 0) (r.getD 3 0))
    (s.modPort p fun x => { x with returns := [0, 0, 0, 0], returnAt := none })

/-- A tracker of VC `v` is freed: its credit goes back, at once when 16 wait (12 R342). -/
def freeTracker (p v : Nat) (s : State) : State :=
  let f : Port → Port := fun x => { x with
    trackers := bump x.trackers v 1, returns := bump x.returns v 1
    returnAt := match x.returnAt with | some t => some t | none => some s.time.elapsed }
  let s := s.modPort p f
  if (s.port p).returns.any fun n => decide (16 ≤ n) then sendCredits p s else s

/-- A frame has been consumed or forwarded: its buffer space is freed, and its tracker where it was addressed to this device
(12 R340, R342). A frame that is not in the buffer changes nothing here. -/
def consume (p : Nat) (f : Frame) (s : State) : State :=
  if (s.port p).rx.contains f then
    let s := s.modPort p fun x => { x with rx := x.rx.erase f, free := x.free + frameBytes f }
    let s := if f.dst = s.chain.id ∧ f.dst ≠ 0xFFF then freeTracker p f.vc s else s
    flowState p s
  else s

/-- A frame passing through (13 R346, R352, R353): out of the other port with one more hop, or discarded at the hop limit. What a
retraining port of a ring would take it hands back at once (R339); one that a full port does not take stays in the receive buffer,
which sends XOFF as it fills (R338). -/
def forwardFrame (p : Nat) (f : Frame) (s : State) : State :=
  let out : Frame := { f with hops := f.hops + 1, seq := 0 }
  if s.chain.hopLimit ≤ f.hops then consume p f (raiseAll 313 0 (le 2 f.src ++ le 2 f.dst ++ le 1 f.hops) s)
  else if portOpen s (1 - p) then (if portFull s (1 - p) then s else consume p f (hold (1 - p) out s))
  else if (s.port (1 - p)).retraining ∧ portOpen s p = true then (if portFull s p then s else consume p f (hold p out s))
  else consume p f (s.emit (.drop 1 f.opcode))

/-- The frame passes through this device. -/
def passing (s : State) (f : Frame) : Bool := f.dst != s.chain.id && f.dst != 0xFFF

/-- Room has come free in the buffer of port `p`: the frames that wait before it, then the passing ones that the other port's
receive buffer keeps (12 R338). -/
def resumePort (p : Nat) (s : State) : State :=
  let s := takeBacklog p s
  ((s.port (1 - p)).rx.filter (passing s)).foldl (fun t f => forwardFrame (1 - p) f t) s

end Sys2Proof.Machine
end

