-- ==== Sys2Proof/Machine/Finish.lean ====
section
/-! DEFINITION. Completing a request: responses to heads and to the chain, and the end of its directory transaction
(01 R11 step 8; 07 R195-R204; 09 R263). -/

namespace Sys2Proof.Machine

/-! ### Requests in flight -/

def State.req? (s : State) (id : Nat) : Option Req := s.req.reqs.find? (·.id == id)

def State.modReq (s : State) (id : Nat) (f : Req → Req) : State :=
  { s with req := { s.req with reqs := s.req.reqs.map fun r => if r.id = id then f r else r } }

def State.setSt (s : State) (id : Nat) (st : ReqSt) : State := s.modReq id fun r => { r with st := st }

/-- A new request in flight; answers its number. -/
def addReq (r : Req) (s : State) : State :=
  { s with req := { s.req with reqs := s.req.reqs ++ [{ r with id := s.req.next, since := s.time.elapsed }], next := s.req.next + 1 } }

/-- A reset of a head completes once no request of it is left in the device (09 R265). -/
def resetIdle (h : Nat) (s : State) : State :=
  if (s.head h).resetting && !(s.req.reqs.any fun r => r.head == h) then
    (s.modHead h fun x => { x with resetting := false }).emit (.resetDone h)
  else s

def dropReq (id : Nat) (s : State) : State :=
  let heads := (s.req.reqs.filter fun r => r.id == id).map (·.head)
  heads.foldl (fun t h => resetIdle h t) (sweepOld { s with req := { s.req with reqs := s.req.reqs.filter (·.id != id) } })

/-- It came over a Stechaisk port. -/
def Req.isChain (r : Req) : Bool := decide (8 ≤ r.head) && decide (r.head ≤ 9)

/-! ### Directory entries -/

def State.dirEnt (s : State) (l : Nat) : DirEnt := (aget s.dir.ents l).getD {}

/-- A free way: nobody holds the line and no transaction is open (07 R195). -/
def DirEnt.isFree (e : DirEnt) : Bool := e.pres == 0 && e.chain.isEmpty && !e.busy

/-- Store an entry; one that became a free way leaves the directory. -/
def setDirEnt (l : Nat) (e : DirEnt) (s : State) : State :=
  { s with dir := { s.dir with ents := if e.isFree then adel s.dir.ents l else aset s.dir.ents l e } }

/-- STATE that fits the holders: none left is Invalid. -/
def DirEnt.tidy (e : DirEnt) : DirEnt := if e.pres = 0 ∧ e.chain = [] then { e with st := .invalid } else e

/-- The line comes free: the 2^8 ticks of its reservation start (07 R219). -/
def startReservation (l : Nat) (s : State) : State :=
  let f : Reservation → Reservation := fun r =>
    if r.line = l ∧ r.ends = none then { r with ends := some (s.time.elapsed + 2 ^ 8) } else r
  { s with dir := { s.dir with resv := s.dir.resv.map f } }

/-- The open transaction of a request. -/
def txnOf (s : State) (rid : Nat) : Option Txn := s.dir.txns.find? (·.rid == rid)

def State.modTxn (s : State) (rid : Nat) (f : Txn → Txn) : State :=
  { s with dir := { s.dir with txns := s.dir.txns.map fun t => if t.rid = rid then f t else t } }

/-- A transaction ends: its entry takes what it leaves, BUSY clears (07 R197). -/
def endTxn (rid : Nat) (s : State) : State :=
  match txnOf s rid with
  | some t =>
    let e := s.dirEnt t.line
    let pres := t.pres ||| t.kept
    let chain := t.chain ++ t.keptDev.filter fun d => !t.chain.contains d
    let e : DirEnt := { e with st := t.st, pres := pres, chain := chain, busy := false }
    let s := { s with dir := { s.dir with txns := s.dir.txns.filter (·.rid != rid) } }
    startReservation t.line (setDirEnt t.line e.tidy s)
  | none => s

/-! ### Lost and poisoned lines -/

/-- A loss-list entry covers the line (04 R118, R120). -/
def lineLost (s : State) (l : Nat) : Bool := (lossCovered s (l / 64)).getLsbD (l % 64)

/-- A read of the line returns poison: lost, or written poisoned by a host (04 R120). -/
def linePoison (s : State) (l : Nat) : Bool := lineLost s l || s.dur.hostPoison.contains l

/-! ### Responses -/

/-- Local time at which the next response of head `h` leaves: after its delayed ones, and after the delay of a perturbation that acts on it
(19, RESPONSE_DELAY). -/
def leavesAt (s : State) (h : Nat) : Nat :=
  max (s.time.elapsed + stallTicks 1 h s) (((s.head h).late.getLast?.map (·.1)).getD 0)

/-- A response leaves the port of head `h`, or waits there. -/
def sendHead (h : Nat) (x : Tx) (s : State) : State :=
  let t := leavesAt s h
  let s := notePerturb 1 h s
  if t ≤ s.time.elapsed then s.emit x else s.modHead h fun y => { y with late := y.late ++ [(t, x)] }

/-- Delayed responses whose time has come leave. -/
def sendLate (s : State) : State :=
  (List.range 8).foldl (fun t h =>
    let due := (t.head h).late.takeWhile fun x => decide (x.1 ≤ t.time.elapsed)
    if due.isEmpty then t
    else due.foldl (fun t x => t.emit x.2) (t.modHead h fun y => { y with late := y.late.drop due.length })) s

/-- Lower bounds of the latency buckets 1 to 7, in nanoseconds (19). -/
def bucketBounds : List Nat := [200, 400, 800, 1600, 12800, 102400, 819200]

/-- A completion at the port of a request's master, in its latency bucket (19, events 0x08 to 0x0F). -/
def countDone (r : Req) (s : State) : State :=
  if 10 ≤ r.head then s
  else
    let e := s.page (r.line / 64)
    let leaves := if r.isChain then s.time.elapsed else leavesAt s r.head
    let ns := (leaves - r.since) * 1000000000 / 2 ^ 24
    pmcCount { evOf (0x08 + bucketBounds.countP (decide <| · ≤ ns)) r.head r.cls with
      tier := e.tier, tierValid := !e.zero, addr := 64 * r.line, addrValid := true, latency := ns, latValid := true } s

/-- Data to a head: MemData, and a completion with the state granted where the directory served it (07 R197). A job keeps the line of
an import for its segment (05 R149). -/
def respondRead (r : Req) (d : Line) (poison : Bool) (s : State) : State :=
  if r.head = 14 then { s with codec := { s.codec with fetched := aset s.codec.fetched r.line (d, poison) } }
  else if canAnswer s r = false then s
  else
    let s := sendHead r.head (.drs r.head r.line (if poison then 0 else d) poison (devLoad s r.head)) (countDone r s)
    if r.ordered then sendHead r.head (.ndr r.head r.line r.resp (devLoad s r.head)) s else s

/-- A completion without data. -/
def respondNdr (r : Req) (s : State) : State :=
  if canAnswer s r then sendHead r.head (.ndr r.head r.line r.resp (devLoad s r.head)) (countDone r s) else s

/-- The header fields of an answer to a chain request (07 R211; 12 R325). -/
def answerFrame (r : Req) (opcode : Nat) : Frame :=
  { vc := 1, opcode := opcode, cls := r.cls, line := r.line, tag := r.tag }

/-- DATA to a visitor (07 R215). -/
def respondData (r : Req) (d : Line) (poison : Bool) (s : State) : State :=
  sendTo r.src { answerFrame r 0x20 with
    pl := true, payload := if poison then 0 else d, poison := poison, code := r.grant } (countDone r s)

/-- WACK to a visitor (07 R215). -/
def respondWack (r : Req) (s : State) : State := sendTo r.src { answerFrame r 0x22 with tag := 0, wtag := r.wtag } (countDone r s)

/-- NAK to a visitor, with its REASON (07 R211, R218). -/
def respondNak (r : Req) (reason : Nat) (s : State) : State :=
  sendTo r.src { answerFrame r 0x23 with code := reason } s

/-- A BIConflictAck held until the completion of the head's request for the line follows it (07 R200). -/
def conflictAcks (r : Req) (s : State) : State :=
  if s.dir.conflicts.contains (r.head, r.line) then
    let s := { s with dir := { s.dir with conflicts := s.dir.conflicts.erase (r.head, r.line) } }
    if canAnswer s r then sendHead r.head (.ndr r.head r.line .biConflictAck (devLoad s r.head)) s else s
  else s

/-- The request leaves the device: its transaction ends. -/
def retireReq (r : Req) (s : State) : State := conflictAcks r (dropReq r.id (endTxn r.id s))

/-- A read completes with a line. The home sends no DATA where it sent SFWD (07 R216). -/
def finishRead (r : Req) (d : Line) (poison : Bool) (s : State) : State :=
  let fwd := (txnOf s r.id).any (·.forwarded)
  let s := if r.isChain then (if fwd then s else respondData r d poison s) else respondRead r d poison s
  retireReq r s

/-- A read completes with the line it captured when its access began (01 R30). -/
def finishReadMem (r : Req) (s : State) : State := finishRead r r.data r.poison s

/-- A write or a request without data completes. -/
def finishNdr (r : Req) (s : State) : State :=
  let s := if r.isChain then (if r.kind.isWrite then respondWack r s else s) else respondNdr r s
  retireReq r s

/-- A request completes without any memory access (01 R12): poison or a completion. -/
def refuseReq (r : Req) (s : State) : State :=
  if r.kind.isRead then (if r.isChain then respondData r 0 true s else respondRead r 0 true s)
  else if r.isChain then (if r.kind.isWrite then respondWack r s else s)
  else respondNdr r s

end Sys2Proof.Machine
end

