-- ==== Sys2Proof/Machine/Codec.lean ====
section
/-! DEFINITION. Codec engines: choice of an engine, in-line queues, held pages (05 R129-R135). -/

namespace Sys2Proof.Machine

def State.engine (s : State) (e : Nat) : Engine := s.codec.engines.getD e {}

def State.modEngine (s : State) (e : Nat) (f : Engine → Engine) : State :=
  { s with codec := { s.codec with engines := s.codec.engines.modify e f } }

/-- State codes of an engine as KIND of its STATE event (05 R132). -/
def EngSt.code : EngSt → Nat
  | .inService => 0 | .suspect => 1 | .testing => 2 | .failed => 3 | .off => 4

/-- An engine enters a state; the event names both (05, source 450 + 4e). Going Off raises none: it has no KIND. -/
def setEngine (e : Nat) (st : EngSt) (s : State) : State :=
  let old := (s.engine e).st
  let s := s.modEngine e fun x => { x with st := st }
  if st = .off ∨ old = st then s else raiseAll (srcCodec e 2) st.code (le 1 old.code ++ le 1 st.code) s

/-- In-line items at an engine, the one under way among them. -/
def Engine.load (x : Engine) : Nat := x.dec.length + x.comp.length + b2n x.now.isSome

/-- No decompression is queued or under way at the engine. -/
def Engine.noDec (x : Engine) : Bool := x.dec.isEmpty && !(x.now.any (·.dec))

/-- Engines in service, without those of a cluster to avoid; a cluster that drains takes no new work while another can (15 R396). -/
def servingEngines (s : State) (avoid : Option Nat) : List Nat :=
  let l := (List.range 32).filter fun e => (s.engine e).st == .inService && avoid != some (e / 8)
  let free := l.filter fun e => (s.dom (domCEC (e / 8))).st != .draining
  if free.isEmpty then l else free

/-- The engine with the fewest queued in-line items, the lowest number on a tie; one that runs a bulk segment is avoided
while another has an empty decompression queue (05 R130). -/
def pickEngine (s : State) (avoid : Option Nat) : Option Nat :=
  let l := servingEngines s avoid
  let open_ := l.filter fun e => (s.engine e).seg.isNone || !(l.any fun f => f != e && (s.engine f).noDec)
  let l := if open_.isEmpty then l else open_
  l.foldl (fun best e => match best with
    | none => some e
    | some b => if (s.engine e).load < (s.engine b).load then some e else some b) none

/-- An engine begins an item or a segment, to which CODEC_STALL may add (19). -/
def beginWork (e : Nat) (s : State) : State :=
  let t := s.time.elapsed + stallTicks 4 e s
  notePerturb 4 e (s.modEngine e fun x => { x with stallEnds := t })

/-- A stalled item or segment does not end yet. -/
def stalled (s : State) (e : Nat) : Bool := decide (s.time.elapsed < (s.engine e).stallEnds)

/-- The engine's next item: decompressions first, then compressions (05 R129). -/
def Engine.startNext (x : Engine) : Engine :=
  if x.now.isSome ∨ x.seg.isSome then x
  else match x.dec, x.comp with
    | i :: t, _ => { x with now := some i, dec := t }
    | [], i :: t => { x with now := some i, comp := t }
    | [], [] => x

/-- An item arrives at an engine: it takes one of the sixteen in-line slots, the least recently used held page making room (05
R131). -/
def Engine.addItem (x : Engine) (i : Item) : Engine :=
  let x := if i.dec then { x with dec := x.dec ++ [i] } else { x with comp := x.comp ++ [i] }
  { x with slots := x.slots.take (16 - x.load) }

/-- An idle engine starts its next item (05 R129). -/
def startItem (e : Nat) (s : State) : State :=
  let x := s.engine e
  if x.now.isSome || x.seg.isSome || (x.dec.isEmpty && x.comp.isEmpty) then s else beginWork e (s.modEngine e Engine.startNext)

/-- The engine that holds a page at its location, or is decompressing it (05 R130, R131). -/
def engineWith (s : State) (page : Nat) : Option Nat :=
  (List.range 32).find? fun e =>
    (s.engine e).st == .inService
      && ((s.engine e).slots.any (·.1 == page) || (s.engine e).dec.any (·.page == page)
        || (s.engine e).now.any fun i => i.dec && i.page == page)

/-- A held page serves reads of its other lines (05 R131). -/
def heldPage (s : State) (page : Nat) : Bool :=
  (List.range 32).any fun e => (s.engine e).st == .inService && (s.engine e).slots.any (·.1 == page)

/-- A held page that serves a read is the most recently used of its engine (05 R131). -/
def touchHeld (page : Nat) (s : State) : State :=
  let f : Engine → Engine := fun x =>
    if x.st = .inService then { x with slots := x.slots.filter (·.1 == page) ++ x.slots.filter (·.1 != page) } else x
  { s with codec := { s.codec with engines := s.codec.engines.map f } }

/-- HELD_PAGE_DROP (05 R131). -/
def dropHeld (page : Nat) (s : State) : State :=
  { s with codec := { s.codec with engines := s.codec.engines.map fun x =>
      { x with slots := x.slots.filter (·.1 != page) } } }

/-- Some page lies in Tier W or Tier C (05 R135). -/
def bargePages (s : State) : Bool := s.map.pages.any fun x => !x.2.zero && x.2.tier != 0

/-- CODEC_UNAVAILABLE once, when every engine is out of service (05 R135). -/
def codecUnavailable (s : State) : State :=
  if (servingEngines s none).isEmpty then
    if s.codec.unavailable then s
    else
      let n := fun st : EngSt => s.codec.engines.countP fun x => x.st == st
      raiseAll 195 0 (le 1 (n .inService) ++ le 1 (n .suspect) ++ le 1 (n .testing) ++ le 1 (n .failed) ++ le 1 (n .off))
        { s with codec := { s.codec with unavailable := true } }
  else { s with codec := { s.codec with unavailable := false } }

/-- A decompression for request `rid` is sent to an engine; `first` is the engine of an earlier decode failure, whose cluster
is avoided (05 R130, R142). With none in service it waits (R135). -/
def startDecode (rid page : Nat) (first : Option Nat) (s : State) : State :=
  let e := match first with
    | some f => pickEngine s (some (f / 8))
    | none => (engineWith s page).or (pickEngine s none)
  match e with
  | some e =>
    (startItem e (s.modEngine e fun x => x.addItem ⟨true, rid, page, first⟩)).setSt rid (.codec e first.isSome)
  | none => codecUnavailable (s.setSt rid (.codecWait first))

/-- A compression of a page under a move is sent to an engine; with none in service it waits in `lock.block = none`. -/
def startCompress (page : Nat) (s : State) : State :=
  match pickEngine s none with
  | some e => startItem e (s.modEngine e fun x => x.addItem ⟨false, page, page, none⟩)
  | none => codecUnavailable s

/-- A decompressed page is held in its slot of its engine, which has 16 with those of its items (05 R131). -/
def holdPage (e page : Nat) (s : State) : State :=
  let x := s.page page
  s.modEngine e fun g => { g with slots := ((page, x.tier, x.loc) :: g.slots.filter (·.1 != page)).take (16 - g.load) }

/-- A bulk segment may start on an engine: in service, selected by BULK_ENGINES, idle, its queues empty; no brace, no shedding
(05 R129, R155; 17 R437). -/
def mayRunBulk (s : State) (e : Nat) : Bool :=
  (s.engine e).st == .inService && (s.dom (domCEC (e / 8))).st != .draining && s.slu.cfg.bulk.getLsbD e && (s.engine e).load == 0 && (s.engine e).seg.isNone && !s.power.brace && s.lm.therm == 0

/-- Bulk work is shed: jobs between segments return to QUEUED; a segment under way finishes first. -/
def shedBulk (s : State) : State :=
  let running := fun id => s.codec.engines.any fun x => x.seg == some id
  let f : Job → Job := fun j => if j.st = .running ∧ !running j.id then { j with st := .queued, time := s.time.chain } else j
  { s with codec := { s.codec with jobs := s.codec.jobs.map f } }

end Sys2Proof.Machine
end

