-- ==== Sys2Proof/Machine/Units.lean ====
section
/-! DEFINITION. Units of every kind: drive commands (11 R306-R308), what a fence does to outstanding work (04 R99, R107,
R108; 11 R305, R315), drained and reset domains (15 R390, R396, R402), the start of a slot's power-up (16 R413, R414), the
log ring's commit (17 R441), outing holds (14 R384), and counts that restart with a regulation window. -/

namespace Sys2Proof.Machine

def State.drive (s : State) (d : Nat) : Drive := s.drives.drives.getD d {}

def State.modDrive (s : State) (d : Nat) (f : Drive → Drive) : State :=
  { s with drives := { s.drives with drives := s.drives.drives.modify d f } }

def State.chan (s : State) (c : Nat) : Chan := s.ddr.chans.getD c {}

def State.modChan (s : State) (c : Nat) (f : Chan → Chan) : State :=
  { s with ddr := { s.ddr with chans := s.ddr.chans.modify c f } }

/-! ### NVMe commands (11 R306, R307) -/

/-- The class of work of a queue pair and its limit per drive. -/
def qpClass (qp : Nat) : Nat := if qp ≤ 16 then 0 else if qp ≤ 20 then 1 else if qp ≤ 26 then 2 else if qp ≤ 31 then 3 else 4
def classLimit (k : Nat) : Nat := [256, 64, 32, 32, 8].getD k 0

/-- NVMe opcode of a command. PRESUMED: the numbers of NVMe, which the manual does not repeat (log 8). -/
def nvmeOpcode : CmdFor → Nat
  | .read _ _ | .hedge _ | .tag _ | .mover _ => 0x02
  | .chunk _ _ => 0x01
  | .dealloc => 0x09

/-- Commands of a class that the drive has. -/
def outstanding (x : Drive) (k : Nat) : Nat := x.cmds.countP fun c => qpClass c.qp == k && !c.waiting

/-- Submit a command of `n` LBAs on a drive; a class at its limit waits in the port (11 R306). -/
def submit (d : Nat) (why : CmdFor) (qp lba n : Nat) (s : State) : State :=
  let full := decide (classLimit (qpClass qp) ≤ outstanding (s.drive d) (qpClass qp))
  let cid := s.drives.nextCid
  let c : NvmeCmd := { cid := cid, why := why, qp := qp, lba := lba, len := n, since := s.time.elapsed, waiting := full }
  let s := { s with drives := { s.drives with nextCid := cid + 1 } }
  let s := s.modDrive d fun x => { x with cmds := x.cmds ++ [c] }
  if full then s else s.emit (.nvme d cid (nvmeOpcode why) lba n)

/-- A command leaves a drive; the oldest waiting command of its class is issued. -/
def endCmd (d cid : Nat) (s : State) : State :=
  match (s.drive d).cmds.find? (·.cid == cid) with
  | some c =>
    let s := s.modDrive d fun x => { x with cmds := x.cmds.filter (·.cid != cid) }
    match (s.drive d).cmds.find? fun w => w.waiting && qpClass w.qp == qpClass c.qp with
    | some w =>
      let go : NvmeCmd → NvmeCmd := fun y => if y.cid = w.cid then { y with waiting := false, since := s.time.elapsed } else y
      (s.modDrive d fun x => { x with cmds := x.cmds.map go }).emit (.nvme d w.cid (nvmeOpcode w.why) w.lba w.len)
    | none => s
  | none => s

/-- First LBA of a Tier C unit on the drive of its chunk (04 R103; 11 R307). -/
def coldLba (g : Geometry) (loc : Nat) : Nat := 8 * coldRow g (coldBarge g loc) (coldChunk g loc) + loc % 8

/-- LBAs that a Tier C block of `size` sectors from start sector `start` of its unit covers: one or two (03 R63; 01 R24). -/
def coldLbas (start size : Nat) : Nat := (start + max 1 size - 1) / 16 + 1

/-- Other present, readable chunks of a cold barge, on the drives with the fewest outstanding reads first. -/
def coldOthers (s : State) (b j : Nat) : List Nat :=
  let g := s.map.geo
  let l := (List.range (g.coldK + g.coldM)).filter fun i => i != j && coldReadable s b i
  let load := fun i => outstanding (s.drive (coldDrive g b i)) 1
  l.mergeSort fun a c => decide (load a ≤ load c)

/-- Reads of the same units from other chunks for a degraded read (11 R312): `extra` beyond the k that a decode needs, `n`
LBAs each. -/
def submitDegraded (rid loc extra n : Nat) (s : State) : State :=
  let g := s.map.geo
  let b := coldBarge g loc
  let l := (coldOthers s b (coldChunk g loc)).take (g.coldK + extra)
  l.foldl (fun t j => submit (coldDrive g b j) (.hedge rid) (17 + rid % 4) (8 * coldRow g b j + loc % 8) n t) s

/-- A raw block whose tag sector, LBA 7 of its chunk, its own Read does not cover (05 R139; 11 R307). -/
def rawTagApart (e : PageEnt) : Bool := e.size == 16 && decide (e.loc % 8 + (e.start + 15) / 16 < 7)

/-- A mover read of a page's block by the same units of k other chunks (04 R104; 11 R309, R315). -/
def moverDegraded (p : Nat) (s : State) : State :=
  let e := s.page p
  let g := s.map.geo
  let b := coldBarge g e.loc
  let n := coldLbas e.start e.size
  ((coldOthers s b (coldChunk g e.loc)).take g.coldK).foldl (fun t j =>
    submit (coldDrive g b j) (.mover p) (21 + p % 6) (8 * coldRow g b j + e.loc % 8) n t) s

/-- A mover read of drive `d` failed or was abandoned: where it was the read of the block itself, the degraded read starts. -/
def moverFailed (d p : Nat) (s : State) : State :=
  let e := s.page p
  let g := s.map.geo
  let own := coldDrive g (coldBarge g e.loc) (coldChunk g e.loc) == d
  if own && !e.zero && e.tier == 2 && (lockOf s p).isSome then moverDegraded p s else s

/-- The mover of a locked Tier C page reads its block (11 R306, R307); a merge of a full overlay does not (03 R79). -/
def moverRead (p : Nat) (s : State) : State :=
  let e := s.page p
  let g := s.map.geo
  let b := coldBarge g e.loc
  let j := coldChunk g e.loc
  let full := e.overlay.any fun o => o.mask == BitVec.allOnes 64
  let dredges := (lockOf s p).any fun l => l.kind == .dredge
  if e.zero || e.tier != 2 || (lockOf s p).isNone || (full && !dredges) then s
  else if coldReadable s b j = false then moverDegraded p s
  else
    let s := submit (coldDrive g b j) (.mover p) (21 + p % 6) (coldLba g e.loc) (coldLbas e.start e.size) s
    if rawTagApart e then submit (coldDrive g b j) (.mover p) (21 + p % 6) (8 * coldRow g b j + 7) 1 s else s

/-- A mover's commit comes after its reads: those still listed have completed (11 R311; log 48). -/
def endMoverReads (p : Nat) (s : State) : State :=
  (List.range 16).foldl (fun t d =>
    ((t.drive d).cmds.filter (·.why == .mover p)).foldl (fun u c => endCmd d c.cid u) t) s

/-! ### Fences -/

/-- A host-path read on the fenced drive: not yet hedged, its degraded read starts at once; hedged, it continues
(11 R315). -/
def redirectRead (rid : Nat) (s : State) : State :=
  match s.req? rid with
  | some r =>
    match r.st, r.src_ with
    | .block 0 _ _ _, some (_, loc) =>
      let e := s.page (r.line / 64)
      submitDegraded rid loc 0 (coldLbas e.start e.size) (s.modReq rid fun r => { r with st := .block 1 true false false, cid := none })
    | .block t _ c q, _ => s.modReq rid fun r => { r with st := .block t true c q, cid := none }
    | _, _ => s.modReq rid fun r => { r with cid := none }
  | none => s

/-- The Read of a raw block's tag sector ends (05 R139; 11 R307). Where it failed, or where the block's own data came first,
what it leaves decides when the block goes on. -/
def endTag (rid : Nat) (out : ReadOutcome) (s : State) : State :=
  s.modReq rid fun r => { r with
    tagOut := false, early := if out = .good then r.early else some .mediaError }

/-- A tag Read on the fenced drive: a block whose own data had come is read degraded. -/
def redirectTag (rid : Nat) (s : State) : State :=
  let due := (s.req? rid).any fun r => r.early.isSome && r.cid.isNone
  if due then redirectRead rid (endTag rid .mediaError s) else endTag rid .mediaError s

/-- The chunk of a barge being written counts as absent when its drive is fenced (04 R110; 11 R315). -/
def absentChunk (d barge : Nat) (s : State) : State :=
  let g := s.map.geo
  let j := ((List.range (g.coldK + g.coldM)).find? fun j => coldDrive g barge j == d).getD 0
  let drop : BargeWrite → BargeWrite := fun w =>
    if w.tier = 2 ∧ w.barge = barge then { w with waiting := w.waiting.filter (· != 32 + d) } else w
  let mark : Nat × ColdBarge → Nat × ColdBarge := fun x =>
    if x.1 = barge ∧ ¬ x.2.absent.contains j then (x.1, { x.2 with absent := x.2.absent ++ [j] }) else x
  { s with
    drives := { s.drives with writes := s.drives.writes.map drop }
    dur := { s.dur with cold := s.dur.cold.map mark } }

/-- Work outstanding on a drive ends as R315's table says. -/
def endDriveWork (d : Nat) (s : State) : State :=
  let cmds := (s.drive d).cmds
  let s := s.modDrive d fun x => { x with cmds := [], step := 0 }
  cmds.foldl (fun t c => match c.why with
    | .read rid _ => redirectRead rid t
    | .chunk b _ => absentChunk d b t
    | .tag rid => redirectTag rid t
    | .mover p => moverFailed d p t
    | .hedge _ | .dealloc => t) s

/-- A drive that a Sanitize waits for has ended its part of it (11 R316; 14 R383). -/
def sanitizeUnit (d : Nat) (s : State) : State :=
  if (s.drive d).sanitizing then
    let s := s.modDrive d fun x => { x with sanitizing := false }
    match s.keys.sanitize with
    | some id => signalUnits id 1 (s.modOuting id fun o => { o with work := o.work.erase d })
    | none => s
  else s

/-- A fenced drive: its work ends, PERST asserts, and a replacement is open on its slot (11 R301, R305, R315). -/
def fenceDrive (slot : Nat) (s : State) : State :=
  let s := sanitizeUnit (slot - 32) (endDriveWork (slot - 32) s)
  let s := s.modSlot slot fun x => { x with perst := true }
  if s.dur.repl.any (·.slot == slot) then s
  else
    let r : Replacement := { slot := slot, grace := s.time.elapsed, reprotect := false, expired := true, spd := (s.unit slot).spd }
    { s with dur := { s.dur with repl := s.dur.repl ++ [r] } }

/-! ### Commands at a channel (10 R281-R283, R292) -/

/-- Depth of a port's queue by its row in the order of R281. -/
def portDepth (o : Nat) : Nat := if o = 3 then 8 else if o = 4 ∨ o = 5 then 128 else if o = 6 then 64 else 32

/-- The commands that a port's queue holds, oldest first; those beyond its depth have not entered it. -/
def Chan.inPort (x : Chan) (o : Nat) : List DramCmd := (x.ports.filter (·.order == o)).take (portDepth o)

/-- The queue of a port is full (10 R283). -/
def Chan.full (x : Chan) (o : Nat) : Bool := decide (portDepth o ≤ x.ports.countP (·.order == o))

/-- The command's row is open in its bank. -/
def rowHit (s : State) (x : Chan) (k : DramCmd) : Bool := aget x.rows (bankOf s k.addr) == some (rowOf s k.addr)

/-- The command that a slot issues: the highest row of R281 with one, in it a row hit, else the oldest. A throttled channel,
and every channel of a throttled die, holds P2 and P3 (10 R285; 17 R437). -/
def pickCmd (s : State) (x : Chan) : Option DramCmd :=
  [3, 4, 5, 6, 7].findSome? fun o =>
    if 5 < o ∧ (0 < x.throttle ∨ 2 ≤ s.lm.therm) then none
    else ((x.inPort o).find? (rowHit s x)).or (x.inPort o).head?

/-- One command slot: a channel that replays, or whose retry buffer is full, issues nothing (10 R292, R293). A command whose row is not
open takes an activation, which DRAM_STRETCH counts; its delay is timing (19). -/
def issueCmd (c : Nat) (s : State) : State :=
  let x := s.chan c
  if x.replaying || decide (64 ≤ x.retry.length) then s
  else match pickCmd s x with
    | some k =>
      let s := if rowHit s x k then s else notePerturb 3 c s
      s.modChan c fun x => { x with
        ports := x.ports.erase k, retry := x.retry ++ [k], rows := aset x.rows (bankOf s k.addr) (rowOf s k.addr) }
    | none => s

/-- Command slots until nothing more can issue. Slots take no time of their own in the model (log 14). -/
def issueAll (c : Nat) (s : State) : State := (List.range (s.chan c).ports.length).foldl (fun t _ => issueCmd c t) s

/-- The first command to a channel in idle self-refresh starts its exit (10 R286). -/
def touchChan (c : Nat) (s : State) : State := s.modChan c fun x => { x with sr := false, idleAt := s.time.elapsed }

/-- A command enters a channel. -/
def queueCmd (c : Nat) (k : DramCmd) (s : State) : State :=
  issueAll c (touchChan c (s.modChan c fun x => { x with ports := x.ports ++ [k] }))

/-- Channel-local address of a line of a Tier H frame (04 R101; 10 R276). -/
def frameAddr (s : State) (f line : Nat) : Nat :=
  4096 * (s.ddr.hotBase + f / max 1 s.map.geo.low.length) + 64 * (line % 64)

/-- A line enters the in-flight write table, and its writes enter a port of the channels that take a copy: P1 for hosts, P2 for
movers, as rows 5 and 6 of R281 (01 R20, R21; 03 R87). -/
def enterTableAt (order line minor f : Nat) (chans : List Nat) (s : State) : State :=
  let s := { s with req := { s.req with ifwt := s.req.ifwt ++ [⟨line, minor, chans⟩] } }
  chans.foldl (fun t c => queueCmd c ⟨order, false, line, frameAddr t f line⟩ t) s

def enterTable (line minor f : Nat) (chans : List Nat) (s : State) : State := enterTableAt 5 line minor f chans s

/-- A copy may be written: in service or being refilled (04 R98, R109). -/
def copyWritable (s : State) (c f : Nat) : Bool :=
  let u := s.unit (frameDimm s c f)
  !u.fenced && (u.health == .healthy || u.health == .refill)

/-- Channels that take the copies of a frame: units in service; none left makes the write go to an overlay elsewhere. -/
def writeChans (s : State) (f : Nat) : List Nat :=
  let lo := frameLow s f
  [lo, lo + 8].filter fun c => copyWritable s c f

/-- The DIMM that holds a line's frame on channel `c`: its overlay's frame or its Tier H frame. -/
def lineDimm (s : State) (c line : Nat) : Nat :=
  let e := s.page (line / 64)
  match e.overlay with
  | some o => if o.mask.getLsbD (line % 64) then frameDimm s c o.frame else frameDimm s c e.loc
  | none => frameDimm s c e.loc

/-- A line whose both copies were lost while its entry is in the in-flight write table is written from the table into an overlay
on a healthy pair (04 R108): the page's own, or a new one that takes its place. With no frame free it waits for one, as a write
of the device. -/
def rescueLine (line minor : Nat) (s : State) : State :=
  let p := line / 64
  let bit : BitVec 64 := BitVec.ofNat 64 (2 ^ (line % 64))
  match (s.page p).overlay.filter fun o => frameOk s o.frame with
  | some o =>
    let s := s.modPage p fun e => { e with overlay := some { o with mask := o.mask ||| bit } }
    enterTable line minor o.frame (writeChans s o.frame) s
  | none => match freeFrame s with
    | some f =>
      let s := (makeOverlay p f s).modPage p fun e => { e with overlay := e.overlay.map fun o => { o with mask := bit } }
      enterTable line minor f (writeChans s f) s
    | none => addReq {
        id := 0, kind := .wr, mv := .any, head := 14, cls := 0, line := line, data := Memory.readLine s.mem line
        poison := s.dur.hostPoison.contains line, st := .waiting } s

/-- Entries of the in-flight write table, and chunks of barges being written, are released for a fenced DIMM, after the fence (04
R107, R110). -/
def releaseFenced (slot : Nat) (s : State) : State :=
  let c := slotChannel slot
  let hit : IfwtEnt → Bool := fun e => e.chans.contains c && lineDimm s c e.line == slot
  let drop : BargeWrite → BargeWrite := fun w => if w.tier = 1 then { w with waiting := w.waiting.filter (· != slot) } else w
  let s : State := { s with drives := { s.drives with writes := s.drives.writes.map drop } }
  let both := s.req.ifwt.filter fun e => hit e &&
    (e.chans.erase c).isEmpty && !(s.unit (pairSlot slot)).readable
  let l := (s.req.ifwt.map fun e => if hit e then { e with chans := e.chans.erase c } else e).filter (!·.chans.isEmpty)
  let s := { s with req := { s.req with ifwt := l } }
  both.foldl (fun t e => rescueLine e.line e.minor t) s

/-! ### What is lost (04 R105, R117, R118) -/

/-- What a unit held is gone: it is fenced, or its health says so. A HELD DIMM keeps its contents (04 R98, R99, R100). -/
def unitGone (u : UnitSt) : Bool :=
  u.fenced || u.health == .lost || u.health == .untrusted || u.health == .absent

/-- A Tier H copy is gone: with its unit, above the mark of a refill, or out of date in a HELD DIMM (04 R122, R123). -/
def copyGone (s : State) (c f : Nat) : Bool :=
  let u := s.unit (frameDimm s c f)
  unitGone u || (u.health == .refill && decide (u.hotMark ≤ f)) || (u.health == .held && u.catchUp.contains f)

/-- A chunk of a warm barge is gone. -/
def warmGone (s : State) (b c : Nat) : Bool :=
  let u := s.unit (warmDimm s c b)
  unitGone u || (u.health == .refill && decide (u.warmMark ≤ b))

/-- Both copies of a frame are gone. -/
def pairGone (s : State) (f : Nat) : Bool := copyGone s (frameLow s f) f && copyGone s (frameLow s f + 8) f

/-- Lines of a page whose data are gone, with the cause and tier of their entry; a line in the in-flight write table is not
lost (04 R108). The barge tiers lose a barge with more chunks gone than its parity (04 R117). -/
def goneParts (s : State) (p : Nat) (e : PageEnt) : List (Nat × Nat × BitVec 64) :=
  let fly := s.req.ifwt.foldl (fun m x =>
    if x.line / 64 = p then m ||| BitVec.ofNat 64 (2 ^ (x.line % 64)) else m) (0 : BitVec 64)
  let ovl := (e.overlay.map (·.mask)).getD 0
  let g := s.map.geo
  let lines := match e.overlay with
    | some o => if pairGone s o.frame then [(1, 0, o.mask &&& ~~~fly)] else []
    | none => []
  let base :=
    if e.zero then []
    else if e.tier = 0 then (if pairGone s e.loc then [(1, 0, ~~~ovl &&& ~~~fly)] else [])
    else if e.tier = 1 then
      (let b := warmBarge g e.loc
       let m := membersOf (((aget s.dur.warm b).map (·.members)).getD s.ddr.population)
       if 2 < m.countP (fun c => warmGone s b c) then [(2, 1, ~~~ovl)] else [])
    else
      (let b := coldBarge g e.loc
       if g.coldM < (List.range (g.coldK + g.coldM)).countP (fun j => !coldReadable s b j) then [(3, 2, ~~~ovl)] else [])
  (lines ++ base).filter fun x => x.2.2 != 0

/-- The first page of a host that a page of the map stands for: 256 pages to a level-0 map page, 65,536 to one of level 1. -/
def firstMapped (page : Nat) : Nat :=
  if levelOnePage 0 ≤ page then 65536 * (page - levelOnePage 0) else 256 * (page - ownPages)

/-- A page's entry is lost with its map page: where its data lie is known no more, and it is lost whole (04 R117). -/
def loseEntry (p : Nat) (s : State) : State :=
  (dropHeld p (dropSides p (fun _ _ => false) (dropLock p s))).modPage p fun _ => { loss := true }

/-- A level-0 map page is lost: one MAP entry stands for the pages it maps, and the map page starts again as a zero page
(04 R117, R118; log 62). -/
def loseMapPage (tier page : Nat) (s : State) : State :=
  let p := firstMapped page
  let s := lose 4 tier true 0xFF p (BitVec.allOnes 64) s
  let s := ((List.range 256).filter fun i => decide (p + i < offeredPages s)).foldl (fun t i => loseEntry (p + i) t) s
  let s := dropHeld page (dropSides page (fun _ _ => false) (dropLock page s))
  { s.modPage page fun _ => {} with mem := Memory.clearPage s.mem page }

/-- The level-0 map pages that level-1 map page `j` maps are lost. -/
def loseMapPages (j : Nat) (s : State) : State :=
  (List.range 256).foldl (fun t i =>
    if 256 * (256 * j + i) < offeredPages t then loseMapPage 0 (ownPages + (256 * j + i)) t else t) s

/-- A level-1 map page is lost: with it go the level-0 map pages that it maps (04 R117). Its frame takes new entries. -/
def loseLevelOne (page : Nat) (s : State) : State :=
  let s := dropSides page (fun _ _ => false) (dropLock page s)
  loseMapPages (page - levelOnePage 0)
    { s.modPage page fun e => { e with overlay := none } with mem := Memory.clearPage s.mem page }

/-- Lines newly lost: the loss-list entry, LOSS of the page, and the end of a move of it (03 R90; 04 R118). -/
def noteLoss (cause tier unit page : Nat) (mask : BitVec 64) (s : State) : State :=
  if levelOnePage 0 ≤ page then loseLevelOne page s
  else if ownPages ≤ page then loseMapPage tier page s
  else if mask &&& ~~~(lossCovered s page) = 0 then s
  else abortMove page false ((lose cause tier false unit page mask s).modPage page fun e => { e with loss := true })

/-- Verdict Lost: what is newly lost is recorded, and DATA_LOST names the newest entry that covers the lines (04 R105). -/
def makeLost (cause tier unit page : Nat) (mask : BitVec 64) (s : State) : State :=
  let s := noteLoss cause tier unit page mask s
  let own := decide (ownPages ≤ page)
  let page := if own then firstMapped page else page
  let mask := if own then BitVec.allOnes 64 else mask
  let seq := ((s.dur.loss.reverse.find? fun e => e.page == page && (e.mask &&& mask) != 0).map (·.seq)).getD s.dur.lossSeq
  raiseAddr 321 (4096 * page) (le 1 tier ++ le 8 page ++ le 8 mask.toNat ++ le 4 seq) s

/-- Lines of a page lost for one cause share one entry (04 R118). -/
def mergeParts : List (Nat × Nat × BitVec 64) → List (Nat × Nat × BitVec 64)
  | [] => []
  | x :: rest =>
    let m := mergeParts rest
    match m.find? fun y => y.1 == x.1 with
    | some y => (x.1, x.2.1, x.2.2 ||| y.2.2) :: m.filter fun z => z.1 != x.1
    | none => x :: m

/-- The map root table lies three times, on the pairs of the first three channels at position 0 (04 R101): all three are gone. -/
def rootGone (s : State) : Bool :=
  ((s.map.geo.low.take 3).all fun c => unitGone (s.unit (2 * c)) && unitGone (s.unit (2 * (c + 8)))) && !s.map.geo.low.isEmpty

/-- The losses that the fence of a unit completes (04 R117, R118). No read has met them, so no verdict is raised (log 58). -/
def noteLosses (slot : Nat) (s : State) : State :=
  let s := s.map.pages.foldl (fun t x =>
    (mergeParts (goneParts s x.1 x.2)).foldl (fun t y => noteLoss y.1 y.2.1 slot x.1 y.2.2 t) t) s
  if isDrive slot ∨ rootGone s = false then s
  else (List.range (levelOnePages s)).foldl (fun t j => loseLevelOne (levelOnePage j) t) s

/-- Hardware fences a unit (04 R99): the event, what is lost with it, and the end of its outstanding work. -/
def fenceUnit (slot cause : Nat) (s : State) : State :=
  if (s.unit slot).fenced ∨ (s.unit slot).health = .absent then s
  else
    let s := noteLosses slot (fence slot cause s)
    if isDrive slot then fenceDrive slot s else releaseFenced slot s

/-- Units whose contents would go are taken out of service: would data be lost (04 R117, R125)? -/
def losesData (s : State) (slots : List Nat) : Bool :=
  let t := slots.foldl (fun t i => t.modUnit i fun u => { u with fenced := true }) s
  let g := s.map.geo
  let pair := fun (u : State) f => !copyReadable u (frameLow u f) f && !copyReadable u (frameLow u f + 8) f
  let pairLost := fun f => pair t f && !pair s f
  let warm := fun (u : State) b =>
    let m := membersOf (((aget u.dur.warm b).map (·.members)).getD u.ddr.population)
    decide (2 < m.countP fun c => !warmReadable u b c)
  let cold := fun (u : State) b =>
    decide (g.coldM < (List.range (g.coldK + g.coldM)).countP fun j => !coldReadable u b j)
  t.map.pages.any fun x =>
    let e := x.2
    (match e.overlay with | some o => pairLost o.frame | none => false)
      || (!e.zero && e.tier == 0 && pairLost e.loc)
      || (!e.zero && e.tier == 1 && (let b := warmBarge g e.loc; warm t b && !warm s b))
      || (!e.zero && e.tier == 2 && (let b := coldBarge g e.loc; cold t b && !cold s b))

/-! ### Domains (15 R390, R396, R402) -/

/-- Work outstanding in a channel: reads and writes in flight, commands in its retry buffer. -/
def chanItems (s : State) (c : Nat) : Nat :=
  (s.chan c).ports.length + (s.chan c).retry.length + s.req.ifwt.countP (fun e => e.chans.contains c)
    + s.req.reqs.countP fun r => match r.st with | .line k _ _ _ => k == c | _ => false

def driveItems (s : State) (p : Nat) : Nat := (s.drive p).cmds.length

/-- Items and segments at the engines of a cluster. -/
def clusterItems (s : State) (c : Nat) : Nat :=
  ((List.range 8).map fun i => let e := s.engine (8 * c + i); e.load + b2n e.seg.isSome).sum

def portItems (s : State) (k : Nat) : Nat := (s.port k).held.length + (s.port k).rx.length

/-- A Stechaisk port loses its power: counters, lengths configured and the optical strap stay (12; 15 R391). -/
def portOff (x : Port) : Port :=
  { st := .off, optical := x.optical, headroom := x.headroom, leakLimit := x.leakLimit, leakRetrain := x.leakRetrain,
    disabled := x.disabled, replays := x.replays, retrains := x.retrains, downs := x.downs }

/-- An engine goes Off: decompressions at it wait for another (05 R132, R135). -/
def engineOff (e : Nat) (s : State) : State :=
  let x := s.engine e
  let l := (x.now.toList ++ x.dec).filter (·.dec)
  l.foldl (fun t i => t.setSt i.id (.codecWait i.first)) (s.modEngine e fun _ => {})

/-- What Off takes from the units inside a domain (15 R392). A channel's delays are lost, and Keeper firmware's copy of them waits to
be written again (10 R288). -/
def domainReset (d : Nat) (s : State) : State :=
  if 2 ≤ d ∧ d < 6 then
    let off : Head → Head := fun h => { h with up := false, width := 0, rate := 0 }
    ((s.modHead (2 * (d - 2)) off).modHead (2 * (d - 2) + 1) off)
  else if 6 ≤ d ∧ d < 22 then
    s.modChan (d - 6) fun x => { x with
      staged := x.delays, delays := [], commits := [], sr := false, ports := [], retry := [], rows := [], replaying := false
      replays := 0, postponed := [0, 0] }
  else if 22 ≤ d ∧ d < 38 then
    (s.modDrive (d - 22) fun x => { x with cmds := [], width := 0, rate := 0 }).modSlot (d + 10) fun x => { x with perst := true }
  else if 38 ≤ d ∧ d < 42 then codecUnavailable ((List.range 8).foldl (fun t i => engineOff (8 * (d - 38) + i) t) s)
  else if 42 ≤ d then s.modPort (d - 42) portOff
  else s

/-- The image that runs. -/
def runningImage (s : State) : FwImage := if s.lm.runB then s.lm.imgB else s.lm.imgA

/-- A measurement index takes a component's version; MEASUREMENT_CHANGED when the digest changes (17 R449, R450). -/
def measure (index ver : Nat) (s : State) : State :=
  let old := s.lm.meas.getD (index - 1) 0
  let s := { s with lm := { s.lm with meas := s.lm.meas.set (index - 1) ver } }
  if old = ver then s else raiseAll 1508 0 (le 1 index ++ le 16 (Config.digest index ver).toNat) s

/-- The microcode of the running image is measured before a cluster runs it (17 R449); the first measurement since cold reset
changes none and raises nothing (log 49). -/
def measureCodec (s : State) : State :=
  let ver := (runningImage s).codecVer
  if s.lm.meas.getD 3 0 = 0 then { s with lm := { s.lm with meas := s.lm.meas.set 3 ver } } else measure 4 ver s

/-- Keeper firmware has written a domain's configuration again and its pads are released (15 R402). A cluster loads its
microcode, which is measured first (17 R449; 20 R487), and its engines enter service (05 R132). -/
def domainReady (d : Nat) (s : State) : State :=
  if 6 ≤ d ∧ d < 22 then s.modChan (d - 6) fun x => { x with delays := x.staged, staged := [], idleAt := s.time.elapsed }
  else if 38 ≤ d ∧ d < 42 then
    let ver := (runningImage s).codecVer
    let s := measureCodec s
    let s := { s with lm := { s.lm with clusterVer := s.lm.clusterVer.set (d - 38) ver } }
    (List.range 8).foldl (fun t i => setEngine (8 * (d - 38) + i) .inService t) s
  else if 42 ≤ d then
    s.modPort (d - 42) fun x => { x with st := .absent, fromAbsent := true, trainAt := s.time.elapsed }
  else s

/-! ### The start of a slot's power-up (16 R413, R414, R429) -/

/-- STARTING: the staged settings come into force; a drive slot deasserts PWRDIS. -/
def enterStarting (i : Nat) (s : State) : State :=
  s.modSlot i fun x => { x with
    st := .starting, changeTime := s.time.chain, entered := s.time.elapsed, cfg := x.staged
    pwrdis := if isDrive i then false else x.pwrdis }

/-- A power-up or a retry begins: WAITING while braced (16 R413). -/
def beginPower (i : Nat) (s : State) : State :=
  if s.power.brace then
    s.modSlot i fun x => { x with st := .waiting, changeTime := s.time.chain, entered := s.time.elapsed }
  else enterStarting i s

/-- A power command (16 R413). -/
def powerUp (i : Nat) (s : State) : State :=
  beginPower i (s.modSlot i fun x => { x with commanded := true, attempt := 0, tripsThisUp := 0 })

/-- Slots that waited for the brace to end (16 R413). -/
def slotsAfterBrace (s : State) : State :=
  (List.range 48).foldl (fun t i => if (t.slot i).st = .waiting then enterStarting i t else t) s

/-- PGOOD of a drive slot at power-up or under END_REPLACE: step 2 of its bring-up (11, bringing a drive into service; 16
R428). -/
def slotPowered (i : Nat) (s : State) : State :=
  let replace := s.dur.repl.any fun r => r.slot == i && r.ending
  if isDrive i ∧ (replace = true ∨ s.boot.phase = .bringup) then
    s.modDrive (i - 32) fun x => { since := x.since, inserted := x.inserted, step := 2, stepAt := s.time.elapsed,
                                   replace := replace }
  else s

/-! ### The log ring (17 R441) -/

/-- Staged records are written to the ring; when it is full the oldest 1,024 go with their sector. -/
def commitLog (s : State) : State :=
  let l := s.lm.staged ++ s.lm.ring
  let l := if 786432 < l.length then l.take (786432 - 1024) else l
  { s with lm := { s.lm with ring := l, staged := [] } }

/-! ### Holds of outings (14 R384) -/

/-- The berth agent of a master: migration, dredging, rebuild, re-key (02 R53). -/
def berthAgent (master : Nat) : Nat := master - 10

/-- Outings that restore a local unit's redundancy (02 R50). -/
def localRebuild (k : Nat) : Bool := decide (1 ≤ k) && decide (k ≤ 6)

/-- The DIMM channel an outing's subject names is throttled, or the whole die is (10 R285; 17 R437). -/
def throttledFor (s : State) (o : Outing) : Bool :=
  decide (2 ≤ s.lm.therm)
    || (decide (1 ≤ o.kind ∧ o.kind ≤ 5) && decide (o.subject < 32) && decide (0 < (s.chan (slotChannel o.subject)).throttle))

/-- Why an open outing is held; 0 none. Where several causes apply the lowest code is shown (log 22). -/
def holdCause (s : State) (o : Outing) : Nat :=
  if s.power.brace then 1
  else if o.kind ≤ 2 ∧ (freeSpace s 1 < 500 ∨ (s.map.geo.coldBarges ≠ 0 ∧ freeSpace s 2 < 500)) ∧ s.map.geo.warmBarges ≠ 0 then 2
  else if o.kind = 7 ∧ s.time.untimed then 3
  else if s.time.berth.getD (berthAgent (kindMaster o.kind)) 0 = 0 ∧ ¬ (localRebuild o.kind ∧ reduced s) then 4
  else if o.kind = 7 ∧ s.dur.tandem.any (fun t => t.range == o.subject && (direction s t.buddy).isNone) then 5
  else if (o.kind = 3 ∨ o.kind = 4) ∧ (s.unit o.subject).health = .held then 5
  else if throttledFor s o then 6
  else 0

/-- Bring the holds of the open outings up to date; REBUILD_BLOCKED for each re-protection outing that it newly stops
(04 R114, source 324). -/
def refreshHolds (s : State) : State :=
  let new := s.crity.outings.filter fun o => o.open_ && o.hold != 2 && holdCause s o == 2
  let t := { s with crity := { s.crity with outings := s.crity.outings.map fun o =>
    if o.open_ then { o with hold := holdCause s o } else o } }
  let tier := if freeSpace s 1 < 500 then 1 else 2
  new.foldl (fun u _ => raiseAll 324 0 (le 1 tier ++ le 2 (freeSpace s tier)) u) t

/-! ### Counts of a regulation window -/

/-- Charged reads restart (04 R99), and events of which one is raised in a window may be raised again (13 R363; 12 R334;
16 R421; 07 R207). -/
def windowCounts (s : State) : State :=
  { s with
    dur := { s.dur with units := s.dur.units.map fun u => { u with charged := 0 } }
    slots := { s.slots with slots := s.slots.slots.map fun x => { x with warned := false } }
    skl := { s.skl with ports := s.skl.ports.map fun x => { x with overflow := false } }
    chain := { s.chain with noRoute := [] }
    dir := { s.dir with fullWindow := false } }

end Sys2Proof.Machine
end

