-- ==== Sys2Proof/Machine/Sluices.lean ====
section
/-! DEFINITION. Sluices: the meter, the scheduler's choice, the deliverable floor, guarantees and shortfall, the window
boundary and the bandwidth commands (08 R222-R244). -/

namespace Sys2Proof.Machine

def State.sluice (s : State) (i : Nat) : Sluice := s.slu.sl.getD i {}

def State.modSluice (s : State) (i : Nat) (f : Sluice → Sluice) : State :=
  { s with slu := { s.slu with sl := s.slu.sl.modify i f } }

/-! ### Masters and parameters in force -/

/-- Some M12 outing, or some re-key outing, is open (08 R236). -/
def m12Open (s : State) : Bool := s.crity.outings.any fun o => o.open_ && decide (1 ≤ o.kind) && decide (o.kind ≤ 7)
def rekeyOpen (s : State) : Bool := s.crity.outings.any fun o => o.open_ && o.kind == 0x08

/-- A high-priority master (08 R229, R236). -/
def isHp (s : State) (c : SlConfig) (m : Nat) : Bool :=
  if m = 12 then m12Open s else if m = 13 then rekeyOpen s else c.hp.getD m false

/-- The PIR of a sluice; the caps of M12 and M13 are the PIR of their DEFAULT_CLASS sluice (08 R236). -/
def pirOf (s : State) (i : Nat) : Nat :=
  let c := s.slu.cfg
  let m := i / 8
  if m = 13 ∧ rekeyOpen s ∧ i % 8 = c.defClass.getD 13 0 then 3 * c.rekeyFloor
  else if m = 12 ∧ m12Open s ∧ i % 8 = c.defClass.getD 12 0 then c.rebuildRate
  else (c.par.getD i {}).pir

/-- CIR with the dredging boost of M11's DEFAULT_CLASS sluice (08 R239). -/
def cirOf (s : State) (i : Nat) : Nat :=
  let c := s.slu.cfg
  (c.par.getD i {}).cir + (if i = 88 + c.defClass.getD 11 0 then s.slu.boost else 0)

/-- The refill of one tick in units of 2^-16 byte: rate × 10^6 ÷ 2^24 bytes (08 R224), the rate being num/den MB/s. -/
def refill (num den : Nat) : Nat := num * 1000000 / (den * 256)

/-- One tick's refill of sluice `i` (08 R224): Tc at the effective CIR f × CIR of a master that is not high-priority (R237),
Tp at PIR; never above the bucket's size. -/
def refillSluice (s : State) (i : Nat) (x : Sluice) : Sluice :=
  let p := s.slu.cfg.par.getD i {}
  let hp := isHp s s.slu.cfg (i / 8)
  let rc := if hp then refill (cirOf s i) 1 else refill (cirOf s i * s.slu.fNum) s.slu.fDen
  let rp := refill (pirOf s i) 1
  { x with
    tc := min (x.tc + rc) (p.cbs * 64 * 65536)
    tp := min (x.tp + rp) (p.pbs * 64 * 65536) }

/-- Every sluice's buckets at one tick of local elapsed time. -/
def refillAll (s : State) : State :=
  { s with slu := { s.slu with sl := s.slu.sl.mapIdx fun i x => refillSluice s i x } }

/-! ### Colouring (08 R225, R226) -/

/-- The sluice's CIR in effect is 0: it colours nothing green (08 R224). -/
def noGreen (s : State) (i : Nat) : Bool :=
  cirOf s i == 0 || (s.slu.fNum == 0 && !isHp s s.slu.cfg (i / 8))

/-- The colour of a request of charge `b`; `forced` makes a request that is still red yellow (08 R226). -/
def colourOf (s : State) (i b : Nat) (forced : Bool) (x : Sluice) : Colour :=
  let need := b * 65536
  if pirOf s i ≠ 0xFFFFFF ∧ x.tp < need then
    (if forced then .yellow else .red)
  else if x.tc < need ∨ noGreen s i = true then .yellow
  else .green

/-- A colouring's effect on tokens and counts. -/
def spend (b : Nat) (c : Colour) (x : Sluice) : Sluice :=
  let need := b * 65536
  match c with
  | .red => { x with colour := some .red, red := x.red + b }
  | .yellow => { x with colour := some .yellow, tp := x.tp - need, yellow := x.yellow + b }
  | .green => { x with colour := some .green, tp := x.tp - need, tc := x.tc - need, green := x.green + b }

/-- The scheduler tier of a coloured front (08 R229): none for red. -/
def tierOf (s : State) (i : Nat) (c : Colour) : Option Nat :=
  match c with
  | .red => none
  | .green => if isHp s s.slu.cfg (i / 8) then some 0 else some 1
  | .yellow => if isHp s s.slu.cfg (i / 8) then some 0 else some 2

/-- `a` is at or ahead of `b` modulo 2^48 (08 R230). -/
def ahead (a b : Nat) : Bool := decide ((a + 2 ^ 48 - b) % 2 ^ 48 < 2 ^ 47)

/-- ceil(b × cost_unit ÷ weight) of a queue in a tier (08 R230). -/
def tagCost (s : State) (i t b : Nat) : Nat :=
  let up := fun n d : Nat => (n + d - 1) / d
  if t = 0 then up (b * 2 ^ 24) (max 1 (pirOf s i))
  else if t = 1 then up (b * 2 ^ 24 * s.slu.fDen) (max 1 (cirOf s i * s.slu.fNum))
  else up (b * 2 ^ 16) (max 1 (s.slu.cfg.weights.getD (i % 8) 1))

/-- Tags of a request that reaches the front eligible in tier `t` (08 R230). -/
def tagFront (s : State) (i t b : Nat) (x : Sluice) : Sluice :=
  let f := x.fTag.getD t 0
  let v := s.slu.v.getD t 0
  let st := if x.tier = some t then f else if ahead f v then f else v
  { x with
    tier := some t
    sTag := x.sTag.set t st
    fTag := x.fTag.set t ((st + tagCost s i t b) % 2 ^ 48) }

/-- Colour the front of a sluice and enter it in its tier. -/
def colourFront (i : Nat) (forced : Bool) (s : State) : State :=
  let x := s.sluice i
  match x.queue with
  | q :: _ =>
    let c := colourOf s i q.charge forced x
    let x := spend q.charge c x
    let x := match tierOf s i c with
      | some t => tagFront s i t q.charge x
      | none => { x with tier := none }
    let ev := match c with | .green => 0x10 | .yellow => 0x11 | .red => 0x12
    pmcCount (evOf ev (i / 8) (i % 8)) (s.modSluice i fun _ => x)
  | [] => s.modSluice i fun x => { x with colour := none, tier := none }

/-! ### Entering a queue (08 R227, R228) -/

/-- Request credits of head `m` are withheld: a sluice queue of it is full (01 R14). -/
def creditsHeld (s : State) (m : Nat) : Bool :=
  decide (m < 8) && (List.range 8).any fun c => decide (128 ≤ (s.sluice (8 * m + c)).queue.length)

/-- The request waits outside: its head's credits are withheld, its master is held back by a perturbation (19), an earlier request of the master to the line is queued in
another sluice of the master, or one waits before it (01 R14; 08 R228). -/
def mustQueueLater (s : State) (i line : Nat) : Bool :=
  let m := i / 8
  creditsHeld s m || pressed s m || ((List.range 8).any fun c => m * 8 + c != i && (s.sluice (m * 8 + c)).queue.any fun q => q.line == line)
    || s.slu.waiting.any fun w => w.1 / 8 == m && (w.2.line == line || w.1 == i)

/-- SLUICE_FULL, the first time in a window that the master has a full sluice (08 R227). -/
def raiseFull (i : Nat) (s : State) : State :=
  let m := i / 8
  if s.slu.fullRaised.contains m then s
  else raiseAll (1344 + m) 0 (le 1 (i % 8) ++ le 4 s.slu.seq)
    { s with slu := { s.slu with fullRaised := m :: s.slu.fullRaised } }

/-- A request enters a sluice queue; it is coloured when it is the front. -/
def pushQueue (i : Nat) (q : QEnt) (s : State) : State :=
  let was := (s.sluice i).queue.isEmpty
  let s := s.modSluice i fun x => { x with queue := x.queue ++ [q] }
  let s := if was then colourFront i false s else s
  if (s.sluice i).queue.length = 128 then raiseFull i s else s

/-- A request arrives at sluice `i`: it enters, or waits outside when the sluice is full or R228 holds it back. -/
def arrive (i : Nat) (q : QEnt) (s : State) : State :=
  if mustQueueLater s i q.line ∨ 128 ≤ (s.sluice i).queue.length then
    { s with slu := { s.slu with waiting := s.slu.waiting ++ [(i, q)] } }
  else pushQueue i q s

/-- Requests that waited outside enter, oldest first, as far as they now may. -/
def admitWaiting (s : State) : State :=
  s.slu.waiting.foldl (fun t w => arrive w.1 w.2 t) { s with slu := { s.slu with waiting := [] } }

/-! ### The scheduler's choice (08 R229-R232) -/

/-- The shared tier is held: brace, die throttling, or the budget is spent (08 R231, R232; 17 R437). -/
def sharedHeld (s : State) : Bool :=
  s.power.brace || s.slu.sharedHold || decide (2 ≤ s.lm.therm) || decide (s.slu.budget ≤ s.slu.used)

/-- The eligible queue with the smallest start tag in tier `t`; ties go to the lower number (08 R230). -/
def smallest (s : State) (t : Nat) : Option Nat :=
  (List.range 128).foldl (fun best i =>
    if (s.sluice i).tier ≠ some t ∨ (s.sluice i).queue.isEmpty = true then best
    else match best with
      | none => some i
      | some j => if ahead ((s.sluice i).sTag.getD t 0) ((s.sluice j).sTag.getD t 0) then some j else some i) none

/-- The sluice the scheduler serves next, with its tier (08 R229). -/
def choose (s : State) : Option (Nat × Nat) :=
  match smallest s 0 with
  | some i => some (i, 0)
  | none => match smallest s 1 with
    | some i => some (i, 1)
    | none => if sharedHeld s then none else (smallest s 2).map fun i => (i, 2)

/-- Take the front of sluice `i` in tier `t`: V, the window's counts, the next front, and who may enter now. -/
def takeFront (i t : Nat) (s : State) : State :=
  let x := s.sluice i
  match x.queue with
  | q :: rest =>
    let m := i / 8
    let counted := !(m == 12 && s.slu.rebuildExcl)
    let s := { s with slu := { s.slu with
      v := s.slu.v.set t (x.sTag.getD t 0)
      used := s.slu.used + (if counted then q.charge else 0)
      hpBytes := s.slu.hpBytes + (if isHp s s.slu.cfg m && m != 12 then q.charge else 0) } }
    let s := s.modSluice i fun x => { x with queue := rest, disp := x.disp + q.charge, colour := none }
    admitWaiting (colourFront i false s)
  | [] => s

/-! ### The deliverable floor (08 R233) -/

/-- Twice the weight of channel `c`. -/
def chanWeight2 (s : State) (c : Nat) : Nat :=
  let a := s.unit (2 * c)
  let b := s.unit (2 * c + 1)
  let fitted := [a, b].filter fun u => u.health != .absent
  let ok := fitted.countP fun u => u.readable
  if s.ddr.population.getLsbD c = false ∨ (s.dom (domDC c)).st ≠ .on ∨ ok = 0 then 0
  else if ok = fitted.length then 2 else 1

/-- Sum of the channel weights, doubled. -/
def weights2 (s : State) : Nat := ((List.range 16).map (chanWeight2 s)).sum

/-- A DRAM M12 outing is open, so the rebuild term applies (08 R233). -/
def rebuildTerm (s : State) : Nat :=
  if s.crity.outings.any fun o => o.open_ && decide (1 ≤ o.kind) && decide (o.kind ≤ 5) then s.slu.cfg.rebuildRate
  else 0

/-- f_dram after the rebuild term, truncated (0.70 × 8 bytes × rate, half weights). -/
def fDram (s : State) : Nat :=
  ((List.range 16).map fun c => chanWeight2 s c * 28 * s.ddr.rate.getD c 0).sum / 10 - rebuildTerm s

/-- P in units of 1/20 MB/s: 107,500 × lanes ÷ 16 × GT/s ÷ 64 × k_flit per head, 34,000 per Stechaisk port up. -/
def portSum20 (s : State) : Nat :=
  ((List.range 8).map fun h =>
    let x := s.head h
    if headUp s h then 107500 * x.width * x.rate * (if x.flit256 then 20 else 17) / (16 * 64) else 0).sum
    + 34000 * 20 * (s.skl.ports.countP fun p => p.st == .up)

/-- f_port = P (1 + x) ÷ max(x, 1 - x), with x in hundredths. -/
def fPort (s : State) : Nat :=
  let x := s.slu.cfg.writeFraction
  portSum20 s * (100 + x) / (20 * max x (100 - x))

/-- F (08 R233). -/
def floorOf (s : State) : Nat := min (fDram s) (fPort s)

/-! ### Guarantees and admission (08 R235) -/

def guarantee (c : SlConfig) (m : Nat) : Nat := ((List.range 8).map fun k => (c.par.getD (8 * m + k) {}).cir).sum

/-- Sum of the PIR of the sluices with a CIR or a PIR below unlimited. -/
def cap (c : SlConfig) (m : Nat) : Nat :=
  ((List.range 8).map fun k =>
    let p := c.par.getD (8 * m + k) {}
    if p.cir != 0 || p.pir != 0xFFFFFF then p.pir else 0).sum

/-- The admitted sum of a configuration. -/
def admittedSum (s : State) (c : SlConfig) : Nat :=
  ((List.range 16).map fun m =>
    if m = 12 ∨ m = 13 then 0 else if isHp s c m then cap c m else guarantee c m).sum + 3 * c.rekeyFloor

/-- The test of R235 against the F in force. -/
def admissible (s : State) (c : SlConfig) : Bool :=
  decide (10 * admittedSum s c ≤ 9 * s.slu.floor.getD 0)

/-! ### The window boundary (08 R240) -/

def units256 (n : Nat) : Nat := min (n / 256) 0xFFFFFF

/-- f × 2^23. -/
def factor23 (x : SluiceState) : Nat := x.fNum * 2 ^ 23 / x.fDen

/-- Step 1: the counters of the window that ends. -/
def snapshot (s : State) : State :=
  let x := s.slu
  let snap : BwcSnap := {
    seq := wrap 24 (x.seq + 1), start := x.windowStart, floor := x.floor.getD 0, factor := factor23 x
    shortRun := min x.shortRun 255, admitted := admittedSum s x.cfg, budget := units256 x.budget
    hp := units256 x.hpBytes
    status := b2n (decide (x.fNum < x.fDen)) + 2 * b2n (x.braced || s.power.brace) + 4 * b2n x.rebuildExcl
      + 8 * b2n (x.boost != 0)
    dramp := x.dramp.map units256
    counts := x.sl.map fun q => (units256 q.green, units256 q.yellow, units256 q.red, units256 q.disp) }
  { s with slu := { x with
    snap := snap, seq := wrap 24 (x.seq + 1), dramp := [0, 0, 0, 0], fullRaised := [], braced := s.power.brace
    sl := x.sl.map fun q => { q with green := 0, yellow := 0, red := 0, disp := 0 } } }

/-- A bucket is clamped to its size when its parameters change (08 R240). -/
def clampTokens (p : SlPar) (x : Sluice) : Sluice :=
  { x with tc := min x.tc (p.cbs * 64 * 65536), tp := min x.tp (p.pbs * 64 * 65536) }

/-- Chain time is at a multiple of 2^`n` ticks, or has just passed it in a tick that moved it by two (02 R45, R51). -/
def atMultiple (t : TimeState) (n : Nat) : Bool :=
  decide (t.chain % 2 ^ n = 0) || (t.jumped && decide (t.chain % 2 ^ n = 1))

/-- Step 2: floor, guarantees, parameters and berth maps come into force, and w at a multiple of 2^16 ticks (02 R51). -/
def putInForce (s : State) : State :=
  let x := s.slu
  let s := { s with
    slu := { x with cfg := x.next, sl := x.sl.mapIdx fun i q => clampTokens (x.next.par.getD i {}) q }
    time := { s.time with
      berth := x.next.berth
      w := if atMultiple s.time 16 then s.time.wNext else s.time.w } }
  let f := floorOf s
  let excl := rebuildTerm s != 0
  let old := s.slu.floor
  let has := s.boot.phase == .ready
  let s := { s with slu := { s.slu with
    rebuildExcl := excl, floor := if has then some f else old } }
  match old with
  | some o => if has ∧ o ≠ f then raiseAll 1360 0 (le 4 o ++ le 4 f) s else s
  | none => s

/-- Sum of the guarantees of masters that are not high-priority, with the boost in force (08 R237). -/
def sumG (s : State) : Nat :=
  ((List.range 16).map fun m => if isHp s s.slu.cfg m then 0 else guarantee s.slu.cfg m).sum
    + (if isHp s s.slu.cfg 11 then 0 else s.slu.boost)

/-- The dredging boost of R239, in MB/s: DREDGE_BOOST in tenths of a percent. -/
def boostOf (s : State) : Nat × Bool :=
  let f := s.slu.floor.getD 0
  let un := f - admittedSum s s.slu.cfg
  let want := s.map.pol.dredgeBoost * f / 1000
  if (s.map.urgentW || s.map.urgentC) then (min want un, decide (1000 * un < s.map.pol.dredgeBoost * f)) else (0, false)

/-- Step 3: boost and shortfall factor, with the overrides of loops 4 and 5 and the shortfall events (08 R237-R239); `win` is
the length of the window that ends. -/
def computeFactor (win : Nat) (s : State) : State :=
  let b := boostOf s
  let s := { s with slu := { s.slu with boost := b.1 } }
  let s := if b.2 then countOverride 5 s else s
  let x := s.slu
  let den := sumG s * 1000000 * win
  let num := x.floor.getD 0 * 1000000 * win - x.hpBytes * 2 ^ 24
  let low := sumG s ≠ 0 ∧ num < den
  let fx := if low then num * 2 ^ 23 / den else 2 ^ 23
  let s := { s with slu := { x with
    fNum := if low then num else 1, fDen := if low then den else 1
    shortRun := if low then x.shortRun + 1 else 0
    shortWindows := if low then x.shortWindows + 1 else x.shortWindows
    lowest := if low then min x.lowest fx else x.lowest } }
  let s := if low ∧ x.hpBytes ≠ 0 then countOverride 4 s else s
  if low then
    if s.slu.shortRun = 8 ∧ x.shortfall = false then
      raiseAll 1361 0 (le 4 (x.floor.getD 0) ++ le 4 fx ++ le 4 (sumG s))
        { s with slu := { s.slu with shortfall := true } }
    else s
  else
    let t := { s with slu := { s.slu with shortfall := false, shortWindows := 0, lowest := 2 ^ 23 } }
    if x.shortfall then raiseAll 1362 0 (le 4 x.shortWindows ++ le 4 x.lowest) t else t

/-- Steps 4 and 5: the budget starts again and held red fronts are coloured again, unless braced (08 R226, R232). -/
def recolour (s : State) : State :=
  let held := s.power.brace || decide (2 ≤ s.lm.therm)
  let s := { s with slu := { s.slu with
    used := 0, hpBytes := 0, budget := s.slu.floor.getD 0 * 1000000 * 2 ^ s.time.w / 2 ^ 24
    sharedHold := held, windowStart := s.time.chain } }
  if held then s
  else (List.range 128).foldl (fun t i =>
    if (t.sluice i).colour = some .red then colourFront i true t else t) s

/-- The whole boundary, in the order of R240, with the counts that restart per window elsewhere. -/
def windowBoundary (s : State) : State :=
  let win := 2 ^ s.time.w
  let s := putInForce (snapshot s)
  let s := computeFactor win s
  let s := recolour s
  let s := pressWindow (windowCounts s)
  { s with time := { s.time with lastWindow := s.time.chain } }

/-- REGULATION_WINDOW_BOUNDARY (08 R240; 02 R51): at a multiple of 2^w ticks, once. -/
def execRegulationWindowBoundary (s : State) : Out :=
  .next (if s.boot.phase.keeper ∧ atMultiple s.time s.time.w = true ∧ s.time.lastWindow ≠ s.time.chain
      ∧ s.flt.halted = false then windowBoundary s else s)

/-! ### Commands -/

/-- The sluices SET_SLUICE's FLAGS name. -/
def setSluiceTargets (p : List Byte) : List Nat :=
  let m := byteAt p 0
  if bitAt p 2 1 then (List.range 8).map fun k => 8 * m + k
  else if bitAt p 2 0 then [8 * m + byteAt p 1] else []

/-- The configuration SET_SLUICE asks for. -/
def setSluiceCfg (p : List Byte) (c : SlConfig) : SlConfig :=
  let f : SlPar → SlPar := fun x => { x with cbs := ofLe p 4 3, pir := ofLe p 8 3, pbs := ofLe p 12 3 }
  let c := { c with par := (setSluiceTargets p).foldl (fun l i => l.modify i f) c.par }
  if bitAt p 2 2 then { c with weights := c.weights.set (byteAt p 1) (byteAt p 16) } else c

/-- The conditions of R244 on a master's sluices. -/
def parsOk (c : SlConfig) (m : Nat) : Bool :=
  (List.range 8).all fun k =>
    let p := c.par.getD (8 * m + k) {}
    decide (p.cir ≤ p.pir) && (p.cir == 0 || decide (2 ≤ p.cbs)) && decide (2 ≤ p.pbs)
      && !(c.hp.getD m false && p.pir == 0xFFFFFF)

/-- The first field of SET_SLUICE, in the order of R244, that leaves a sluice of the master as it may not be: PIR, CBS, PBS, and
PIR again where it may not be unlimited (08 R244). -/
def setSluiceBad (c : SlConfig) (m : Nat) : Option Nat :=
  let l := (List.range 8).map fun k => c.par.getD (8 * m + k) {}
  if l.any fun p => decide (p.pir < p.cir) then some 8
  else if l.any fun p => p.cir != 0 && decide (p.cbs < 2) then some 4
  else if l.any fun p => decide (p.pbs < 2) then some 12
  else if c.hp.getD m false && l.any fun p => p.pir == 0xFFFFFF then some 8
  else none

/-- The first CIR of SET_GUARANTEE that leaves its sluice as it may not be (08 R244). -/
def setGuaranteeBad (c : SlConfig) (m : Nat) : Nat :=
  (((List.range 8).find? fun k =>
    let p := c.par.getD (8 * m + k) {}
    decide (p.pir < p.cir) || (p.cir != 0 && decide (p.cbs < 2))).map fun k => 4 + 4 * k).getD 0xFFFF

def setSluiceSpec : CmdSpec where
  opcode := 0xC300
  len := fun n => n == 24
  mgt := true
  resv := [(2, 0xF0), (7, 0xFF), (11, 0xFF), (15, 0xFF), (17, 0xFFFFFFFFFFFFFF)]
  checks := fun p _ => [
    ⟨0, decide (byteAt p 0 ≤ 15), 0x0401⟩, ⟨1, decide (byteAt p 1 ≤ 7), 0x0401⟩,
    ⟨3, !bitAt p 2 3 || (decide (6 ≤ byteAt p 3) && decide (byteAt p 3 ≤ 16)), 0x0401⟩,
    ⟨16, !bitAt p 2 2 || decide (1 ≤ byteAt p 16), 0x0401⟩]

/-- SET_SLUICE's own checks and effect (08 R235, R244; 02 R51). -/
def setSluice (p : List Byte) (s : State) : CmdRes :=
  let c := setSluiceCfg p s.slu.next
  let m := byteAt p 0
  let hpChange := isHp s c m && (setSluiceTargets p).any fun i => (c.par.getD i {}).pir != (s.slu.next.par.getD i {}).pir
  if (bitAt p 2 0 ∨ bitAt p 2 1) ∧ parsOk c m = false then .fail 0x0401 ((setSluiceBad c m).getD 0xFFFF)
  else if hpChange ∧ admissible s c = false then .fail 0x0402 8
  else
    let t := if bitAt p 2 3 then { s.time with wNext := byteAt p 3 } else s.time
    .ok [] { s with slu := { s.slu with next := c }, time := t }

/-- SET_SLUICE (08 R244). -/
def execSetSluice (m : Mb) (p : List Byte) (s : State) : Out := .next (runCrity setSluiceSpec m p (setSluice p) s)

def setGuaranteeSpec : CmdSpec where
  opcode := 0xC302
  len := fun n => n == 36
  mgt := true
  resv := [(2, 0xFFFF), (7, 0xFF), (11, 0xFF), (15, 0xFF), (19, 0xFF), (23, 0xFF), (27, 0xFF), (31, 0xFF), (35, 0xFF)]
  checks := fun p _ => [
    ⟨0, decide (byteAt p 0 ≤ 15) && byteAt p 0 != 12 && byteAt p 0 != 13, 0x0401⟩,
    ⟨1, decide (byteAt p 1 ≤ 100) || byteAt p 1 == 0xFF, 0x0401⟩]

/-- The configuration SET_GUARANTEE asks for: all eight CIR values together. -/
def setGuaranteeCfg (p : List Byte) (c : SlConfig) : SlConfig :=
  let m := byteAt p 0
  let one : List SlPar → Nat → List SlPar := fun l k =>
    l.modify (8 * m + k) fun x => { x with cir := ofLe p (4 + 4 * k) 3 }
  { c with
    par := (List.range 8).foldl one c.par
    writeFraction := if byteAt p 1 = 0xFF then c.writeFraction else byteAt p 1 }

/-- SET_GUARANTEE (08 R235, R244). -/
def execSetGuarantee (m : Mb) (p : List Byte) (s : State) : Out :=
  .next (runCrity setGuaranteeSpec m p (fun s =>
    let c := setGuaranteeCfg p s.slu.next
    if parsOk c (byteAt p 0) = false then .fail 0x0401 (setGuaranteeBad c (byteAt p 0))
    else if admissible s c = false then .fail 0x0402 0xFFFF
    else .ok [] { s with slu := { s.slu with next := c } }) s)

/-- The index of a master's or agent's berth map (02 R53). -/
def berthIndex (m : Nat) : Option Nat :=
  if m = 10 then some 0 else if m = 11 then some 1 else if m = 12 then some 2 else if m = 13 then some 3
  else if m = 15 then some 4 else if m = 16 then some 5 else if m = 17 then some 6 else none

/-- The attribute applies to the master (08 R236, attribute table). -/
def attrApplies (m a : Nat) : Bool :=
  if a = 1 then decide (m ≤ 15) && m != 12 && m != 13
  else if a = 2 then decide (m ≤ 7) || (decide (10 ≤ m) && decide (m ≤ 13)) || m == 15
  else if a = 3 then (berthIndex m).isSome
  else if a = 4 ∨ a = 5 then m == 12
  else if a = 6 then m == 13
  else if a = 7 then m == 14
  else if a = 8 then decide (m ≤ 7)
  else if a = 9 then m == 15 else false

/-- VALUE is in the attribute's range. -/
def attrRange (a v : Nat) : Bool :=
  if a = 1 then decide (v ≤ 1) else if a = 2 then decide (v ≤ 7) else if a = 3 then true
  else if a = 4 then decide (1000 ≤ v) && decide (v ≤ 400000)
  else if a = 5 then decide (100 ≤ v) && decide (v ≤ 12000)
  else if a = 6 then decide (100 ≤ v) && decide (v ≤ 100000) && v % 100 == 0
  else if a = 7 then decide (v < 2 ^ 32) else if a = 8 then decide (12 ≤ v) && decide (v ≤ 22)
  else decide (1 ≤ v) && decide (v ≤ 168)

/-- The configuration SET_MASTER_ATTR asks for. -/
def setAttrCfg (m a v : Nat) (c : SlConfig) : SlConfig :=
  if a = 1 then { c with hp := c.hp.set m (v == 1) }
  else if a = 2 then { c with defClass := c.defClass.set m v }
  else if a = 3 then { c with berth := c.berth.set ((berthIndex m).getD 7) (BitVec.ofNat 64 v) }
  else if a = 4 then { c with rebuildRate := v }
  else if a = 5 then { c with coldRate := v }
  else if a = 6 then { c with rekeyFloor := v }
  else if a = 7 then { c with bulk := BitVec.ofNat 32 v }
  else if a = 8 then { c with snoopLimit := c.snoopLimit.set m v }
  else { c with scrubPeriod := v }

/-- Number of set bits of a berth map. -/
def berthCount (b : BitVec 64) : Nat := (List.range 64).countP fun i => b.getLsbD i

/-- The test of R183 fails for a span of `size` bytes: it would take more than 2^55 ÷ (8 × 10^10) ÷ 16 seconds to re-key. -/
def rekeyTooSlow (s : State) (c : SlConfig) (size : Nat) : Bool :=
  let sz := min size (s.map.geo.uHot + s.map.geo.uWarm)
  decide (2 ^ 55 * (c.rekeyFloor * 1000000 * berthCount (c.berth.getD 3 0)) < sz * (8 * 10 ^ 10) * 16 * 64)

/-- Some valid range fails the test of R183 under a configuration. -/
def anyRekeyTooSlow (s : State) (c : SlConfig) : Bool :=
  s.keys.ranges.any fun r => r.valid && rekeyTooSlow s c (r.sizeGib * gib)

def setMasterAttrSpec : CmdSpec where
  opcode := 0xC305
  len := fun n => n == 16
  mgt := true
  resv := [(2, 0xFFFFFFFFFFFF)]
  checks := fun p _ => [
    ⟨0, decide (byteAt p 0 ≤ 17), 0x0007⟩,
    ⟨1, decide (1 ≤ byteAt p 1) && decide (byteAt p 1 ≤ 9), 0x0007⟩,
    ⟨8, attrRange (byteAt p 1) (ofLe p 8 8), 0x0007⟩,
    ⟨1, attrApplies (byteAt p 0) (byteAt p 1), 0x0401⟩]

/-- SET_MASTER_ATTR's own checks and effect (08 R235, R236; 06 R183; 03 R70). -/
def setMasterAttr (p : List Byte) (s : State) : CmdRes :=
  let m := byteAt p 0
  let a := byteAt p 1
  let c := setAttrCfg m a (ofLe p 8 8) s.slu.next
  if a = 3 ∧ m = 17 ∧ ofLe p 8 8 = 0 then .fail 0x0301 8
  else if a = 1 ∧ parsOk c m = false then .fail 0x0401 8
  else if (a = 6 ∨ (a = 3 ∧ m = 13)) ∧ anyRekeyTooSlow s c = true then .fail 0x0204 8
  else if (a = 1 ∨ a = 6) ∧ admissible s c = false then .fail 0x0402 8
  else .ok [] { s with slu := { s.slu with next := c } }

/-- SET_MASTER_ATTR (08 R236). -/
def execSetMasterAttr (m : Mb) (p : List Byte) (s : State) : Out :=
  .next (runCrity setMasterAttrSpec m p (setMasterAttr p) s)

def getSluiceSpec : CmdSpec where
  opcode := 0xC301
  len := fun n => n == 4
  any := true
  read := true
  resv := [(2, 0xFFFF)]
  checks := fun p _ => [⟨0, decide (byteAt p 0 ≤ 15), 0x0401⟩, ⟨1, decide (byteAt p 1 ≤ 7), 0x0401⟩]

/-- The 48 bytes of GET_SLUICE (08). -/
def sluiceBytes (s : State) (m k : Nat) : List Byte :=
  let i := 8 * m + k
  let x := s.sluice i
  let p := s.slu.cfg.par.getD i {}
  let t := x.tier.getD 2
  let eff := if isHp s s.slu.cfg m then cirOf s i else cirOf s i * s.slu.fNum / s.slu.fDen
  le 1 m ++ le 1 k ++ le 1 (s.slu.cfg.weights.getD k 1)
    ++ le 1 (b2n (isHp s s.slu.cfg m) + 2 * b2n (x.colour == some .red) + 4 * b2n (!x.queue.isEmpty))
    ++ le 4 p.cir ++ le 4 eff ++ le 4 p.cbs ++ le 4 (pirOf s i) ++ le 4 p.pbs ++ le 4 (x.tc / 65536)
    ++ le 4 (twos 32 (x.tp / 65536)) ++ le 4 x.queue.length ++ le 6 (x.sTag.getD t 0) ++ le 6 (x.fTag.getD t 0)

/-- GET_SLUICE (08 R244). -/
def execGetSluice (m : Mb) (p : List Byte) (s : State) : Out :=
  .next (runCrity getSluiceSpec m p (fun s => .ok (sluiceBytes s (byteAt p 0) (byteAt p 1)) s) s)

def getBwCountersSpec : CmdSpec where
  opcode := 0xC303
  len := fun n => n == 4
  any := true
  read := true
  resv := [(2, 0xFFFF)]
  checks := fun p _ => [
    ⟨0, decide (byteAt p 0 ≤ 127), 0x0007⟩,
    ⟨1, decide (1 ≤ byteAt p 1) && decide (byteAt p 0 + byteAt p 1 ≤ 128), 0x0007⟩]

/-- The words BWC_FACTOR and the four counts of a sluice. -/
def bwcFactor (b : BwcSnap) : Nat := min b.factor 0xFFFFFF + wrap 8 b.shortRun * 2 ^ 24

def bwcCounts (b : BwcSnap) (i : Nat) : List Byte :=
  let c := b.counts.getD i (0, 0, 0, 0)
  le 4 c.1 ++ le 4 c.2.1 ++ le 4 c.2.2.1 ++ le 4 c.2.2.2

/-- GET_BW_COUNTERS (08 R243). -/
def execGetBwCounters (m : Mb) (p : List Byte) (s : State) : Out :=
  .next (runCrity getBwCountersSpec m p (fun s =>
    let b := s.slu.snap
    .ok (le 4 b.seq ++ le 8 b.start ++ le 4 (bwcFactor b) ++ le 4 b.floor ++ le 4 b.budget ++ le 4 b.hp
      ++ (b.dramp.map (le 4)).flatten ++ le 4 b.status
      ++ ((List.range (byteAt p 1)).map fun i => bwcCounts b (byteAt p 0 + i)).flatten) s) s)

def getFloorSpec : CmdSpec where
  opcode := 0xC304
  len := fun n => n == 0
  any := true
  read := true

/-- The 48 bytes of GET_DELIVERABLE_FLOOR (08). -/
def floorBytes (s : State) : List Byte :=
  let f := s.slu.floor.getD 0
  let adm := admittedSum s s.slu.cfg
  le 4 f ++ le 4 (fDram s) ++ le 4 (fPort s) ++ le 2 (weights2 s) ++ le 2 s.ddr.rateMts
    ++ le 1 s.slu.cfg.writeFraction
    ++ le 1 (b2n s.slu.rebuildExcl + 2 * b2n (decide (s.slu.fNum < s.slu.fDen)) + 4 * b2n s.power.brace)
    ++ le 2 0 ++ le 4 (rebuildTerm s) ++ le 4 (portSum20 s / 20) ++ le 4 adm ++ le 4 (9 * f / 10)
    ++ le 4 (factor23 s.slu) ++ le 4 (f - adm) ++ le 4 0

/-- GET_DELIVERABLE_FLOOR (08 R233). -/
def execGetDeliverableFloor (m : Mb) (p : List Byte) (s : State) : Out :=
  .next (runCrity getFloorSpec m p (fun s => .ok (floorBytes s) s) s)

end Sys2Proof.Machine
end

