-- ==== Sys2Proof/Machine/Targets.lean ====
section
/-! DEFINITION. Where pages may be placed: open tiers, the target of a merge, and what a mover's traffic needs of its sluice
(03 R72, R74, R79, R81; 04 R102, R120; 08 R223-R226). -/

namespace Sys2Proof.Machine

/-- Free space of a barge tier that has barges is below 5 % (03 R81). -/
def lowFree (s : State) (t : Nat) : Bool :=
  decide ((if t = 1 then s.map.geo.warmBarges else s.map.geo.coldBarges) ≠ 0) && decide (freeSpace s t < 500)

/-- Channels that become members of a barge written now (04 R102): those in REFILL are none (R122). -/
def newMembers (s : State) : List Nat :=
  (List.range 16).filter fun c => s.ddr.population.getLsbD c && healthyChannel s c

/-- Tier W can take new barges: four healthy channels, and at least 5 % free space (04 R102; 03 R81). -/
def warmOpen (s : State) : Bool :=
  decide (4 ≤ (newMembers s).length) && decide (s.map.geo.warmBarges ≠ 0) && !lowFree s 1

/-- Tier C can take new placements. -/
def coldOpen (s : State) : Bool := decide (s.map.geo.coldBarges ≠ 0) && !lowFree s 2

/-- A page with a line that a host wrote poisoned stays in Tier H (04 R120). -/
def hotBound (s : State) (p : Nat) : Bool := s.dur.hostPoison.any fun l => l / 64 == p

/-- A tier that placements may enter now. -/
def tierOpen (s : State) (t : Nat) : Bool :=
  if t = 0 then decide (fillOf s 0 < 100 * s.map.pol.hotHigh)
  else if t = 1 then warmOpen s && decide (fillOf s 1 < 100 * s.map.pol.warmHigh)
  else coldOpen s

/-- Tier H where R72 or R74 place the page there: a zero page's first merge, or a page that a heat sample brought to
PROMOTE_W. -/
def mergesHot (s : State) (p : Nat) : Bool :=
  let e := s.page p
  tierOpen s 0 && (e.zero || e.tier == 0 || e.hot || decide (promoteW s p ≤ heatOf s p))

/-- The tier that R79 chooses without any pin. -/
def mergeByRule (s : State) (p : Nat) : Nat :=
  let e := s.page p
  if mergesHot s p then 0
  else if e.zero then 1
  else if e.tier = 2 then (if promoteC s p ≤ heatOf s p then 1 else 2)
  else e.tier

/-- The target of a merge (03 R74, R79, R81; 04 R102, R120). -/
def mergeTarget (s : State) (p : Nat) : Nat :=
  let v := pinOf s p
  let want :=
    if v = 1 then 0 else if v = 2 then 1 else if v = 7 then 2
    else if v = 6 ∧ (s.page p).zero = true then 1
    else
      let t := mergeByRule s p
      if pinAllows v t then t else if t = 0 then 1 else if t = 2 then 1 else 2
  if hotBound s p then 0
  else if want = 1 ∧ warmOpen s = false ∧ coldOpen s = true ∧ pinAllows v 2 = true then 2
  else if want = 2 ∧ coldOpen s = false ∧ warmOpen s = true ∧ pinAllows v 1 = true then 1
  else want

/-! ### Mover traffic and the sluices (06 R178, R182; 08 R223-R226) -/

/-- The master of a move: migration, dredging, rebuild, re-key (03, movers). -/
def moverMaster : MoveKind → Nat
  | .promote | .demote | .merge => 10
  | .dredge => 11
  | .rebuild => 12
  | .rekey | .reencrypt => 13

/-- The sluice of a maintenance master's traffic: that of its DEFAULT_CLASS, as its cap and floor are (06 R182; 08 R223-R226). -/
def moverSluice (s : State) (m : Nat) : Nat := 8 * m + s.slu.cfg.defClass.getD m 0

/-- A sluice would pass an access of `b` bytes now (08 R225, R229): not red, nor yellow while the shared tier is held. A unit of work
passes as a whole once its first access would (log 62). -/
def sluicePassesAt (s : State) (i b : Nat) : Bool :=
  !pressed s (i / 8) && match colourOf s i (min b 256) false (s.sluice i) with
    | .red => false
    | .yellow => isHp s s.slu.cfg (i / 8) || !sharedHeld s
    | .green => true
def sluicePasses (s : State) (m b : Nat) : Bool := sluicePassesAt s (moverSluice s m) b

/-- `b` bytes pass the sluice `i` of a master: its tokens, and what the window counts (08 R225, R231, R237). -/
def chargeSluiceAt (i b : Nat) (s : State) : State :=
  let m := i / 8
  let c := colourOf s i (min b 256) true (s.sluice i)
  let ev := match c with | .green => 0x10 | .yellow => 0x11 | .red => 0x12
  let s := { s with slu := { s.slu with
    used := s.slu.used + (if m = 12 ∧ s.slu.rebuildExcl = true then 0 else b)
    hpBytes := s.slu.hpBytes + (if isHp s s.slu.cfg m = true ∧ m ≠ 12 then b else 0) } }
  pmcCount (evOf ev m (i % 8)) (s.modSluice i fun x => { spend b c x with colour := x.colour, disp := x.disp + b })
def chargeSluice (m b : Nat) (s : State) : State := chargeSluiceAt (moverSluice s m) b s

/-- DRAM port of a mover's traffic (06 R179; 08 R222): P3 for rebuild, P1 for an urgent re-encryption, else P2; and its row of R281. -/
def moverPort (l : Lock) : Nat :=
  match l.kind with
  | .rebuild => 3
  | .promote | .demote | .merge | .dredge | .rekey | .reencrypt => if l.urgent then 1 else 2
def moverOrder (l : Lock) : Nat := 4 + moverPort l

/-- DRAM bytes that a move of a page reads (08 R223, R243): 64 for a line of Tier H or of the overlay, 256 for a sector of Tier W. -/
def moveReads (s : State) (l : Lock) : Nat :=
  let e := s.page l.page
  let base := if e.zero then 0 else if e.tier = 0 then 4096 else if e.tier = 1 then 256 * e.size else 0
  let lines := match l.kind with
    | .dredge => 0
    | .promote | .demote | .merge | .rebuild | .rekey | .reencrypt =>
      (e.overlay.map fun o => (List.range 64).countP o.mask.getLsbD).getD 0
  base + 64 * lines

end Sys2Proof.Machine
end

