-- ==== Sys2Proof/Machine/Access.lean ====
section
/-! DEFINITION. Step 5 to 7 of a request: the page map, reads and writes of every tier, degraded reads and their verdicts
(01 R15-R27; 03 R85-R88; 04 R98-R111; 06 R176-R179, R187). -/

namespace Sys2Proof.Machine

/-! ### Erased pages (06 R187) -/

/-- The page lies at or above the erase watermark, in the spans being erased. -/
def KeyRange.erasing (r : KeyRange) (p : Nat) : Bool :=
  r.erase.isSome && decide (r.watermark ≤ p) && r.eraseSpans.any fun x => decide (x.1 ≤ p) && decide (p < x.2)

/-- The page is still to be cleared. A page that a write has cleared since the erase was accepted holds new data (log 25). -/
def pageErasing (s : State) (p : Nat) : Bool := s.keys.ranges.any fun r => r.erasing p && !r.eraseFresh.contains p

/-- Clear a page: it becomes a zero page; its location, overlay and counters are freed, any move of it is aborted, its
loss-list entries go. -/
def clearPage (p : Nat) (s : State) : State :=
  let e := s.page p
  let s := if e.zero then s else retireLoc e.tier e.loc e.size s
  let s := dropHeld p (dropSides p (fun _ _ => false) (dropLock p s))
  let s := s.modPage p fun e => { heat := e.heat }
  { s with
    mem := Memory.clearPage s.mem p
    dur := forgetLost (fun q => q == p) { s.dur with
      hostPoison := s.dur.hostPoison.filter fun l => l / 64 != p } }

/-- A write to a page still to be cleared first clears it (06 R187). -/
def clearForWrite (p : Nat) (s : State) : State :=
  if pageErasing s p then
    let note : KeyRange → KeyRange := fun r => if r.erasing p then { r with eraseFresh := p :: r.eraseFresh } else r
    clearPage p { s with keys := { s.keys with ranges := s.keys.ranges.map note } }
  else s

/-! ### Channels -/

/-- P0 commands queued at a channel (01 R18): those of reads still in flight. -/
def queuedReads (s : State) (c : Nat) : Nat :=
  ((s.chan c).ports ++ (s.chan c).retry).countP fun k => k.order == 4 && s.req.reqs.any fun r => r.id == k.key

/-- Row of R281 of a read of a request: P3 for scrub, else P0; DRAM port it is counted at. -/
def readOrder (r : Req) : Nat := if r.head = 15 then 7 else 4
def readPort (r : Req) : Nat := if r.head = 15 then 3 else 0

/-! ### Verdicts (04 R99, R104, R105) -/

/-- A read is charged to a DIMM; the fourth in a regulation window fences it. -/
def chargeDimm (slot : Nat) (s : State) : State :=
  let s := s.modUnit slot fun u => { u with charged := u.charged + 1 }
  if 4 ≤ (s.unit slot).charged then fenceUnit slot 1 s else s

def chargeAll (slots : List Nat) (s : State) : State := slots.foldl (fun t i => chargeDimm i t) s

/-- DEGRADED_READ: tier, page, line, step, unit. -/
def raiseWhole (tier line step unit : Nat) (s : State) : State :=
  raiseAddr 320 (64 * line) (le 1 tier ++ le 8 (line / 64) ++ le 1 (line % 64) ++ le 1 step ++ le 1 unit) s

/-- Verdict Tamper: the FT event halts the device (06 R186). -/
def tamper (tier line : Nat) (s : State) : State :=
  let r := (rangeAt s (64 * line)).getD 16
  raiseAddr 576 (64 * line) (le 8 (line / 64) ++ le 1 (line % 64) ++ le 1 tier ++ le 1 r) s

/-- A request's read ends with poison. -/
def finishPoison (r : Req) (s : State) : State := finishRead r 0 true s

/-! ### Tier H reads (01 R18, R19; 04 R104) -/

/-- Lost for a Tier H or overlay line. -/
def lostLine (r : Req) (unit : Nat) (s : State) : State :=
  finishPoison r (makeLost 0x01 0 unit (r.line / 64) (BitVec.ofNat 64 (2 ^ (r.line % 64))) s)

/-- The copy a line of frame `f` is read from: the readable one with fewer queued P0 commands, the channel below 8 on a tie
(01 R18). -/
def chooseCopy (s : State) (f : Nat) : Nat :=
  let lo := frameLow s f
  if !copyReadable s (lo + 8) f then lo else if !copyReadable s lo f then lo + 8
  else if queuedReads s (lo + 8) < queuedReads s lo then lo + 8 else lo

/-- Some copy of a frame can be read. -/
def frameReadable (s : State) (f : Nat) : Bool := copyReadable s (frameLow s f) f || copyReadable s (frameLow s f + 8) f

/-- A line read is issued on a channel. -/
def lineCmd (r : Req) (f c order : Nat) (s : State) : State :=
  countDram (readPort r) 64 (queueCmd c ⟨order, true, r.id, frameAddr s f r.line⟩ s)

/-- Read a line from a frame (01 R18). -/
def readFrame (r : Req) (f : Nat) (s : State) : State :=
  let c := chooseCopy s f
  let both := copyReadable s (frameLow s f) f && copyReadable s (frameLow s f + 8) f
  if frameReadable s f then
    lineCmd r f c (readOrder r) (s.modReq r.id fun r => { r with st := .line c 1 [] (!both), src_ := some (0, f) })
  else lostLine r (frameDimm s (frameLow s f) f) s

/-- Minor counter last given to a line's copy in the frame or overlay: from a write in flight, the in-flight write table,
or the sideband (01 R20; 06 R177); none for an overlay line whose mask bit is clear. -/
def lastMinor (s : State) (line : Nat) (ovl : Bool) : Option Nat :=
  let fly := s.req.reqs.filterMap fun w => match w.st with
    | .write o m _ => if w.line = line ∧ o = ovl then some m else none
    | _ => none
  match fly.getLast? with
  | some m => some m
  | none =>
    let valid := !ovl || (s.page (line / 64)).overlay.any fun o => o.mask.getLsbD (line % 64)
    if valid then
      match (s.req.ifwt.filter (·.line == line)).getLast? with
      | some e => some e.minor
      | none => some (((aget s.map.side (2 * line + b2n ovl)).map (·.minor)).getD 0)
    else none

/-- A corrected line enters the in-flight write table for the copy on channel `c`. -/
def enterFix (line c : Nat) (s : State) : State :=
  let e := s.page (line / 64)
  let o := e.overlay.filter fun o => o.mask.getLsbD (line % 64)
  let f := (o.map (·.frame)).getD e.loc
  enterTable line ((lastMinor s line o.isSome).getD 0) f [c] s

/-- The corrected line is written to the copy on channel `c` through the in-flight write table, which it waits for when that is
full (01 R21; 04 R105). -/
def rewriteCopy (line c : Nat) (s : State) : State :=
  if 4096 ≤ s.req.ifwt.length then { s with req := { s.req with fixes := s.req.fixes ++ [(line, c)] } }
  else enterFix line c s

/-- The frame a line read is from. -/
def readFrom (r : Req) : Nat := (r.src_.map (·.2)).getD 0

/-- A re-read that the protection unit asks for (10 R295): it is counted and raises READ_RETRY with the channel-local
address. -/
def readRetry (c addr : Nat) (s : State) : State :=
  let s := pmcCount (chanEvent 0x24 c) s
  raiseAll (srcChannel c 3) 0 (le 8 addr) (s.modChan c fun x => { x with retryCount := addSat 24 x.retryCount 1 })

/-- The next step of a line's ladder after its data from channel `c` failed or did not come. -/
def nextLine (r : Req) (c step : Nat) (bad : List Nat) (missing : Bool) (s : State) : State :=
  let f := readFrom r
  let o := (c + 8) % 16
  let slots := (bad.map fun k => frameDimm s k f).eraseDups
  let verdict : State → State := fun s =>
    if missing then lostLine r (frameDimm s c f) (chargeAll slots s) else tamper 0 r.line s
  let go : Nat → Nat → Bool → State → State := fun k n m s =>
    let s := if 3 ≤ n then readRetry k (frameAddr s f r.line) s else s
    lineCmd r f k (if 3 ≤ n then 3 else readOrder r) (s.setSt r.id (.line k n bad m))
  if step = 1 then
    if copyReadable s o f then go o 2 missing s
    else if copyReadable s c f then go c 3 true s
    else lostLine r (frameDimm s c f) (chargeAll slots s)
  else if step = 2 then
    if copyReadable s o f then go o 3 missing s
    else if copyReadable s c f then go c 3 true s
    else lostLine r (frameDimm s c f) (chargeAll slots s)
  else if step = 3 ∧ copyReadable s o f = true then go o 4 missing s
  else verdict s

/-- Scrub writes the corrected line to the copies that failed, unless a host write of the line has passed the page map stage
since (10 R297). -/
def scrubRewrite (line : Nat) (bad : List Nat) (s : State) : State :=
  let newer := s.req.ifwt.any (·.line == line) || s.req.reqs.any fun w => w.line == line && w.kind.isWrite
    && (match w.st with | .write _ _ _ | .sideband _ _ _ _ | .order | .waiting => true | _ => false)
  if newer then s else bad.foldl (fun t c => rewriteCopy line c t) s

/-- The stored tag of a line matches what is recomputed from its ciphertext and sideband, and its BYPASS bit its range's attribute
(06 R170). A line without a listed sideband has not been written since its page was laid out (log 13). -/
def lineOk (s : State) (line f : Nat) : Bool :=
  let e := s.page (line / 64)
  let ovl := e.overlay.any fun o => o.frame == f
  match aget s.map.side (2 * line + b2n ovl) with
  | some x =>
    let c := match lockOf s (line / 64) with
      | some l => if encrypts l.kind && ovl && (l.wm ||| l.done).getLsbD (line % 64) then (l.tEpoch, l.tMajor) else (e.epoch, e.major)
      | none => (e.epoch, e.major)
    x == sideOf s line x.minor c.1 c.2 x.poison (Memory.readLine s.mem line)
  | none => true

/-- A line returns from DRAM and is checked, in step `step` of the ladder. -/
def lineReturn (r : Req) (c step : Nat) (bad : List Nat) (missing : Bool) (out : ReadOutcome) (s : State) : State :=
  let f := readFrom r
  let slot := frameDimm s c f
  let slots := (bad.map fun k => frameDimm s k f).eraseDups
  let out := if !copyReadable s c f then .mediaError else if out = .good ∧ r.erased = false ∧ lineOk s r.line f = false then .bad else out
  match out with
  | .good =>
    let s := if step = 1 then s else raiseWhole 0 r.line (min step 3) (slots.headD slot) (chargeAll slots s)
    let s := if r.head = 15 then scrubRewrite r.line bad s else s
    finishReadMem r s
  | .chipFix _ =>
    let s := raiseWhole 0 r.line (min step 3) (if step = 1 then slot else slots.headD slot) s
    finishReadMem r (chargeAll slots (rewriteCopy r.line c s))
  | .bad => nextLine r c step (if bad.contains c then bad else bad ++ [c]) missing s
  | .mediaError => nextLine r c step bad true s

/-! ### Blocks of Tier W and Tier C (01 R23, R24; 04 R104) -/

/-- Chunks of its barge that a page's block touches. -/
def blockChunks (s : State) (e : PageEnt) : List Nat :=
  if e.tier = 1 then warmChunks s.map.geo e.loc e.size else [coldChunk s.map.geo e.loc]

/-- Chunk `t` of the block's barge can be read. -/
def chunkReadable (s : State) (tier loc t : Nat) : Bool :=
  if tier = 1 then
    let b := warmBarge s.map.geo loc
    warmReadable s b (warmChannel s b t)
  else coldReadable s (coldBarge s.map.geo loc) t

/-- The slot that holds chunk `t`. -/
def chunkSlot (s : State) (tier loc t : Nat) : Nat :=
  if tier = 1 then
    let b := warmBarge s.map.geo loc
    warmDimm s (warmChannel s b t) b
  else 32 + coldDrive s.map.geo (coldBarge s.map.geo loc) t

/-- Present chunks of a warm barge. -/
def warmWidth (s : State) (loc : Nat) : Nat :=
  (membersOf (((aget s.dur.warm (warmBarge s.map.geo loc)).map (·.members)).getD s.ddr.population)).length

/-- Readable chunks of a cold barge other than the block's own. -/
def coldSpare (s : State) (loc : Nat) : Nat := (coldOthers s (coldBarge s.map.geo loc) (coldChunk s.map.geo loc)).length

/-- Ways to choose `k` of `n`, cut off at `cap`. -/
def choose_ (n k cap : Nat) : Nat := if n < k then 0 else if n = k then 1 else cap

/-- The trials of one pass: for Tier W the sets of chunks treated as erased, for Tier C the further sets of k chunks. -/
def trialSets (s : State) (tier : Nat) (chunks : List Nat) (loc : Nat) : List (List Nat) :=
  if tier = 1 then (chunks.map fun t => [t]) ++ (if 2 ≤ chunks.length then [chunks] else [])
  else List.replicate (max 1 (choose_ (coldSpare s loc) s.map.geo.coldK (1 + s.map.geo.coldM))) chunks

/-- A trial's sources can all be read. -/
def trialOk (s : State) (tier loc : Nat) (chunks set : List Nat) : Bool :=
  if tier = 1 then
    let w := warmWidth s loc
    let others := (List.range w).filter fun t => !set.contains t && chunkReadable s 1 loc t
    (chunks.all fun t => set.contains t || chunkReadable s 1 loc t) && decide (w - 2 ≤ others.length)
  else decide (s.map.geo.coldK ≤ coldSpare s loc)

/-- Lost for a block: every line of the page that is not in an overlay. -/
def lostBlock (r : Req) (tier loc : Nat) (chunks : List Nat) (s : State) : State :=
  let p := r.line / 64
  let mask := ~~~ (((s.page p).overlay.map (·.mask)).getD 0)
  let slots := chunks.map (chunkSlot s tier loc)
  let slot := (slots.find? fun i => !(s.unit i).readable).getD (slots.headD 0xFF)
  finishPoison r (makeLost (if tier = 1 then 0x02 else 0x03) tier slot p mask s)

/-- The block's trials are exhausted (04 R105): a request whose original drive read is still under way waits for it, its trial
number 1000 (11 R313). -/
def blockVerdict (r : Req) (missing checked quiet : Bool) (tier loc : Nat) (chunks : List Nat) (s : State) : State :=
  if r.cid.isSome then s.setSt r.id (.block 1000 missing checked quiet)
  else if missing then lostBlock r tier loc chunks s
  else tamper tier r.line s

/-- Go to the next trial at or after number `t` whose sources can be read; a skipped one is missing. -/
def advanceBlock (r : Req) (t : Nat) (missing checked quiet : Bool) (s : State) : State :=
  match r.src_ with
  | some (tier, loc) =>
    let chunks := blockChunks s { s.page (r.line / 64) with tier := tier, loc := loc }
    let sets := trialSets s tier chunks loc
    let n := sets.length
    let rest := (List.range (2 * n + 1)).filter fun k => decide (t ≤ k) && decide (1 ≤ k)
    match rest.find? fun k => trialOk s tier loc chunks (sets.getD ((k - 1) % n) []) with
    | some k =>
      let s := s.setSt r.id (.block k (missing || k != max t 1) checked quiet)
      let b := warmBarge s.map.geo loc
      let again := tier == 1 && k == n + 1
      let s := if again then chunks.foldl (fun t j => readRetry (warmChannel t b j) (4096 * (t.ddr.warmBase + b)) t) s else s
      let e := s.page (r.line / 64)
      if tier = 2 ∧ (k - 1) % n = 0 then submitDegraded r.id loc (if quiet then 1 else 0) (coldLbas e.start e.size) s else s
    | none => blockVerdict r (missing || !rest.isEmpty) checked quiet tier loc chunks s
  | none => s

/-- A trial of a block matched: verdict Whole, the charges, and the decompression. -/
def blockWhole (r : Req) (t : Nat) (checked quiet : Bool) (tier loc : Nat) (s : State) : State :=
  let p := r.line / 64
  let chunks := blockChunks s { s.page p with tier := tier, loc := loc }
  let sets := trialSets s tier chunks loc
  let n := max 1 sets.length
  let set := sets.getD ((t - 1) % n) []
  let slots := set.map (chunkSlot s tier loc)
  let dimms := slots.filter fun i => !isDrive i && (s.unit i).readable
  let s := if checked then chargeAll dimms s else s
  let step := if n < t then 3 else if tier = 1 then set.length else if t = 1 then 1 else 2
  let s := if quiet then s else raiseWhole tier r.line step (slots.headD 0xFF) s
  startDecode r.id p r.failed s

/-- Data for trial `t` of a block arrives and the trial is made. -/
def blockReturn (r : Req) (t : Nat) (missing checked quiet : Bool) (out : ReadOutcome) (s : State) : State :=
  match r.src_ with
  | some (tier, loc) =>
    if t = 0 then
      let chunks := blockChunks s { s.page (r.line / 64) with tier := tier, loc := loc }
      let ok := chunks.all (chunkReadable s tier loc)
      match out with
      | .good => if !ok then advanceBlock r 1 true checked quiet s
        else if r.erased || sealOk s (r.line / 64) then startDecode r.id (r.line / 64) r.failed s else advanceBlock r 1 missing true quiet s
      | .bad | .chipFix _ => advanceBlock r 1 missing true quiet s
      | .mediaError => advanceBlock r 1 true checked quiet s
    else
      match out with
      | .good => if r.erased || sealOk s (r.line / 64) then blockWhole r t checked quiet tier loc s
        else advanceBlock r (t + 1) missing true quiet s
      | .bad | .chipFix _ => advanceBlock r (t + 1) missing true quiet s
      | .mediaError => advanceBlock r (t + 1) true checked quiet s
  | none => s

/-- A drive that is read-avoided: one host-path read in 64 is still sent to it (11 R314). -/
def avoidNow (s : State) (d : Nat) : Bool := (s.drive d).avoided && (s.drive d).turn % 64 != 63

/-- Start a Tier C read (01 R24; 11 R306, R307, R314). -/
def readCold (r : Req) (loc : Nat) (s : State) : State :=
  let g := s.map.geo
  let b := coldBarge g loc
  let j := coldChunk g loc
  let d := coldDrive g b j
  let p := r.line / 64
  let s := s.modReq r.id fun r => { r with src_ := some (2, loc) }
  let r := { r with src_ := some (2, loc) }
  if coldReadable s b j = false then advanceBlock r 1 true false false s
  else
    let avoid := avoidNow s d
    let s := if (s.drive d).avoided then s.modDrive d fun x => { x with turn := x.turn + 1 } else s
    if avoid then advanceBlock r 1 false false true s
    else
      let probe := (s.drive d).avoided
      let cid := s.drives.nextCid
      let count : Drive → Drive := fun x =>
        if probe then { x with probes := x.probes + 1 } else { x with reads := x.reads + 1 }
      let s := s.modDrive d count
      let s := s.modReq r.id fun r => { r with st := .block 0 false false false, cid := some (d, cid) }
      let e := s.page p
      let s := submit d (.read r.id probe) (1 + p % 16) (coldLba g loc) (coldLbas e.start e.size) s
      -- the tag sector of a raw block, unless the first Read covers it (05 R139)
      if e.size = 16 ∧ loc % 8 + (e.start + 15) / 16 < 7 then
        submit d (.tag r.id) (1 + p % 16) (8 * coldRow g b j + 7) 1 (s.modReq r.id fun r => { r with tagOut := true })
      else s

/-- Sectors of a warm block that lie in chunk `k` of its barge (03 R64). -/
def chunkShare (g : Geometry) (loc size k : Nat) : Nat :=
  let o := loc % max 1 (warmSectors g)
  min (o + size) (16 * k + 16) - max o (16 * k)

/-- Start a Tier W read (01 R23): every chunk the block touches must be readable, or the first trial starts at once. -/
def readWarm (r : Req) (loc size : Nat) (s : State) : State :=
  let s := s.modReq r.id fun r => { r with st := .block 0 false false false, src_ := some (1, loc) }
  let r := { r with st := .block 0 false false false, src_ := some (1, loc) }
  let chunks := warmChunks s.map.geo loc size
  let s := countDram 0 (256 * (size + if size = 16 then 1 else 0)) s
  let b := warmBarge s.map.geo loc
  let addr := fun k i : Nat => 4096 * (s.ddr.warmBase + b) + (if k = chunks.headD 0 then loc % max 1 (warmSectors s.map.geo) % 16 * 256 else 0) + 64 * i
  let fetch : State → Nat → State := fun t k =>
    (List.range (4 * chunkShare s.map.geo loc size k)).foldl (fun u i =>
      queueCmd (warmChannel s b k) ⟨4, true, r.id, addr k i⟩ u) t
  let s := chunks.foldl fetch s
  if chunks.all (chunkReadable s 1 loc) then s else advanceBlock r 1 true false false s

/-! ### Reads -/

/-- Where a write that has passed the page map stage stands before its copies are accepted. -/
def ReqSt.storing : ReqSt → Bool
  | .write _ _ _ | .sideband _ _ _ _ | .waiting | .order => true
  | _ => false

/-- A write of the line has passed the page map stage and its copies have not been accepted (07 R204). -/
def writePending (s : State) (line : Nat) : Bool :=
  s.req.reqs.any fun w => w.line == line && w.kind.isWrite && w.st.storing

/-- Such a write passed it before the request: requests stand in the order in which they passed (01 R30, R31). -/
def blockedBy (s : State) (r : Req) : Bool :=
  (s.req.reqs.takeWhile (·.id != r.id)).any fun w => w.line == r.line && w.kind.isWrite && w.st.storing

/-- A read of a line that the loss list covers: where its sources are gone, the degraded read ends in Lost again, without a
new entry; elsewhere only the poison returns (04 R104, R105, R118, R120). -/
def readLost (r : Req) (s : State) : State :=
  let p := r.line / 64
  match (goneParts s p (s.page p)).find? fun x => x.2.2.getLsbD (r.line % 64) with
  | some x =>
    finishPoison r (makeLost x.1 x.2.1 0xFF p (if x.2.1 = 0 then BitVec.ofNat 64 (2 ^ (r.line % 64)) else x.2.2) s)
  | none => finishPoison r s

/-- Step 6 of a read. -/
def startRead (r0 : Req) (s : State) : State :=
  let l := r0.line
  let p := l / 64
  let e := s.page p
  let cap : Req → Req := fun r => { r with data := Memory.readLine s.mem l, poison := linePoison s l }
  let r := cap r0
  let s := s.modReq r.id cap
  if pageErasing s p && !r.erased then finishRead r 0 false s
  else if blockedBy s r then s.setSt r.id .order
  else if s.req.ifwt.any (·.line == l) then finishReadMem r s
  else if lineLost s l then readLost r s
  else
    let ovl := e.overlay.any fun o => o.mask.getLsbD (l % 64)
    if ovl then readFrame r ((e.overlay.map (·.frame)).getD 0) s
    else if e.zero then finishReadMem r (if r.head < 10 then pmcCount (evOf 0x03 r.head r.cls) s else s)
    else if e.tier = 0 then readFrame r e.loc s
    else if heldPage s p then finishReadMem r (touchHeld p s)
    else if e.tier = 1 then readWarm r e.loc e.size s
    else readCold r e.loc s

/-! ### Writes (01 R20, R26; 03 R80, R86; 04 R109, R111; 06 R176-R179) -/

/-- The write goes to an overlay: the page is not a resting Tier H page (01 R26; 03 R86; 04 R111). -/
def toOverlay (s : State) (p : Nat) : Bool :=
  let e := s.page p
  e.zero || e.tier != 0 || e.loss || e.overlay.isSome || (lockOf s p).isSome

/-- The minor counter a write takes. -/
def nextMinor (s : State) (line : Nat) (ovl : Bool) : Nat := ((lastMinor s line ovl).map (· + 1)).getD 0

/-- Epoch of a page that takes its first overlay: a zero page and a page in Tier C, none of whose bytes are under a working key, take
the range's newest epoch (06 R166). DESIGN CHOICE: R175 and R176 do not name that case (log 65). -/
def freshEpoch (p : Nat) (s : State) : State :=
  if (s.page p).zero ∨ (s.page p).tier = 2 then
    match rangeAt s (4096 * p) with
    | some r => if (s.page p).epoch = (s.range r).epoch then s
      else s.modPage p fun e => { e with epoch := (s.range r).epoch, major := if e.zero then 0 else e.major }
    | none => s
  else s

/-- The move needs an engine's result before its block can be written (03 R79; 06 R178, R182). -/
def needsBlock (s : State) (l : Lock) : Bool :=
  match l.kind with
  | .demote | .merge => true
  | .reencrypt => l.tier != 0
  | .rekey => l.tier != 0 && (s.page l.page).overlay.isSome
  | .promote | .dredge | .rebuild => false

/-- The move fills the page's overlay and makes it the page (03 R79, R88; 06 R178). -/
def fillsOverlay (l : Lock) : Bool :=
  match l.kind with
  | .promote | .merge | .rekey | .reencrypt => l.tier == 0
  | .demote | .dredge | .rebuild => false

/-- Every line of the page outside `keep` reads as zero. -/
def zeroLines (s : State) (p : Nat) (keep : BitVec 64) : Bool :=
  (s.mem.all fun c => c.1 / 4096 != p || keep.getLsbD (c.1 / 64 % 64))
    && s.dur.hostPoison.all fun l => l / 64 != p || keep.getLsbD (l % 64)

/-- A result that is all zeros writes nothing, and takes no engine (03 R74; 05 R140). -/
def zeroResult (s : State) (l : Lock) : Bool :=
  match l.kind with
  | .promote | .merge | .demote => zeroLines s l.page (if l.tier = 0 then 0 else l.wm)
  | .rekey | .reencrypt => needsBlock s l && zeroLines s l.page l.wm
  | .dredge | .rebuild => false

/-- Host writes of the page's frame are on their way (03 R87). -/
def frameWrites (s : State) (p : Nat) : Bool :=
  s.req.reqs.any fun r => r.line / 64 == p && (match r.st with
    | .write o _ _ => !o
    | .sideband o _ _ _ => !o
    | _ => false)

/-- A mover begins to read its page once no in-flight write of it is left (03 R87): its drive read, and a compression where the
move needs one and the page is not all zeros (05 R140). -/
def beginReads (p : Nat) (s : State) : State :=
  match lockOf s p with
  | some l =>
    if l.reading || s.req.ifwt.any (fun e => e.line / 64 == p) || frameWrites s p then s
    else
      let f : Lock → Lock := fun x => if x.page = p then { x with reading := true } else x
      let n := moveReads s l
      let s := chargeSluice (moverMaster l.kind) n (countDram (moverPort l) n s)
      let s := moverRead p { s with map := { s.map with locks := s.map.locks.map f } }
      if l.tier ≠ 0 ∧ needsBlock s l = true ∧ zeroResult s l = false then startCompress p s else s
  | none => s

/-- An overlay to fill: one is taken where there is none (03 R86). -/
def fillOverlay (p : Nat) (s : State) : State :=
  if (s.page p).overlay.isSome then s
  else match freeFrame s with
    | some f =>
      let note : Lock → Lock := fun x => if x.page = p then { x with filled := true } else x
      let s := makeOverlay p f (freshEpoch p s)
      { s with map := { s.map with locks := s.map.locks.map note } }
    | none => s

/-- Re-encryption of a page starts (06 R178): the reserved lock; an overlay to fill for a Tier H page, a merge by R79 for a barge
page. A page that another mover holds, or that finds no lock, is entered to be taken later. DESIGN CHOICE: the overlay of a zero
page is filled and becomes a Tier H page, as R178 does not name that case (log 65). -/
def startReencrypt (p : Nat) (s : State) : State :=
  let s := if s.keys.reenc.contains p then s else { s with keys := { s.keys with reenc := s.keys.reenc ++ [p] } }
  let e := s.page p
  let t := if e.zero ∨ e.tier = 0 then 0 else mergeTarget s p
  let frame := decide (t ≠ 0) || e.overlay.isSome || (freeFrame s).isSome
  if (lockOf s p).isSome ∨ lockDrains s p = true ∨ lockFree s true = false ∨ frame = false then s
  else
    let s := takeLock .reencrypt p t 0 s
    beginReads p (if t = 0 then fillOverlay p s else s)

/-- The write waits for an overlay, or for a frame to hold one; the first that waits at the hard limit raises OVERLAY_LIMIT (03 R80). -/
def waitOverlay (r : Req) (s : State) : State :=
  let s := s.setSt r.id .waiting
  if s.map.ovlFull || decide (overlayCount s < ovlHardLimit s) then s
  else raiseAll 193 0 (le 4 (overlayCount s)) { s with map := { s.map with ovlFull := true } }

/-- The write is encrypted and issued to both channel write queues (01 R20 steps 2 and 3). -/
def sendWrite (r : Req) (ovl : Bool) (f : Nat) (s : State) : State :=
  let p := r.line / 64
  let m := nextMinor s r.line ovl
  if 63 < m then
    -- 06 R179: it waits for the re-encryption to commit, whose remaining traffic moves to P1
    let hurry : Lock → Lock := fun l => if l.page = p then { l with urgent := true } else l
    let s : State := { s with map := { s.map with locks := s.map.locks.map hurry } }
    let s := s.setSt r.id .waiting
    if (lockOf s p).isNone then startReencrypt p s else s
  else
    let wm : Lock → Lock := fun l =>
      if l.page = p then { l with wm := l.wm ||| BitVec.ofNat 64 (2 ^ (r.line % 64)) } else l
    let s := { s with map := { s.map with locks := s.map.locks.map wm } }
    let lo := frameLow s f
    let s := countDram 1 128 (touchChan (lo + 8) (touchChan lo (s.setSt r.id (.write ovl m f))))
    if m = 63 then startReencrypt p s else s

/-- The line's sideband is read for its minor counter (01 R20 step 1): not where the in-flight write table has the counter, nor
for an overlay line whose mask bit is clear (06 R177). What the device itself writes takes its counter at once (log 62). -/
def needsSideband (s : State) (r : Req) (ovl : Bool) : Bool :=
  (!ovl || (s.page (r.line / 64)).overlay.any fun o => o.mask.getLsbD (r.line % 64))
    && !(s.req.ifwt.any (·.line == r.line)) && r.head != 14

/-- The sideband of a line is read from the copy on channel `c`. -/
def readSideband (r : Req) (ovl : Bool) (f c : Nat) (again : Bool) (s : State) : State :=
  countDram 0 64 (queueCmd c ⟨4, true, r.id, frameAddr s f r.line⟩ (s.setSt r.id (.sideband ovl f c again)))

/-- A write of a line of a frame: step 1 of R20, then the others. -/
def issueWrite (r : Req) (ovl : Bool) (f : Nat) (s : State) : State :=
  if needsSideband s r ovl ∧ frameReadable s f = true then readSideband r ovl f (chooseCopy s f) false s else sendWrite r ovl f s

/-- The write goes to the page's overlay, or to one taken for it (01 R26). -/
def overlayWrite (r : Req) (s : State) : State :=
  let p := r.line / 64
  match (s.page p).overlay with
  | some o => issueWrite r true o.frame
      (s.modPage p fun e => { e with overlay := e.overlay.map fun o => { o with written := true } })
  | none =>
    if ovlHardLimit s ≤ overlayCount s then waitOverlay r s
    else match freeFrame s with
      | some f =>
        let t := (s.page p).tier
        let s := makeOverlay p f (freshEpoch p s)
        let s := if r.head < 14 then pmcCount { evOf 0x04 r.head r.cls with tier := t, tierValid := true } s else s
        issueWrite r true f s
      | none => waitOverlay r s

/-- Step 6 of a write. It waits for an earlier write of its line (01 R30). -/
def startWrite (r : Req) (s : State) : State :=
  let p := r.line / 64
  if r.erased then finishNdr r s
  else if blockedBy s r then s.setSt r.id .order
  else
    let s := clearForWrite p s
    let full := r.kind == .wr || r.mask == BitVec.allOnes 64
    if !full && lineLost s r.line then
      -- 04 R111
      finishNdr r (raiseAddrOf r.head 326 (64 * r.line) (le 8 p ++ le 1 (r.line % 64) ++ le 1 r.head) s)
    else if toOverlay s p then overlayWrite r s
    else issueWrite r false (s.page p).loc s

/-- Requests that waited for an earlier write of the line are tried again, in their order (01 R30; 07 R204). -/
def wakeOrdered (line : Nat) (s : State) : State :=
  let l := s.req.reqs.filter fun r => r.st == .order && r.line == line
  l.foldl (fun t r => match t.req? r.id with
    | some r => if r.st == .order then (if r.kind.isWrite then startWrite r t else startRead r t) else t
    | none => t) s

/-- A write is tried again; where it ended, what waited behind it goes on. -/
def retryWrite (r : Req) (s : State) : State :=
  let s := startWrite r s
  if (s.req? r.id).isNone then wakeOrdered r.line s else s

/-- Writes that wait for an overlay or a re-encryption are tried again (03 R80; 06 R179). -/
def wakeWaiting (page : Nat) (s : State) : State :=
  let l := s.req.reqs.filter fun r => r.st == .waiting && r.line / 64 == page
  l.foldl (fun t r => match t.req? r.id with
    | some r => if r.st == .waiting then retryWrite r t else t
    | none => t) s

/-- The sideband of a write's line comes back. From a copy that is gone it is read from the other one; where neither has it the
line is lost, and the write goes on as a write to a lost line (04 R111). -/
def sideReturn (r : Req) (ovl : Bool) (f c : Nat) (again : Bool) (out : ReadOutcome) (s : State) : State :=
  let o := (c + 8) % 16
  match (if copyReadable s c f then out else .mediaError) with
  | .mediaError =>
    if again = false ∧ copyReadable s o f = true then readSideband r ovl f o true s
    else
      let s := makeLost 0x01 0 (frameDimm s c f) (r.line / 64) (BitVec.ofNat 64 (2 ^ (r.line % 64))) s
      if ovl then sendWrite r ovl f s else retryWrite r (s.setSt r.id .waiting)
  | .good | .chipFix _ | .bad => sendWrite r ovl f s

/-! ### Acceptance of a write (01 R20, R21; 04 R109, R123; 06 R175-R181) -/

/-- Frames of a HELD DIMM that are written on the other copy alone (04 R123). -/
def markCatchUp (f : Nat) (s : State) : State :=
  let lo := frameLow s f
  [lo, lo + 8].foldl (fun t c =>
    let d := frameDimm s c f
    if (t.unit d).health = .held ∧ ¬ (t.unit d).catchUp.contains f then
      t.modUnit d fun u => { u with catchUp := u.catchUp ++ [f] } else t) s

/-- The bytes, sideband, mask bit, key use, poison and loss-list effects of an accepted line. -/
def storeLine (line : Nat) (bytes : List Byte) (poison full ovl : Bool) (minor : Nat) (s : State) : State :=
  let p := line / 64
  let i := line % 64
  let e := s.page p
  let target := match lockOf s p with
    | some l => if encrypts l.kind && ovl then (l.tEpoch, l.tMajor) else (e.epoch, e.major)
    | none => (e.epoch, e.major)
  let d : Line := BitVec.ofNat 512 (ofLe bytes 0 64)
  let side := sideOf s line minor target.1 target.2 poison d
  let s := useKey p target.1 lineBlocks s
  let set : Overlay → Overlay := fun o => { o with mask := o.mask ||| BitVec.ofNat 64 (2 ^ i) }
  let s := if ovl then s.modPage p fun e => { e with overlay := e.overlay.map set } else s
  let hp := s.dur.hostPoison.filter (· != line)
  let dur := { s.dur with hostPoison := if poison then line :: hp else hp }
  let dur := if full then clearLossLine p i dur else dur
  let s : State := { s with
    mem := Memory.writeBytes s.mem (64 * line) bytes
    map := { s.map with side := aset s.map.side (2 * line + b2n ovl) side }
    dur := dur }
  if (s.page p).loss ∧ lossCovered s p = 0 then s.modPage p fun e => { e with loss := false } else s

/-- Both channels have accepted a write, or the one that is left (04 R109). What a write that passed decode before a crypto-erase
stores is erased with the rest (06 R187). A write that no unit can take goes to an overlay
on a healthy pair (04 R108). -/
def acceptWrite (r : Req) (ovl : Bool) (minor f : Nat) (s : State) : State :=
  if r.erased then s
  else
  let full := r.kind == .wr || r.mask == BitVec.allOnes 64
  let old := Memory.readLine s.mem r.line
  let bytes := if full then lineBytes r.data else mergeLine old r.data r.mask
  let poison := r.poison || (!full && s.dur.hostPoison.contains r.line)
  let chans := writeChans s f
  let s := markCatchUp f s
  let s := storeLine r.line bytes poison full ovl minor s
  if chans.isEmpty then rescueLine r.line minor s else enterTable r.line minor f chans s

/-- A line can be accepted: the in-flight write table has room (01 R21), and P1 of each channel that takes it (10 R283). -/
def acceptOpen (s : State) (f : Nat) : Bool :=
  decide (s.req.ifwt.length < 4096) && (writeChans s f).all fun c => !(s.chan c).full 5

/-! ### Lines that the device writes (03 R65, R88; 04 R121; 05 R149; 09 R260) -/

/-- A line that the device itself writes takes the path of every write. Its copies are accepted in the same step where nothing
holds it back; else it waits as any write does (log 62). -/
def putLine (line : Nat) (d : Line) (poison : Bool) (s : State) : State :=
  let rid := s.req.next
  let s := addReq { id := 0, kind := .wr, mv := .any, head := 14, cls := 0, line := line, data := d, poison := poison, st := .waiting } s
  match s.req? rid with
  | some r =>
    let s := startWrite r s
    (match (s.req? rid).map (·.st) with
    | some (ReqSt.write ovl m f) => if acceptOpen s f then wakeOrdered line (dropReq rid (acceptWrite r ovl m f s)) else s
    | _ => s)
  | none => s

/-! ### The map's own pages (03 R65-R70) -/

/-- The 128 bits of a page's level-0 entry (03 R65). LOCATION names the overlay's descriptor by the overlay's frame
(log 62). -/
def entryBits (s : State) (p : Nat) : Nat :=
  let e := s.page p
  let low := match e.overlay with
    | some _ => e.epoch % 256
    | none => if e.tier = 2 ∧ e.zero = false then e.start % 16 else e.epoch % 256
  e.tier % 4 + ((e.overlay.map (·.frame)).getD e.loc) % 2 ^ 40 * 2 ^ 2 + e.size % 32 * 2 ^ 42 + e.heat % 256 * 2 ^ 47
    + pinOf s p % 8 * 2 ^ 55 + b2n e.zero * 2 ^ 58 + b2n e.overlay.isSome * 2 ^ 59 + b2n (lockOf s p).isSome * 2 ^ 60
    + b2n e.loss * 2 ^ 61 + b2n e.queued * 2 ^ 62 + e.major % 2 ^ 48 * 2 ^ 64 + low * 2 ^ 112

/-- The line of its map page that holds a page's entry: four entries of 16 bytes to a line. -/
def entryLine (p : Nat) : Nat := 64 * (ownPages + mapPage p) + p % 256 / 4

/-- What line `i` of map page `m` holds: the entries of its four pages. -/
def entryData (s : State) (m i : Nat) : Line :=
  BitVec.ofNat 512 ((List.range 4).foldl (fun n k => n + entryBits s (256 * m + 4 * i + k) * 2 ^ (128 * k)) 0)

/-- A line of a map page whose entries have changed is written (03 R67). -/
def putEntries (m i : Nat) (s : State) : State :=
  let line := 64 * (ownPages + m) + i
  let d := entryData s m i
  if Memory.readLine s.mem line = d then s else putLine line d false s

/-- Write back an entry to its map page: an entry not yet halved is halved first; a lagging map page is brought to the
current count, its other stored entries taking their effective heat (03 R70). -/
def writeBack (p : Nat) (marked : Bool) (s : State) : State :=
  let s := if marked then s else halveHeat p s
  let lag := lagOf s p
  let count := seconds s.time.chain % 256
  let fix : Nat × PageEnt → Nat × PageEnt := fun x =>
    if mapPage x.1 = mapPage p ∧ x.1 ≠ p ∧ s.map.cache.all (·.1 != x.1) then (x.1, { x.2 with heat := x.2.heat / 2 ^ lag })
    else x
  let s : State := { s with map := { s.map with
    pages := if lag = 0 then s.map.pages else s.map.pages.map fix
    stamps := aset s.map.stamps (mapPage p) count
    cache := s.map.cache.filter (·.1 != p) } }
  if lag = 0 then putEntries (mapPage p) (p % 256 / 4) s
  else (List.range 64).foldl (fun t i => putEntries (mapPage p) i t) s

/-- The entries of a page's set in the map cache. -/
def cacheRow (s : State) (p : Nat) : List (Nat × Bool) := s.map.cache.filter fun x => cacheSet x.1 == cacheSet p

/-- Every way of the set holds an entry that is MOVING: nothing can be loaded into it (03 R67). -/
def setStuck (s : State) (p : Nat) : Bool :=
  decide (16 ≤ (cacheRow s p).length) && (cacheRow s p).all fun x => (lockOf s x.1).isSome

/-- A full set evicts one of its entries that are not MOVING (03 R67); which one is a free choice (log 19). -/
def makeRoom (p : Nat) (s : State) : State :=
  if (cacheRow s p).length < 16 then s
  else
    let may := (cacheRow s p).filter fun x => (lockOf s x.1).isNone
    match may[Config.cacheVictim s.free % may.length]? with
    | some x => writeBack x.1 x.2 { s with free := s.free + 1 }
    | none => s

/-- Load an entry: it enters with its effective heat, marked; the walk cache takes its map page (03 R68, R70). DESIGN CHOICE: a
full walk cache drops the entry that was loaded longest ago; the manual gives no order (log 62). -/
def loadEntry (p : Nat) (s : State) : State :=
  if cached s p || setStuck s p then s
  else
    let s := makeRoom p s
    let h := heatOf s p
    let s := if (s.page p).heat = h then s else s.modPage p fun e => { e with heat := h }
    { s with map := { s.map with
      cache := s.map.cache ++ [(p, true)], walk := (mapPage p :: s.map.walk.erase (mapPage p)).take 65536 } }

/-- A line written by the device itself to a page of a host (04 R121; 05 R151; 09 R260). -/
def writeLineNow (line : Nat) (bytes : List Byte) (poison : Bool) (s : State) : State :=
  putLine line (BitVec.ofNat 512 (ofLe bytes 0 64)) poison (loadEntry (line / 64) s)

/-- The map walker reads the entry of page `p` in its map page, wherever that lies (01 R15, R24); a miss of the walk cache first
reads the level-1 entry, a line of Tier H (03 R68). -/
def startWalk (p : Nat) (s : State) : State :=
  let l := entryLine p
  if s.req.reqs.any fun r => r.head == 13 && r.line == l then s
  else
    let s := if s.map.walk.contains (mapPage p) then s else countDram 0 64 s
    let rid := s.req.next
    let s := addReq { id := 0, kind := .rd, mv := .any, head := 13, cls := 0, line := l } s
    match s.req? rid with
    | some r => startRead r s
    | none => s

/-- The map walker still reads the entry of a page. -/
def walking (s : State) (p : Nat) : Bool := s.req.reqs.any fun r => r.head == 13 && r.line == entryLine p

/-! ### Step 5 -/

/-- The page's map entry is in the cache: tier access begins, or a request without one completes (01 R11 steps 5 to 8). -/
def accessPage (r : Req) (s : State) : State :=
  let p := r.line / 64
  let s := if r.head < 10 then heatSample p s else s
  let e := s.page p
  let ev : PmcEvent := { evOf (if r.kind.isWrite then 0x02 else 0x01) r.head r.cls with
    tier := e.tier, tierValid := !e.zero, addr := 64 * r.line, addrValid := true }
  match r.kind with
  | .inv | .invNt | .clnEvct => finishNdr r s
  | .evict => retireReq r s
  | .wr | .wrPtl => startWrite r (pmcCount ev s)
  | .rd | .rdData | .rds | .rda | .rdcur => startRead r (pmcCount ev s)

/-- The request is the last that came to the page map stage. -/
def lastInLine (rid : Nat) (s : State) : State :=
  { s with req := { s.req with reqs := s.req.reqs.filter (·.id != rid) ++ s.req.reqs.filter (·.id == rid) } }

/-- The page map stage: a miss waits for the map walker, and what comes for the page meanwhile waits behind it (01 R15, R30). MAP_MISS
makes a miss of a lookup that it chooses (19). -/
def mapStage (rid : Nat) (s : State) : State :=
  let s := eccOp 0x07 (some 196) 197 (le 1 0 ++ le 4 (((s.req? rid).map fun r => cacheSet (r.line / 64)).getD 0)) s
  match s.req? rid with
  | some r =>
    let p := r.line / 64
    let miss := chosen 5 0xFFFF s
    let s := notePerturb 5 0xFFFF (lastInLine rid s)
    if cached s p && !miss && !(s.req.reqs.any fun x => x.st == .walk && x.line / 64 == p) then accessPage r s
    else startWalk p (pmcCount (evOf 0x05 r.head r.cls) (s.setSt rid .walk))
  | none => s

/-- Requests of a page that wait for the map walker go on, in their order (01 R15), unless its entry finds no way. -/
def walkDone (page : Nat) (s : State) : State :=
  let l := s.req.reqs.filter fun r => r.st == .walk && r.line / 64 == page
  let s := loadEntry page s
  if cached s page then l.foldl (fun t r => match t.req? r.id with | some r => accessPage r t | none => t) s else s

/-! ### Retiring (01 R21; 10 R292) -/

/-- Corrected lines that waited for room in the in-flight write table enter it. -/
def drainFixes (s : State) : State :=
  match s.req.fixes with
  | x :: rest =>
    if s.req.ifwt.length < 4096 then enterFix x.1 x.2 { s with req := { s.req with fixes := rest } } else s
  | [] => s

/-- The key of the writes of a warm barge's chunks at the channels. -/
def chunkKey (b : Nat) : Nat := 2 ^ 60 + b

/-- A chunk of a warm barge has reached the devices of a channel (04 R110). -/
def chunkArrived (c b : Nat) (s : State) : State :=
  let f : BargeWrite → BargeWrite := fun w =>
    if w.tier = 1 ∧ w.barge = b then { w with waiting := w.waiting.filter fun i => slotChannel i != c } else w
  { s with drives := { s.drives with writes := s.drives.writes.map f } }

/-- A write of a line has reached the devices of a channel. -/
def releaseEntry (c line : Nat) (s : State) : State :=
  match s.req.ifwt.find? fun e => e.line == line && e.chans.contains c with
  | some e =>
    let e' := { e with chans := e.chans.erase c }
    let t := s.req.ifwt.map fun x => if x = e then e' else x
    let s : State := { s with req := { s.req with ifwt := t.filter (!·.chans.isEmpty) } }
    beginReads (line / 64) s
  | none => s

/-- The oldest command of a channel leaves its retry buffer (10 R292): the copy of a write, or a chunk, has reached the devices
(01 R21; 04 R110). A mover that waited for the page's writes begins to read (03 R87). -/
def retireRetry (c : Nat) (s : State) : State :=
  match (s.chan c).retry with
  | k :: rest =>
    let s := s.modChan c fun x => { x with retry := rest }
    let s := if k.read then s else if 2 ^ 60 ≤ k.key then chunkArrived c (k.key - 2 ^ 60) s else releaseEntry c k.key s
    drainFixes (issueAll c s)
  | [] => s

/-- A DRAM command of the request has not been issued yet. -/
def readWaits (s : State) (rid : Nat) : Bool :=
  s.ddr.chans.any fun x => x.ports.any fun k => k.read && k.key == rid

end Sys2Proof.Machine
end

