-- ==== Sys2Proof/Machine/Directory.lean ====
section
/-! DEFINITION. The directory: host requests and chain requests against its entries, snoops and their answers, evictions,
the pending queue, reservations, and heads or devices that are lost (07 R192-R221). -/

namespace Sys2Proof.Machine

/-! ### Sets, ways and holders -/

/-- The set of a line (07 R194). -/
def dirSet (l : Nat) : Nat := (l % 2 ^ 18) ^^^ (l / 2 ^ 18 % 2 ^ 18) ^^^ (l / 2 ^ 36 % 2 ^ 10)

/-- Bit of a head. -/
def headBit (h : Nat) : BitVec 8 := BitVec.ofNat 8 (2 ^ h)

/-- Heads of a presence mask. -/
def headsOf (m : BitVec 8) : List Nat := (List.range 8).filter fun h => m.getLsbD h

/-- The entries of a set. -/
def wayEnts (s : State) (set : Nat) : List (Nat × DirEnt) := s.dir.ents.filter fun x => dirSet x.1 == set

/-- Devices a snoop goes to: the holders, or in a grouped vector every device of their groups (07 R214). -/
def snoopDevs (s : State) (e : DirEnt) : List Nat :=
  let hi := s.chain.highest
  if e.st == .any || decide (hi < 64) || hi == 0xFFF then e.chain
  else
    let g := (hi + 64) / 64
    ((List.range (hi + 1)).filter fun d => d != s.chain.id && e.chain.any fun x => x / g == d / g)

/-! ### What a request does to an entry (07 R197, R215) -/

/-- The outcome of a grant: the snoop other heads get, the chain snoop other devices get, what the entry becomes beside the
holders that keep a copy, the completion and the GRANT. -/
structure Plan where
  snp : Option SnpKind
  opcode : Nat
  st : DirSt
  pres : BitVec 8
  chain : List Nat
  resp : NdrKind
  grant : Nat

/-- Chain snoop that stands for a BISnp (07 R215). -/
def chainOp : SnpKind → Nat
  | .inv => 0x10 | .data => 0x11 | .cur => 0x12

/-- The table of R197. -/
def hostPlan (kind : ReqKind) (mv : MetaVal) (h : Nat) (e : DirEnt) : Plan :=
  let me := headBit h
  let mine := e.pres.getLsbD h
  let others := (e.pres &&& ~~~ me) != 0 || !e.chain.isEmpty
  let anyOther := e.st == .any && others
  let anyMine := e.st == .any && mine
  let same : NdrKind → Plan := fun c => ⟨none, 0, e.st, e.pres, e.chain, c, 0⟩
  let inv : DirSt → BitVec 8 → NdrKind → Plan := fun st p c =>
    ⟨if others then some .inv else none, 0x10, st, p, [], c, 0⟩
  let share : NdrKind → Plan := fun c =>
    if anyOther then ⟨some .data, 0x11, .shared, me, [], c, 0⟩
    else if e.st = .shared then ⟨none, 0, .shared, e.pres ||| me, e.chain, c, 0⟩
    else ⟨none, 0, .shared, me, [], c, 0⟩
  let own : Plan := if anyMine then same .cmpE else inv .any me .cmpE
  match kind, mv with
  | .rd, .any | .inv, .any => own
  | .rd, .shared | .inv, .shared => share .cmpS
  | .rd, .invalid =>
    if anyOther then ⟨some .cur, 0x12, .any, 0, [], .cmp, 0⟩ else same .cmp
  | .rdData, _ =>
    if anyMine then same .cmpE
    else if e.st = .invalid then inv .any me .cmpE
    else share .cmpS
  | .inv, .invalid | .invNt, _ => inv .invalid 0 .cmp
  | .clnEvct, _ =>
    ⟨none, 0, e.st, e.pres &&& ~~~ me, e.chain, .cmp, 0⟩
  | .wr, .invalid | .wrPtl, .invalid => inv .invalid 0 .cmp
  | .wr, .shared | .wrPtl, .shared => inv .shared me .cmp
  | .wr, .any | .wrPtl, .any => inv .any me .cmp
  | .rds, _ | .rda, _ | .rdcur, _ | .evict, _ => same .cmp

/-- The table of R215 for a request of device `d`. -/
def chainPlan (kind : ReqKind) (d : Nat) (e : DirEnt) : Plan :=
  let has := e.chain.contains d
  let others := e.pres != 0 || e.chain.any (· != d)
  let anyOther := e.st == .any && others
  match kind with
  | .rds =>
    if anyOther then ⟨some .data, 0x11, .shared, 0, [d], .cmp, 1⟩
    else ⟨none, 0, .shared, e.pres, if has then e.chain else e.chain ++ [d], .cmp, 1⟩
  | .rda => ⟨if others then some .inv else none, 0x10, .any, 0, [d], .cmp, 2⟩
  | .rdcur =>
    if anyOther then ⟨some .cur, 0x12, .any, 0, [], .cmp, 0⟩ else ⟨none, 0, e.st, e.pres, e.chain, .cmp, 0⟩
  | .evict => ⟨none, 0, e.st, e.pres, e.chain.filter (· != d), .cmp, 0⟩
  | .wr | .wrPtl =>
    ⟨if others then some .inv else none, 0x10, if has then e.st else .invalid, 0, if has then [d] else [], .cmp, 0⟩
  | .rd | .rdData | .inv | .invNt | .clnEvct => ⟨none, 0, e.st, e.pres, e.chain, .cmp, 0⟩

/-- What a request does to an entry: a head without HDM-DB service reads the current value and records no presence
(07 R193). -/
def planOf (r : Req) (e : DirEnt) : Plan :=
  if r.isChain then chainPlan r.kind r.src e
  else if r.db then hostPlan r.kind r.mv r.head e
  else hostPlan (match r.kind with | .rdData => .rd | k => k) .invalid r.head e

/-! ### Sending snoops -/

/-- A BISnp to a head (07 R197, R210). -/
def sendBiSnp (h l : Nat) (k : SnpKind) (evict : Bool) (s : State) : State :=
  ({ s with dir := { s.dir with snoops := s.dir.snoops ++ [⟨h, l, k, s.time.elapsed, evict⟩] } } : State).emit
    (.biSnp h l k)

/-- A chain snoop to a device; a device without a route answers nothing and counts as SACK_NONE (07 R220). -/
def sendChainSnoop (d l opcode : Nat) (evict : Bool) (reqId reqTag grant : Nat) (s : State) : State :=
  if (direction s d).isNone then s
  else
    let f : Frame := {
      vc := 2, opcode := opcode, line := l, ext := opcode == 0x13, code := grant, reqId := reqId, reqTag := reqTag }
    let x : ChainSnoop := ⟨d, l, opcode, s.time.elapsed, evict, reqId, reqTag, grant⟩
    sendTo d f { s with dir := { s.dir with chSnoops := s.dir.chSnoops ++ [x] } }

/-- The snoops of a request or an eviction are answered. -/
def snoopsDone (s : State) (l : Nat) (evict : Bool) : Bool :=
  !(s.dir.snoops.any fun x => x.line == l && x.evict == evict) && !(s.dir.chSnoops.any fun x => x.line == l && x.evict == evict)

/-! ### The pending queue (07 R203, R206, R207) -/

/-- Shared entries in use. -/
def sharedUsed (s : State) : Nat := s.dir.pq.countP fun q => q.reserved.isNone

/-- A host request waits: in a shared entry, or in its head's reserved ones. PENDING_SHARED_FULL when it takes the last. -/
def enqueue (r : Req) (setWait : Bool) (s : State) : State :=
  let shared := decide (sharedUsed s < 1024)
  let q : PqEnt := ⟨r.id, r.line, setWait, if shared then none else some r.head⟩
  let s := ({ s with dir := { s.dir with pq := s.dir.pq ++ [q] } } : State).setSt r.id .queued
  if shared && decide (sharedUsed s = 1024) && s.dir.fullFree && !s.dir.fullWindow then
    let m := (List.range 8).foldl (fun a h => a + b2n (s.dir.pq.any fun q => q.reserved == some h) * 2 ^ h) 0
    raiseAll 131 0 (le 1 m) { s with dir := { s.dir with fullFree := false, fullWindow := true } }
  else s

/-- A waiting request leaves the pending queue. -/
def dequeue (rid : Nat) (s : State) : State :=
  let was := s.dir.pq.any fun q => q.rid == rid && q.reserved.isNone
  { s with dir := { s.dir with pq := s.dir.pq.filter (·.rid != rid), fullFree := s.dir.fullFree || was } }

/-! ### Grants -/

/-- The request acts: it goes to the page map stage (01 R11 step 5); nothing for a request whose head was reset and that only
waited (07 R209), nor where the owner answers the requester (R216). -/
def actOn (r : Req) (s : State) : State :=
  let s := s.modTxn r.id fun t => { t with started := true }
  let fwd := (txnOf s r.id).any (·.forwarded)
  if fwd || (r.dead && !r.kind.isWrite) then retireReq r s else mapStage r.id s

/-- A transaction whose snoops and eviction are done goes on. -/
def tryStart (rid : Nat) (s : State) : State :=
  match txnOf s rid, s.req? rid with
  | some t, some r =>
    if !t.started && r.st == .snoops && snoopsDone s t.line false && t.evict.isNone then actOn r s else s
  | _, _ => s

/-- An eviction record whose snoops are answered is freed, and the request that waited for it goes on (07 R205). -/
def tryEvictDone (l : Nat) (s : State) : State :=
  if s.dir.evict.contains l && snoopsDone s l true then
    let s : State := { s with dir := { s.dir with evict := s.dir.evict.erase l } }
    match s.dir.txns.find? fun t => t.evict == some l with
    | some t => tryStart t.rid (s.modTxn t.rid fun t => { t with evict := none })
    | none => s
  else s

/-- The victim of a full set (07 R205): the least recently used way that is not busy and has no chain presence, failing
that the least recently used that is not busy. -/
def victim (s : State) (set : Nat) : Option Nat :=
  let l := (wayEnts s set).filter fun x => !x.2.busy
  let a := l.filter fun x => x.2.chain.isEmpty
  let pick : List (Nat × DirEnt) → Option Nat := fun l =>
    (l.foldl (fun (b : Option (Nat × DirEnt)) x => match b with
      | none => some x
      | some y => if x.2.used < y.2.used then some x else some y) none).map (·.1)
  (pick a).or (pick l)

/-- Move a line to an eviction record and withdraw its copies. -/
def evictLine (l : Nat) (s : State) : State :=
  let e := s.dirEnt l
  let s : State := { s with dir := { s.dir with ents := adel s.dir.ents l, evict := s.dir.evict ++ [l] } }
  let s := (headsOf e.pres).foldl (fun t h => sendBiSnp h l .inv true t) s
  (snoopDevs s e).foldl (fun t d => sendChainSnoop d l 0x10 true 0 0 0 t) s

/-- Send the snoops of a plan. In forwarding mode a device in Any gets SFWD for a chain request (07 R216). -/
def sendSnoops (r : Req) (e : DirEnt) (pl : Plan) (s : State) : State :=
  match pl.snp with
  | none => s
  | some k =>
    let heads := (headsOf e.pres).filter fun h => r.isChain || h != r.head
    let s := heads.foldl (fun t h => sendBiSnp h r.line k false t) s
    let devs := (snoopDevs s e).filter fun d => !r.isChain || d != r.src
    let fwd := r.isChain && r.kind.isRead && s.chain.forwarding && e.st == .any && !devs.isEmpty
      && devs.all fun d => (direction s d).isSome
    if fwd then
      let s := s.modTxn r.id fun t => { t with forwarded := true }
      devs.foldl (fun t d => sendChainSnoop d r.line 0x13 false r.src r.tag pl.grant t) s
    else devs.foldl (fun t d => sendChainSnoop d r.line pl.opcode false 0 0 0 t) s

/-- Grant a request (07 R197, R203, R215): the pointer moves past its requester, the entry becomes busy unless nothing but
its own head's presence goes, snoops are sent. DESIGN CHOICE: a write or an invalidation by the only Shared holder, which leaves
the line with no holder, is such a removal, as R197's general sentence has it; its list names the Any holder only (log 66). -/
def grant (r : Req) (s : State) : State :=
  let l := r.line
  let e := s.dirEnt l
  let pl := planOf r e
  let n : DirEnt := { e with st := pl.st, pres := pl.pres, chain := pl.chain, used := s.dir.cycle }
  let snoops := pl.snp.isSome
  let changes := n.st != e.st || n.pres != e.pres || n.chain != e.chain
  let removal := !snoops && (n.pres &&& ~~~ e.pres) == 0 && (n.pres != e.pres || n.chain != e.chain)
    && (n.st == e.st || n.st == .invalid) && n.chain.all e.chain.contains
  let s : State := { s with dir := { s.dir with
    ptr := (r.head + 1) % 10, cycle := s.dir.cycle + 1
    resv := s.dir.resv.filter fun x => x.line != l || x.src != r.src || x.tag != r.tag || !r.isChain } }
  let s := s.modReq r.id fun r => { r with resp := pl.resp, grant := pl.grant, ordered := !r.isChain, st := .snoops }
  let r := { r with resp := pl.resp, grant := pl.grant, ordered := !r.isChain, st := .snoops }
  if !snoops && (!changes || removal) then
    actOn r (if e.isFree && n.isFree then s else setDirEnt l n.tidy s)
  else
    let txn : Txn := { line := l, rid := r.id, st := pl.st, pres := pl.pres, chain := pl.chain }
    let s := setDirEnt l { e with busy := true, used := s.dir.cycle } s
    let s : State := { s with dir := { s.dir with txns := s.dir.txns ++ [txn] } }
    sendSnoops r e pl s

/-- Refuse a chain request (07 R208, R218); a PRIORITY request takes a reservation if one is free (R219). -/
def nak (r : Req) (reason : Nat) (s : State) : State :=
  let take := r.priority && reason != 3 && decide (s.dir.resv.length < 64)
    && !(s.dir.resv.any fun x => x.line == r.line)
  let s : State := if take then { s with dir := { s.dir with resv := s.dir.resv ++ [⟨r.line, r.src, r.tag, none⟩] } } else s
  dropReq r.id (respondNak r reason s)

/-- Another requester holds a running reservation of the line (07 R219). -/
def reservedOther (s : State) (r : Req) : Bool :=
  s.dir.resv.any fun x => x.line == r.line && (!r.isChain || x.src != r.src || x.tag != r.tag) &&
    (match x.ends with | some e => decide (s.time.elapsed < e) | none => false)

/-- The line is busy: an open transaction or an eviction record (07 R203, R205). -/
def lineBusy (s : State) (l : Nat) : Bool := (s.dirEnt l).busy || s.dir.evict.contains l

/-- The request needs a way it does not have: it leaves presence or opens a transaction on a line without an entry. -/
def needsWay (s : State) (r : Req) : Bool :=
  (aget s.dir.ents r.line).isNone &&
    (let pl := planOf r (s.dirEnt r.line)
     pl.pres != 0 || !pl.chain.isEmpty)

/-- A granted request that needs a way takes one (07 R205, R206). -/
def grantWithWay (r : Req) (s : State) : State :=
  if needsWay s r then
    let set := dirSet r.line
    if (wayEnts s set).length < 16 then tryStart r.id (grant r s)
    else match victim s set with
      | some v =>
        if s.dir.evict.length < 512 then
          let s := grant r (evictLine v s)
          let s := s.modTxn r.id fun t => { t with evict := some v }
          tryEvictDone v (tryStart r.id s)
        else
          let s := raiseAll 132 0 (le 4 set) s
          if r.isChain then nak r 1 s else enqueue r true s
      | none => if r.isChain then nak r 1 s else enqueue r true s
  else tryStart r.id (grant r s)

/-- The oldest waiter of a line is granted when the line is not busy (07 R203); one that waits for a way of its set is not
passed. -/
def grantWaiter (l : Nat) (s : State) : State :=
  match s.dir.pq.find? fun q => q.line == l with
  | some q =>
    if q.setWait then s
    else match s.req? q.rid with
      | some r => if lineBusy s l || reservedOther s r then s else grantWithWay r (dequeue q.rid s)
      | none => dequeue q.rid s
  | none => s

/-- A request that passed step 3 reaches the directory (01 R11 step 4; 07 R192, R198, R203, R208): waiters of the line come
first. DESIGN CHOICE: an EVICT that finds its line busy is refused with NAK, as R208 says of every chain request, though R213
gives EVICT no reply (log 66). -/
def dirAccess (rid : Nat) (s : State) : State :=
  match s.req? rid with
  | none => s
  | some r =>
    let s := eccOp 0x06 (some 128) 129 (le 4 (dirSet r.line) ++ le 1 0) s
    match s.req? rid with
    | none => s
    | some r =>
      let priv := (rangeAt s (64 * r.line)).any fun k => (s.range k).priv
      let wb := !r.isChain && r.kind.isWrite && s.dir.snoops.any fun x => x.head == r.head && x.line == r.line
      if priv then (if r.isChain then dropReq rid (refuseReq r s) else mapStage rid s)
      else if wb then mapStage rid s
      else if r.isChain && s.chain.fenced.contains r.src then nak r 3 s
      else
        let s := grantWaiter r.line s
        if lineBusy s r.line || s.dir.pq.any (·.line == r.line) then (if r.isChain then nak r 0 s else enqueue r false s)
        else if reservedOther s r then (if r.isChain then nak r 2 s else enqueue r false s)
        else grantWithWay r s

/-- The oldest waiter of a set is tried again (07 R206): it takes the way that came free. Where its line is busy or reserved by
now, it waits for that in its place. -/
def retrySet (set : Nat) (s : State) : State :=
  match s.dir.pq.find? fun q => q.setWait && dirSet q.line == set with
  | some q =>
    let free := decide ((wayEnts s set).length < 16) || ((victim s set).isSome && decide (s.dir.evict.length < 512))
    if !free then s
    else match s.req? q.rid with
      | some r =>
        if lineBusy s q.line || reservedOther s r then
          let onLine : PqEnt → PqEnt := fun x => if x.rid = q.rid then { x with setWait := false } else x
          { s with dir := { s.dir with pq := s.dir.pq.map onLine } }
        else grantWithWay r (dequeue q.rid s)
      | none => dequeue q.rid s
  | none => s

/-! ### Answers to snoops (07 R201) -/

/-- The transaction a snoop answer belongs to. -/
def txnOn (s : State) (l : Nat) : Option Txn := s.dir.txns.find? (·.line == l)

/-- A head no longer holds a line, or still does, after its answer. -/
def keepHead (h l : Nat) (keep : Bool) (s : State) : State :=
  match txnOn s l with
  | some t => if keep then s.modTxn t.rid fun t => { t with kept := t.kept ||| headBit h } else s
  | none => s

/-- A snoop of head `h` is answered. -/
def answerSnoop (x : SnoopOut) (rsp : BiRspKind) (s : State) : State :=
  let s : State := { s with dir := { s.dir with snoops := s.dir.snoops.erase x } }
  let l := x.line
  let again : State → State := fun s => sendBiSnp x.head l .inv x.evict s
  let s := match rsp, x.kind with
    | .i, _ | .s, .inv => s
    | .e, .inv | .e, .data => again s
    | .s, .data | .e, .cur | .s, .cur => keepHead x.head l true s
  if x.evict then tryEvictDone l s
  else match txnOn s l with
    | some t => tryStart t.rid s
    | none => s

/-- A write of the head to the line that its sluice still holds is ordered before the answer (07 R198). -/
def flushWrites (h l : Nat) (s : State) : State :=
  let ws := s.req.reqs.filter fun r => r.head == h && r.line == l && r.kind.isWrite && r.st == .sluice
  ws.foldl (fun t r =>
    let i := 8 * r.head + r.cls
    let front := ((t.sluice i).queue.head?.map (·.rid)) == some r.id
    let t := t.modSluice i fun x => { x with queue := x.queue.filter (·.rid != r.id) }
    let t : State := { t with slu := { t.slu with waiting := t.slu.waiting.filter fun w => w.2.rid != r.id } }
    mapStage r.id (if front then colourFront i false t else t)) s

/-- BI_RSP: an answer to no snoop is discarded (07 R201). -/
def biRsp (h l : Nat) (rsp : BiRspKind) (s : State) : State :=
  match s.dir.snoops.find? fun x => x.head == h && x.line == l with
  | some x => answerSnoop x rsp (flushWrites h l s)
  | none => s

/-- A device's answer to a chain snoop (07 R213, R215, R216): written-back data goes to memory before the response; a device
that keeps a copy stays a holder where the snoop allows it. -/
def chainAnswer (d l : Nat) (keeps : Bool) (data : Option Line) (s : State) : State :=
  match s.dir.chSnoops.find? fun x => x.dev == d && x.line == l with
  | some x =>
    let s : State := { s with dir := { s.dir with chSnoops := s.dir.chSnoops.erase x } }
    let s := match data with
      | some v => writeLineNow l (lineBytes v) false s
      | none => s
    let may := x.opcode == 0x11 || x.opcode == 0x12 || (x.opcode == 0x13 && x.grant != 2)
    if x.evict then tryEvictDone l s
    else match txnOn s l with
      | some t =>
        let s := if keeps && may then s.modTxn t.rid fun t =>
          { t with keptDev := if t.keptDev.contains d then t.keptDev else t.keptDev ++ [d] } else s
        tryStart t.rid s
      | none => s
  | none => s

/-! ### Lost heads (07 R209) -/

/-- A head's presence leaves an entry; an entry in Any by it becomes Invalid. -/
def DirEnt.dropHead (h : Nat) (e : DirEnt) : DirEnt := { e with pres := e.pres &&& ~~~ (headBit h) }.tidy

/-- Take the requests of a list out of the sluices. -/
def unqueue (rids : List Nat) (s : State) : State :=
  (List.range 128).foldl (fun t i =>
    let q := (t.sluice i).queue
    if q.any fun x => rids.contains x.rid then
      let front := ((q.head?.map (·.rid)).any rids.contains)
      let t := t.modSluice i fun x => { x with queue := x.queue.filter fun y => !rids.contains y.rid }
      if front then colourFront i false t else t
    else t) { s with slu := { s.slu with waiting := s.slu.waiting.filter fun w => !rids.contains w.2.rid } }

/-- A head goes down or is reset (07 R209; 09 R265, R266): its reads are discarded and its writes carried out without an
answer, its presence is removed, its unanswered snoops count as BIRspI. DESIGN CHOICE: a write that waits in the pending queue is
carried out, by the second point of R209, and not discarded by its third (log 66). -/
def dropHeadDir (h : Nat) (s : State) : State :=
  let mine := s.req.reqs.filter fun r => r.head == h
  let s := mine.foldl (fun t r => t.modReq r.id fun r => { r with dead := true }) s
  let f : Txn → Txn := fun t => { t with pres := t.pres &&& ~~~ (headBit h), kept := t.kept &&& ~~~ (headBit h) }
  let ents := (s.dir.ents.map fun x => (x.1, x.2.dropHead h)).filter fun x => !x.2.isFree
  let s : State := { s with dir := { s.dir with
    ents := ents, txns := s.dir.txns.map f, conflicts := s.dir.conflicts.filter fun c => c.1 != h } }
  let gone := mine.filter fun r => !r.kind.isWrite && r.st != .snoops && (match r.st with | .remote _ => false | _ => true)
  let s := unqueue (gone.map (·.id)) s
  let s := gone.foldl (fun t r => dropReq r.id (endTxn r.id (dequeue r.id t))) s
  let s := s.modHead h fun x => { x with late := [] }
  let xs := s.dir.snoops.filter fun x => x.head == h
  xs.foldl (fun t x => answerSnoop x .i t) s

/-! ### Unreachable devices (07 R220) -/

/-- The holders of an entry once a device cannot be reached (07 R214, R220): in a grouped vector its bit is kept while another
device of its group is reachable, which then stands for the group. -/
def holdersWithout (s : State) (d : Nat) (e : DirEnt) : List Nat :=
  let rest := e.chain.filter (· != d)
  let hi := s.chain.highest
  let g := (hi + 64) / 64
  if !e.chain.contains d || e.st == .any || decide (hi < 64) || hi == 0xFFF || rest.any fun x => x / g == d / g then rest
  else match (List.range (hi + 1)).find? fun x => x / g == d / g && x != d && x != s.chain.id && (direction s x).isSome with
    | some x => rest ++ [x]
    | none => rest

/-- A device leaves every chain presence record (07 R220). -/
def dropDevice (d : Nat) (s : State) : State :=
  let e : Nat × DirEnt → Nat × DirEnt := fun x => (x.1, { x.2 with chain := holdersWithout s d x.2 }.tidy)
  let f : Txn → Txn := fun t => { t with
    chain := t.chain.filter (· != d), keptDev := t.keptDev.filter (· != d) }
  let s : State := { s with dir := { s.dir with
    ents := (s.dir.ents.map e).filter fun x => !x.2.isFree, txns := s.dir.txns.map f
    resv := s.dir.resv.filter fun x => x.src != d } }
  let gone := s.req.reqs.filter fun r => r.isChain && r.src == d && (txnOf s r.id).isNone &&
    (match r.st with | .sluice | .queued => true | _ => false)
  let s := unqueue (gone.map (·.id)) s
  gone.foldl (fun t r => dropReq r.id t) s

/-- Unanswered chain snoops to a device count as SACK_NONE; where one was SFWD the home answers the requester with DATA
from memory (07 R220, R221). -/
def failSnoops (d : Nat) (s : State) : State :=
  (s.dir.chSnoops.filter fun x => x.dev == d).foldl (fun t x =>
    let t := if x.opcode = 0x13 then
        (match txnOn t x.line with
         | some y => t.modTxn y.rid fun y => { y with forwarded := false }
         | none => t)
      else t
    chainAnswer d x.line false none t) s

end Sys2Proof.Machine
end

