-- ==== Sys2Proof/Machine/Visitor.lean ====
section
/-! DEFINITION. Remote windows at the origin: remote operations, the visitor cache and its heads, snoops from homes, tandem
mirroring, and what a lost or regained route does (01 R28, R35; 04 R127, R128; 07 R211-R221; 13 R354-R368). -/

namespace Sys2Proof.Machine

/-! ### Windows -/

/-- A head, or a job, which reaches a remote line as a requester of this device (05 R149). -/
def Req.isLocal (r : Req) : Bool := decide (r.head < 8) || r.head == 14

/-- Lines of one GiB. -/
def gibLines : Nat := 2 ^ 24

/-- The span on this device covers a line. -/
def Window.covers (w : Window) (l : Nat) : Bool :=
  decide (w.localGib * gibLines ≤ l) && decide (l < (w.localGib + w.sizeGib) * gibLines)

/-- The import whose span holds a line: index and window (13 R354). -/
def importOf (s : State) (l : Nat) : Option (Nat × Window) := s.chain.imports.find? fun x => x.2.covers l

/-- The line at the home (13 R354). -/
def homeLine (w : Window) (l : Nat) : Nat := l - w.localGib * gibLines + w.homeGib * gibLines

/-! ### Remote operations (07 R211, R218; 13 R362) -/

def Remote.isWrite (x : Remote) : Bool := x.opcode == 0x04 || x.opcode == 0x05

/-- TAG of the header: for a write the low bits of WTAG, which overlays it (12 R325). -/
def Remote.headerTag (x : Remote) : Nat := if x.isWrite then x.wtag % 4096 else x.tag

/-- The request frame; PRIORITY from the eighth NAK on (07 R218). -/
def Remote.frame (x : Remote) : Frame := {
  vc := 0, opcode := x.opcode, cls := x.cls, line := x.line, tag := x.headerTag
  wtag := if x.isWrite then x.wtag else 0
  pl := x.isWrite, payload := if x.isWrite then x.data else 0, poison := x.poison
  ext := x.opcode == 0x05, mask := if x.opcode = 0x05 then x.mask else 0, priority := decide (8 ≤ x.naks) }

def State.remote? (s : State) (tag : Nat) : Option Remote := s.chain.remotes.find? (·.tag == tag)

def State.modRemote (s : State) (tag : Nat) (f : Remote → Remote) : State :=
  s.modChain fun c => { c with remotes := c.remotes.map fun x => if x.tag = tag then f x else x }

def dropRemote (tag : Nat) (s : State) : State :=
  s.modChain fun c => { c with remotes := c.remotes.filter (·.tag != tag) }

/-- A tandem write waits while an earlier write of its line awaits WACK (13 R366). -/
def earlierWrite (s : State) (x : Remote) : Bool :=
  (s.chain.remotes.takeWhile (·.tag != x.tag)).any fun y => y.isWrite && y.home == x.home && y.line == x.line

/-- Send a remote operation, unless it has no route or waits behind an earlier write. -/
def sendRemote (tag : Nat) (s : State) : State :=
  match s.remote? tag with
  | some x =>
    if (direction s x.home).isNone || (x.isWrite && earlierWrite s x) then s
    else
      let now := s.time.elapsed
      sendTo x.home x.frame (s.modRemote tag fun y => { y with sent := some (y.sent.getD now) })
  | none => s

/-- A request tag is free: the header has room for 4,096 (12 R325). -/
def readTag (s : State) : Option Nat :=
  ((List.range 4096).map fun i => (s.chain.nextTag + i) % 4096).find? fun t => !(s.chain.remotes.any fun x => x.tag == t)

/-- The next write tag not outstanding (12 R325). -/
def writeTag (s : State) : Nat :=
  (((List.range (s.chain.remotes.length + 1)).map fun i => (s.chain.nextWtag + i) % 2 ^ 21).find? fun t =>
    !(s.chain.remotes.any fun x => x.tag == 4096 + t)).getD 0

/-- Open a remote operation: its tag, or write tag, and its first transmission. `tag` names it in the model: the request tag,
or 4,096 and the write tag. -/
def openRemote (x : Remote) (s : State) : Nat × State :=
  if x.isWrite then
    let w := writeTag s
    let y := { x with tag := 4096 + w, wtag := w, since := s.time.elapsed, sent := none }
    (y.tag, sendRemote y.tag (s.modChain fun c => { c with
      remotes := c.remotes ++ [y], nextWtag := (w + 1) % 2 ^ 21 }))
  else
    let t := (readTag s).getD 0
    let y := { x with tag := t, since := s.time.elapsed, sent := none }
    (t, sendRemote t (s.modChain fun c => { c with remotes := c.remotes ++ [y], nextTag := (t + 1) % 4096 }))

/-- The next write of a line that waited is sent (13 R366). -/
def pumpLine (home line : Nat) (s : State) : State :=
  match s.chain.remotes.find? fun x => x.isWrite && x.home == home && x.line == line && x.sent.isNone with
  | some x => sendRemote x.tag s
  | none => s

/-! ### The visitor cache (07 R212, R213; 13 R359, R360) -/

def State.vline (s : State) (own : Nat) : Option VLine := s.chain.visitor.find? (·.own == own)

def State.modV (s : State) (own : Nat) (f : VLine → VLine) : State :=
  s.modChain fun c => { c with visitor := c.visitor.map fun x => if x.own = own then f x else x }

/-- The line as a directory entry for the heads of this device (07 R213). -/
def visitorEnt (s : State) (own : Nat) : DirEnt :=
  match s.vline own with
  | some x => { st := if x.anyHead.isSome then .any else if x.pres = 0 then .invalid else .shared, pres := x.pres }
  | none => {}

/-- 0 VI, 2 VS, 3 VA. -/
def visitorLevel (s : State) (own : Nat) : Nat :=
  match s.vline own with
  | none => 0
  | some x => match x.st with | .shared => 2 | .any => 3

/-- A head stops holding a line of the visitor cache. -/
def dropHeadV (h own : Nat) (s : State) : State :=
  s.modV own fun x => { x with
    pres := x.pres &&& ~~~ (headBit h), anyHead := if x.anyHead = some h then none else x.anyHead }

/-- A request of a head as the visitor serves it: a head without HDM-DB service holds nothing (07 R193), and a visitor in VS
cannot give Any for MemRdData. -/
def visitorReq (s : State) (r : Req) : Req :=
  let k : ReqKind := match r.kind with | .rdData => .rd | k => k
  if !r.db then { r with kind := k, mv := .invalid, ordered := false }
  else if r.kind = .rdData ∧ visitorLevel s r.line = 2 then { r with kind := .rd, mv := .shared, ordered := true }
  else { r with ordered := true }

/-- What a request needs of the visitor: 0 nothing, 1 the current value, 2 VS, 3 VA (07 R213). -/
def visitorNeed (r : Req) : Nat :=
  match r.kind, r.mv with
  | .rd, .any | .inv, .any | .wr, .any | .wrPtl, .any => 3
  | .rd, .shared | .inv, .shared | .wr, .shared | .wrPtl, .shared | .rdData, _ => 2
  | .rd, .invalid => 1
  | .inv, .invalid | .invNt, _ | .clnEvct, _ | .wr, .invalid | .wrPtl, .invalid => 0
  | .rds, _ | .rda, _ | .rdcur, _ | .evict, _ => 0

/-- What a served request leaves of its line's presence (07 R197). -/
def visitorPresence (r : Req) (pl : Plan) (s : State) : State :=
  let now := s.chain.vclock
  let cur := pl.snp == some .cur
  let f : VLine → VLine := fun x => { x with
    used := now, pres := if cur then x.pres else pl.pres
    anyHead := if cur then x.anyHead else if pl.st = .any then (if pl.pres = x.pres then x.anyHead.or (some r.head) else some r.head)
      else none }
  (s.modV r.line f).modChain fun c => { c with vclock := c.vclock + 1 }

/-! ### Answers to heads -/

/-- A head's request leaves the visitor. -/
def visitorDone (r : Req) (s : State) : State := conflictAcks r (dropReq r.id s)

/-- A read of a remote line returns poison (13 R363, R365). -/
def visitorPoison (r : Req) (s : State) : State := visitorDone r (respondRead { r with ordered := false } 0 true s)

/-- REMOTE_NO_ROUTE, once in a regulation window for each home (13 R363). -/
def raiseNoRoute (idx home : Nat) (s : State) : State :=
  if s.chain.noRoute.contains home then s
  else raiseAll 306 0 (le 2 home ++ le 1 idx) (s.modChain fun c => { c with noRoute := home :: c.noRoute })

/-- WINDOW_LOST, when a request of a window is refused (13 R358). -/
def raiseWindowLost (idx home : Nat) (s : State) : State :=
  if s.chain.lost.contains idx then s
  else raiseAll 308 0 (le 1 idx ++ le 2 home) (s.modChain fun c => { c with lost := idx :: c.lost })

/-- Open the remote operation of a head's request. -/
def startRemoteReq (r : Req) (idx : Nat) (w : Window) (opcode : Nat) (s : State) : State :=
  let x : Remote := {
    tag := 0, why := .req r, opcode := opcode, home := w.peer, line := homeLine w r.line, own := r.line, window := idx
    wtag := 0, cls := r.cls, data := r.data, mask := if opcode = 0x05 then r.mask else BitVec.allOnes 64
    poison := r.poison && r.kind.isWrite, since := 0, sent := none, naks := 0, retryAt := none, held := none }
  let t := openRemote x s
  t.2.setSt r.id (.remote t.1)

/-! ### Serving a head (07 R213; 13 R360) -/

/-- Snoops of a home, or a line being dropped, are under way on an own line. -/
def vsnoopOn (s : State) (own : Nat) : Bool :=
  match s.vline own with
  | some x => s.chain.vsnoops.any fun v => v.frame.src == x.home && v.frame.line == x.line
  | none => false

/-- The line is busy for a head's request: a remote operation or a snoop of its line is outstanding (01 R35). -/
def visitorBusy (s : State) (r : Req) (snooped : Bool) : Bool :=
  s.chain.remotes.any (fun x => x.own == r.line && (match x.why with | .req y => y.id != r.id | _ => false))
    || vsnoopOn s r.line
    || s.req.reqs.any (fun x => x.id != r.id && x.line == r.line && x.isLocal && x.st == .snoops)
    || (!snooped && s.dir.snoops.any fun x => x.line == r.line)

/-- The request acts once no head of the device stands in its way. -/
def visitorAct (r : Req) (idx : Nat) (w : Window) (pl : Plan) (s : State) : State :=
  let lvl := visitorLevel s r.line
  let need := visitorNeed r
  if (need = 1 ∧ lvl = 0) ∨ (2 ≤ need ∧ lvl < need) then
    if (direction s w.peer).isNone then
      if r.kind.isRead then visitorPoison r (raiseNoRoute idx w.peer s)
      else if r.kind.isWrite then
        startRemoteReq { r with mv := .invalid } idx w (if r.kind = .wrPtl then 0x05 else 0x04)
          (s.modReq r.id fun r => { r with mv := .invalid })
      else visitorDone r (respondNdr { r with resp := .cmp } s)
    else if (readTag s).isNone then s.setSt r.id .queued
    else startRemoteReq r idx w (if need = 3 then 0x02 else if need = 2 then 0x01 else 0x03) s
  else if r.kind.isWrite then startRemoteReq r idx w (if r.kind = .wrPtl then 0x05 else 0x04) s
  else
    let v := s.vline r.line
    let s := visitorPresence r pl s
    let r := { r with resp := pl.resp }
    if r.kind.isRead then visitorDone r (respondRead r ((v.map (·.data)).getD 0) ((v.map (·.poison)).getD false) s)
    else visitorDone r (respondNdr r s)

/-- A snoop writeback (07 R198, R213): it becomes the data of the home's snoop under way, or a remote write. -/
def visitorWriteback (r : Req) (idx : Nat) (w : Window) (s : State) : State :=
  let hl := homeLine w r.line
  let due : VSnoop → Bool := fun v =>
    v.frame.src == w.peer && v.frame.line == hl && v.frame.opcode != 0x06 && v.wait == 0
  if s.chain.vsnoops.any due then
    let old := (s.vline r.line).map (·.data) |>.getD 0
    let d : Line := BitVec.ofNat 512 (ofLe (mergeLine old r.data (if r.kind = .wrPtl then r.mask else BitVec.allOnes 64)) 0 64)
    let f : VSnoop → VSnoop := fun v => if due v then { v with data := some d } else v
    let s := s.modChain fun c => { c with vsnoops := c.vsnoops.map f }
    let s := s.modV r.line fun x => { x with data := d, poison := r.poison }
    let s := if r.mv = .invalid then dropHeadV r.head r.line s else s
    visitorDone r (respondNdr r s)
  else startRemoteReq r idx w (if r.kind = .wrPtl then 0x05 else 0x04) s

/-- Step 3 of a head's request in an import's span (01 R28, R35; 13 R360, R365); `snooped` once its snoops to other heads are
answered. -/
def visitorStage (rid : Nat) (snooped : Bool) (s : State) : State :=
  match s.req? rid with
  | none => s
  | some r =>
    match importOf s r.line with
    | none => s
    | some (idx, w) =>
      let wb := r.kind.isWrite && s.dir.snoops.any fun x => x.head == r.head && x.line == r.line
      if wb then visitorWriteback r idx w s
      else if visitorBusy s r snooped then s.setSt rid (if snooped then .snoops else .queued)
      else
        let r := visitorReq s r
        if r.kind.isRead && (s.chain.undelivered.contains r.line || w.poisoned) then visitorPoison r s
        else
          let e := visitorEnt s r.line
          let pl := hostPlan r.kind r.mv r.head e
          let others := if pl.snp.isSome && !snooped then (headsOf e.pres).filter (· != r.head) else []
          if others.isEmpty then visitorAct r idx w pl s
          else others.foldl (fun t h => sendBiSnp h r.line (pl.snp.getD .inv) false t) (s.setSt rid .snoops)

/-! ### Snoops from a home, and lines dropped (07 R213, R216, R217; 13 R358, R359) -/

/-- Own lines of a home's line that the visitor cache holds. -/
def ownsOf (s : State) (home line : Nat) : List Nat :=
  (s.chain.visitor.filter fun x => x.home == home && x.line == line).map (·.own)

/-- The snoop to heads that a chain snoop stands for; SFWD by its GRANT; 0x06, a line that this device drops. -/
def snoopKindOf (f : Frame) : SnpKind :=
  if f.opcode = 0x10 ∨ f.opcode = 0x06 then .inv
  else if f.opcode = 0x11 then .data
  else if f.opcode = 0x12 then .cur
  else if f.code = 2 then .inv else if f.code = 1 then .data else .cur

/-- The heads have answered; a line being dropped also waits for the writes of its snoop writebacks. -/
def vsnoopDone (s : State) (v : VSnoop) : Bool :=
  (ownsOf s v.frame.src v.frame.line).all fun own =>
    !(s.dir.snoops.any fun x => x.line == own)
      && (v.frame.opcode != 0x06 || !(s.chain.remotes.any fun x => x.own == own))

/-- Answer to a home. -/
def sack (f : Frame) (opcode code : Nat) (d : Option Line) (poison : Bool) (s : State) : State :=
  sendTo f.src { vc := 1, opcode := opcode, line := f.line, code := code, pl := d.isSome, payload := d.getD 0, poison := poison } s

/-- The snoop is answered (07 R213, R216): the line's new state, FWD_DATA where the home sent SFWD, and the answer. -/
def finishVSnoop (v : VSnoop) (s : State) : State :=
  let f := v.frame
  let owns := ownsOf s f.src f.line
  let first := (owns.head?.bind s.vline)
  let d := v.data.or (first.map (·.data))
  let poison := (first.map (·.poison)).getD false
  let k := snoopKindOf f
  let keeps := !owns.isEmpty && k != .inv
  let down : VLine → VLine := fun x => if owns.contains x.own then { x with st := .shared, anyHead := none } else x
  let s := s.modChain fun c => { c with
    vsnoops := c.vsnoops.erase v
    visitor := match k with
      | .inv => c.visitor.filter fun x => !owns.contains x.own
      | .data => c.visitor.map down
      | .cur => c.visitor }
  if f.opcode = 0x06 then sendTo f.src { vc := 0, opcode := 0x06, line := f.line } s
  else
    let s := if f.opcode = 0x13 ∧ owns ≠ [] then
        sendTo f.reqId { vc := 1, opcode := 0x21, cls := f.cls, line := f.line, tag := f.reqTag, code := f.code, pl := true,
                         payload := if poison then 0 else d.getD 0, poison := poison } s
      else s
    if v.data.isSome then sack f 0x26 (b2n keeps) v.data poison s
    else sack f (if keeps then 0x25 else 0x24) 0 none false s

/-- The heads a snoop of a visitor line goes to: all that hold it, or the one in Any (07 R213). -/
def snoopedHeads (k : SnpKind) (x : VLine) : List Nat :=
  match k with
  | .inv => headsOf x.pres
  | .data | .cur => x.anyHead.toList

/-- Send the snoops of a home's snoop, or of a line being dropped, to the heads; with none to send it is answered at once. -/
def beginVSnoop (f : Frame) (s : State) : State :=
  let v : VSnoop := ⟨f, 0, false, none⟩
  let k := snoopKindOf f
  let s := s.modChain fun c => { c with vsnoops := c.vsnoops ++ [v] }
  let one : State → Nat → State := fun t own => match t.vline own with
    | some x =>
      (snoopedHeads k x).foldl (fun u h => sendBiSnp h own k false u) t
    | none => t
  let s := (ownsOf s f.src f.line).foldl one s
  if vsnoopDone s v then finishVSnoop v s else s

/-- A head's request or another snoop occupies the line. -/
def vsnoopBlocked (s : State) (f : Frame) : Bool :=
  s.chain.vsnoops.any (fun v => v.frame.src == f.src && v.frame.line == f.line && v.wait == 0)
    || (ownsOf s f.src f.line).any fun own =>
      s.dir.snoops.any (fun x => x.line == own) || s.req.reqs.any fun x => x.line == own && x.isLocal && x.st == .snoops

/-- A chain snoop arrives: it is held while an own read of the line is outstanding (07 R217), and waits its turn behind
another snoop of the line. -/
def visitorSnoop (f : Frame) (s : State) : State :=
  match s.chain.remotes.find? fun x => !x.isWrite && x.home == f.src && x.line == f.line with
  | some x => s.modRemote x.tag fun y => { y with held := some f }
  | none =>
    if vsnoopBlocked s f then s.modChain fun c => { c with vsnoops := c.vsnoops ++ [⟨f, BitVec.allOnes 8, false, none⟩] }
    else beginVSnoop f s

/-- Whatever waited on an own line goes on: snoops that are answered, snoops that may begin, requests in their order. -/
def visitorProgress (own : Nat) (s : State) : State :=
  let home := (s.vline own).map fun x => (x.home, x.line)
  let mine : VSnoop → Bool := fun v => some (v.frame.src, v.frame.line) == home
  let s := (s.chain.vsnoops.filter fun v => mine v && v.wait == 0).foldl (fun t v =>
    if vsnoopDone t v then finishVSnoop v t else t) s
  let s := (s.chain.vsnoops.filter fun v => v.wait != 0).foldl (fun t v =>
    if vsnoopBlocked t v.frame then t
    else beginVSnoop v.frame (t.modChain fun c => { c with vsnoops := c.vsnoops.erase v })) s
  let waiters := s.req.reqs.filter fun r => r.line == own && r.isLocal && (r.st == .snoops || r.st == .queued)
  waiters.foldl (fun t r => match t.req? r.id with
    | some x =>
      if x.st == .snoops then (if t.dir.snoops.any fun y => y.line == own then t else visitorStage r.id true t)
      else if x.st == .queued then visitorStage r.id false t
      else t
    | none => t) s

/-- Drop lines from the visitor cache, invalidating their heads and sending EVICT (07 R213). -/
def dropVLines (l : List VLine) (s : State) : State :=
  l.foldl (fun t x =>
    if t.chain.vsnoops.any fun v => v.frame.src == x.home && v.frame.line == x.line then t
    else beginVSnoop { opcode := 0x06, src := x.home, line := x.line } t) s

/-- An import whose deletion waited for its requests is deleted (13 R358). -/
def closeWindows (s : State) : State :=
  let due := s.chain.imports.filter fun x => x.2.closing && !(s.chain.remotes.any fun r => r.window == x.1)
    && !(s.req.reqs.any fun r => r.isLocal && x.2.covers r.line && (r.st == .queued || r.st == .snoops))
  due.foldl (fun t x =>
    let l := t.chain.visitor.filter fun v => x.2.covers v.own
    dropVLines l (t.modChain fun c => { c with
      imports := adel c.imports x.1, lost := c.lost.filter (· != x.1)
      undelivered := c.undelivered.filter fun o => !x.2.covers o })) s

/-- Set of the visitor cache: 402,653,184 lines in 8 ways (13 R359; the index is the model's, log 19). -/
def visitorSet (line : Nat) : Nat := line % 50331648

/-- A line enters the visitor cache; a full set replaces its least recently used way that has no request outstanding. -/
def insertV (home line own : Nat) (st : VSt) (d : Line) (poison : Bool) (s : State) : State :=
  let now := s.chain.vclock
  let s := s.modChain fun c => { c with vclock := c.vclock + 1 }
  if (s.vline own).isSome then s.modV own fun x => { x with st := st, data := d, poison := poison, used := now }
  else
    let idle := s.chain.visitor.filter fun x => visitorSet x.line == visitorSet line && !vsnoopOn s x.own
    let free := idle.filter fun x => !(s.chain.remotes.any fun r => r.own == x.own)
    let s := if idle.length < 8 then s
      else match free with
        | x :: rest => dropVLines [rest.foldl (fun (a : VLine) b => if b.used < a.used then b else a) x] s
        | [] => s
    s.modChain fun c => { c with visitor := c.visitor ++
      [{ home := home, line := line, own := own, st := st, pres := 0, anyHead := none, data := d, poison := poison, used := now }] }

/-! ### Answers of a home (07 R215, R217; 13 R358, R361) -/

/-- DATA or FWD_DATA answers an outstanding read. -/
def deliverData (x : Remote) (f : Frame) (s : State) : State :=
  let s := dropRemote x.tag s
  let refused := f.code == 0 && x.opcode != 0x03
  let s := if refused then raiseWindowLost x.window x.home s
    else if f.code = 0 then s
    else insertV x.home x.line x.own (if f.code = 2 then .any else .shared) f.payload f.poison s
  let s := match x.why with
    | .req y => (match s.req? y.id with
      | some r =>
        let r := visitorReq s r
        if refused || x.opcode == 0x03 then
          if r.kind.isRead then visitorDone r (respondRead { r with resp := .cmp } f.payload f.poison s)
          else if r.kind.isWrite then visitorStage r.id false (s.modReq r.id fun r => { r with mv := .invalid })
          else visitorDone r (respondNdr { r with resp := .cmp } s)
        else visitorStage r.id false s
      | none => s)
    | .tandem _ _ | .resync _ _ | .clear _ _ => s
  let s := match x.held with
    | some g => visitorSnoop g s
    | none => s
  closeWindows (visitorProgress x.own s)

/-- POISONED of an import clears when no entry of CAUSE 0x05 remains for it (13 R365). -/
def clearPoisoned (s : State) : State :=
  let f : Nat × Window → Nat × Window := fun x =>
    if s.dur.loss.any fun e => e.cause == 5 && x.2.covers (64 * e.page) then x else (x.1, { x.2 with poisoned := false })
  s.modChain fun c => { c with imports := c.imports.map f }

/-- A line leaves the undelivered-line table with its bit in the undelivered-write list (13 R365). -/
def clearUndelivered (own : Nat) (s : State) : State :=
  let s : State := { s with dur := clearLossLine (own / 64) (own % 64) s.dur }
  clearPoisoned (s.modChain fun c => { c with undelivered := c.undelivered.filter (· != own) })

/-- The write of a head completes: its copy in the visitor cache, presence, completion. -/
def completeWrite (x : Remote) (performed : Bool) (s : State) : State :=
  let s := dropRemote x.tag s
  match x.why with
  | .req y =>
    (match s.req? y.id with
    | some r =>
      let r := visitorReq s r
      let old := ((s.vline x.own).map (·.data)).getD 0
      let d : Line := BitVec.ofNat 512 (ofLe (mergeLine old x.data x.mask) 0 64)
      let s := if performed then s.modV x.own fun v => { v with data := d, poison := x.poison } else s
      let s := if performed && x.opcode == 0x04 && s.chain.undelivered.contains x.own then clearUndelivered x.own s else s
      let pl := hostPlan r.kind r.mv r.head (visitorEnt s x.own)
      let s := visitorPresence r pl s
      visitorDone r (respondNdr { r with resp := pl.resp } s)
    | none => s)
  | .tandem _ _ | .resync _ _ | .clear _ _ => s

/-! ### Tandem ranges (04 R127, R128; 13 R366, R368) -/

/-- The tandem setting of the range that holds a page. -/
def tandemOf (s : State) (page : Nat) : Option TandemRange :=
  match rangeAt s (4096 * page) with
  | some r => s.dur.tandem.find? (·.range == r)
  | none => none

def State.modTandem (s : State) (range : Nat) (f : TandemRange → TandemRange) : State :=
  { s with dur := { s.dur with tandem := s.dur.tandem.map fun t => if t.range = range then f t else t } }

/-- The page is marked in the resync bitmap. -/
def markPage (range page : Nat) (s : State) : State :=
  s.modTandem range fun t => { t with marked := if t.marked.contains page then t.marked else t.marked ++ [page] }

/-- The line at the buddy. -/
def buddyLine (s : State) (t : TandemRange) (line : Nat) : Nat :=
  line - (s.range t.range).baseGib * gibLines + t.homeBase * gibLines

/-- Issue a WR of the whole line as it now stands to the buddy (13 R366). -/
def sendTandem (t : TandemRange) (line cls : Nat) (why : RemoteFor) (s : State) : Nat × State :=
  openRemote {
    tag := 0, why := why, opcode := 0x04, home := t.buddy, line := buddyLine s t line, own := line, window := 0xFF
    wtag := 0, cls := cls, data := Memory.readLine s.mem line, mask := BitVec.allOnes 64, poison := linePoison s line
    since := 0, sent := none, naks := 0, retryAt := none, held := none } s

/-- A write has been accepted locally: it completes, or waits for the buddy (04 R127, R128). -/
def finishWrite (r : Req) (s : State) : State :=
  match tandemOf s (r.line / 64) with
  | some t =>
    if t.solo && !t.resyncing then finishNdr r (markPage t.range (r.line / 64) s)
    else
      let u := sendTandem t r.line r.cls (.tandem t.range r.id) s
      u.2.setSt r.id .tandem
  | none => finishNdr r s

/-- The range goes solo (04 R128): cause 0 no route, 1 no acknowledgement; its outstanding writes complete locally, and their
pages are marked. -/
def goSolo (range cause : Nat) (s : State) : State :=
  match s.dur.tandem.find? (·.range == range) with
  | some t =>
    let mine := s.chain.remotes.filter fun x => match x.why with
      | .tandem r _ | .resync r _ => r == range
      | .req _ | .clear _ _ => false
    let s := mine.foldl (fun u x =>
      let u := markPage range (x.own / 64) (dropRemote x.tag u)
      match x.why with
      | .tandem _ rid => (match u.req? rid with | some r => finishNdr r u | none => u)
      | _ => u) s
    let s := s.modTandem range fun t => { t with solo := true, resyncing := false }
    if t.solo then s else raiseAll 314 0 (le 1 range ++ le 1 cause) s
  | none => s

/-- The resync outing of a range. -/
def resyncOuting (s : State) (range : Nat) : Option Outing :=
  s.crity.outings.find? fun o => o.open_ && o.kind == 0x07 && o.subject == range

/-- The bitmap is empty and every copy acknowledged: the range leaves solo (13 R368). -/
def resyncEnd (range : Nat) (s : State) : State :=
  match s.dur.tandem.find? (·.range == range) with
  | some t =>
    let flying := s.chain.remotes.any fun x => match x.why with | .resync r _ => r == range | _ => false
    if t.solo && t.resyncing && t.marked.isEmpty && !flying then
      let o := resyncOuting s range
      let n := (o.map fun o => o.done + o.signalled).getD 0
      let s := s.modTandem range fun t => { t with solo := false, resyncing := false }
      let s := raiseAll 315 0 (le 1 range ++ le 4 n) s
      match o with
      | some o => endOuting o.id 2 0 (s.modOuting o.id fun o => { o with done := o.done + o.signalled, signalled := 0 })
      | none => s
    else s
  | none => s

/-- The buddy can be reached again: the resync outing starts or goes on (04 R128; 13 R368). -/
def startResync (range : Nat) (s : State) : State :=
  match s.dur.tandem.find? (·.range == range) with
  | some t =>
    if t.solo && !t.resyncing then
      let s := s.modTandem range fun t => { t with resyncing := true }
      let s := match resyncOuting s range with
        | some o => s.modOuting o.id fun o => { o with total := o.done + t.marked.length }
        | none => if t.marked.isEmpty then s else openOuting 0x07 0xFF range t.marked.length [] s
      resyncEnd range s
    else s
  | none => s

/-- One step of the resync outing: the mark is cleared, every line of the page is sent (13 R368). -/
def resyncPage (range : Nat) (s : State) : State :=
  match s.dur.tandem.find? (·.range == range) with
  | some t => match t.marked with
    | page :: _ =>
      let s := s.modTandem range fun t => { t with marked := t.marked.erase page }
      (List.range 64).foldl (fun u i => (sendTandem t (64 * page + i) 0 (.resync range page) u).2) s
    | [] => s
  | none => s

/-- WACK of a tandem or resync write. -/
def tandemWack (x : Remote) (s : State) : State :=
  let s := pumpLine x.home x.line (dropRemote x.tag s)
  match x.why with
  | .tandem _ rid => (match s.req? rid with | some r => finishNdr r s | none => s)
  | .resync range page =>
    if s.chain.remotes.any fun y => y.why == .resync range page then s
    else
      let s := match resyncOuting s range with | some o => signalUnits o.id 1 s | none => s
      resyncEnd range s
  | .req _ | .clear _ _ => s

/-! ### CLEAR_LOSS_ENTRY of an undelivered write (13 R365) -/

/-- The command ends: the lines whose WACK has arrived leave the list and the table. -/
def endClear (seq wsc : Nat) (s : State) : State :=
  let out := s.chain.remotes.filterMap fun x => match x.why with
    | .clear q bit => if q = seq then some bit else none
    | _ => none
  let s := s.modChain fun c => { c with remotes := c.remotes.filter fun x =>
    match x.why with | .clear q _ => q != seq | _ => true }
  match s.crity.waiting, s.dur.loss.find? (·.seq == seq) with
  | some (m, op, _, _), some e =>
    let done := (List.range 64).filter fun i => e.mask.getLsbD i && !out.contains i
    finishWaiting m op wsc (done.foldl (fun t i => clearUndelivered (64 * e.page + i) t) s)
  | some (m, op, _, _), none => finishWaiting m op wsc s
  | none, _ => s

/-- A WACK arrives (07 R215; 13 R361, R365, R368). -/
def deliverWack (x : Remote) (s : State) : State :=
  match x.why with
  | .req _ => closeWindows (visitorProgress x.own (completeWrite x true s))
  | .tandem _ _ | .resync _ _ => tandemWack x s
  | .clear seq _ =>
    let s := dropRemote x.tag s
    if s.chain.remotes.any fun y => match y.why with | .clear q _ => q == seq | _ => false then s else endClear seq 0 s

/-! ### Answers of heads to snoops of remote lines (07 R213) -/

/-- The line is one of the visitor's: in an import, or held in the visitor cache. -/
def remoteLine (s : State) (l : Nat) : Bool := (importOf s l).isSome || (s.vline l).isSome

/-- A write of the head that its sluice still holds is ordered before the answer (07 R198). -/
def flushVisitor (h l : Nat) (s : State) : State :=
  let ws := s.req.reqs.filter fun r => r.head == h && r.line == l && r.kind.isWrite && r.st == .sluice
  let s := unqueue (ws.map (·.id)) s
  ws.foldl (fun t r => visitorStage r.id false t) s

/-- A head answers a snoop of a remote line. -/
def visitorAnswer (x : SnoopOut) (rsp : BiRspKind) (s : State) : State :=
  let s : State := { s with dir := { s.dir with snoops := s.dir.snoops.erase x } }
  let s := match rsp, x.kind with
    | .i, _ | .s, .inv => dropHeadV x.head x.line s
    | .e, .inv | .e, .data => sendBiSnp x.head x.line .inv false s
    | .s, .data | .s, .cur =>
      s.modV x.line fun v => { v with anyHead := if v.anyHead = some x.head then none else v.anyHead }
    | .e, .cur => s
  closeWindows (visitorProgress x.line s)

/-- BI_RSP (07 R201): an answer to no snoop is discarded. -/
def headRsp (h l : Nat) (rsp : BiRspKind) (s : State) : State :=
  match s.dir.snoops.find? fun x => x.head == h && x.line == l with
  | some x => if remoteLine s l then visitorAnswer x rsp (flushVisitor h l s) else biRsp h l rsp s
  | none => s

/-- A head goes down or is reset: the directory's part, and its presence in the visitor cache (07 R209). -/
def dropHead (h : Nat) (s : State) : State :=
  let lines := (s.dir.snoops.filter fun x => x.head == h && remoteLine s x.line).map (·.line)
  let s := dropHeadDir h s
  let s := s.modChain fun c => { c with visitor := c.visitor.map fun x => { x with
    pres := x.pres &&& ~~~ (headBit h), anyHead := if x.anyHead = some h then none else x.anyHead } }
  lines.foldl (fun t l => visitorProgress l t) s

/-! ### Routes lost and regained (07 R220, R221; 13 R356, R363, R368) -/

/-- The visitor half of R220: the lines of a home are invalidated with BISnpInv to their heads. -/
def visitorLose (home : Nat) (s : State) : State :=
  let l := s.chain.visitor.filter (·.home == home)
  let free : Remote → Remote := fun x => if x.home = home then { x with held := none } else x
  let s := s.modChain fun c => { c with
    visitor := c.visitor.filter (·.home != home), vsnoops := c.vsnoops.filter (·.frame.src != home)
    remotes := c.remotes.map free }
  let s := l.foldl (fun t x => (headsOf x.pres).foldl (fun u h =>
    if u.dir.snoops.any fun y => y.head == h && y.line == x.own then u else sendBiSnp h x.own .inv false u) t) s
  l.foldl (fun t x => visitorProgress x.own t) s

/-- Outstanding reads to a home return poison (13 R363). -/
def failReads (home : Nat) (s : State) : State :=
  let l := s.chain.remotes.filter fun x => x.home == home && !x.isWrite
  l.foldl (fun t x =>
    let t := dropRemote x.tag t
    match x.why with
    | .req y => (match t.req? y.id with
      | some r =>
        let t := if r.kind.isRead then visitorPoison r t
          else if r.kind.isWrite then visitorStage r.id false (t.modReq r.id fun r => { r with mv := .invalid })
          else visitorDone r (respondNdr { r with resp := .cmp } t)
        visitorProgress x.own t
      | none => t)
    | _ => t) s

/-- The last route to a device is lost (07 R220; 04 R128; 13 R356, R363). -/
def loseRoute (d : Nat) (s : State) : State :=
  let s := dropDevice d (failSnoops d s)
  let s := failReads d (visitorLose d s)
  let s := (s.dur.tandem.filter (·.buddy == d)).foldl (fun t x => goSolo x.range 0 t) s
  match s.chain.wait, s.crity.waiting with
  | some w, some (m, op, _, _) =>
    if w.peer = d then finishWaiting m op 0x0508 (s.modChain fun c => { c with wait := none }) else s
  | _, _ => s

/-- A device can be reached again: writes that waited are sent, tandem ranges resynchronise. -/
def gainRoute (d : Nat) (s : State) : State :=
  let l := s.chain.remotes.filter fun x => x.home == d && x.sent.isNone
  let s := l.foldl (fun t x => sendRemote x.tag t) s
  (s.dur.tandem.filter (·.buddy == d)).foldl (fun t x => startResync x.range t) s

/-- Devices this one has dealings with. -/
def chainPeers (s : State) : List Nat :=
  (s.chain.imports.map (·.2.peer) ++ s.dur.tandem.map (·.buddy) ++ (s.dir.ents.map (·.2.chain)).flatten
    ++ s.dir.chSnoops.map (·.dev) ++ (s.req.reqs.filter (·.isChain)).map (·.src) ++ s.chain.remotes.map (·.home)
    ++ (s.dir.txns.map fun t => t.chain ++ t.keptDev).flatten
    ++ s.chain.wait.toList.map (·.peer)).eraseDups

/-- The routes have changed since `old`: what that does to every device concerned. -/
def afterRoutes (old : State) (s : State) : State :=
  (chainPeers s).foldl (fun t d =>
    match (direction old d).isSome, (direction t d).isSome with
    | true, false => loseRoute d t
    | false, true => gainRoute d t
    | _, _ => t) s

end Sys2Proof.Machine
end

