-- ==== Sys2Proof/Machine/Chain.lean ====
section
/-! DEFINITION. Chain messages: coherence messages at the home and at the visitor, discovery, routes, windows and tandem
settings (07 R211-R221; 13 R346-R369). -/

namespace Sys2Proof.Machine

/-! ### Receiving a message -/

/-- A message addressed to this device is taken from the receive buffer and acted on; an unassigned device neither issues nor
serves coherence traffic (13 R346). -/
def onMsg (port : Nat) (f : Frame) (own : State → State) (s : State) : Out :=
  onUnit port 2 (if s.flt.halted || !assigned s || f.dst != s.chain.id then s else own (consume port f s))

/-- A maintenance message of an opcode is taken from the receive buffer. -/
def consumeOp (port opcode : Nat) (s : State) : State :=
  match (s.port port).rx.find? (·.opcode == opcode) with
  | some f => consume port f s
  | none => s

/-- A maintenance message arrives; a halted device answers none. -/
def onMaint (port opcode : Nat) (own : State → State) (s : State) : Out :=
  onUnit port 2 (if s.flt.halted then s else own (consumeOp port opcode s))

/-! ### Requests at the home (01 R13, R28; 07 R208, R215; 13 R357, R362) -/

/-- Some export admits a device to a line. -/
def exportAdmits (s : State) (src line : Nat) : Bool :=
  s.chain.exports.any fun x => x.2.covers line && (x.2.peer == src || x.2.peer == 0xFFF)

/-- A chain request arrives: a write already performed is answered again (13 R362), one that no export admits is completed
under R357, any other goes to the sluice of M8 or M9. -/
def chainRequest (port : Nat) (kind : ReqKind) (f : Frame) (s : State) : State :=
  let r : Req := {
    id := 0, kind := kind, mv := .invalid, head := 8 + port, cls := f.cls, line := f.line, data := f.payload
    mask := if kind = .wrPtl then f.mask else BitVec.allOnes 64, poison := f.poison && kind.isWrite, src := f.src, tag := f.tag
    wtag := f.wtag, priority := f.priority, since := s.time.elapsed }
  if kind.isWrite && s.chain.dups.any (fun d => d.1 == f.src && d.2.1 == f.wtag) then respondWack r s
  else if !exportAdmits s f.src f.line then
    raiseAddr 307 (64 * f.line) (le 2 f.src ++ le 8 f.line) (refuseReq r s)
  else
    let rid := s.req.next
    arrive (8 * r.head + r.cls % 8) ⟨rid, if kind.isWrite then 128 else 64, f.line⟩ (addReq r s)

def execRds (port : Nat) (f : Frame) (s : State) : Out := onMsg port f (chainRequest port .rds f) s
def execRda (port : Nat) (f : Frame) (s : State) : Out := onMsg port f (chainRequest port .rda f) s
def execRdcur (port : Nat) (f : Frame) (s : State) : Out := onMsg port f (chainRequest port .rdcur f) s
def execWr (port : Nat) (f : Frame) (s : State) : Out := onMsg port f (chainRequest port .wr f) s
def execWrptl (port : Nat) (f : Frame) (s : State) : Out := onMsg port f (chainRequest port .wrPtl f) s
def execEvict (port : Nat) (f : Frame) (s : State) : Out := onMsg port f (chainRequest port .evict f) s

/-- A performed chain write enters the duplicate-write table (13 R362). -/
def enterDup (r : Req) (s : State) : State :=
  s.modChain fun c => { c with dups := c.dups ++ [(r.src, r.wtag, s.time.elapsed)] }

/-- The write of a chain request is in the duplicate-write table. -/
def isDup (s : State) (r : Req) : Bool := r.isChain && s.chain.dups.any fun d => d.1 == r.src && d.2.1 == r.wtag

/-- DUP_WRITE_EXPIRE (13 R362). -/
def execDupWriteExpire (src wtag : Nat) (s : State) : Out :=
  let ended : Nat × Nat × Nat → Bool := fun d => d.1 == src && d.2.1 == wtag && decide (d.2.2 + 2 ^ 14 ≤ s.time.elapsed)
  .next (s.modChain fun c => { c with dups := c.dups.filter fun d => !ended d })

/-! ### Snoops and answers -/

def execSinv (port : Nat) (f : Frame) (s : State) : Out := onMsg port f (visitorSnoop { f with opcode := 0x10 }) s
def execSdown (port : Nat) (f : Frame) (s : State) : Out := onMsg port f (visitorSnoop { f with opcode := 0x11 }) s
def execScur (port : Nat) (f : Frame) (s : State) : Out := onMsg port f (visitorSnoop { f with opcode := 0x12 }) s
def execSfwd (port : Nat) (f : Frame) (s : State) : Out := onMsg port f (visitorSnoop { f with opcode := 0x13 }) s

def execSackNone (port : Nat) (f : Frame) (s : State) : Out := onMsg port f (chainAnswer f.src f.line false none) s
def execSackS (port : Nat) (f : Frame) (s : State) : Out := onMsg port f (chainAnswer f.src f.line true none) s
def execSackD (port : Nat) (f : Frame) (s : State) : Out :=
  onMsg port f (chainAnswer f.src f.line (f.code == 1) (some f.payload)) s

/-- DATA (07 R215, R217); a response whose tag is not outstanding is discarded (13 R361). -/
def execData (port : Nat) (f : Frame) (s : State) : Out :=
  onMsg port f (fun s =>
    match s.chain.remotes.find? fun x => !x.isWrite && x.tag == f.tag && x.home == f.src && x.line == f.line with
    | some x => deliverData x f s
    | none => s) s

/-- FWD_DATA comes from the owner, not from the home (07 R216). -/
def execFwdData (port : Nat) (f : Frame) (s : State) : Out :=
  onMsg port f (fun s =>
    match s.chain.remotes.find? fun x => !x.isWrite && x.tag == f.tag && x.line == f.line with
    | some x => deliverData x f s
    | none => s) s

def execWack (port : Nat) (f : Frame) (s : State) : Out :=
  onMsg port f (fun s =>
    match s.chain.remotes.find? fun x => x.isWrite && x.wtag == f.wtag && x.home == f.src with
    | some x => deliverWack x s
    | none => s) s

/-- The back-off of the n-th NAK (07 R218). -/
def backoff (n draw : Nat) : Nat := (if 8 ≤ n then 64 else 8 * 2 ^ min (n - 1) 6) + draw

/-- The chain NAK (07 R218, R221). REASON 3: the visitor half of R220 and REJOIN to the home. -/
def chainNak (f : Frame) (s : State) : State :=
  match s.chain.remotes.find? fun x => x.headerTag == f.tag && x.home == f.src && x.line == f.line with
  | some x =>
    let at_ := s.time.elapsed + backoff (x.naks + 1) (Config.backoffDraw s.free).toNat
    let s : State := { s with free := s.free + 1 }
    let s := s.modRemote x.tag fun y => { y with naks := y.naks + 1, retryAt := some at_ }
    if f.code = 3 then
      let b := s.chain.id + s.boot.bootId.toNat * 2 ^ 32
      sendTo f.src { vc := 3, opcode := 0x38, pl := true, payload := BitVec.ofNat 512 b } (visitorLose f.src s)
    else s
  | none => s

def execChainNak (port : Nat) (f : Frame) (s : State) : Out := onMsg port f (chainNak f) s

/-- REJOIN lifts the fence of its sender (07 R221). -/
def execRejoin (port : Nat) (f : Frame) (s : State) : Out :=
  onMsg port f (fun s => s.modChain fun c => { c with fenced := c.fenced.filter (· != f.payload.toNat % 2 ^ 12) }) s

/-! ### Time limits of the chain -/

/-- A write may be sent again (13 R362). -/
def mayResend (s : State) (x : Remote) : Bool :=
  !x.isWrite || (match x.sent with | some t => decide (s.time.elapsed < t + 2 ^ 13) | none => true)

/-- NAK_BACKOFF_RETRY (07 R218): the same request with the same tag. -/
def execNakBackoffRetry (rid : Nat) (s : State) : Out :=
  .next (match s.remote? rid with
    | some x => (match x.retryAt with
      | some t =>
        if t ≤ s.time.elapsed ∧ mayResend s x ∧ s.flt.halted = false
        then sendRemote rid (s.modRemote rid fun y => { y with retryAt := none }) else s
      | none => s)
    | none => s)

/-- REMOTE_RESEND_WINDOW_END (13 R362): from now on the write only waits. -/
def execRemoteResendWindowEnd (rid : Nat) (s : State) : Out :=
  .next (match s.remote? rid with
    | some x => if mayResend s x then s else s.modRemote rid fun y => { y with retryAt := none }
    | none => s)

/-- The loss-list entry of an undelivered line: lines of a page that become undelivered in one cycle share it (13 R364). -/
def addUndelivered (own : Nat) (s : State) : State :=
  let page := own / 64
  let bit : BitVec 64 := BitVec.ofNat 64 (2 ^ (own % 64))
  if lineLost s own then s
  else match s.dur.loss.getLast? with
    | some e =>
      if e.cause = 5 ∧ e.page = page ∧ e.time = s.time.chain then
        { s with dur := { s.dur with loss := s.dur.loss.dropLast ++ [{ e with mask := e.mask ||| bit }] } }
      else lose 5 0 false 0xFF page bit s
    | none => lose 5 0 false 0xFF page bit s

/-- A remote write becomes undelivered (13 R364, R365). -/
def undeliver (x : Remote) (s : State) : State :=
  let s := addUndelivered x.own (completeWrite x false s)
  let s := if s.chain.undelivered.contains x.own then s
    else if s.chain.undelivered.length < 4096 then s.modChain fun c => { c with undelivered := c.undelivered ++ [x.own] }
    else
      let f : Nat × Window → Nat × Window := fun w => if w.1 = x.window then (w.1, { w.2 with poisoned := true }) else w
      raiseAll 305 0 (le 1 x.window) (s.modChain fun c => { c with imports := c.imports.map f })
  let s := raiseAddr 304 (64 * x.own) (le 1 x.window ++ le 8 (x.own / 64) ++ le 1 (x.own % 64) ++ le 2 x.home) s
  closeWindows (visitorProgress x.own s)

/-- UNDELIVERED_WRITE (13 R364): 2^15 ticks after the origin accepted it. -/
def execUndeliveredWrite (rid : Nat) (s : State) : Out :=
  .next (match s.remote? rid with
    | some x => (match x.why with
      | .req _ =>
        if x.isWrite ∧ x.since + 2 ^ 15 ≤ s.time.elapsed ∧ s.flt.halted = false then undeliver x s else s
      | .tandem _ _ | .resync _ _ | .clear _ _ => s)
    | none => s)

/-- TANDEM_ACK_TIMEOUT (04 R128; 13 R368). -/
def execTandemAckTimeout (rid : Nat) (s : State) : Out :=
  .next (match s.remote? rid with
    | some x =>
      if x.since + 2 ^ 15 ≤ s.time.elapsed ∧ s.flt.halted = false then
        match x.why with
        | .tandem range _ => goSolo range 1 s
        | .resync range page =>
          let s := s.modChain fun c => { c with remotes := c.remotes.filter fun y => y.why != .resync range page }
          markPage range page s
        | .req _ | .clear _ _ => s
      else s
    | none => s)

/-- CLEAR_LOSS_WACK_TIMEOUT (13 R365). -/
def execClearLossWackTimeout (s : State) : Out :=
  .next (match s.crity.waiting with
    | some (_, op, p, since) =>
      if op = 0xC208 ∧ since + 2 ^ 15 ≤ s.time.elapsed then endClear (ofLe p 0 4) 0x0508 s else s
    | none => s)

/-- CHAIN_SNOOP_TIMEOUT (07 R221): the device is fenced for coherence. -/
def execChainSnoopTimeout (dev line : Nat) (s : State) : Out :=
  .next (match s.dir.chSnoops.find? fun x => x.dev == dev && x.line == line with
    | some x =>
      if x.since + 2 ^ 23 ≤ s.time.elapsed ∧ (direction s dev).isSome then
        let s := raiseAddr 133 (64 * line) (le 2 dev ++ le 8 line ++ le 1 x.opcode) s
        let f : ChainState → ChainState := fun c =>
          { c with fenced := if c.fenced.contains dev then c.fenced else dev :: c.fenced }
        let s := s.modChain f
        dropDevice dev (failSnoops dev s)
      else s
    | none => s)

/-- RESERVATION_EXPIRE (07 R219). -/
def execReservationExpire (line : Nat) (s : State) : Out :=
  let ended : Reservation → Bool := fun x =>
    x.line == line && (match x.ends with | some e => decide (e ≤ s.time.elapsed) | none => false)
  .next { s with dir := { s.dir with resv := s.dir.resv.filter fun x => !ended x } }

/-! ### Routes (13 R351) -/

/-- Bytes as a payload. -/
def payloadOf (b : List Byte) : Line := BitVec.ofNat 512 (ofLe b 0 b.length)

/-- A maintenance message for every device on the path, out of port `p` while it carries a link. -/
def maintain (p opcode : Nat) (b : List Byte) (s : State) : State :=
  if (s.port p).st = .up ∨ (s.port p).retraining = true then
    sendOn p { opcode := opcode, pl := true, payload := payloadOf b } s
  else s

/-- The port enters DOWN: ROUTE_CUT out of the other port, ROUTE_LOST (13 R351). -/
def sendCut (p : Nat) (s : State) : State :=
  if !assigned s then s
  else
    let me := s.chain.id
    let s := s.modChain fun c => { c with cuts := (p, me, p) :: c.cuts.erase (p, me, p) }
    maintain (1 - p) 0x34 (le 2 me ++ le 1 p) (raiseAll 309 0 (le 1 p ++ le 2 me) s)

/-- Its own cut ends: ROUTE_JOIN on the same path, ROUTE_RESTORED. -/
def sendJoin (p : Nat) (s : State) : State :=
  let me := s.chain.id
  if s.chain.cuts.contains (p, me, p) then
    let s := s.modChain fun c => { c with cuts := c.cuts.erase (p, me, p) }
    maintain (1 - p) 0x35 (le 2 me ++ le 1 p) (raiseAll 310 0 (le 1 p) s)
  else s

def routeCut (port chainId cutPort : Nat) (s : State) : State :=
  if chainId = s.chain.id ∨ s.chain.cuts.any (fun c => c.2 == (chainId, cutPort)) = true then s
  else
    let t := s.modChain fun c => { c with cuts := (port, chainId, cutPort) :: c.cuts }
    let t := maintain (1 - port) 0x34 (le 2 chainId ++ le 1 cutPort) t
    if assigned s then afterRoutes s (raiseAll 309 0 (le 1 port ++ le 2 chainId) t) else t

def execRouteCut (port chainId cutPort : Nat) (s : State) : Out := onMaint port 0x34 (routeCut port chainId cutPort) s

def routeJoin (port chainId cutPort : Nat) (s : State) : State :=
  if s.chain.cuts.any (fun c => c.2 == (chainId, cutPort)) && chainId != s.chain.id then
    let t := s.modChain fun c => { c with cuts := c.cuts.filter fun x => x.2 != (chainId, cutPort) }
    let t := maintain (1 - port) 0x35 (le 2 chainId ++ le 1 cutPort) t
    if assigned s then afterRoutes s (raiseAll 310 0 (le 1 port) t) else t
  else s

def execRouteJoin (port chainId cutPort : Nat) (s : State) : Out := onMaint port 0x35 (routeJoin port chainId cutPort) s

/-- NEIGHBOUR at entry to UP (13 R347). -/
def sendNeighbour (p : Nat) (s : State) : State :=
  let known := ((s.chain.neighbours.getD p none).map (·.id)).getD 0xFFF
  maintain p 0x33 (le 2 s.chain.id ++ le 2 s.chain.gen ++ le 4 s.boot.bootId.toNat ++ le 2 known) s

/-- Every page of a tandem range is marked (13 R368). -/
def markAll (range : Nat) (s : State) : State :=
  let r := s.range range
  s.modTandem range fun t => { t with marked := (List.range (r.sizeGib * 2 ^ 18)).map fun i => r.baseGib * 2 ^ 18 + i }

/-- A buddy reports its BOOT_ID (13 R368). -/
def buddyBoot (dev bootId : Nat) (s : State) : State :=
  (s.dur.tandem.filter fun t => t.buddy == dev && t.bootId != bootId).foldl (fun u t =>
    (markAll t.range (goSolo t.range 0 u)).modTandem t.range fun t => { t with bootId := bootId }) s

/-- NEIGHBOUR received (13 R347, R351, R368). -/
def neighbour (port chainId gen bootId partner : Nat) (s : State) : State :=
  let old := s
  let s := s.modChain fun c => { c with neighbours := c.neighbours.set port (some ⟨chainId, gen, bootId, partner⟩) }
  let s := buddyBoot chainId bootId s
  if assigned s && chainId != 0xFFF && gen == s.chain.gen && (s.port port).st == .up then
    let t := afterRoutes old (sendJoin port s)
    (t.dur.tandem.filter fun x => x.buddy == chainId).foldl (fun u x => startResync x.range u) t
  else s

def execNeighbour (port chainId gen bootId partner : Nat) (s : State) : Out :=
  onMaint port 0x33 (neighbour port chainId gen bootId partner) s

/-! ### Discovery (13 R348-R350) -/

/-- Payload of PROBE and PROBE_END (13 R369). Bit 1 of byte 10 is the model's: a device on the path holds a window, or belongs to
another generation (log 20). -/
def probeBytes (m : ProbeMsg) : List Byte :=
  le 2 m.gen ++ le 2 m.nextId ++ le 1 (b2n m.west) ++ le 1 m.mode ++ le 2 m.initiator ++ le 2 m.baseId
    ++ le 1 (b2n m.busy + 2 * b2n m.conflict)

/-- The device holds an import, an export or a tandem setting. -/
def chainUsed (s : State) : Bool := !s.chain.imports.isEmpty || !s.chain.exports.isEmpty || !s.dur.tandem.isEmpty

/-- Grouping of presence vectors (07 R214). -/
def grouping (highest : Nat) : Nat := if highest < 64 ∨ highest = 0xFFF then 1 else (highest + 64) / 64

def topoBytes (c : ChainState) : List Byte :=
  le 2 c.gen ++ le 2 c.n ++ le 1 (b2n c.ring + 2 * b2n c.forwarding) ++ le 1 c.hopLimit ++ le 2 c.lowest ++ le 2 c.highest
    ++ le 2 c.eastEnd ++ le 2 c.westEnd

/-- Output of CHAIN_DISCOVER (13 R369). -/
def discoverOut (c : ChainState) : List Byte :=
  le 2 c.id ++ le 2 c.gen ++ le 2 c.n ++ le 1 (b2n c.ring + 2 * b2n c.forwarding) ++ le 1 0 ++ le 2 c.lowest ++ le 2 c.highest
    ++ le 2 c.eastEnd ++ le 2 c.westEnd

/-- The discovery this device runs ends: the background command's result. -/
def discoveryResult (d : Discovery) (wsc : Nat) (out : List Byte) (s : State) : State :=
  let s := s.modChain fun c => { c with discovery := none }
  s.modBg d.src fun b =>
    if b.busy ∧ b.opcode = 0xC400 then
      { b with result := some (rcOf wsc, wsc, if wsc = 0 then out else le 2 wsc ++ le 2 0xFFFF) } else b

/-- CHAIN_CHANGED: GEN, N, ring, mode. -/
def raiseChanged (s : State) : State :=
  let c := s.chain
  raiseAll 311 0 (le 2 c.gen ++ le 2 c.n ++ le 1 (b2n c.ring) ++ le 1 (b2n c.forwarding)) s

/-- TOPO out of both ports. -/
def sendTopo (s : State) : State := maintain 1 0x32 (topoBytes s.chain) (maintain 0 0x32 (topoBytes s.chain) s)

/-- The last ID has been given: the new topology is committed and sent (13 R348, R350). `next` is the final NEXT_ID; the east
phase ended at `d.count`, or at `next` in a ring. -/
def finishDiscovery (d : Discovery) (next : Nat) (ring : Bool) (s : State) : State :=
  let c := s.chain
  let eastNext := if ring ∨ d.west = false then next else d.count
  let start := if d.extend then (if c.id = 0xFFF then d.base + 1 else d.base) else d.base + 1
  let id := if d.extend ∧ c.id ≠ 0xFFF then c.id else d.base
  let n := if d.extend then c.n + (next - start) else next - d.base
  let lowest := if d.extend ∧ c.id ≠ 0xFFF then min c.lowest (if start < next then start else c.lowest) else d.base
  let highest := if d.extend ∧ c.id ≠ 0xFFF then max c.highest (next - 1) else next - 1
  let eastEnd := if start < eastNext then eastNext - 1 else if d.extend ∧ c.id ≠ 0xFFF then c.eastEnd else d.base
  let westEnd := if eastNext < next then next - 1 else if d.extend ∧ c.id ≠ 0xFFF then c.westEnd else d.base
  if 0xFFF < next then discoveryResult d 0x0503 [] s
  else if d.extend ∧ !c.exports.isEmpty ∧ grouping highest ≠ grouping c.highest then discoveryResult d 0x0504 [] s
  else
    let old := s
    let s := s.modChain fun c => { c with
      id := id, gen := wrap 16 (c.gen + 1), n := n, ring := ring, forwarding := decide (n ≤ 8), lowest := lowest
      highest := highest, eastEnd := eastEnd, westEnd := westEnd, cuts := [] }
    let s := raiseChanged (sendTopo s)
    let s := discoveryResult d 0 (discoverOut s.chain) s
    if old.chain.id = 0xFFF then s else afterRoutes old s

/-- The west phase of a discovery, or its end where no device lies west. -/
def probeWest (d : Discovery) (next : Nat) (s : State) : State :=
  if (s.port 1).st = .up then
    let d := { d with west := true, count := next, nextId := next }
    maintain 1 0x30 (probeBytes ⟨s.chain.gen, next, true, b2n d.extend, s.chain.id, d.base, false, false⟩)
      (s.modChain fun c => { c with discovery := some d })
  else finishDiscovery d next false s

/-- The discovery starts: PROBE east, or west where no device lies east. -/
def startDiscovery (d : Discovery) (s : State) : State :=
  let s := s.modChain fun c => { c with discovery := some d }
  if (s.port 0).st = .up then
    maintain 0 0x30 (probeBytes ⟨s.chain.gen, d.nextId, false, b2n d.extend, s.chain.id, d.base, false, false⟩) s
  else probeWest d d.nextId s

/-- The chain ID a device takes in EXTEND: its own; the one both neighbours last knew for it; or NEXT_ID (13 R348). -/
def extendId (s : State) (next : Nat) : Nat × Nat :=
  if assigned s then (s.chain.id, next)
  else match s.chain.neighbours.getD 0 none, s.chain.neighbours.getD 1 none with
    | some a, some b => if a.partner = b.partner ∧ a.partner ≠ 0xFFF then (a.partner, next) else (next, next + 1)
    | some a, none => if a.partner ≠ 0xFFF then (a.partner, next) else (next, next + 1)
    | none, some b => if b.partner ≠ 0xFFF then (b.partner, next) else (next, next + 1)
    | none, none => (next, next + 1)

/-- PROBE (13 R348, R349). -/
def probe (port : Nat) (m : ProbeMsg) (s : State) : State :=
  let on := 1 - port
  let back : ProbeMsg → State → State := fun m s => maintain port 0x31 (probeBytes m) s
  if port ≠ (if m.west then 0 else 1) then s
  else match s.chain.discovery with
    | some d =>
      if m.initiator = s.chain.id ∧ m.baseId = d.base ∧ d.west = false ∧ m.west = false then finishDiscovery d m.nextId true s
      else back { m with busy := true } s
    | none =>
      let other := match s.chain.probed with | some p => p.1 != m.initiator | none => false
      if other then back { m with busy := true } s
      else if m.mode = 0 ∧ chainUsed s then back { m with conflict := true } s
      else if m.mode = 1 ∧ assigned s ∧ (s.chain.gen ≠ m.gen ∨ s.chain.id = m.initiator) then
        back { m with conflict := true } (raiseAll 312 0 (le 2 s.chain.id ++ le 2 s.chain.gen ++ le 2 m.initiator ++ le 2 m.gen) s)
      else
        let x := if m.mode = 0 then (m.nextId, m.nextId + 1) else extendId s m.nextId
        if 0xFFE < x.1 then back { m with nextId := 0x1000 } s
        else
          let s := s.modChain fun c => { c with probed := some (m.initiator, x.1) }
          if (s.port on).st = .up then maintain on 0x30 (probeBytes { m with nextId := x.2 }) s
          else back { m with nextId := x.2 } s

def execProbe (port : Nat) (msg : ProbeMsg) (s : State) : Out := onMaint port 0x30 (probe port msg) s

/-- PROBE_END (13 R348, R349): at the initiator the end of a phase; elsewhere it is sent on, and a failed discovery leaves no
trace. -/
def probeEnd (port : Nat) (m : ProbeMsg) (s : State) : State :=
  let failed := m.busy || m.conflict || decide (0xFFF < m.nextId)
  match s.chain.discovery with
  | some d =>
    if m.busy then discoveryResult d 0x0506 [] s
    else if m.conflict then
      if d.extend then
        discoveryResult d 0x0505 [] (raiseAll 312 0 (le 2 s.chain.id ++ le 2 s.chain.gen ++ le 2 m.initiator ++ le 2 m.gen) s)
      else discoveryResult d 0x0504 [] s
    else if 0xFFF < m.nextId then discoveryResult d 0x0503 [] s
    else if d.west then finishDiscovery d m.nextId false s
    else probeWest d m.nextId s
  | none =>
    let s := if failed then s.modChain fun c => { c with probed := none } else s
    maintain (1 - port) 0x31 (probeBytes m) s

def execProbeEnd (port : Nat) (msg : ProbeMsg) (s : State) : Out := onMaint port 0x31 (probeEnd port msg) s

/-- TOPO (13 R348, R350, R353): the topology is committed when it arrives and sent on; one that says nothing new is discarded. -/
def topo (port : Nat) (m : TopoMsg) (s : State) : State :=
  let c := s.chain
  let same := assigned s && c.gen == m.gen
  if same && c.hopLimit == m.hopLimit then s
  else
    let old := s
    let id := match c.probed with | some p => p.2 | none => c.id
    let s := if same then s.modChain fun c => { c with hopLimit := m.hopLimit }
      else s.modChain fun c => { c with
        id := id, gen := m.gen, n := m.n, ring := m.ring, forwarding := m.forwarding, hopLimit := m.hopLimit
        lowest := m.lowest, highest := m.highest, eastEnd := m.eastEnd, westEnd := m.westEnd, probed := none, cuts := [] }
    let s := maintain (1 - port) 0x32 (topoBytes s.chain) s
    if same then s else
      let s := raiseChanged s
      if old.chain.id = 0xFFF then s else afterRoutes old s

def execTopo (port : Nat) (msg : TopoMsg) (s : State) : Out := onMaint port 0x32 (topo port msg) s

def chainDiscoverSpec : CmdSpec where
  opcode := 0xC400
  len := fun n => n == 4
  mgt := true
  resv := [(1, 0xFF), (3, 0xF0)]
  checks := fun p _ => [⟨0, decide (byteAt p 0 ≤ 1), 0x0007⟩]

/-- The lowest chain ID not known to be in use (13 R348). -/
def freeId (c : ChainState) : Nat := if c.id = 0xFFF ∨ 0 < c.lowest then 0 else c.highest + 1

/-- The discovery a CHAIN_DISCOVER asks for. -/
def discoveryOf (m : Mb) (p : List Byte) (s : State) : Discovery :=
  let base := ofLe p 2 2
  let first := freeId s.chain
  if byteAt p 0 = 1 then
    if assigned s then ⟨true, first, m.src, first, false, s.time.elapsed, first⟩
    else ⟨true, (extendId s first).1, m.src, (extendId s first).1 + 1, false, s.time.elapsed, first⟩
  else ⟨false, base, m.src, base + 1, false, s.time.elapsed, base + 1⟩

/-- CHAIN_DISCOVER's own checks (13 R348, R349). -/
def chainDiscover (p : List Byte) (s : State) : CmdRes :=
  if s.chain.discovery.isSome || s.chain.probed.isSome then .fail 0x0506 0xFFFF
  else if byteAt p 0 == 0 && chainUsed s then .fail 0x0504 0xFFFF
  else if byteAt p 0 == 0 && decide (0xFFE < ofLe p 2 2) then .fail 0x0503 0xFFFF
  else .bg .discover s

/-- CHAIN_DISCOVER (13 R348, R349, R369): a background command; the discovery begins with its start phase. -/
def execChainDiscover (m : Mb) (p : List Byte) (s : State) : Out :=
  let t := runCrity chainDiscoverSpec m p (chainDiscover p) s
  .next (if !(bgOf s m.src).busy && (bgOf t m.src).op == some .discover && t.chain.discovery.isNone
    then startDiscovery (discoveryOf m p s) t else t)

def setHopLimitSpec : CmdSpec where
  opcode := 0xC405
  len := fun n => n == 4
  mgt := true
  resv := [(1, 0xFFFFFF)]
  checks := fun p _ => [⟨0, decide (1 ≤ byteAt p 0), 0x0007⟩]

/-- SET_HOP_LIMIT (13 R353): the limit goes to every device with TOPO. -/
def execSetHopLimit (m : Mb) (p : List Byte) (s : State) : Out :=
  .next (runCrity setHopLimitSpec m p (fun s =>
    .ok [] (sendTopo (s.modChain fun c => { c with hopLimit := byteAt p 0 }))) s)

/-! ### Windows (13 R354-R358) -/

/-- The span lies in one valid key range whose PRIVATE flag is clear, within the offered capacity (13 R354). -/
def spanOk (s : State) (base size : Nat) : Bool :=
  decide (base + size ≤ s.map.geo.offeredGib) && (List.range 16).any fun r =>
    let k := s.range r
    k.valid && !k.priv && decide (k.baseGib ≤ base) && decide (base + size ≤ k.baseGib + k.sizeGib)

def Window.overlaps (w : Window) (base size : Nat) : Bool :=
  decide (w.localGib < base + size) && decide (base < w.localGib + w.sizeGib)

/-- The peer is reachable and within the hop limit (13 R353): NO_ROUTE, HOP_LIMIT, or 0. -/
def peerCheck (s : State) (peer : Nat) : Nat :=
  if !assigned s || (direction s peer).isNone then 0x0508 else if !withinHops s peer then 0x0509 else 0

/-- Send WINDOW_CHECK and wait (13 R356). -/
def sendCheck (why : CheckFor) (peer homeGib sizeGib : Nat) (s : State) : State :=
  sendTo peer { vc := 3, opcode := 0x36, pl := true, line := homeGib * gibLines, payload := BitVec.ofNat 512 sizeGib }
    (s.modChain fun c => { c with wait := some ⟨why, peer, s.time.elapsed⟩ })

/-- Deleting an export (13 R358): SINV for every line of the span that another device holds, which leaves the record. -/
def closeExport (w : Window) (s : State) : State :=
  let l := s.dir.ents.filter fun x => w.covers x.1 && !x.2.chain.isEmpty
  l.foldl (fun t x =>
    let mine := snoopDevs t x.2 |>.filter fun d => w.peer == d || w.peer == 0xFFF
    let t := mine.foldl (fun u d => sendChainSnoop d x.1 0x10 false 0 0 0 u) t
    setDirEnt x.1 { x.2 with chain := x.2.chain.filter fun d => !mine.contains d }.tidy t) s

def setRemoteWindowSpec : CmdSpec where
  opcode := 0xC401
  len := fun n => n == 32
  mgt := true
  resv := [(2, 0xFE), (3, 0xFF), (6, 0xFFC0), (10, 0xFF80), (13, 0xF0), (14, 0xFFFF), (18, 0xFFC0), (20, 2 ^ 96 - 1)]
  checks := fun p _ => [
    ⟨0, decide (byteAt p 0 ≤ 31), 0x0007⟩, ⟨1, decide (byteAt p 1 ≤ 1), 0x0007⟩,
    ⟨8, !bitAt p 2 0 || (decide (1 ≤ ofLe p 8 4) && decide (ofLe p 8 4 ≤ 2 ^ 22)), 0x0007⟩]

/-- SET_REMOTE_WINDOW's own work. -/
def setRemoteWindow (p : List Byte) (s : State) : CmdRes :=
  let idx := byteAt p 0
  let isExport := byteAt p 1 == 1
  let w : Window := { localGib := ofLe p 4 4, sizeGib := ofLe p 8 4, peer := ofLe p 12 2, homeGib := if isExport then 0 else ofLe p 16 4 }
  if !bitAt p 2 0 then
    if isExport then
      match aget s.chain.exports idx with
      | some x => .ok [] (closeExport x (s.modChain fun c => { c with exports := adel c.exports idx }))
      | none => .ok [] s
    else
      .ok [] (closeWindows (s.modChain fun c => { c with
        imports := c.imports.map fun x => if x.1 = idx then (x.1, { x.2 with closing := true }) else x }))
  else if !spanOk s w.localGib w.sizeGib then .fail 0x0007 0xFFFF
  else if !isExport && spanUsed s (w.localGib * 2 ^ 18) (w.sizeGib * 2 ^ 18) then .fail 0x0202 0xFFFF
  else if (aget (if isExport then s.chain.exports else s.chain.imports) idx).isSome
      || (if isExport then s.chain.exports ++ s.chain.imports else s.chain.imports ++ s.chain.exports).any
          (fun x => x.2.overlaps w.localGib w.sizeGib) then .fail 0x0507 0xFFFF
  else
    let e := if isExport && w.peer == 0xFFF then 0 else peerCheck s w.peer
    if e ≠ 0 then .fail e 0xFFFF
    else if isExport then .ok [] (s.modChain fun c => { c with exports := aset c.exports idx w })
    else .wait (sendCheck (.window idx w) w.peer w.homeGib w.sizeGib s)

def execSetRemoteWindow (m : Mb) (p : List Byte) (s : State) : Out :=
  .next (runCrity setRemoteWindowSpec m p (setRemoteWindow p) s)

/-! ### SET_TANDEM (13 R366, R367) -/

/-- The next device east in ring order; none at the east end of an open chain. -/
def eastOf (c : ChainState) : Option Nat :=
  if c.id = 0xFFF ∨ c.n ≤ 1 then none
  else if c.ring then some (if c.id = c.highest then c.lowest else c.id + 1)
  else if c.id ≤ c.eastEnd then (if c.id = c.eastEnd then none else some (c.id + 1))
  else some (if c.id - 1 = c.eastEnd then c.lowest else c.id - 1)

/-- GiB of the tandem ranges beside range `r`. -/
def tandemGib (s : State) (r : Nat) : Nat := ((s.dur.tandem.filter (·.range != r)).map fun t => (s.range t.range).sizeGib).sum

def setTandemSpec : CmdSpec where
  opcode := 0xC402
  len := fun n => n == 8
  mgt := true
  resv := [(1, 0xFE), (2, 0xFFFF), (6, 0xFFC0)]
  checks := fun p _ => [⟨0, decide (byteAt p 0 ≤ 15), 0x0007⟩]

/-- Clearing ENABLE stops the mirroring: the range's outstanding writes complete locally. -/
def clearTandem (r : Nat) (s : State) : State :=
  let mine := s.chain.remotes.filter fun x => match x.why with
    | .tandem q _ | .resync q _ => q == r
    | .req _ | .clear _ _ => false
  let s := { s with dur := { s.dur with tandem := s.dur.tandem.filter (·.range != r) } }
  let s := mine.foldl (fun u x => let u := dropRemote x.tag u
    match x.why with
    | .tandem _ rid => (match u.req? rid with | some q => finishNdr q u | none => u)
    | _ => u) s
  match resyncOuting s r with
  | some o => endOuting o.id 3 0 s
  | none => s

def setTandem (p : List Byte) (s : State) : CmdRes :=
  let r := byteAt p 0
  let k := s.range r
  if !bitAt p 1 0 then .ok [] (clearTandem r s)
  else if !k.valid then .fail 0x0007 0
  else match eastOf s.chain with
    | none => .fail 0x050B 0xFFFF
    | some b =>
      if (direction s b).isNone then .fail 0x0508 0xFFFF
      else .wait (sendCheck (.tandem r (ofLe p 4 4)) b (ofLe p 4 4) k.sizeGib s)

def execSetTandem (m : Mb) (p : List Byte) (s : State) : Out := .next (runCrity setTandemSpec m p (setTandem p) s)

/-! ### WINDOW_CHECK and its answer (13 R355, R356) -/

/-- WINDOW_CHECK at the home: an export covers the whole span and admits the sender. -/
def windowCheck (src line sizeGib : Nat) (s : State) : State :=
  let ok := s.chain.exports.any fun x => x.2.covers line && decide (line + sizeGib * gibLines ≤ (x.2.localGib + x.2.sizeGib) * gibLines)
    && (x.2.peer == src || x.2.peer == 0xFFF)
  let b := b2n (!ok) + s.boot.bootId.toNat * 2 ^ 32
  sendTo src { vc := 3, opcode := 0x37, pl := true, payload := BitVec.ofNat 512 b } s

def execWindowCheck (port src line sizeGib : Nat) (s : State) : Out :=
  onMaint port 0x36 (fun s => if assigned s then windowCheck src line sizeGib s else s) s

/-- WINDOW_RSP ends the command that waits; a late one is discarded. -/
def windowRsp (result bootId : Nat) (s : State) : State :=
  match s.chain.wait, s.crity.waiting with
  | some w, some (m, op, _, _) =>
    let s := s.modChain fun c => { c with wait := none }
    if result ≠ 0 then finishWaiting m op 0x050A s
    else match w.why with
      | .window idx x => finishWaiting m op 0 (s.modChain fun c => { c with
          imports := aset c.imports idx x, lost := c.lost.filter (· != idx) })
      | .tandem r base =>
        if 16384 < tandemGib s r + (s.range r).sizeGib then finishWaiting m op 0x050C s
        else if !withinHops s w.peer then finishWaiting m op 0x0509 s
        else
          let t : TandemRange := ⟨r, w.peer, base, bootId, false, false, []⟩
          finishWaiting m op 0 { s with dur := { s.dur with tandem := s.dur.tandem.filter (·.range != r) ++ [t] } }
  | _, _ => s

def execWindowRsp (port result bootId : Nat) (s : State) : Out := onMaint port 0x37 (windowRsp result bootId) s

/-- WINDOW_CHECK_TIMEOUT (13 R356). -/
def execWindowCheckTimeout (s : State) : Out :=
  .next (match s.chain.wait, s.crity.waiting with
    | some w, some (m, op, _, _) =>
      if w.since + 2 ^ 15 ≤ s.time.elapsed then finishWaiting m op 0x0508 (s.modChain fun c => { c with wait := none }) else s
    | _, _ => s)

end Sys2Proof.Machine
end

