-- ==== Sys2Proof/Machine/Power.lean ====
section
/-! DEFINITION. Power domains, votes and modes; supply monitors and the brace (15 R390-R409). -/

namespace Sys2Proof.Machine

/-! ### The arbiter -/

/-- A domain is eligible (15 R393): a channel while it is populated and not suspended, a drive port while its slot's PGOOD
is asserted. During bring-up a channel with a powered DIMM counts (20 R489, log 11). -/
def eligibleDom (s : State) (d : Nat) : Bool :=
  if 6 ≤ d ∧ d < 22 then
    !(s.dom d).suspended &&
    (s.ddr.population.getLsbD (d - 6) ||
      (s.boot.phase == .bringup && ((s.slot (2 * (d - 6))).pgood || (s.slot (2 * (d - 6) + 1)).pgood)))
  else if 22 ≤ d ∧ d < 38 then (s.slot (32 + (d - 22))).pgood
  else true

/-- Held On by the bring-up itself, outside the vote mask (20, bring-up). -/
def bringupHolds (s : State) (d : Nat) : Bool := s.boot.phase == .bringup && decide (6 ≤ d)

/-- The arbiter wants the domain On (15 R393). -/
def wantsOn (s : State) (d : Nat) : Bool :=
  ((s.dom d).votes != 0 || bringupHolds s d) && eligibleDom s d

/-- The lowest voter of a mask; 0xFF when only the bring-up holds the domain. -/
def firstVoter (v : BitVec 12) : Nat := ((List.range 12).find? fun i => v.getLsbD i).getD 0xFF

/-- A wake starts (15 R403): a reset of the domain with its flag, BROWNOUT for the first one after a brownout (R408); a voter caused
only a wake by vote or standing vote; `late` says it waited for a brace (R406). -/
def startWake (d flag voter : Nat) (late : Bool) (s : State) : State :=
  let flag := if (s.dom d).brown then 6 else flag
  let f : Domain → Domain := fun x => { x with
    st := .waking, padsHeld := true, wakeFlag := flag, voter := (if flag = 2 ∨ flag = 3 then voter else 0xFF)
    brown := false, deferred := late, failed := false
    wakes := wrap 32 (x.wakes + 1), wakeTime := s.time.chain, wakeAt := s.time.elapsed
    offSpan := min (s.time.elapsed - x.offAt) (2 ^ 24 - 1), dueFlag := none, retry := false }
  s.modDom d f

/-- A wake is due: at once, or at the end of the brace (15 R406). -/
def wakeDom (d flag voter : Nat) (s : State) : State :=
  if s.power.brace then s.modDom d fun x => { x with dueFlag := some (flag, voter) }
  else startWake d flag voter false s

/-- The arbiter turns to going Off: it drains, or asks first in handshake mode (15 R396, R399); the Off of a suspended
domain is never asked for (R400). -/
def startOff (d : Nat) (s : State) : State :=
  if s.power.handshake ∧ (s.dom d).suspended = false then
    s.modDom d fun x => { x with st := .asking, delays := 0, delayEnd := none }
  else s.modDom d fun x => { x with st := .draining, drainAt := s.time.elapsed }

/-- A change of mode takes effect once no domain transition is under way (15 R400). -/
def settleMode (s : State) : State :=
  match s.power.modeNext with
  | some m =>
    if s.power.doms.all fun x => x.st == .on || x.st == .off then
      { s with power := { s.power with handshake := m, modeNext := none } }
    else s
  | none => s

/-- The flag of a wake that the arbiter starts: a host port's standing vote, bring-up, or a vote (15 R403; 20 R487). -/
def dueFlag (s : State) (d : Nat) : Nat :=
  if d < 6 then 3 else if (s.dom d).votes = 0 then 1 else 2

/-- The arbiter looks at one domain (15 R393, R396, R398, R399, R404); an Off that was abandoned or refused waits for the berth
cycle (R397). -/
def arbitrate (d : Nat) (s : State) : State :=
  if d < 2 ∨ 44 ≤ d then s else
  let s := s.modDom d fun x => { x with eligible := eligibleDom s d }
  let x := s.dom d
  let want := wantsOn s d
  match x.st with
  | .off =>
    if want && !x.noRetry && s.boot.pwrOk && s.boot.devReset.isNone && x.dueFlag.isNone then
      wakeDom d (dueFlag s d) (firstVoter x.votes) s
    else if !want && x.dueFlag.isSome then s.modDom d fun x => { x with dueFlag := none } else s
  | .on =>
    if want then s.modDom d fun x => { x with retry := false } else if x.retry then s else startOff d s
  | .draining => if want then s.modDom d fun x => { x with st := .on } else s
  | .asking => if want then s.modDom d fun x => { x with st := .on } else s
  | .poweringOff | .waking => s

/-- The arbiter looks at every domain. -/
def arbitrateAll (s : State) : State := (List.range 44).foldl (fun t d => arbitrate d t) s

/-- A vote is cast; a vote into an empty mask lets a failed domain try again (15 R394, R404). -/
def castVote (d v : Nat) (s : State) : State :=
  let f : Domain → Domain := fun x => { x with
    noRetry := x.noRetry && x.votes != 0, votes := x.votes ||| BitVec.ofNat 12 (2 ^ v) }
  arbitrate d (s.modDom d f)

/-- A vote is withdrawn (15 R394). -/
def withdrawVote (d v : Nat) (s : State) : State :=
  arbitrate d (s.modDom d fun x => { x with votes := x.votes &&& ~~~ (BitVec.ofNat 12 (2 ^ v)) })

/-- Set or clear a standing condition's vote. -/
def setVote (d v : Nat) (on : Bool) (s : State) : State := if on then castVote d v s else withdrawVote d v s

/-! ### Votes of the device's own voters (15, table of voters) -/

/-- A channel is in service: brought up, not suspended for a replacement, not both its DIMMs gone. -/
def channelInService (s : State) (c : Nat) : Bool :=
  let gone := fun i : Nat => match (s.unit i).health with
    | .lost | .absent | .untrusted => true
    | .healthy | .held | .refill => false
  s.ddr.population.getLsbD c && !(s.boot.phase == .bringup && (s.chan c).training) && !(s.dom (domDC c)).suspended && !(gone (2 * c) && gone (2 * c + 1))

/-- An open job may use an engine of the cluster under BULK_ENGINES, or its microcode is being loaded. -/
def keeperWants (s : State) (c : Nat) : Bool :=
  (s.codec.jobs.any fun j => match j.st with
    | .queued | .running | .resumable => ((List.range 8).any fun i => s.slu.cfg.bulk.getLsbD (8 * c + i))
    | .done | .noshrink | .failed | .cancelled => false)
  || (match s.lm.activation with
    | some a => a.step == .rolling c
    | none => false)

/-- Some page is in Tier W or Tier C, and the cluster has an engine that is not FAILED (05 R135). -/
def tierWants (s : State) (c : Nat) : Bool :=
  bargePages s && (List.range 8).any fun i => (s.engine (8 * c + i)).st != .failed

/-- Give a standing vote its due value. -/
def dueVote (d v : Nat) (on : Bool) (s : State) : State :=
  if (s.dom d).votes.getLsbD v = on then s else setVote d v on s

/-- Votes of Keeper firmware and the tier engine follow their conditions. -/
def keepVotes (s : State) : State :=
  let s := (List.range 16).foldl (fun u c => dueVote (domDC c) 10 (channelInService u c) u) s
  let s := (List.range 4).foldl (fun u c => dueVote (domCEC c) 10 (tierWants u c) (dueVote (domCEC c) 9 (keeperWants u c) u)) s
  (List.range 2).foldl (fun u k => dueVote (domSK k) 9 (u.power.skPower.getLsbD k) u) s

/-! ### Off -/

/-- What still keeps a domain from being drained (15 R396): items of its unit. A domain whose units are fenced drains at
once. -/
def undrained (s : State) (d : Nat) : Nat :=
  if 6 ≤ d ∧ d < 22 then
    (if (s.unit (2 * (d - 6))).fenced ∧ (s.unit (2 * (d - 6) + 1)).fenced then 0 else chanItems s (d - 6))
  else if 22 ≤ d ∧ d < 38 then
    (if (s.unit (32 + (d - 22))).fenced then 0 else driveItems s (d - 22))
  else if 38 ≤ d ∧ d < 42 then clusterItems s (d - 38)
  else if 42 ≤ d then portItems s (d - 42)
  else 0

/-- The domain goes Off: pads latched, outputs isolated, power removed; nothing inside it survives (15 R390, R396). -/
def offNow (d : Nat) (s : State) : State :=
  let f : Domain → Domain := fun x => { x with
    st := .off, padsHeld := true, offTime := s.time.chain, offAt := s.time.elapsed, retry := false, delayEnd := none }
  domainReset d (s.modDom d f)

/-- DOMAIN_DRAIN_TIMEOUT (15 R397): 10 ms (167,772 ticks) after drain began. -/
def execDomainDrainTimeout (dom : Nat) (s : State) : Out :=
  onUnit dom 44 (if (s.dom dom).st = .draining ∧ (s.dom dom).drainAt + 167772 ≤ s.time.elapsed then
      let n := undrained s dom
      let s := s.modDom dom fun x => { x with st := .on, retry := true }
      settleMode (raiseAll 1474 0 (le 1 dom ++ le 4 n) s)
    else s)

/-- A refusal, or the fourth delay, leaves the domain On until the next berth cycle (15 R399). -/
def refuseOff (dom block : Nat) (s : State) : State :=
  let n := (s.dom dom).delays
  let s := s.modDom dom fun x => { x with st := .on, retry := true, delayEnd := none }
  settleMode (raiseAll 1473 0 (le 1 dom ++ le 1 block ++ le 1 n) s)

/-- The block of a domain refuses an Off (15 R399): a channel while a port queue holds a command, a drive port while a command is
outstanding, a cluster while a segment or an in-line item is under way, a Stechaisk port while a frame is unacknowledged. -/
def blockRefuses (s : State) (d : Nat) : Bool :=
  if 6 ≤ d ∧ d < 22 then !(s.chan (d - 6)).ports.isEmpty
  else if 22 ≤ d ∧ d < 38 then decide (driveItems s (d - 22) ≠ 0)
  else if 38 ≤ d ∧ d < 42 then decide (clusterItems s (d - 38) ≠ 0)
  else if 42 ≤ d then (s.port (d - 42)).held.any (·.sent)
  else false

/-- HANDSHAKE_REPLY (15 R399): each domain has one block that answers; one that has work under way does not accept. -/
def handshakeReply (dom block : Nat) (reply : HsReply) (s : State) : State :=
  if (s.dom dom).st ≠ .asking ∨ (s.dom dom).delayEnd.isSome then s
  else match (if reply = .accept ∧ blockRefuses s dom = true then HsReply.refuse else reply) with
    | .accept => s.modDom dom fun x => { x with st := .draining, drainAt := s.time.elapsed }
    | .refuse => refuseOff dom block s
    | .delay n =>
      if n = 0 ∨ 2 ^ 16 < n then s
      else if 3 ≤ (s.dom dom).delays then refuseOff dom block s
      else s.modDom dom fun x => { x with delays := x.delays + 1, delayEnd := some (s.time.elapsed + n) }

/-- HANDSHAKE_REPLY (15 R399). -/
def execHandshakeReply (dom block : Nat) (reply : HsReply) (s : State) : Out :=
  onUnit dom 44 (handshakeReply dom block reply s)

/-- HANDSHAKE_DELAY_EXPIRE (15 R399): the arbiter asks the block again. -/
def execHandshakeDelayExpire (dom _block : Nat) (s : State) : Out :=
  onUnit dom 44 (match (s.dom dom).delayEnd with
    | some e => if (s.dom dom).st = .asking ∧ e ≤ s.time.elapsed then
        s.modDom dom fun x => { x with delayEnd := none } else s
    | none => s)

/-! ### Wakes -/

/-- DOMAIN_WAKE_DONE (15 R403): On with its pads still held. -/
def execDomainWakeDone (dom : Nat) (s : State) : Out :=
  onUnit dom 44 (if (s.dom dom).st = .waking then
      let s := s.modDom dom fun x => { x with st := .on, latency := min (s.time.elapsed - x.wakeAt) (2 ^ 24 - 1) }
      settleMode (arbitrate dom s)
    else s)

/-- DOMAIN_WAKE_FAIL (15 R404): the units of a channel or drive port are failed with cause 0x08 (04 R515). -/
def wakeFail (dom step : Nat) (s : State) : State :=
  let s := s.modDom dom fun x => { x with st := .off, failed := true, noRetry := true, offAt := s.time.elapsed }
  let s := raiseAll 1472 0 (le 1 dom ++ le 1 step) s
  let s := if 6 ≤ dom ∧ dom < 22 then fenceUnit (2 * (dom - 6) + 1) 8 (fenceUnit (2 * (dom - 6)) 8 s)
    else if 22 ≤ dom ∧ dom < 38 then fenceUnit (32 + (dom - 22)) 8 s else s
  settleMode s

/-- DOMAIN_WAKE_FAIL (15 R404). -/
def execDomainWakeFail (dom step : Nat) (s : State) : Out :=
  onUnit dom 44 (if (s.dom dom).st = .waking then wakeFail dom step s else s)

/-! ### Commands -/

/-- Domains that take votes of heads and of the sideband (15 R394). -/
def votable (d : Nat) : Bool := decide (6 ≤ d) && decide (d ≤ 43)

def castVoteSpec : CmdSpec where
  opcode := 0xC700
  len := fun n => n == 4
  any := true
  resv := [(1, 0xFFFFFF)]
  checks := fun p _ => [⟨0, votable (byteAt p 0), 0x0801⟩]

/-- CAST_VOTE (15 R394). -/
def execCastVote (m : Mb) (p : List Byte) (s : State) : Out :=
  .next (runCrity castVoteSpec m p (fun s => .ok [] (castVote (byteAt p 0) m.src s)) s)

/-- WITHDRAW_VOTE (15 R394). -/
def execWithdrawVote (m : Mb) (p : List Byte) (s : State) : Out :=
  .next (runCrity { castVoteSpec with opcode := 0xC701 } m p
    (fun s => .ok [] (withdrawVote (byteAt p 0) m.src s)) s)

def setPowerModeSpec : CmdSpec where
  opcode := 0xC704
  len := fun n => n == 8
  mgt := true
  resv := [(3, 0xFFFFFFFFFF)]
  checks := fun p _ => [
    ⟨2, byteAt p 2 == 0xFF || byteAt p 2 &&& 0x7C == 0, 0x0003⟩,
    ⟨0, byteAt p 0 == 0xFF || decide (byteAt p 0 ≤ 1), 0x0802⟩,
    ⟨1, byteAt p 1 == 0xFF || byteAt p 1 == 0 || (decide (10 ≤ byteAt p 1) && decide (byteAt p 1 ≤ 20)), 0x0802⟩]

/-- SET_POWER_MODE's own effect (15 R399, R400; 10 R286): a field of 0xFF is left unchanged. -/
def setPowerMode (p : List Byte) (s : State) : State :=
  let s := if byteAt p 0 = 0xFF then s
    else settleMode { s with power := { s.power with modeNext := some (byteAt p 0 == 1) } }
  let s := if byteAt p 1 = 0xFF then s else { s with power := { s.power with srIdle := byteAt p 1 } }
  if byteAt p 2 = 0xFF ∨ bitAt p 2 7 = false then s
  else
    let s := { s with power := { s.power with skPower := BitVec.ofNat 2 (byteAt p 2) } }
    setVote (domSK 1) 9 (bitAt p 2 1) (setVote (domSK 0) 9 (bitAt p 2 0) s)

/-- SET_POWER_MODE (15 R399). -/
def execSetPowerMode (m : Mb) (p : List Byte) (s : State) : Out :=
  .next (runCrity setPowerModeSpec m p (fun s => .ok [] (setPowerMode p s)) s)

/-- A monitor settles: it dipped and is back above warning plus hysteresis (15 R407). -/
def Monitor.settling (x : Monitor) : Bool := x.dipped && !x.below

/-- PWR_BRACE bits [1:0]. -/
def braceBits (s : State) : Nat := b2n s.power.brace + 2 * b2n (s.power.brace && s.power.mons.any Monitor.settling)

/-- One byte of GET_DOMAIN_STATE for an issuer. -/
def domByte (s : State) (src d : Nat) : Nat :=
  let x := s.dom d
  x.st.code + 8 * b2n x.padsHeld + 16 * b2n x.suspended + 32 * b2n (decide (2 ≤ d) && eligibleDom s d)
    + 64 * b2n (x.votes.getLsbD src)

def getDomainStateSpec : CmdSpec where
  opcode := 0xC702
  len := fun n => n == 0
  any := true
  read := true
  lmOwn := true

/-- GET_DOMAIN_STATE (15 R390). -/
def execGetDomainState (m : Mb) (p : List Byte) (s : State) : Out :=
  .next (runCrity getDomainStateSpec m p (fun s => .ok
    ((List.range 44).map (fun d => BitVec.ofNat 8 (domByte s m.src d)) ++ le 1 (b2n s.power.handshake)
      ++ le 1 (braceBits s) ++ zeros 18) s) s)

def getWakeRecordSpec : CmdSpec where
  opcode := 0xC703
  len := fun n => n == 4
  any := true
  read := true
  lmOwn := true
  resv := [(1, 0xFFFFFF)]
  checks := fun p _ => [⟨0, decide (byteAt p 0 ≤ 43), 0x0007⟩]

/-- The 32 bytes of a wake record (15 R403). -/
def wakeRecord (s : State) (d : Nat) : List Byte :=
  let x := s.dom d
  le 1 d ++ le 1 (x.wakeFlag + 8 * b2n x.deferred + 16 * b2n x.failed) ++ le 1 x.voter ++ le 1 0 ++ le 4 x.wakes
    ++ le 8 x.wakeTime ++ le 4 x.latency ++ le 4 x.offSpan ++ le 8 x.offTime

/-- GET_WAKE_RECORD (15 R403). -/
def execGetWakeRecord (m : Mb) (p : List Byte) (s : State) : Out :=
  .next (runCrity getWakeRecordSpec m p (fun s => .ok (wakeRecord s (byteAt p 0)) s) s)

/-! ### Supply monitors -/

/-- Warning level, reset level and hysteresis of monitor r in µV (15, supply monitors; VDD_CORE at 0.75 V). -/
def monLevels (r : Nat) : Nat × Nat × Nat :=
  [(10800000, 9600000, 200000), (10800000, 9600000, 200000), (10800000, 9600000, 200000), (10800000, 9600000, 200000),
   (712500, 690000, 7500), (760000, 736000, 8000), (1045000, 1012000, 11000), (807500, 782000, 8500),
   (1140000, 1104000, 12000), (1710000, 1656000, 18000), (3135000, 2970000, 33000)].getD r (0, 0, 0)

/-- A monitor is below warning, or above it in its settle interval (15 R407, PWR_BRACE.DIPPED). -/
def monDipped (x : Monitor) (now : Nat) : Bool := x.below || (x.dipped && decide (now < x.settleAt + 2 ^ 11))

/-- The group whose INWARN_N a monitor asserts: a rail's dip asserts VG3 (15 R406). -/
def monGroup (r : Nat) : Nat := if r < 4 then r else 3

/-- VGn_INWARN_N is low: the group's dip or settle, or a slot's overload warning (15 R405; 16 R421). -/
def inwarn (s : State) (g : Nat) : Bool :=
  ((List.range 10).any fun r => monGroup r == g && monDipped (s.mon r) s.time.elapsed)
    || ((List.range 48).any fun i => slotGroup i == g && (s.slot i).warn)

/-- A monitor falls below its warning level (15 R406): BRACE for its first dip of this brace, which begins it or joins
it, when jobs between segments return to QUEUED (05 R155); a settle that ran starts again (R407). -/
def supplyWarning (r sample : Nat) (s : State) : State :=
  let first := !(s.mon r).dipped
  let f : Monitor → Monitor := fun x => { x with
    now := sample, below := true, dipped := true
    min := if first then sample else Nat.min x.min sample
    dipStart := if first then s.time.elapsed else x.dipStart }
  let s := s.modMon r f
  let s := refreshHolds (shedBulk { s with power := { s.power with brace := true } })
  if first then raise (srcMonitor r) 0 0xFF .all (le 1 0 ++ le 4 sample) s else s

/-- A monitor watches a supply that is on: a rail's from the end of the main sequence (15 R406; 20 R485). -/
def monitored (s : State) (r : Nat) : Bool :=
  match s.boot.phase with
  | .auxOff => false
  | _ => decide (r < 4) || s.boot.pwrOk

/-- SUPPLY_WARNING (15 R406): monitors 0-9, a sample below the warning level. -/
def execSupplyWarning (mon sample : Nat) (s : State) : Out :=
  onUnit mon 10 (if sample < (monLevels mon).1 ∧ monitored s mon = true then supplyWarning mon sample s else s)

/-- SUPPLY_RECOVER (15 R407): above warning plus hysteresis, the settle interval starts. -/
def execSupplyRecover (mon sample : Nat) (s : State) : Out :=
  let f : Monitor → Monitor := fun x => { x with
    now := sample, below := false, settleAt := s.time.elapsed, dipEnd := s.time.elapsed }
  onUnit mon 10 (if (s.mon mon).below ∧ (monLevels mon).1 + (monLevels mon).2.2 < sample then s.modMon mon f else s)

/-- DIP of each monitor that dipped: KIND, lowest sample, duration (15 R407). -/
def raiseDips (s : State) : State :=
  (List.range 10).foldl (fun t r =>
    let x := s.mon r
    if x.dipped then raise (srcMonitor r) 1 0xFF .all (le 1 1 ++ le 4 x.min ++ le 8 (x.dipEnd - x.dipStart)) t
    else t) s

/-- Deferred wakes start with DEFERRED set (15 R406, R407). -/
def deferredWakes (s : State) : State :=
  (List.range 44).foldl (fun t d => match (t.dom d).dueFlag with
    | some (fl, v) => startWake d fl v true t
    | none => t) s

/-- Every monitor that dipped has been above warning plus hysteresis for 2^11 ticks (15 R407). -/
def settled (s : State) : Bool :=
  s.power.brace && s.power.mons.all fun x =>
    !x.dipped || (!x.below && decide (x.settleAt + 2 ^ 11 ≤ s.time.elapsed))

/-- The end of a brace (15 R407). -/
def endBrace (s : State) : State :=
  let s := raiseDips { s with power := { s.power with brace := false } }
  let clear : Monitor → Monitor := fun x => { x with dipped := false }
  let s := { s with power := { s.power with mons := s.power.mons.map clear } }
  slotsAfterBrace (deferredWakes (refreshHolds s))

/-- BRACE_SETTLE_END (15 R407). -/
def execBraceSettleEnd (s : State) : Out := .next (if settled s then endBrace s else s)

/-- BRACE_LONG at each berth cycle boundary of a brace (15 R407). -/
def braceLong (s : State) : State :=
  if s.power.brace then (List.range 10).foldl (fun t r =>
    let x := s.mon r
    if x.dipped then raise (srcMonitor r) 2 0xFF .all (le 1 2 ++ le 4 x.min) t else t) s
  else s

/-- Offs abandoned or refused are tried again at the berth cycle boundary (15 R397, R399). -/
def retryOffs (s : State) : State :=
  (List.range 44).foldl (fun t d => if (t.dom d).retry then
    arbitrate d (t.modDom d fun x => { x with retry := false }) else t) s

/-- AUX_WARN (15 R409): the event of monitor 10, a log record, and every staged record committed; no brace. -/
def auxWarn (sample : Nat) (s : State) : State :=
  let s := s.modMon 10 fun x => { x with now := sample, min := Nat.min x.min sample }
  let s := raise 1466 3 0xFF .all (le 1 3 ++ le 4 sample) s
  commitLog (stage 0x09 0 0x7FF 1 (le 4 sample) s)

/-- AUX_WARN (15 R409). -/
def execAuxWarn (sample : Nat) (s : State) : Out :=
  .next (if s.boot.phase ≠ .auxOff ∧ sample < 3135000 then auxWarn sample s else s)

end Sys2Proof.Machine
end

