-- ==== Sys2Proof/Machine/HostPorts.lean ====
section
/-! DEFINITION. Host ports: HDM decoders, head resets, link loss, D-states, interrupts masked and pending (09 R245-R268). -/

namespace Sys2Proof.Machine

/-! ### HDM decoders (09 R252, R253) -/

/-- DPA size of a decoder: S ÷ (IW × 2^a). -/
def Decoder.dpaSize (d : Decoder) : Nat := d.size / (d.iw * 2 ^ d.alias2)

/-- DPA_BASE of decoder `i`. -/
def dpaBase (ds : List Decoder) (i : Nat) : Nat :=
  ((ds.take (i + 1)).map (·.skip)).sum + ((ds.take i).map Decoder.dpaSize).sum

/-- The standard interleave decode: the log2(IW) bits above log2(G) are removed. -/
def interleave (iw ig o : Nat) : Nat := o / (ig * iw) * ig + o % ig

/-- Decoder, class and device-local address of a host address; `deflt` is the head's DEFAULT_CLASS (09 R252). -/
def decodeHost (ds : List Decoder) (deflt a : Nat) : Option (Nat × Nat × Nat) :=
  match (List.range 8).find? fun i =>
    let d := ds.getD i {}
    d.committed && decide (d.base ≤ a) && decide (a < d.base + d.size) with
  | some i =>
    let d := ds.getD i {}
    let o := a - d.base
    let wn := d.size / 2 ^ d.alias2
    let cls := if d.alias2 = 0 then deflt else o / wn
    let o' := if d.alias2 = 0 then o else o % wn
    some (i, cls, dpaBase ds i + interleave d.iw d.ig o')
  | none => none

/-- Why a commit fails (event DECODER_COMMIT_FAIL), if it does. -/
def commitFails (s : State) (h i : Nat) (d : Decoder) (cxlOk : Bool) : Option Nat :=
  let ds := (s.head h).decoders.set i d
  let base := dpaBase ds i
  let wn := d.size / 2 ^ d.alias2
  if d.alias2 ≠ 0 ∧ d.size ≠ 2 ^ d.size.log2 then some 0
  else if wn < 2 ^ 28 * d.iw then some 1
  else if s.map.geo.offeredGib * gib < base + d.dpaSize then some 2
  else if (List.range 8).any (fun j => j != i && (ds.getD j {}).committed &&
      (let b := dpaBase ds j
       decide (b < base + d.dpaSize) && decide (base < b + (ds.getD j {}).dpaSize))) then some 3
  else if !cxlOk || !([1, 2, 4, 8, 16].contains d.iw) || !([256, 512, 1024, 2048, 4096, 8192, 16384].contains d.ig) then some 4
  else none

/-- BAR0 of the head answers: link up, not in D3hot, no reset under way (09 R251, R265). -/
def bar0On (s : State) (h : Nat) : Bool := headUp s h && !(s.head h).d3 && !(s.head h).resetting

/-- HDM_DECODER_COMMIT (09 R253). -/
def hdmCommit (h i : Nat) (c : HdmCfg) (s : State) : State :=
  let old := (s.head h).decoders.getD i {}
  if !bar0On s h || decide (8 ≤ i) || old.committed then s
  else
    let d : Decoder := { old with
      base := c.base, size := c.size, iw := c.iw, ig := c.ig, pos := c.pos, skip := c.skip, lock := c.lock
      committed := true, notCommitted := false }
    match commitFails s h i d c.cxlOk with
    | none => s.modHead h fun x => { x with decoders := x.decoders.set i d }
    | some k =>
      raiseHead h 8 (le 1 i ++ le 1 k)
        (s.modHead h fun x => { x with decoders := x.decoders.set i { old with notCommitted := true } })

def execHdmDecoderCommit (head dec : Nat) (cfg : HdmCfg) (s : State) : Out := onUnit head 8 (hdmCommit head dec cfg s)

/-- HDM_DECODER_UNCOMMIT (09 R253): a decoder locked on commit stays until a reset. -/
def execHdmDecoderUncommit (head dec : Nat) (s : State) : Out :=
  let d := (s.head head).decoders.getD dec {}
  onUnit head 8 (if bar0On s head ∧ dec < 8 ∧ d.committed = true ∧ d.lock = false then
      s.modHead head fun x => { x with decoders := x.decoders.set dec { alias2 := d.alias2 } }
    else s)

/-- WHD_ALIAS_WRITE (09 R253): ignored while the decoder is committed. -/
def execWhdAliasWrite (head dec : Nat) (value : BitVec 32) (s : State) : Out :=
  let d := (s.head head).decoders.getD dec {}
  onUnit head 8 (if headUp s head ∧ (s.head head).resetting = false ∧ dec < 8 ∧ d.committed = false then
      s.modHead head fun x => { x with decoders := x.decoders.set dec { d with alias2 := value.toNat % 4 } }
    else s)

/-! ### Directory presence without a link loss (09 R249) -/

/-- Clearing BI Enable while the head holds lines: its presence goes and its unanswered snoops count as BIRspI; what it has
outstanding leaves no presence any more (log 66). -/
def dropPresence (h : Nat) (s : State) : State :=
  let lines := (s.dir.snoops.filter fun x => x.head == h && remoteLine s x.line).map (·.line)
  let f : Txn → Txn := fun t => { t with pres := t.pres &&& ~~~ (headBit h), kept := t.kept &&& ~~~ (headBit h) }
  let ents := (s.dir.ents.map fun x => (x.1, x.2.dropHead h)).filter fun x => !x.2.isFree
  let plain : Req → Req := fun r => if r.head = h then { r with db := false } else r
  let s : State := { s with
    dir := { s.dir with ents := ents, txns := s.dir.txns.map f }, req := { s.req with reqs := s.req.reqs.map plain } }
  let s := (s.dir.snoops.filter fun x => x.head == h).foldl (fun t x => answerSnoop x .i t) s
  let s := s.modChain fun c => { c with visitor := c.visitor.map fun x => { x with
    pres := x.pres &&& ~~~ (headBit h), anyHead := if x.anyHead = some h then none else x.anyHead } }
  lines.foldl (fun t l => visitorProgress l t) s

/-- BI_ENABLE_WRITE (09 R249). -/
def biEnable (h : Nat) (enable biId : Bool) (s : State) : State :=
  if !bar0On s h then s
  else
    let was := (s.head h).biActive
    let s := s.modHead h fun x => { x with biEnable := enable, biId := biId }
    if was && !(s.head h).biActive then dropPresence h s else s

def execBiEnableWrite (head : Nat) (enable biId : Bool) (s : State) : Out := onUnit head 8 (biEnable head enable biId s)

/-! ### What a head loses with its link or at a reset (05 R154, R156; 09 R265, R266) -/

/-- RESUMABLE jobs of the head are cancelled and its notifications go. -/
def dropJobs (h : Nat) (s : State) : State :=
  let f : Job → Job := fun j =>
    if j.issuer = h ∧ j.st = .resumable then { j with st := .cancelled, time := s.time.chain, stopped := s.time.elapsed } else j
  { s with codec := { s.codec with
    jobs := s.codec.jobs.map f, notes := s.codec.notes.set h [], notesLost := s.codec.notesLost.set h false } }

/-- DL_Down of a head that was up (09 R266), with the cause of its LINK_DOWN event. -/
def headDown (h cause : Nat) (s : State) : State :=
  if (s.head h).up then
    let s := dropJobs h (dropHead h s)
    let s := s.modHead h fun x => { x with
      up := false, width := 0, rate := 0, pme := false, ide := x.ide.map fun i => { i with keyed := false, secure := false } }
    raiseHead h 1 (le 1 cause) s
  else s

/-- HEAD_LINK_DOWN (09 R250, R266): after PME_Turn_Off the cause is 7. -/
def execHeadLinkDown (head cause : Nat) (s : State) : Out :=
  onUnit head 8 (headDown head (if (s.head head).pme then 7 else cause) s)

/-- The votes of a head (15 R394) go with its reset. -/
def dropVotes (h : Nat) (s : State) : State := (List.range 44).foldl (fun t d =>
  if (t.dom d).votes.getLsbD h then withdrawVote d h t else t) s

/-- What a reset clears for a head (09 resets table, R265): `conv` also the link, decoders, aliases and IDE streams. -/
def resetHead (conv : Bool) (h : Nat) (s : State) : State :=
  let s := dropVotes h (dropJobs h (dropHead h s))
  let s : State := { s with held := s.held.filter fun c => c.m.src != h }
  let f : Head → Head := fun x =>
    let y : Head := {
      present := x.present, viral := x.viral, resetting := true, bg := if x.bg.busy then { x.bg with discard := true } else {} }
    if conv then y
    else { y with up := x.up, width := x.width, rate := x.rate, decoders := x.decoders, ide := x.ide, memActive := x.memActive }
  resetIdle h (s.modHead h f)

/-- A conventional reset (09 R265): the link goes down with it. -/
def convReset (h cause : Nat) (s : State) : State :=
  let up := (s.head h).up
  let s := resetHead true h s
  if up then raiseHead h 1 (le 1 cause) s else s

def execFunctionLevelReset (head : Nat) (s : State) : Out := onUnit head 8 (if headUp s head then resetHead false head s else s)

/-- CXL_RESET: as FLR; Mem Clr capable reads 0 (09, resets table). -/
def execCxlReset (head : Nat) (s : State) : Out := onUnit head 8 (if headUp s head then resetHead false head s else s)

def execHotReset (head : Nat) (s : State) : Out := onUnit head 8 (if (s.head head).present then convReset head 2 s else s)
def execLinkDisable (head : Nat) (s : State) : Out := onUnit head 8 (if (s.head head).present then convReset head 3 s else s)

/-- HP_PERST_ASSERT (09 R246): a conventional reset of both heads. -/
def execHpPerstAssert (port : Nat) (s : State) : Out :=
  onUnit port 4 (
    let t := convReset (2 * port + 1) 1 (convReset (2 * port) 1 s)
    setVote (domHP port) 11 false { t with host := { t.host with perst := t.host.perst.set port true } })

/-- HP_PERST_DEASSERT (09 R245): the strap is sampled, and the standing vote wakes the port's domain (15, votes). -/
def perstDeassert (port : Nat) (bifur : Bool) (s : State) : State :=
  if s.host.perst.getD port true then
    let s : State := { s with host := { s.host with
      perst := s.host.perst.set port false, bifur := s.host.bifur.set port bifur } }
    let s := (s.modHead (2 * port) fun x => { x with present := true }).modHead (2 * port + 1) fun x => { x with present := bifur }
    setVote (domHP port) 11 true s
  else s

def execHpPerstDeassert (port : Nat) (bifur : Bool) (s : State) : Out := onUnit port 4 (perstDeassert port bifur s)

/-- A head may train: present, out of reset, its port's domain On with its pads released (09 R266; 15 R402). -/
def mayTrain (s : State) (h : Nat) : Bool :=
  (s.head h).present && !(s.head h).resetting && !(s.host.perst.getD (portOf h) true) && (s.dom (domHP (portOf h))).st == .on
    && !(s.dom (domHP (portOf h))).padsHeld

/-- Widths and rates at which a head trains (09 R248, features). -/
def linkShape (full width rate : Nat) : Bool :=
  [1, 2, 4, 8, 16].contains width && decide (width ≤ full) && [8, 16, 32, 64].contains rate

/-- HEAD_LINK_UP (09 R248, R266). -/
def headLinkUp (h width rate : Nat) (s : State) : State :=
  let full := if s.host.bifur.getD (portOf h) false then 8 else 16
  if !mayTrain s h || (s.head h).up || !linkShape full width rate then s
  else
    let s := s.modHead h fun x => { x with 
      up := true, width := width, rate := rate, pme := false, memActive := s.boot.mediaReady && s.boot.devReset.isNone }
    let s := raiseHead h 2 (le 1 width ++ le 1 rate ++ le 1 (b2n (s.head h).flit256)) (s.emit (.credits h))
    if width < full ∨ rate < 64 then raiseHead h 3 (le 1 width ++ le 1 full ++ le 1 rate ++ le 1 64) s else s

def execHeadLinkUp (head width rate : Nat) (s : State) : Out := onUnit head 8 (headLinkUp head width rate s)

/-! ### Power states and messages -/

/-- Pending vectors that are unmasked are sent (18 R466). -/
def flushMsi (h : Nat) (s : State) : State :=
  (List.range 64).foldl (fun t v =>
    if (t.head h).msiPend.getLsbD v ∧ (t.head h).mask.getLsbD v = false ∧ (t.head h).d3 = false then
      (t.modHead h fun x => { x with msiPend := x.msiPend &&& ~~~ (BitVec.ofNat 64 (2 ^ v)) }).emit (.msix h v)
    else t) s

def execD3hotEntry (head : Nat) (s : State) : Out :=
  onUnit head 8 (if headUp s head then s.modHead head fun x => { x with d3 := true } else s)

/-- D0_ENTRY (09 R251): not a reset; vectors that became pending are sent. -/
def execD0Entry (head : Nat) (s : State) : Out :=
  onUnit head 8 (if headUp s head then flushMsi head (s.modHead head fun x => { x with d3 := false }) else s)

/-- PME_TURN_OFF (09 R250). -/
def execPmeTurnOff (head : Nat) (s : State) : Out :=
  onUnit head 8 (if headUp s head then (s.modHead head fun x => { x with pme := true }).emit (.pmeToAck head) else s)

def execViralReceived (head : Nat) (s : State) : Out := onUnit head 8 (if headUp s head then raiseHead head 7 [] s else s)

/-- IDE_INTEGRITY_FAILURE (09, source table): the event, and the link goes down. -/
def execIdeIntegrityFailure (head stream substream : Nat) (s : State) : Out :=
  onUnit head 8 (if headUp s head then headDown head 4 (raiseHead head 5 (le 1 stream ++ le 1 substream) s) else s)

/-- SNOOP_TIMEOUT (07 R210): the event, and the head's link is taken down. -/
def execSnoopTimeout (head line : Nat) (s : State) : Out :=
  onUnit head 8 (match s.dir.snoops.find? fun x => x.head == head && x.line == line with
    | some x =>
      if x.since + 2 ^ s.slu.cfg.snoopLimit.getD head 17 ≤ s.time.elapsed then
        headDown head 5 (raiseAddrOf head 130 (64 * line) (le 1 head ++ le 8 line) s)
      else s
    | none => s)

end Sys2Proof.Machine
end

