-- ==== Sys2Proof/Machine/Requests.lean ====
section
/-! DEFINITION. Host requests and the path of every request: decode, dispatch, directory grants, map walks, reads and writes of
the media (01 R11-R28; 07 R192-R207; 09 R252). -/

namespace Sys2Proof.Machine

/-! ### Step 1 (01 R11, R12; 06 R161, R188; 09 R252) -/

/-- Why a decoded address is refused (event ACCESS_VIOLATION), if it is. -/
def violation (s : State) (h a : Nat) : Option Nat :=
  if s.map.geo.offeredGib * gib ≤ a then some 1
  else if s.keys.sanitize.isSome then some 4
  else match rangeAt s a with
    | none => some 3
    | some r => if (s.range r).mask.getLsbD h then none else some 2

/-- The class and device-local line that the decoders give a request. -/
def Req.routed (r : Req) (cls dpa : Nat) : Req := { r with cls := cls, line := dpa / 64 }

/-- What a host request is charged in its sluice: a read 64 bytes, a write 128 (08 R223). -/
def ReqKind.charge (k : ReqKind) : Nat := if k.isWrite then 128 else 64

/-- A request that its head's decoders admit: refused as a violation `v`, or into its sluice (01 R11, R12). -/
def routeReq (v : Option Nat) (h a dec cls : Nat) (r : Req) (s : State) : State :=
  match v with
  | some k => raiseHead h 0 (le 8 a ++ le 1 dec ++ le 1 k) (refuseReq r s)
  | none => arrive (8 * h + cls) ⟨r.id, r.kind.charge, r.line⟩ (addReq r s)

/-- A request of a head arrives: it is completed at once where R12 says so, or by a halted device; else it goes to the sluice of
its head's master and class. -/
def memRequest (h : Nat) (kind : ReqKind) (mv : MetaVal) (a : Nat) (d : Line) (mask : BitVec 64) (poison : Bool) (s : State) :
    State :=
  let r : Req := {
    id := s.req.next, kind := kind, mv := mv, head := h, cls := 0, line := a / 64, data := d, mask := mask, poison := poison
    db := (s.head h).biActive, since := s.time.elapsed }
  if !headUp s h then s
  else if s.flt.halted then haltAnswer s r
  else match decodeHost (s.head h).decoders (s.slu.cfg.defClass.getD h 0) a with
    | none => raiseHead h 0 (le 8 a ++ le 1 0xFF ++ le 1 0) (refuseReq r s)
    | some (dec, cls, dpa) => routeReq (violation s h dpa) h a dec cls (r.routed cls dpa) s

def execMemRd (head : Nat) (mv : MetaVal) (addr : Nat) (s : State) : Out :=
  onUnit head 8 (memRequest head .rd mv addr 0 (BitVec.allOnes 64) false s)
def execMemRdData (head addr : Nat) (s : State) : Out :=
  onUnit head 8 (memRequest head .rdData .any addr 0 (BitVec.allOnes 64) false s)
def execMemInv (head : Nat) (mv : MetaVal) (addr : Nat) (s : State) : Out :=
  onUnit head 8 (memRequest head .inv mv addr 0 (BitVec.allOnes 64) false s)
def execMemInvNt (head addr : Nat) (s : State) : Out :=
  onUnit head 8 (memRequest head .invNt .invalid addr 0 (BitVec.allOnes 64) false s)
def execMemClnEvct (head addr : Nat) (s : State) : Out :=
  onUnit head 8 (memRequest head .clnEvct .invalid addr 0 (BitVec.allOnes 64) false s)
def execMemWr (head : Nat) (mv : MetaVal) (addr : Nat) (data : Line) (poison : Bool) (s : State) : Out :=
  onUnit head 8 (memRequest head .wr mv addr data (BitVec.allOnes 64) poison s)
def execMemWrPtl (head : Nat) (mv : MetaVal) (addr : Nat) (data : Line) (mask : BitVec 64) (s : State) : Out :=
  onUnit head 8 (memRequest head .wrPtl mv addr data mask false s)

/-- MEM_SPEC_RD (07 R199): a hint; it changes no state and gets no response. -/
def execMemSpecRd (head _addr : Nat) (s : State) : Out := onUnit head 8 s

/-- The directory has ordered the request: it is granted and not complete. -/
def orderedReq (s : State) (r : Req) : Bool :=
  (txnOf s r.id).isSome || (match r.st with | .sluice | .queued => false | _ => true)

/-- BI_CONFLICT (07 R200). -/
def biConflict (h a : Nat) (s : State) : State :=
  if !headUp s h then s
  else match decodeHost (s.head h).decoders (s.slu.cfg.defClass.getD h 0) a with
    | none => sendHead h (.ndr h (a / 64) .biConflictAck (devLoad s h)) s
    | some (_, _, dpa) =>
      let l := dpa / 64
      if s.req.reqs.any fun r => r.head == h && r.line == l && !r.kind.isWrite && orderedReq s r then
        { s with dir := { s.dir with conflicts := s.dir.conflicts ++ [(h, l)] } }
      else sendHead h (.ndr h l .biConflictAck (devLoad s h)) s

def execBiConflict (head addr : Nat) (s : State) : Out := onUnit head 8 (biConflict head addr s)

/-- BI_RSP (07 R201). -/
def execBiRsp (head line : Nat) (rsp : BiRspKind) (s : State) : Out := onUnit head 8 (headRsp head line rsp s)

/-! ### Steps 2 to 4 -/

/-- A dispatched request goes on: to its window or to the directory (01 R11 steps 3 and 4). -/
def enterPath (r : Req) (s : State) : State :=
  let s : State := { s with req := { s.req with reqs := s.req.reqs.filter (·.id != r.id) ++ [r] } }
  if !r.isChain && (importOf s r.line).isSome then visitorStage r.id false s else dirAccess r.id s

/-- Writes in the tier engine that have not entered the in-flight write table. -/
def writesInside (s : State) : Nat := s.req.reqs.countP fun r => r.kind.isWrite && r.st.storing

/-- A request of a head finds an entry of the pending queue if it must wait, as `k` others may: a shared one, or one of the head's
128 (07 R207). -/
def pendingOpen (s : State) (k : Nat) (r : Req) : Bool :=
  r.isChain || decide (sharedUsed s + k < 1024) || decide (s.dir.pq.countP (fun q => q.reserved == some r.head) + k < 128)

/-- The scheduler dispatches one request (08 R229-R231). The tier engine takes no new write while the in-flight write table is full
(01 R21), and no request that could need an entry of the full pending queue (07 R207); `k` others of its cycle go before it. -/
def dispatchOne (k : Nat) (s : State) : Option Req × State :=
  match choose s with
  | none => (none, s)
  | some (i, t) =>
    match (s.sluice i).queue with
    | [] => (none, s)
    | q :: _ =>
      match s.req? q.rid with
      | none => (none, takeFront i t s)
      | some r =>
        if pendingOpen s k r = false ∨ r.kind.isWrite ∧ 4096 ≤ s.req.ifwt.length + writesInside s + k then (none, s)
        else (some r, takeFront i t s)

/-- Position of a requester under the directory's pointer: the heads, then SK0 and SK1 (07 R202). -/
def pointerOrder (ptr : Nat) (rs : List Req) : List Req :=
  ((List.range 10).map fun k => rs.filter fun r => r.head == (ptr + k) % 10).flatten ++ rs.filter fun r => decide (10 ≤ r.head)

/-- A writeback of a head that the entry names (07 R202). -/
def isWriteback (s : State) (r : Req) : Bool :=
  !r.isChain && r.kind.isWrite && r.mv == .invalid && (s.dirEnt r.line).pres.getLsbD r.head

/-- The order of the requests of one directory cycle: writebacks first, then the others, both in rotating order from where the
pointer stands (07 R202). -/
def cycleOrder (s : State) (rs : List Req) : List Req :=
  pointerOrder s.dir.ptr (rs.filter (isWriteback s)) ++ pointerOrder s.dir.ptr (rs.filter fun r => !isWriteback s r)

/-- What `n` dispatches bring to the directory in one cycle, after `rs`. -/
def cycleRequests : Nat → List Req → State → List Req × State
  | 0, rs, s => (rs, s)
  | n + 1, rs, s =>
    match dispatchOne rs.length s with
    | (some r, t) => cycleRequests n (rs ++ [r]) t
    | (none, t) => (rs, t)

/-- Dispatch of `1 + more` requests, which reach the directory in one cycle and act in the order of 07 R202. -/
def dispatch (more : Nat) (s : State) : State :=
  let x := cycleRequests (1 + more) [] s
  (cycleOrder x.2 x.1).foldl (fun t r => if (t.req? r.id).isSome then enterPath r t else t) x.2

/-- SCHEDULER_DISPATCH (08 R229). How many requests share its cycle is a free value (log 66). -/
def execSchedulerDispatch (s : State) : Out :=
  .next (if s.flt.halted || s.boot.devReset.isSome then s
    else dispatch (Config.cycleMates s.free) { s with free := s.free + 1 })

/-- PENDING_QUEUE_GRANT (07 R203): the oldest waiter of a line that is not busy. -/
def execPendingQueueGrant (line : Nat) (s : State) : Out := .next (grantWaiter line s)

/-- SET_WAIT_RETRY (07 R206). -/
def execSetWaitRetry (set : Nat) (s : State) : Out := .next (retrySet set s)

/-- MAP_WALK_COMPLETE (01 R15): the walker has what it read. -/
def execMapWalkComplete (page : Nat) (s : State) : Out :=
  .next (if s.req.reqs.any (fun r => r.st == .walk && r.line / 64 == page) && !walking s page then walkDone page s else s)

/-! ### Steps 6 and 7 -/

/-- An injected check failure (19 R482, checker table): SCOPE 0 one device, SCOPE 1 the whole copy. -/
def injectLine (slot page : Nat) (out : ReadOutcome) (s : State) : ReadOutcome × State :=
  match out, armedFor 0x01 slot page s with
  | .good, some a => (if a.scope1 then .bad else .chipFix 0, useArmed a s)
  | o, _ => (o, s)

/-- An injected block check failure (19 R482): checker 0x02, or 0x03 for a raw block. -/
def injectBlock (raw : Bool) (slots : List Nat) (page : Nat) (out : ReadOutcome) (s : State) : ReadOutcome × State :=
  let c := if raw then 0x03 else 0x02
  match out, slots.find? fun i => (armedFor c i page s).isSome with
  | .good, some i => (match armedFor c i page s with
    | some a => (.bad, useArmed a s)
    | none => (out, s))
  | o, _ => (o, s)

/-- Data of a block arrives from its own chunks. -/
def blockArrives (r : Req) (missing checked quiet : Bool) (out : ReadOutcome) (s : State) : State :=
  match r.src_ with
  | some (tier, loc) =>
    let e := { s.page (r.line / 64) with tier := tier, loc := loc }
    let slots := (blockChunks s e).map (chunkSlot s tier loc)
    let x := injectBlock (decide (16 ≤ e.size)) slots (r.line / 64) out s
    blockReturn r 0 missing checked quiet x.1 x.2
  | none => s

/-- DRAM_READ_RETURN: a line from its first copy, the sideband of a line to be written, or the sectors of a warm block (01 R19,
R20, R23; 04 R104; 06 R186). A command that has not been issued to its channel returns nothing. -/
def dramReturn (rid : Nat) (out : ReadOutcome) (s : State) : State :=
  let s := eccOp 0x0C none 580 [] s
  match (s.req? rid).filter fun _ => !readWaits s rid with
  | some r =>
    (match r.st with
    | .sideband ovl f c again => sideReturn r ovl f c again out s
    | .line c 1 bad missing =>
      let x := injectLine (frameDimm s c (readFrom r)) (r.line / 64) out s
      lineReturn r c 1 bad missing x.1 x.2
    | .block 0 missing checked quiet => if r.cid.isSome then s else blockArrives r missing checked quiet out s
    | _ => s)
  | none => s

def execDramReadReturn (rid : Nat) (out : ReadOutcome) (s : State) : Out := .next (dramReturn rid out s)

/-- DEGRADED_FETCH_RETURN: a later step of the ladder (04 R104). -/
def degradedReturn (rid : Nat) (out : ReadOutcome) (s : State) : State :=
  match (s.req? rid).filter fun _ => !readWaits s rid with
  | some r =>
    (match r.st with
    | .line c n bad missing => if 2 ≤ n then lineReturn r c n bad missing out s else s
    | .block t missing checked quiet => if 1 ≤ t ∧ t < 1000 then blockReturn r t missing checked quiet out s else s
    | _ => s)
  | none => s

def execDegradedFetchReturn (rid : Nat) (out : ReadOutcome) (s : State) : Out := .next (degradedReturn rid out s)

/-- DRAM_WRITE_ACCEPTED: the write has been accepted by its channels (01 R20; 13 R362), which have room for it, as the in-flight
write table has (01 R21; 10 R283). A chain write performed meanwhile under
the same write tag is not performed again. -/
def writeAccepted (rid : Nat) (s : State) : State :=
  let s := eccOp 0x0C none 580 [] s
  match s.req? rid with
  | some r =>
    (match r.st with
    | .write ovl minor f =>
      if acceptOpen s f = false then s
      else
      let s := if isDup s r then s
        else
          let s := acceptWrite r ovl minor f s
          if r.isChain then enterDup r s else s
      wakeOrdered r.line (finishWrite r s)
    | _ => s)
  | none => s

def execDramWriteAccepted (rid : Nat) (s : State) : Out := .next (writeAccepted rid s)

/-- RETRY_BUFFER_RETIRE (10 R292; 01 R21). -/
def execRetryBufferRetire (chan : Nat) (s : State) : Out :=
  onUnit chan 16 (if (s.chan chan).replaying then s else retireRetry chan s)

/-- WAITING_WRITE_RESUME (03 R80; 06 R179): the page's waiting writes are tried again. -/
def execWaitingWriteResume (page : Nat) (s : State) : Out :=
  .next (
    let s := if overlayCount s < ovlHardLimit s then { s with map := { s.map with ovlFull := false } } else s
    wakeWaiting page s)

end Sys2Proof.Machine
end

