-- ==== Sys2Proof/Machine/CodecRows.lean ====
section
/-! DEFINITION. Codec engines at work: items that end, watchdogs, self-tests, engines that become suspect, clusters that are
rolled (05 R129-R145; 17 R447). -/

namespace Sys2Proof.Machine

/-! ### Engines that leave service (05 R132-R134) -/

/-- A request's sectors are fetched again for another engine (05 R133). -/
def refetch (rid : Nat) (s : State) : State :=
  match s.req? rid with
  | some r =>
    (match r.src_ with
    | some (1, loc) => readWarm r loc (s.page (r.line / 64)).size s
    | some (2, loc) => readCold r loc s
    | _ => s)
  | none => s

/-- The items of an engine go to others; of a decompression under way the sectors are fetched again (05 R133). -/
def redistribute (e : Nat) (s : State) : State :=
  let x := s.engine e
  let s := s.modEngine e fun g => { g with now := none, dec := [], comp := [], seg := none }
  let s := match x.now with
    | some i => if i.dec then refetch i.id s else startCompress i.page s
    | none => s
  let s := x.dec.foldl (fun t i => startDecode i.id i.page i.first t) s
  x.comp.foldl (fun t i => startCompress i.page t) s

/-- An engine goes to SUSPECT (05 R133, R134). -/
def makeSuspect (e : Nat) (s : State) : State :=
  if (s.engine e).st = .inService then codecUnavailable (redistribute e (setEngine e .suspect s)) else s

/-- A verification mismatch or a decode failure is charged; the third of a berth cycle makes the engine suspect (05 R134). -/
def chargeEngine (e : Nat) (s : State) : State :=
  let s := s.modEngine e fun x => { x with fails := x.fails + 1 }
  if 3 ≤ (s.engine e).fails then makeSuspect e s else s

/-- A read that waited for an engine is sent to one (05 R135). -/
def resendDecode (t : State) (r : Req) : State :=
  match r.st with
  | .codecWait first => startDecode r.id (r.line / 64) first t
  | _ => t

/-- Items that waited for an engine are sent out (05 R135). -/
def resumeCodec (s : State) : State :=
  if (servingEngines s none).isEmpty then s
  else
    let l := s.req.reqs.filter fun r => match r.st with | .codecWait _ => true | _ => false
    let s := l.foldl resendDecode s
    let busy := fun p => s.codec.engines.any fun x => (x.now.toList ++ x.comp).any fun i => !i.dec && i.page == p
    let need := s.map.locks.filter fun l =>
      l.reading && l.block.isNone && l.tier != 0 && needsBlock s l && !zeroResult s l && !busy l.page
    need.foldl (fun t l => startCompress l.page t) { s with codec := { s.codec with unavailable := false } }

/-! ### Items that end (05 R137-R144) -/

/-- An item event at the counters, with the item's master (19, events 0x18 to 0x1C). -/
def codecEvent (event e page master : Nat) (s : State) : State :=
  pmcCount { evOf event master 0 with unit := e, addr := 4096 * page, addrValid := true } s

/-- The master of a compression: the mover that holds the page. -/
def compressMaster (s : State) (page : Nat) : Nat := ((lockOf s page).map fun l => moverMaster l.kind).getD 10

/-- An in-line decompression ends: the page is held and its request answered. -/
def decoded (e : Nat) (i : Item) (s : State) : State :=
  let s := codecEvent 0x18 e i.page (((s.req? i.id).map (·.head)).getD 0) (holdPage e i.page s)
  match s.req? i.id with
  | some r => (match r.st with | .codec _ _ => finishReadMem r s | _ => s)
  | none => s

/-- A decode failure after a matching MAC (05 R142): another cluster's engine tries once; then the read returns poison. -/
def decodeFail (e : Nat) (i : Item) (s : State) : State :=
  match i.first with
  | none =>
    let s := startDecode i.id i.page (some e) (s.modReq i.id fun r => { r with failed := some e })
    let has := fun k => (s.engine k).now.toList ++ (s.engine k).dec
    let retry := ((List.range 32).find? fun k => (has k).any fun x => x.dec && x.id == i.id && x.first == some e).getD 0xFF
    chargeEngine e (raiseAddr (srcCodec e 3) (4096 * i.page) (le 8 i.page ++ le 1 retry) s)
  | some f =>
    let line := ((s.req? i.id).map fun r => r.line % 64).getD 0
    let s := raiseAddr (srcCodec e 3) (4096 * i.page) (le 8 i.page ++ le 1 e) s
    let s := raiseAddr 328 (4096 * i.page) (le 8 i.page ++ le 1 line ++ le 1 f ++ le 1 e) s
    let s := match s.req? i.id with
      | some r => (match r.st with | .codec _ _ => finishPoison r s | _ => s)
      | none => s
    chargeEngine e s

/-- The stream of a page's block decodes to a page (05 R137); a raw block has none. -/
def streamDecodes (s : State) (p : Nat) : Bool :=
  match (s.page p).block with
  | some b => b.made.size == 16 || (inflatePage b.made.stream).isSome
  | none => true

/-- What an engine made of a page is kept with the page's lock until its block is committed. -/
def setBlock (page : Nat) (b : BlockMade) (s : State) : State :=
  let f : Lock → Lock := fun l => if l.page = page then { l with block := some b } else l
  { s with map := { s.map with locks := s.map.locks.map f } }

/-- While the mode is forced static, a page for which the adaptive rule would choose dynamic codes is an override of loop 2,
except under a brace (05 R144, R145). -/
def staticOverride (page : Nat) (s : State) : State :=
  match keyRangeOf s (4096 * page) with
  | some r =>
    let k := s.range r
    if k.codecStatic && wantsDynamic k && !s.power.brace then countOverride 2 s else s
  | none => s

/-- A compression and its verification end (05 R138, R141, R143-R145). -/
def compressed (e page : Nat) (s : State) : State :=
  let b := makeBlock s e page
  let m := compressMaster s page
  let s := codecEvent (if b.dynamic then 0x1A else 0x19) e page m (staticOverride page s)
  setBlock page b (if b.size = 16 then codecEvent 0x1B e page m s else s)

/-- VERIFY_MISMATCH (05 R141): the page is stored raw, and the mismatch is charged. -/
def mismatch (e page : Nat) (s : State) : State :=
  let r := (rangeAt s (4096 * page)).getD 0xFF
  let b := rawBlock s e page
  let s := raiseAddr (srcCodec e 0) (4096 * page) (le 8 page ++ le 1 r) (staticOverride page s)
  let m := compressMaster s page
  let s := codecEvent 0x1B e page m (codecEvent 0x1C e page m s)
  chargeEngine e (setBlock page b s)

/-- The engine is free of its item, and starts the next (05 R129). -/
def freeEngine (e : Nat) (s : State) : State := startItem e (s.modEngine e fun x => { x with now := none })

/-- CODEC_ITEM_COMPLETE: the engine's item under way ends (05 R129), unless a perturbation still stalls it (19). An injected verify failure makes a compression fail its
check (19 R482). -/
def itemComplete (e : Nat) (res : CodecResult) (s : State) : State :=
  match (if stalled s e then none else (s.engine e).now) with
  | none => s
  | some i =>
    match i.dec, res with
    | true, .decoded =>
      let ok := streamDecodes s i.page
      let s := freeEngine e s
      if ok then decoded e i s else decodeFail e i s
    | true, .decodeFail => decodeFail e i (freeEngine e s)
    | false, .compressed =>
      let s := freeEngine e s
      (match armedFor 0x0B e i.page s with
      | some a => mismatch e i.page (useArmed a s)
      | none => compressed e i.page s)
    | false, .verifyMismatch => mismatch e i.page (freeEngine e s)
    | _, _ => s

def execCodecItemComplete (engine : Nat) (res : CodecResult) (s : State) : Out := onUnit engine 32 (itemComplete engine res s)

/-- CODEC_WATCHDOG_EXPIRE (05 R133): kind 0 decompression, 1 compression, 2 bulk segment. -/
def watchdog (e : Nat) (s : State) : State :=
  let x := s.engine e
  if x.st ≠ .inService then s
  else match x.now, x.seg with
    | some i, _ => makeSuspect e (raiseAddr (srcCodec e 1) (4096 * i.page) (le 1 (if i.dec then 0 else 1) ++ le 8 i.page) s)
    | none, some j => makeSuspect e (raiseAll (srcCodec e 1) 0 (le 1 2 ++ le 8 j) s)
    | none, none => s

def execCodecWatchdogExpire (engine : Nat) (s : State) : Out := onUnit engine 32 (watchdog engine s)

/-- CODEC_SELF_TEST_START (05 R132): Keeper firmware starts the test of a suspect engine. -/
def execCodecSelfTestStart (engine : Nat) (s : State) : Out :=
  onUnit engine 32 (if (s.engine engine).st = .suspect ∧ keeperOff s = false then setEngine engine .testing s else s)

/-- CODEC_SELF_TEST_DONE (05 R132): pass clears the counts. -/
def execCodecSelfTestDone (engine : Nat) (pass : Bool) (s : State) : Out :=
  onUnit engine 32 (if (s.engine engine).st = .testing then
      if pass then resumeCodec ((setEngine engine .inService s).modEngine engine fun x => { x with fails := 0 })
      else codecUnavailable (setEngine engine .failed s)
    else s)

/-! ### Rolling (17 R447) -/

/-- The engines of a cluster. -/
def clusterEngines (c : Nat) : List Nat := (List.range 8).map fun i => 8 * c + i

/-- A cluster is rolled (17 R447): no new item reaches it, its items in hand finish, its engines are tested with the new
microcode. -/
def rollCluster (c : Nat) (s : State) : State :=
  (clusterEngines c).foldl (fun t e => if (t.engine e).st = .off then t else setEngine e .testing t) s

/-- The roll of a cluster ends: engines that pass return to service, the others become FAILED. -/
def rollDone (c : Nat) (pass : BitVec 8) (s : State) : State :=
  let s := (clusterEngines c).foldl (fun t e =>
    if (t.engine e).st = .off then t
    else
      let t := redistribute e (t.modEngine e fun x => { x with slots := [], fails := 0 })
      setEngine e (if pass.getLsbD (e % 8) then .inService else .failed) t) s
  resumeCodec (codecUnavailable s)

/-! ### Domains that wake (05 R135; 15 R402) -/

/-- PAD_RELEASE (15 R402): Keeper firmware has written the domain's configuration again. Items that waited for an engine go on
(05 R135). -/
def execPadRelease (dom : Nat) (s : State) : Out :=
  onUnit dom 44 (if (s.dom dom).st = .on ∧ (s.dom dom).padsHeld = true ∧ s.boot.phase.keeper = true then
      resumeCodec (domainReady dom (s.modDom dom fun x => { x with padsHeld := false }))
    else s)

end Sys2Proof.Machine
end

