-- ==== Sys2Proof/Machine/Slots.lean ====
section
/-! DEFINITION. Hot-plug slots and electronic fuses (16 R410-R430). -/

namespace Sys2Proof.Machine

/-- Ticks of `n` tenths of a millisecond. -/
def tenthMs (n : Nat) : Nat := n * 2 ^ 24 / 10000

/-- Raise event KIND `k` of slot `i` (16, event sources). -/
def raiseSlot (i k : Nat) (contents : List Byte) (s : State) : State := raise (srcSlot i) k 0xFF .all contents s

/-- Enter a state: the chain time of the change and the local time of the entry are kept. -/
def Slot.enter (x : Slot) (s : State) (st : SlotSt) : Slot :=
  { x with st := st, changeTime := s.time.chain, entered := s.time.elapsed }

/-- The gate is turned off at local time `now`: a discharge interval starts (16 R423), the fault timer stops, the overload warning
ends. -/
def Slot.gateOff (x : Slot) (now : Nat) : Slot :=
  { x with limited := false, timer := false, warn := false, gateDrive := 0, discharging := some now }

/-- The fence and the votes that follow PGOOD: a drive port is eligible, and Keeper firmware votes for it, while its
slot's PGOOD is asserted (15 R393, votes; 16 R410). -/
def pgoodVote (i : Nat) (on : Bool) (s : State) : State :=
  if isDrive i then setVote (domDP (i - 32)) 9 on s else s

/-- A bring-up that loses its drive's power fails in its step (11 R303). -/
def bringupCut (i : Nat) (s : State) : State :=
  let k := (s.drive (i - 32)).step
  if isDrive i ∧ k ≠ 0 then
    raiseAll (srcDrive (i - 32) 6) 0 (le 1 k ++ le 1 0) (s.modDrive (i - 32) fun x => { x with step := 0 })
  else s

/-- PGOOD falls (16 R410): PGOOD_OFF with its cause, the fence of the unit, the vote withdrawn. -/
def dropPgood (i cause fenceCause : Nat) (s : State) : State :=
  pgoodVote i false (fenceUnit i fenceCause (bringupCut i (raiseSlot i 1 (le 1 cause) s)))

/-- The lead of a commanded off in ON, 100 µs; loss of presence has none (16 R422). -/
def offLead (cause : Nat) : Nat := if cause = 6 then 0 else tenthMs 1

/-- A commanded off (16 R422): `cause` 1 command or 6 presence lost, with the fence cause of R515. The slot shows STOPPING from
the fall of PGOOD; its gate goes off, and its discharge interval starts, when the lead has passed (log 12). -/
def slotOff (i cause fenceCause : Nat) (s : State) : State :=
  let x := s.slot i
  match x.st with
  | .on =>
    let f : Slot → Slot := fun x => { (x.enter s .stopping).gateOff (s.time.elapsed + offLead cause) with
      pgood := false, commanded := false, cause := cause, perst := true, pwrdis := true }
    dropPgood i cause fenceCause (s.modSlot i f)
  | .ramp | .qualify =>
    s.modSlot i fun x => { (x.enter s .off).gateOff s.time.elapsed with
                            commanded := false, cause := cause, attempt := 0 }
  | .waiting | .starting | .backoff =>
    s.modSlot i fun x => { x.enter s .off with commanded := false, cause := cause, attempt := 0 }
  | .stopping => s.modSlot i fun x => { x with commanded := false }
  | .off | .latched | .fetShort => s

/-! ### Trips (16 R418-R420) -/

/-- The limit in force, in SENSE units of 10 nV: INRUSH in RAMP, ILIM in QUALIFY and ON (16 R415, R418). -/
def Slot.limit (x : Slot) : Nat := (if x.st = .ramp then x.cfg.inrush else x.cfg.ilim) * 10000

/-- A trip: cause 2 timer, 3 fast, 4 start failure (16 R419, R420). -/
def trip (i cause sense : Nat) (s : State) : State :=
  let x := s.slot i
  let note : Slot → Slot := fun y => { y with
    cause := cause, sense := sense, trips := addSat 24 y.trips 1, tripsThisUp := y.tripsThisUp + 1
    tripTime := s.time.chain }
  let carry := le 1 cause ++ le 1 x.st.code ++ le 1 x.attempt ++ le 4 (max sense x.sense)
  match x.st with
  | .on =>
    let f : Slot → Slot := fun y => { (note (y.enter s .stopping)).gateOff s.time.elapsed with
      pgood := false, commanded := false, perst := true, pwrdis := true }
    dropPgood i cause 2 (raiseSlot i 2 carry (s.modSlot i f))
  | .ramp | .qualify =>
    let s := raiseSlot i 2 carry s
    if x.attempt = x.cfg.retries then
      let f : Slot → Slot := fun y => { (note (y.enter s .latched)).gateOff s.time.elapsed with commanded := false }
      let s := s.modSlot i f
      raiseSlot i 3 (le 1 (s.slot i).tripsThisUp) s
    else
      s.modSlot i fun y => { (note (y.enter s .backoff)).gateOff s.time.elapsed with attempt := y.attempt + 1 }
  | .off | .waiting | .starting | .stopping | .backoff | .latched | .fetShort => s

/-! ### Rows -/

/-- SLOT_STARTING_END (16 R414): after 10 ms with the output below 1.0 V. -/
def execSlotStartingEnd (slot vout vin : Nat) (s : State) : Out :=
  onUnit slot 48 (if (s.slot slot).st = .starting ∧ (s.slot slot).entered + tenthMs 100 ≤ s.time.elapsed
      ∧ vout < 1000000 then
    s.modSlot slot fun x => { x.enter s .ramp with vin := vin, vout := vout }
  else s)

/-- Ticks of RAMP: VIN ÷ RAMP_RATE, the rate in 0.01 V/ms (16 R415). -/
def Slot.rampTicks (x : Slot) : Nat := x.vin * 2 ^ 24 / (x.cfg.rampRate * 10000000)

/-- SLOT_RAMP_END (16 R415). -/
def execSlotRampEnd (slot : Nat) (s : State) : Out :=
  onUnit slot 48 (if (s.slot slot).st = .ramp ∧ (s.slot slot).entered + (s.slot slot).rampTicks ≤ s.time.elapsed then
    s.modSlot slot fun x => { x.enter s .qualify with qualAt := s.time.elapsed } else s)

/-- Step 7 of a DIMM replacement: the domain is suspended no longer and wakes with flag REPLACE; the new DIMM is trained
(04, replacing a DIMM; 15 R393). -/
def replaceWake (slot : Nat) (s : State) : State :=
  if isDrive slot ∨ s.dur.repl.any (fun r => r.slot == slot && r.ending) = false then s
  else
    let d := domDC (slotChannel slot)
    let s := s.modDom d fun x => { x with suspended := false }
    let s := s.modChan (slotChannel slot) fun x => { x with training := true }
    match (s.dom d).st with
    | .off => keepVotes (wakeDom d 4 0xFF s)
    | .on | .draining | .poweringOff | .waking | .asking => keepVotes (arbitrate d s)

/-- PGOOD asserts and the slot enters ON (16 R416); the attempt count resets (R419). -/
def slotQualified (i : Nat) (s : State) : State :=
  let a := (s.slot i).attempt
  let s := s.modSlot i fun x => { x.enter s .on with pgood := true, attempt := 0 }
  replaceWake i (slotPowered i (pgoodVote i true (raiseSlot i 0 (le 1 a) s)))

/-- SLOT_QUALIFIED (16 R416): 1,000 samples of 1 µs, the fault timer not running. -/
def execSlotQualified (slot : Nat) (s : State) : Out :=
  onUnit slot 48 (if (s.slot slot).st = .qualify ∧ (s.slot slot).timer = false
      ∧ (s.slot slot).qualAt + tenthMs 10 ≤ s.time.elapsed then slotQualified slot s else s)

/-- The time of R417 has passed: QUALIFY not entered, or ON not reached 20 ms after it. -/
def startLate (x : Slot) (now : Nat) : Bool :=
  (x.st == .ramp && decide (x.entered + 2 * x.rampTicks + tenthMs 100 ≤ now))
    || (x.st == .qualify && decide (x.entered + tenthMs 200 ≤ now))

/-- SLOT_START_FAILURE (16 R417). -/
def execSlotStartFailure (slot : Nat) (s : State) : Out :=
  onUnit slot 48 (if startLate (s.slot slot) s.time.elapsed then trip slot 4 (s.slot slot).sense s else s)

/-- A first limited sample (16 R418, R421). -/
def limitReached (i sense : Nat) (s : State) : State :=
  let x := s.slot i
  let f : Slot → Slot := fun y => { y with
    limited := true, timer := true, sense := sense, timerAt := if y.timer then y.timerAt else s.time.elapsed }
  let s := s.modSlot i f
  if x.st = .on ∧ x.timer = false then
    let s := s.modSlot i fun y => { y with warn := true, warned := true, warnings := addSat 24 y.warnings 1 }
    if x.warned then s else raiseSlot i 4 (le 4 sense) s
  else s

/-- SLOT_LIMIT_REACHED (16 R418): at or above the limit, or in ON an output below 80 % of VIN. -/
def execSlotLimitReached (slot sense : Nat) (s : State) : Out :=
  onUnit slot 48 (let v := sense + slotOffset s slot
    if (s.slot slot).st.gateOn ∧ ((s.slot slot).limit ≤ v ∨ (s.slot slot).st = .on)
    then limitReached slot v s else s)

/-- SLOT_FAULT_TIMER_RESET (16 R418, R421): INWARN_N is released in the same sample. -/
def execSlotFaultTimerReset (slot : Nat) (s : State) : Out :=
  onUnit slot 48 (if (s.slot slot).timer ∧ (s.slot slot).st.gateOn then
    s.modSlot slot fun x =>
      { x with timer := false, limited := false, warn := false,
               qualAt := if x.st = .qualify then s.time.elapsed else x.qualAt } else s)

/-- SLOT_TIMER_TRIP (16 R418): the fault timer has run for FAULT_TIME. -/
def execSlotTimerTrip (slot sense : Nat) (s : State) : Out :=
  onUnit slot 48 (if (s.slot slot).timer ∧ (s.slot slot).st.gateOn
      ∧ (s.slot slot).timerAt + tenthMs (s.slot slot).cfg.faultTime ≤ s.time.elapsed then
    trip slot 2 (sense + slotOffset s slot) s else s)

/-- SLOT_FAST_TRIP (16 R418): above three times the limit in force. -/
def execSlotFastTrip (slot sense : Nat) (s : State) : Out :=
  onUnit slot 48 (if (s.slot slot).st.gateOn ∧ 3 * (s.slot slot).limit < sense + slotOffset s slot then
    trip slot 3 (sense + slotOffset s slot) s else s)

/-- SLOT_BACKOFF_END (16 R419): 100 ms × 2^a, a the attempt count before the trip. -/
def execSlotBackoffEnd (slot : Nat) (s : State) : Out :=
  onUnit slot 48 (if (s.slot slot).st = .backoff
      ∧ (s.slot slot).entered + tenthMs (1000 * 2 ^ ((s.slot slot).attempt - 1)) ≤ s.time.elapsed then
    beginPower slot s else s)

/-- A discharge interval has started: the gate is off. -/
def Slot.discharges (x : Slot) (now : Nat) : Bool := x.discharging.any (decide <| · ≤ now)

/-- SLOT_DISCHARGE_END (16 R423): STOPPING goes to OFF; a power-up commanded meanwhile starts then (log 12). -/
def execSlotDischargeEnd (slot : Nat) (s : State) : Out :=
  onUnit slot 48 (if (s.slot slot).discharges s.time.elapsed then
      let s := s.modSlot slot fun x => { x with discharging := none }
      if (s.slot slot).st = .stopping then
        let s := s.modSlot slot fun x => x.enter s .off
        if (s.slot slot).commanded then powerUp slot s else s
      else s
    else s)

/-- A damaged transistor (16 R424). -/
def fetShort (i vout : Nat) (s : State) : State :=
  let f : Slot → Slot := fun x => { x.enter s .fetShort with pgood := false, commanded := false, cause := 5, vout := vout }
  let s := raiseSlot i 5 (le 4 vout) (s.modSlot i f)
  let s := if (s.unit i).health = .absent then
      s.modUnit i fun u => { u with fenced := true, cause := 5 } else s
  fenceUnit i 5 s

/-- SLOT_FET_SHORT (16 R424): gate off, discharge interval ended, the output above 1.0 V for 5 ms. -/
def execSlotFetShort (slot vout : Nat) (s : State) : Out :=
  onUnit slot 48 (if (s.slot slot).st.gateOn = false ∧ (s.slot slot).st ≠ .fetShort ∧ (s.slot slot).st ≠ .stopping
      ∧ (s.slot slot).discharging.isNone ∧ 1000000 < vout then fetShort slot vout s else s)

/-- A sample of VOUT_SNS; the time since which it has read below 1.0 V is kept (16 R412, R430). -/
def Slot.sampled (x : Slot) (now v : Nat) : Slot :=
  { x with vout := v, lowAt := if v < 1000000 ∧ 1000000 ≤ x.vout then now else x.lowAt }

/-! ### Commands -/

def slotPowerSpec : CmdSpec where
  opcode := 0xCA01
  len := fun n => n == 4
  mgt := true
  lmOwn := true
  resv := [(2, 0xFE), (3, 0xFF)]
  checks := fun p _ => [⟨0, decide (byteAt p 0 ≤ 47), 0x0B01⟩, ⟨1, decide (byteAt p 1 ≤ 1), 0x0007⟩]

/-- SLOT_POWER's own checks and effect (16 R422, R428; R426 for the states that change nothing). -/
def slotPower (p : List Byte) (s : State) : CmdRes :=
  let i := byteAt p 0
  let x := s.slot i
  if byteAt p 1 = 1 then
    if isDrive i ∧ x.present = false then .fail 0x0B01 0
    else if x.st = .latched then .fail 0x0B02 0
    else if x.st = .fetShort then .fail 0x0B03 0
    else if x.st.powering then .ok [] s
    else if x.st = .stopping then .ok [] (s.modSlot i fun x => { x with commanded := true })
    else .ok [] (powerUp i s)
  else if bitAt p 2 0 = false ∧ x.st = .on ∧ keeperOff s = false ∧ losesData s [i] = true then .fail 0x0305 0
  else .ok [] (slotOff i 1 3 s)

/-- SLOT_POWER (16 R428). -/
def execSlotPower (m : Mb) (p : List Byte) (s : State) : Out :=
  .next (runCrity slotPowerSpec m p (slotPower p) s)

/-- The settings of a SLOT_CONFIG payload (16 R429). -/
def slotCfgOf (p : List Byte) : SlotCfg :=
  { retries := byteAt p 2, rampRate := byteAt p 3, ilim := ofLe p 4 2, inrush := ofLe p 6 2, faultTime := byteAt p 8,
    discharge := byteAt p 9, rsense := ofLe p 10 2 }

def slotConfigSpec : CmdSpec where
  opcode := 0xCA02
  len := fun n => n == 16
  mgt := true
  lmOwn := true
  resv := [(1, 0xFC), (12, 0xFFFFFFFF)]
  checks := fun p _ =>
    let c := slotCfgOf p
    [⟨0, decide (byteAt p 0 ≤ 47), 0x0B01⟩, ⟨2, decide (c.retries ≤ 7), 0x0B01⟩,
     ⟨3, decide (5 ≤ c.rampRate ∧ c.rampRate ≤ 200), 0x0B01⟩, ⟨4, decide (10 ≤ c.ilim ∧ c.ilim ≤ 500), 0x0B01⟩,
     ⟨6, decide (10 ≤ c.inrush ∧ c.inrush ≤ c.ilim), 0x0B01⟩,
     ⟨8, decide (1 ≤ c.faultTime ∧ c.faultTime ≤ 200), 0x0B01⟩,
     ⟨9, decide (5 ≤ c.discharge ∧ c.discharge ≤ 250), 0x0B01⟩,
     ⟨10, decide (5 ≤ c.rsense ∧ c.rsense ≤ 1000), 0x0B01⟩]

/-- The slots a SLOT_CONFIG names: one, or every slot of its kind. -/
def cfgSlots (p : List Byte) : List Nat :=
  if bitAt p 1 0 then (List.range 48).filter fun i => isDrive i == isDrive (byteAt p 0) else [byteAt p 0]

/-- The list stored in the boot flash for a slot's settings (16 R429). -/
def SlotCfg.list (c : SlotCfg) : List Nat :=
  [c.retries, c.rampRate, c.ilim, c.inrush, c.faultTime, c.discharge, c.rsense]

/-- SLOT_CONFIG's effect on one slot: staged until the next STARTING, RSENSE at once, PERSIST in the boot flash. -/
def configSlot (p : List Byte) (s : State) (i : Nat) : State :=
  let c := slotCfgOf p
  let s := s.modSlot i fun x => { x with staged := c, cfg := { x.cfg with rsense := c.rsense } }
  if bitAt p 1 1 then { s with lm := { s.lm with savedSlots := aset s.lm.savedSlots i c.list } } else s

/-- SLOT_CONFIG (16 R429). -/
def execSlotConfig (m : Mb) (p : List Byte) (s : State) : Out :=
  .next (runCrity slotConfigSpec m p (fun s => .ok [] ((cfgSlots p).foldl (configSlot p) s)) s)

def slotClearLatchSpec : CmdSpec where
  opcode := 0xCA03
  len := fun n => n == 4
  mgt := true
  lmOwn := true
  resv := [(1, 0xFFFFFF)]
  checks := fun p _ => [⟨0, decide (byteAt p 0 ≤ 47), 0x0B01⟩]

/-- SLOT_CLEAR_LATCH's own effect (16 R430). -/
def slotClearLatch (i : Nat) (s : State) : CmdRes :=
  let x := s.slot i
  if x.st = .latched ∨ (x.st = .fetShort ∧ x.vout < 1000000 ∧ x.lowAt + tenthMs 50 ≤ s.time.elapsed) then
    let s := s.modSlot i fun y => y.enter s .off
    .ok [] (raiseSlot i 6 (le 1 x.st.code) s)
  else if x.st = .fetShort then .fail 0x0B03 0
  else .ok [] s

/-- SLOT_CLEAR_LATCH (16 R430). -/
def execSlotClearLatch (m : Mb) (p : List Byte) (s : State) : Out :=
  .next (runCrity slotClearLatchSpec m p (slotClearLatch (byteAt p 0)) s)

/-- Reported current in mA from SENSE (10 nV) and RSENSE (0.1 mΩ) (16 SLOT_STATUS). -/
def Slot.current (x : Slot) : Nat := x.sense / (x.cfg.rsense * 10)

/-- The 64 bytes of SLOT_STATUS (16). -/
def slotStatus (s : State) (i : Nat) : List Byte :=
  let x := s.slot i
  le 1 i ++ le 1 x.st.code
    ++ le 1 (b2n x.pgood + 2 * b2n x.commanded + 4 * b2n x.limited + 8 * b2n x.timer + 16 * b2n (isDrive i && x.present)
        + 32 * b2n x.warn)
    ++ le 1 x.cause ++ le 1 x.attempt ++ le 1 x.cfg.retries ++ le 1 (slotGroup i) ++ le 1 (s.unit i).health.code
    ++ le 4 x.vin ++ le 4 x.vout ++ le 4 x.sense ++ le 4 x.current ++ le 4 x.gateDrive ++ le 4 x.trips
    ++ le 4 x.warnings ++ le 1 x.cfg.rampRate ++ le 1 x.cfg.faultTime ++ le 1 x.cfg.discharge ++ le 1 0
    ++ le 2 x.cfg.ilim ++ le 2 x.cfg.inrush ++ le 2 x.cfg.rsense ++ le 2 0 ++ le 8 x.tripTime ++ le 8 x.changeTime

/-- SLOT_STATUS (16 R410). -/
def execSlotStatus (m : Mb) (p : List Byte) (s : State) : Out :=
  .next (runCrity { slotClearLatchSpec with opcode := 0xCA00, mgt := false, any := true, read := true } m p
    (fun s => .ok (slotStatus s (byteAt p 0)) s) s)

end Sys2Proof.Machine
end

