-- ==== Sys2Proof/Machine/Lengthsman.lean ====
section
/-! DEFINITION. The lengthsman: sensors, log ring, sideband messages, firmware images and activation, Keeper cores
(17 R431-R452), and the firmware commands (09 R257). -/

namespace Sys2Proof.Machine

/-! ### Die temperature (17 R437) -/

/-- The level for a hottest point in 2^-10 °C: each level clears 3 °C below it. -/
def thermLevel (cur : Nat) (t : Int) : Nat :=
  if 105 * 1024 ≤ t then 2
  else if cur = 2 ∧ 102 * 1024 < t then 2
  else if 100 * 1024 ≤ t then 1
  else if 1 ≤ cur ∧ 97 * 1024 < t then 1
  else 0

/-- The hottest valid point and its index. -/
def hottest (l : List Int) (ex : List Bool) : Option (Int × Nat) :=
  (List.range 64).foldl (fun acc i =>
    if ex.getD i false then acc
    else
      let t := l.getD i 0
      match acc with
      | some (m, j) => if m < t then some (t, i) else some (m, j)
      | none => some (t, i)) none

/-- Shedding and throttling follow the level (17 R437); outings are held with cause 6 (14 R384). -/
def applyTherm (point : Nat) (s : State) : State :=
  let n := s.lm.dieExcluded.countP (!·)
  let h := hottest s.lm.die s.lm.dieExcluded
  let real := h.getD (0, 0)
  let act : Int := if n < 48 then 105 * 1024 else real.1
  let old := s.lm.therm
  let lv := thermLevel old act
  let s := { s with lm := { s.lm with tempMax := real.1, tempPoint := real.2, therm := lv, valid := n } }
  let c := le 1 point ++ le 4 (twos 24 act)
  let s := if old < 1 ∧ 1 ≤ lv then raiseAll 1510 0 c s else s
  let s := if old < 2 ∧ 2 ≤ lv then raiseAll 1511 0 c s else s
  let s := if 115 * 1024 ≤ act ∧ s.flt.halted = false then raiseAll 1512 0 c s else s
  let s := if 1 ≤ lv ∧ old = 0 then shedBulk s else s
  -- commands that the throttle held are issued
  let s := if old = 2 ∧ lv < 2 then (List.range 16).foldl (fun t c => issueAll c t) s else s
  refreshHolds s

/-- A die point has not changed for 2^24 ticks (17 R437). -/
def dieUnchanged (s : State) (point : Nat) (temp : Int) : Bool :=
  s.lm.die.getD point 0 == temp && decide (s.lm.dieAt.getD point 0 + 2 ^ 24 ≤ s.time.elapsed)

/-- DIE_TEMP_CROSSING (17 R437): a point outside -40 to 150 °C or frozen is excluded with SENSOR_FAIL. -/
def dieTemp (point : Nat) (temp : Int) (frozen : Bool) (s : State) : State :=
  let bad := frozen || decide (temp < -40 * 1024) || decide (150 * 1024 < temp)
  let was := s.lm.dieExcluded.getD point false
  let s := { s with lm := { s.lm with
    die := s.lm.die.set point temp, dieExcluded := s.lm.dieExcluded.set point bad
    dieAt := if frozen then s.lm.dieAt else s.lm.dieAt.set point s.time.elapsed } }
  let s := if bad && !was then raiseAll 1513 0 (le 1 point ++ le 4 (twos 24 temp)) s else s
  applyTherm point s

/-- DIE_TEMP_CROSSING (17 R437); `frozen` holds of a sample that has not changed for 2^24 ticks. -/
def execDieTempCrossing (point : Nat) (temp : Int) (frozen : Bool) (s : State) : Out :=
  onUnit point 64 (if lmRuns s && (!frozen || dieUnchanged s point temp) then dieTemp point temp frozen s else s)

/-! ### The log ring (17 R439-R442) -/

/-- LOG_COMMIT (17 R440, R441): a failed flash write keeps the records staged and raises LOG_COMMIT_FAIL. -/
def execLogCommit (flashOk : Bool) (s : State) : Out :=
  .next (if s.boot.phase = .auxOff ∨ s.lm.staged.isEmpty = true then s
    else if flashOk then commitLog s
    else
      let first := (s.lm.staged.getLast?.map (·.seq)).getD 0
      raiseAll 1514 0 (le 2 (first / 1024 % 768) ++ le 2 s.lm.staged.length) s)

/-- The 64 bytes of a log record, CHECK last (17 R439). -/
def logBytes (r : LogRec) : List Byte :=
  let b := le 4 r.seq ++ le 1 r.type ++ le 1 (r.cls + 8 * b2n r.untimed + 16 * b2n r.dropped) ++ le 2 r.source
    ++ le 8 r.time ++ le 4 r.bootId ++ le 3 r.count ++ le 1 0 ++ le 3 r.stamp ++ le 1 0 ++ r.detail
  b ++ le 4 (crc32c b)

/-- The next SEQ to be written to the ring: the oldest staged record's, or the next to be given out. -/
def ringNext (s : State) : Nat := (s.lm.staged.getLast?.map (·.seq)).getD s.lm.nextSeq

/-- The response of LOG_READ (17 R442): header, then records oldest first. -/
def logReadBytes (start n : Nat) (s : State) : List Byte :=
  let oldest := s.lm.ring.reverse
  let rs := (oldest.dropWhile fun r => decide (r.seq < start)).take n
  le 2 rs.length ++ le 2 0 ++ le 4 ((oldest.head?.map (·.seq)).getD (ringNext s)) ++ le 4 (ringNext s) ++ le 4 0
    ++ (rs.map logBytes).flatten

/-- LOG_READ (17 R442): MAX_RECORDS from 1 to 1,000. -/
def execLogRead (startSeq maxRecords : Nat) (s : State) : Out :=
  .next (if lmRuns s ∧ 1 ≤ maxRecords ∧ maxRecords ≤ 1000 then
    s.emit (.mctp 0x7E (logReadBytes startSeq maxRecords s)) else s)

/-! ### Sideband messages -/

/-- MCTP_CONTROL (17 R432, R433): control command 0x01 assigns the endpoint ID (PRESUMED number, log 8); every control
message is answered with the endpoint ID in force, in recovery too (20 R484). -/
def execMctpControl (cmd arg : Nat) (s : State) : Out :=
  .next (if s.boot.phase = .auxOff ∨ s.lm.restarting = true then s
    else
      let s := if cmd = 1 then { s with lm := { s.lm with eid := wrap 8 arg } } else s
      s.emit (.mctp 0 (le 1 cmd ++ le 1 s.lm.eid)))

/-- MCTP message types the sideband carries (17 R433). -/
def mctpTypes : List Nat := [0x00, 0x01, 0x05, 0x06, 0x08, 0x7E]

/-- MCTP_MESSAGE_DISCARD (17 R433): a message of any other type is discarded. -/
def execMctpMessageDiscard (msgType : Nat) (s : State) : Out :=
  .next (if s.boot.phase = .auxOff ∨ mctpTypes.contains msgType = true then s else s.emit (.drop 0x4D msgType))

/-- DYNAMIC_ADDRESS_ASSIGNMENT (17 R432): only on an I3C sideband, by SETDASA or ENTDAA. -/
def execDynamicAddressAssignment (addr : Nat) (_entdaa : Bool) (s : State) : Out :=
  .next (if s.lm.i3c ∧ s.boot.phase ≠ .auxOff then { s with lm := { s.lm with dynAddr := some (wrap 7 addr) } } else s)

/-- PLDM numeric sensors that exist (17 R435). -/
def sensorExists (i : Nat) : Bool :=
  (decide (1 ≤ i) && decide (i ≤ 75)) || (decide (81 ≤ i) && decide (i ≤ 224))

/-- The latest sample of a PLDM sensor (17 R435): die points, monitors, slot output and current, then stored samples. -/
def sensorValue (s : State) (i : Nat) : Int :=
  if i ≤ 64 then s.lm.die.getD (i - 1) 0
  else if i ≤ 75 then (s.mon (i - 65)).now
  else if i ≤ 128 then (s.slot (i - 81)).vout
  else if i ≤ 176 then (s.slot (i - 129)).current
  else (aget s.lm.samples i).getD 0

/-- SET_SENSOR_THRESHOLDS (17 R436). -/
def execSetSensorThresholds (sensor : Nat) (wh ch fh wl cl fl : Int) (s : State) : Out :=
  .next (if lmRuns s && sensorExists sensor then
      let t : SensorThr := ⟨sensor, wh, ch, fh, wl, cl, fl⟩
      let s := { s with lm := { s.lm with thresholds := t :: s.lm.thresholds.filter (·.sensor != sensor) } }
      s.emit (.mctp 1 (le 2 sensor))
    else s)

/-- GET_SENSOR_READING (17 R435). -/
def execGetSensorReading (sensor : Nat) (s : State) : Out :=
  .next (if lmRuns s && sensorExists sensor then
      s.emit (.mctp 1 (le 2 sensor ++ le 3 (twos 24 (sensorValue s sensor)))) else s)

/-- The threshold a reading crosses: 3 fatal, 2 critical, 1 warning; 0 none. -/
def thrLevel (t : SensorThr) (r : Int) : Nat :=
  if t.fatalHigh ≤ r ∨ r ≤ t.fatalLow then 3
  else if t.critHigh ≤ r ∨ r ≤ t.critLow then 2
  else if t.warnHigh ≤ r ∨ r ≤ t.warnLow then 1 else 0

/-- A sensor has been sampled (17 R435): the die's own protection follows its points (R437); a slot's current is that of its
SENSE. -/
def noteSample (i : Nat) (r : Int) (s : State) : State :=
  if i ≤ 64 then dieTemp (i - 1) r false s
  else if i ≤ 75 then s.modMon (i - 65) fun x => { x with now := r.toNat }
  else if i ≤ 128 then s.modSlot (i - 81) fun x => x.sampled s.time.elapsed r.toNat
  else if i ≤ 176 then s.modSlot (i - 129) fun x => { x with sense := r.toNat * x.cfg.rsense * 10 }
  else { s with lm := { s.lm with samples := aset s.lm.samples i r } }

/-- SENSOR_THRESHOLD_CROSSING (17 R436): a threshold set by the board controller causes a platform event message to it, and
nothing else. -/
def execSensorThresholdCrossing (sensor : Nat) (reading : Int) (s : State) : Out :=
  .next (if lmRuns s && sensorExists sensor then
      let t := noteSample sensor reading s
      match s.lm.thresholds.find? (·.sensor == sensor) with
      | some x => if thrLevel x reading = 0 then t else t.emit (.pldmEvent sensor reading (thrLevel x reading))
      | none => t
    else s)

/-! ### Firmware transfer (17 R443) -/

/-- The image in a slot. -/
def LmState.image (l : LmState) (b : Bool) : FwImage := if b then l.imgB else l.imgA

def LmState.setImage (l : LmState) (b : Bool) (i : FwImage) : LmState :=
  if b then { l with imgB := i } else { l with imgA := i }

/-- One part of a package on path 0 (mailbox) or 1 (PLDM); `slot` 0 A, 1 B. Answers the return code (17 R443). -/
def transferPart (path : Nat) (part : FwPart) (s : State) : Rc × State :=
  let b := part.slot == 1
  let recovery := s.boot.phase == .recovery
  if part.abort then
    (.success, match s.lm.transfer with
      | some t => if t.path = path then { s with lm := { s.lm with transfer := none } } else s
      | none => s)
  else match s.lm.transfer with
    | some t =>
      if t.path ≠ path then (.fwTransferInProgress, s)
      else if part.first || t.slotB != b then (.fwTransferOutOfOrder, s)
      else finish b s
    | none =>
      if !part.first then (.fwTransferOutOfOrder, s)
      else if b == s.lm.activeB && !recovery then (.invalidInput, s)
      else
        let l := (s.lm.setImage b { (s.lm.image b) with valid := false, romOk := false, lmOk := false })
        finish b { s with lm := { l with transfer := some ⟨path, b⟩ } }
where
  /-- After the last part every component is hashed in place against the header. -/
  finish (b : Bool) (s : State) : Rc × State :=
    if !part.last then (.success, s)
    else if part.digestsOk then
      let i : FwImage := {
        romOk := true, lmOk := true, valid := true, romDigest := part.romDigest, lmVer := part.lmVer
        keeperVer := part.keeperVer, codecVer := part.codecVer, handover := part.handover }
      let s := { s with lm := { (s.lm.setImage b i) with transfer := none } }
      (.success, stage 0x06 0 0x7FF 1 (le 1 (b2n b) ++ le 4 part.keeperVer ++ le 4 part.lmVer ++ le 4 part.codecVer) s)
    else (.fwVerificationFailed, { s with lm := { s.lm with transfer := none } })

/-- TRANSFER_FW (17 R443; 09 R257, R514). -/
def execTransferFw (m : Mb) (part : FwPart) (s : State) : Out :=
  .next (if canIssue s m && mustWait s && !(m.src == 8 && keeperOff s) then
      { s with held := s.held ++ [⟨0x0201, m, [], some part⟩] }
    else runStd { opcode := 0x0201, managing := true, lmOwn := true } m [] (fun s =>
      let r := transferPart 0 part s
      .done r.1 0 [] r.2) s)

/-- PLDM code of an outcome of the update path (17 R443, R444 give two by name; the numbers are those of DMTF DSP0240 and DSP0267,
PRESUMED, log 8). -/
def pldmCode : Rc → Nat
  | .success => 0x00
  | .invalidInput => 0x02
  | .fwTransferInProgress => 0x81
  | .fwTransferOutOfOrder => 0x84
  | .busy => 0x86
  | .activationColdReset => 0x8C
  | _ => 0x01

/-- A part that comes over PLDM, answered with its code (17 R443). -/
def pldmTransfer (part : FwPart) (s : State) : State :=
  let r := transferPart 1 part s
  r.2.emit (.mctp 1 (le 1 (pldmCode r.1)))

/-- GET_FW_INFO (17 R443; 09 R257): two slots; the active slot, the staged slot, activation capability, versions. -/
def execGetFwInfo (m : Mb) (p : List Byte) (s : State) : Out :=
  .next (runStd { opcode := 0x0200, lmOwn := true } m p (fun s => .ok
    (le 1 2 ++ le 1 ((if s.lm.runB then 2 else 1) + 8 * (if s.lm.activeB = s.lm.runB then 0 else if s.lm.activeB then 2 else 1))
      ++ le 1 1 ++ zeros 13
      ++ ((le 4 s.lm.imgA.keeperVer ++ le 4 s.lm.imgA.lmVer ++ le 4 s.lm.imgA.codecVer) ++ zeros 16).take 16
      ++ ((le 4 s.lm.imgB.keeperVer ++ le 4 s.lm.imgB.lmVer ++ le 4 s.lm.imgB.codecVer) ++ zeros 16).take 16
      ++ zeros 32) s) s)

/-! ### Activation (17 R444-R447) -/

/-- The three checks of an online activation (17 R444), and that the slot holds an intact package. -/
def onlineOk (s : State) (b : Bool) : Bool :=
  let i := s.lm.image b
  i.valid && i.romDigest == s.lm.romDigest && Config.handoverOk s.lm.handover i.handover && !s.flt.halted

/-- The activation begins: the lengthsman's new image is measured and the lengthsman restarts into it (17 R445 step 1, R449). -/
def startActivation (b : Bool) (who : Option Mb) (s : State) : State :=
  let s := { s with lm := { s.lm with activation := some { slotB := b, step := .lengthsman, who := who }, restarting := true } }
  measure 2 (s.lm.image b).lmVer s

/-- Activate at the next cold reset: the slot is marked active (17 R444). -/
def activateNext (b : Bool) (s : State) : State := { s with lm := { s.lm with activeB := b } }

/-- ACTIVATE_FW (17 R444): byte 0 action, 0 online and 1 at the next cold reset; byte 1 slot, 1 A and 2 B (PRESUMED
layout of CXL 3.1, log 8). -/
def activateFw (m : Mb) (p : List Byte) (s : State) : CmdRes :=
  let b := byteAt p 1 == 2
  if p.length ≠ 2 then .std .invalidPayloadLength 0
  else if 2 ≤ byteAt p 0 ∨ byteAt p 1 = 0 ∨ 3 ≤ byteAt p 1 ∨ (s.lm.image b).valid = false then .std .invalidInput 0
  else if s.lm.activation.isSome then .std .busy 0
  else if byteAt p 0 = 1 then .ok [] (activateNext b s)
  else if onlineOk s b then .bg .activate (startActivation b (some m) s)
  else .std .activationColdReset 0

/-- ACTIVATE_FW (17 R444). -/
def execActivateFw (m : Mb) (p : List Byte) (s : State) : Out :=
  .next (runStd { opcode := 0x0202, managing := true } m p (activateFw m p) s)

/-- PLDM_ACTIVATE_FIRMWARE (17 R444). -/
def execPldmActivateFirmware (online slotB : Bool) (s : State) : Out :=
  .next (if lmRuns s = false then s
    else if (s.lm.image slotB).valid = false then s.emit (.mctp 1 (le 1 (pldmCode .invalidInput)))
    else if s.lm.activation.isSome then s.emit (.mctp 1 (le 1 (pldmCode .busy)))
    else if online = false then (activateNext slotB s).emit (.mctp 1 (le 1 0))
    else if onlineOk s slotB && s.boot.phase.keeper then (startActivation slotB none s).emit (.mctp 1 (le 1 0))
    else s.emit (.mctp 1 (le 1 (pldmCode .activationColdReset))))

/-- An activation ends: FW_ACTIVATE event and record, and the background command's result (17 R445, R446). `fail` is the
failing step, 0 for success. -/
def endActivation (a : Activation) (fail : Nat) (s : State) : State :=
  let rc : Rc := if fail = 0 then .success else .activationRolledBack
  let i := s.lm.image a.slotB
  let s := { s with lm := { s.lm with activation := none } }
  let s := raiseAll 1506 0 (le 1 (b2n a.slotB) ++ le 1 (b2n (fail != 0)) ++ le 1 fail) s
  let s := stage 0x07 0 0x7FF 1 (le 1 (b2n a.slotB) ++ le 4 i.keeperVer ++ le 4 i.lmVer ++ le 4 i.codecVer ++ le 1 fail) s
  match a.who with
  | some m => s.modBg m.src fun b => { b with result := some (rc, 0, []) }
  | none => s.emit (.mctp 1 (le 1 (pldmCode rc)))

/-- LENGTHSMAN_RESTART_DONE (17 R445 step 1): the new image runs and the Keeper pause begins. An image is measured before it runs
(R449): the Keeper image that is about to start is measured now. -/
def execLengthsmanRestartDone (s : State) : Out :=
  .next (match s.lm.activation with
    | some a =>
      if a.step = .lengthsman then
        let i := s.lm.image a.slotB
        let s := { s with lm := { s.lm with
          restarting := false, lmVer := i.lmVer
          activation := some { a with step := .keeper, pauseAt := s.time.elapsed } } }
        measure 3 i.keeperVer s
      else s
    | none => s)

/-- The first On cluster from `c` upwards (17 R445 step 3). -/
def nextCluster (s : State) (c : Nat) : Option Nat :=
  (List.range 4).find? fun k => decide (c ≤ k) && (s.dom (domCEC k)).st == .on

/-- Roll the next cluster, whose microcode is measured first (R449), or finish: the slot is marked active (17 R444, R445, R447). -/
def rollFrom (a : Activation) (c : Nat) (s : State) : State :=
  match nextCluster s c with
  | some k =>
    let s := measure 4 (s.lm.image a.slotB).codecVer s
    rollCluster k { s with lm := { s.lm with activation := some { a with step := .rolling k } } }
  | none =>
    let i := s.lm.image a.slotB
    let s := { s with lm := { s.lm with activeB := a.slotB, runB := a.slotB, codecVer := i.codecVer } }
    endActivation a 0 s

/-- KEEPER_TAKEOVER_DONE (17 R445 step 2, R446, R448): the image that took over is the one that runs. -/
def takeoverDone (s : State) : State :=
  match s.lm.activation with
  | some a =>
    match a.step with
    | .keeper =>
      let i := s.lm.image a.slotB
      let s := { s with lm := { s.lm with cores := ~~~ s.lm.coresOut, keeperVer := i.keeperVer, handover := i.handover } }
      if a.reload then { s with lm := { s.lm with activation := none } } else rollFrom a 0 s
    | .restoring =>
      let s := { s with lm := { s.lm with cores := ~~~ s.lm.coresOut } }
      let s := raiseAll 1507 0 (le 4 (s.time.elapsed - a.pauseAt)) s
      if a.reload then { s with lm := { s.lm with activation := none } } else endActivation a 2 s
    | .lengthsman | .rolling _ => s
  | none => s

/-- KEEPER_TAKEOVER_DONE (17 R445). -/
def execKeeperTakeoverDone (s : State) : Out := .next (takeoverDone s)

/-- KEEPER_TAKEOVER_TIMEOUT (17 R446): 1.2 s after the pause began the previous image, measured again (R449), is restarted from
the still-active slot. -/
def execKeeperTakeoverTimeout (s : State) : Out :=
  .next (match s.lm.activation with
    | some a =>
      if a.step = .keeper ∧ a.pauseAt + 20132659 ≤ s.time.elapsed then
        measure 3 (s.lm.image s.lm.activeB).keeperVer
          { s with lm := { s.lm with activation := some { a with step := .restoring } } } else s
    | none => s)

/-- CLUSTER_ROLL_DONE (17 R445 step 3, R447): engines that pass return to IN_SERVICE, the others become FAILED. -/
def execClusterRollDone (cluster : Nat) (pass : BitVec 8) (s : State) : Out :=
  onUnit cluster 4 (match s.lm.activation with
    | some a =>
      if a.step = .rolling cluster then
        let v := (s.lm.image a.slotB).codecVer
        let s := { s with lm := { s.lm with clusterVer := s.lm.clusterVer.set cluster v } }
        rollFrom a (cluster + 1) (rollDone cluster pass s)
      else s
    | none => s)

/-! ### Keeper cores (17 R448) -/

/-- A silent core is held in reset; with fewer than two left Keeper firmware is reloaded from the active slot. -/
def coreDown (core lastStep : Nat) (s : State) : State :=
  let bit : BitVec 8 := BitVec.ofNat 8 (2 ^ core)
  let again := s.lm.coresHeld.getLsbD core
  let s := { s with lm := { s.lm with
    cores := s.lm.cores &&& ~~~ bit, coresHeld := s.lm.coresHeld ||| bit
    coresOut := if again then s.lm.coresOut ||| bit else s.lm.coresOut } }
  let s := raiseAll 1505 0 (le 1 core ++ le 1 lastStep) s
  if ((List.range 8).countP fun k => s.lm.cores.getLsbD k) < 2 ∧ s.lm.activation.isNone then
    let a : Activation := { slotB := s.lm.activeB, step := .keeper, who := none, pauseAt := s.time.elapsed, reload := true }
    measure 3 (s.lm.image s.lm.activeB).keeperVer { s with lm := { s.lm with activation := some a } }
  else s

/-- KEEPER_CORE_WATCHDOG (17 R448). -/
def execKeeperCoreWatchdog (core lastStep : Nat) (s : State) : Out :=
  onUnit core 8 (if s.lm.cores.getLsbD core then coreDown core lastStep s else s)

end Sys2Proof.Machine
end

