-- ==== Sys2Proof/Machine/Jobs.lean ====
section
/-! DEFINITION. Bulk jobs: hampers, segments, notifications, Reed-Solomon coding and the CRC functions (05 R146-R160). -/

namespace Sys2Proof.Machine

/-! ### GF(2^8) and the Cauchy code (05 R157, R158) -/

/-- Carry-less product reduced by 0x11D. -/
def gfMul (a b : Nat) : Nat :=
  ((List.range 8).foldl (fun (x : Nat × Nat) i =>
    let p := if b.testBit i then x.1 ^^^ x.2 else x.1
    let d := 2 * x.2
    (p, if 256 ≤ d then d ^^^ 0x11D else d)) (0, a)).1

/-- The b for which gf_mul(a, b) = 1. -/
def gfInv (a : Nat) : Nat := ((List.range 256).find? fun b => gfMul a b == 1).getD 0

/-- Coefficient c(i, j). -/
def gfCoef (i j : Nat) : Nat := gfInv (i ^^^ (j + 8))

/-- Sum of products of two rows. -/
def gfDot (a b : List Nat) : Nat := (List.zipWith gfMul a b).foldl (· ^^^ ·) 0

/-- The generator row of shard `n` of a code with `k` data shards. -/
def gfRow (k n : Nat) : List Nat :=
  (List.range k).map fun j => if n < k then b2n (n == j) else gfCoef (n - k) j

/-- One column of Gauss-Jordan elimination on an augmented matrix. -/
def gfPivot (m : List (List Nat)) (c : Nat) : List (List Nat) :=
  match (List.range m.length).find? fun r => decide (c ≤ r) && (m.getD r []).getD c 0 != 0 with
  | some r =>
    let top := m.getD c []
    let m := (m.set c (m.getD r [])).set r (if r = c then m.getD r [] else top)
    let f := gfInv ((m.getD c []).getD c 0)
    let row := (m.getD c []).map (gfMul f)
    (m.set c row).mapIdx fun i x =>
      if i = c then x else List.zipWith (fun y z => y ^^^ gfMul (x.getD c 0) z) x row
  | none => m

/-- Inverse of a k x k matrix. -/
def gfInvert (k : Nat) (m : List (List Nat)) : List (List Nat) :=
  let aug := m.mapIdx fun i row => row ++ (List.range k).map fun j => b2n (i == j)
  ((List.range k).foldl gfPivot aug).map fun row => row.drop k

/-- Shards used for a reconstruction: the first K that survive (05 R158). -/
def survivors (k m : Nat) (erased : List Nat) : List Nat := ((List.range (k + m)).filter fun n => !erased.contains n).take k

/-- Rows that map the K shards used to the shards wanted. -/
def codeRows (k : Nat) (used wanted : List Nat) : List (List Nat) :=
  let inv := gfInvert k (used.map (gfRow k))
  wanted.map fun n =>
    let g := gfRow k n
    (List.range k).map fun c => gfDot g (inv.map fun row => row.getD c 0)

/-! ### Hampers -/

/-- Fields of the RS functions. -/
def Job.k (j : Job) : Nat := j.p0 % 64
def Job.m (j : Job) : Nat := j.p0 / 2 ^ 8 % 16
def Job.shard (j : Job) : Nat := j.p0 / 2 ^ 32 % 2 ^ 24 * 64
def Job.isRs (j : Job) : Bool := j.func == 0x10 || j.func == 0x11
def Job.isCrc (j : Job) : Bool := j.func == 0x20 || j.func == 0x21
def Job.isStream (j : Job) : Bool := j.func == 1 || j.func == 2

/-- Erased shards, ascending. -/
def Job.erased (j : Job) : List Nat := (List.range 40).filter fun i => j.p1.testBit i

/-- Shards a job reads, and shards it writes, by number. -/
def Job.reads (j : Job) : List Nat := if j.func = 0x10 then List.range j.k else survivors j.k j.m j.erased
def Job.writes (j : Job) : List Nat := if j.func = 0x10 then (List.range j.m).map (· + j.k) else j.erased

/-- State codes of GET_JOB. -/
def JobSt.code : JobSt → Nat
  | .queued => 0 | .running => 1 | .resumable => 2 | .done => 3 | .noshrink => 4 | .failed => 5 | .cancelled => 6

/-- The job of a 64-byte hamper. -/
def hamperOf (p : List Byte) (id now : Nat) : Job :=
  { id := id, func := ofLe p 0 2, cls := byteAt p 2 % 8, issuer := byteAt p 3 % 8, notify := bitAt p 4 0
    srcAddr := ofLe p 8 8, srcLen := ofLe p 16 8, dstAddr := ofLe p 24 8, dstLen := ofLe p 32 8
    p0 := ofLe p 40 8, p1 := ofLe p 48 8, tag := ofLe p 56 8, time := now }

/-- Bits of `v` outside `mask` are zero. -/
def only (v mask : Nat) : Bool := v &&& mask == v

/-- PARAM0 is in range for its function. -/
def p0Ok (j : Job) : Bool :=
  let log := j.p0 / 2 ^ 8 % 16
  if j.func = 1 then only j.p0 0xF0F && decide (j.p0 % 4 ≤ 2) && decide (j.p0 / 4 % 4 ≤ 2) && decide (9 ≤ log)
  else if j.func = 2 then only j.p0 0xF03 && decide (j.p0 % 4 ≤ 2) && decide (9 ≤ log)
  else if j.isRs then
    only j.p0 0xFFFFFF00000F3F && decide (1 ≤ j.k ∧ j.k ≤ 32) && decide (1 ≤ j.m ∧ j.m ≤ 8) && decide (1 ≤ j.shard)
  else j.p0 ≤ 1

/-- PARAM1 has no reserved bit set. -/
def p1Ok (j : Job) : Bool :=
  if j.func = 0x11 then decide (j.p1 < 2 ^ 40)
  else if j.func = 0x20 then decide (j.p1 < 2 ^ 32)
  else if j.func = 0x21 then true
  else j.p1 == 0

def submitJobSpec : CmdSpec where
  opcode := 0xC600
  len := fun n => n == 64
  any := true
  sb := fun _ => false
  resvWsc := 0x0701
  resv := [(2, 0xF8), (3, 0xF8), (4, 0xFE), (5, 0xFFFFFF), (14, 0xFFF0), (21, 0xFFFFFE), (30, 0xFFF0), (37, 0xFFFFFE)]
  checks := fun p _ =>
    let j := hamperOf p 0 0
    [⟨0, j.isStream || j.isRs || j.isCrc, 0x0701⟩,
     ⟨16, decide (1 ≤ j.srcLen ∧ j.srcLen ≤ 2 ^ 40), 0x0701⟩, ⟨32, decide (j.dstLen ≤ 2 ^ 40), 0x0701⟩,
     ⟨40, p0Ok j, 0x0701⟩, ⟨48, p1Ok j, 0x0701⟩]

/-- The issuer is admitted to every byte of a span (05 R148). -/
def spanAdmits (s : State) (h a n : Nat) : Bool :=
  n == 0 || (List.range ((a + n - 1) / gib - a / gib + 1)).all fun i => admits s h ((a / gib + i) * gib)

/-- A span lies within offered capacity. -/
def spanFits (s : State) (a n : Nat) : Bool := decide (a + n ≤ s.map.geo.offeredGib * gib) || n == 0

/-- Source and destination share a byte. -/
def Job.overlaps (j : Job) : Bool :=
  decide (0 < j.dstLen) && decide (j.srcAddr < j.dstAddr + j.dstLen) && decide (j.dstAddr < j.srcAddr + j.srcLen)

/-- Checks on a destination, in the order of R148: WSC and DETAIL. -/
def dstBad (s : State) (j : Job) (off : Nat) : Option (Nat × Nat) :=
  if !spanFits s j.dstAddr j.dstLen then some (0x0007, off)
  else if !spanAdmits s j.issuer j.dstAddr j.dstLen then some (0x0002, off)
  else if j.overlaps then some (0x0702, off)
  else none

/-- The command's own checks of R148, in its order. -/
def hamperBad (s : State) (src : Nat) (j : Job) : Option (Nat × Nat) :=
  let e := j.erased.length
  let shards := if j.func = 0x10 then j.k else j.k + j.m
  let outs := if j.func = 0x10 then j.m else e
  if j.issuer ≠ src then some (0x0701, 3)
  else if j.isRs ∧ j.srcLen ≠ shards * j.shard then some (0x0701, 16)
  else if j.isRs ∧ j.dstLen < outs * j.shard then some (0x0701, 32)
  else if j.func = 0x11 ∧ (e = 0 ∨ j.m < e ∨ 2 ^ (j.k + j.m) ≤ j.p1) then some (0x0701, 48)
  else if j.isCrc ∧ j.dstLen ≠ 0 then some (0x0701, 32)
  else if !spanFits s j.srcAddr j.srcLen then some (0x0007, 8)
  else if !spanFits s j.dstAddr j.dstLen then some (0x0007, 24)
  else if !spanAdmits s src j.srcAddr j.srcLen then some (0x0002, 8)
  else match dstBad s j 24 with
    | some x => some x
    | none =>
      let open_ := s.codec.jobs.filter (·.open_)
      if 1024 ≤ open_.length ∨ 128 ≤ open_.countP (fun x => x.issuer == src) then some (0x0703, 0xFFFF) else none

/-- SUBMIT_JOB's own effect: the ID is the counter's value. DESIGN CHOICE: 0xFFFF_FFFF is skipped (05 R156), so that an ID comes
again after 2^32 - 1 further jobs, where R154 asks for 2^32; both cannot hold (log 64). -/
def submitJob (m : Mb) (p : List Byte) (s : State) : CmdRes :=
  let id := if s.codec.nextJob = 0xFFFFFFFF then 0 else s.codec.nextJob
  let j := hamperOf p id s.time.chain
  match hamperBad s m.src j with
  | some (w, d) => .fail w d
  | none => .ok (le 4 id) (keepVotes { s with
      codec := { s.codec with jobs := s.codec.jobs ++ [j], nextJob := wrap 32 (id + 1) } })

/-- SUBMIT_JOB (05 R148). -/
def execSubmitJob (m : Mb) (p : List Byte) (s : State) : Out := .next (runCrity submitJobSpec m p (submitJob m p) s)

/-! ### States and notifications (05 R151-R156) -/

def State.job? (s : State) (id : Nat) : Option Job := s.codec.jobs.find? (·.id == id)

def State.modJob (s : State) (id : Nat) (f : Job → Job) : State :=
  { s with codec := { s.codec with jobs := s.codec.jobs.map fun j => if j.id = id then f j else j } }

/-- A job enters a state that stops it. A cancel that waited for the segment is answered (05 R153). -/
def stopJob (id : Nat) (st : JobSt) (wsc : Nat) (s : State) : State :=
  match s.job? id with
  | some j =>
    let s := s.modJob id fun j => { j with
      st := st, wsc := wsc, time := s.time.chain, stopped := s.time.elapsed, cancel := none }
    let s := notifyJob j st s
    (match j.cancel with
    | some m => finishWaiting m 0xC603 (if st = .cancelled then 0 else 0x0706) s
    | none => s)
  | none => s

/-- A change of state that does not stop the job. -/
def moveJob (id : Nat) (st : JobSt) (s : State) : State := s.modJob id fun j => { j with st := st, time := s.time.chain }

/-- An engine runs a segment of the job. -/
def jobOnEngine (s : State) (id : Nat) : Bool := s.codec.engines.any fun x => x.seg == some id

/-! ### Segments (05 R129, R149) -/

/-- Columns of an RS segment, a multiple of 64 where the shard leaves room. -/
def Job.columns (j : Job) : Nat :=
  min (j.shard - j.used / max 1 j.k) (max 64 (16384 / max 1 j.k / 64 * 64))

/-- Spans of source bytes of the next segment: at most 16 KiB in all (05 R129). A stream whose output still waits for room reads
none. -/
def Job.srcSpans (j : Job) : List (Nat × Nat) :=
  if j.isRs then j.reads.map fun n => (j.srcAddr + n * j.shard + j.used / max 1 j.k, j.columns)
  else if !j.pend.isEmpty || j.ended then []
  else [(j.srcAddr + j.used, min 16384 (j.srcLen - j.used))]

/-- Lines of a span. -/
def spanLines (x : Nat × Nat) : List Nat :=
  if x.2 = 0 then [] else (List.range ((x.1 + x.2 - 1) / 64 - x.1 / 64 + 1)).map (· + x.1 / 64)

def linesOf (l : List (Nat × Nat)) : List Nat := (l.map spanLines).flatten

/-- Lines a job may not touch before their holders have answered (05 R149; 07 R205): for a read those in Any, for a write every
held line. Lines under an open transaction or eviction wait for its end. -/
def jobHeld (s : State) (wr : Bool) (l : Nat) : Bool :=
  lineBusy s l || (match aget s.dir.ents l with | some e => wr || e.st == .any | none => false)

/-- Withdraw the copies of held lines, as far as eviction records are free. -/
def jobSnoop (ls : List Nat) (s : State) : State :=
  ls.foldl (fun t l =>
    if !lineBusy t l && (aget t.dir.ents l).isSome && decide (t.dir.evict.length < 512) then tryEvictDone l (evictLine l t)
    else t) s

/-- The state that stops a job as it stands, with its WSC (05 R151, R152): NOSHRINK before RESUMABLE; a stream whose source
ends before it does is truncated. -/
def jobStop (j : Job) : Option (JobSt × Nat) :=
  if j.isStream then
    if j.func = 1 ∧ j.srcLen ≤ j.outTotal then some (.noshrink, 0)
    else if j.ended ∧ j.pend = [] then some (.done, 0)
    else if j.pend ≠ [] ∧ j.dstLen ≤ j.outSeg then some (.resumable, 0)
    else if j.func = 2 ∧ j.srcLen ≤ j.used ∧ j.ended = false ∧ j.pend = [] then some (.failed, 0x0705)
    else none
  else if j.isRs then (if j.k * j.shard ≤ j.used then some (.done, 0) else none)
  else if j.srcLen ≤ j.used then some (.done, 0) else none

/-- Writes of the job are on their way (05 R149; 01 R34). -/
def jobWriting (s : State) (j : Job) : Bool :=
  s.req.reqs.any fun r => r.head == 14 && r.kind.isWrite && decide (j.dstAddr / 64 ≤ r.line)
    && decide (r.line < (j.dstAddr + j.dstLen + 63) / 64)

/-- The job stops where its work is at an end and its writes have completed. -/
def endJob (id : Nat) (s : State) : State :=
  match s.job? id with
  | some j =>
    (match jobStop j with
    | some (st, w) => if jobWriting s j then s else stopJob id st w s
    | none => s)
  | none => s

/-- A line of an import is read at its home for a job, as a device-internal requester (05 R149; 07 R205, R213). -/
def fetchRemote (cls l : Nat) (s : State) : State :=
  if s.req.reqs.any fun r => r.head == 14 && r.line == l && r.kind.isRead then s
  else
    let rid := s.req.next
    visitorStage rid false (addReq { id := 0, kind := .rd, mv := .invalid, head := 14, cls := cls, line := l } s)

/-- The sluice of a job's traffic (05 R149). -/
def Job.sluice (j : Job) : Nat := 8 * 14 + j.cls

/-- Bytes of spans. -/
def spanSum (l : List (Nat × Nat)) : Nat := (l.map (·.2)).sum

/-- JOB_SEGMENT_DISPATCH (05 R129, R149, R150, R155): the engine takes the job's next segment once the sluice passes it, no head
or device holds a line it must have, and the lines of imports have been read; a cancel takes effect between segments. -/
def segmentDispatch (e id : Nat) (s : State) : State :=
  match s.job? id with
  | some j =>
    let ls := linesOf j.srcSpans
    let far := fun l => (importOf s l).isSome
    let missing := ls.filter fun l => far l && (aget s.codec.fetched l).isNone
    let busy := ls.filter fun l => !far l && jobHeld s false l
    if (j.st ≠ .queued ∧ j.st ≠ .running) ∨ jobOnEngine s id = true ∨ s.flt.halted = true then s
    else if j.cancel.isSome then stopJob id .cancelled 0 s
    else if j.denied then stopJob id .failed 0x0002 s
    else if (jobStop j).isSome then endJob id s
    else if !mayRunBulk s e || !sluicePassesAt s j.sluice (spanSum j.srcSpans) then s
    else if !busy.isEmpty || !missing.isEmpty then
      missing.foldl (fun t l => fetchRemote j.cls l t) (jobSnoop busy s)
    else
      let s := chargeSluiceAt j.sluice (spanSum j.srcSpans) s
      let s := beginWork e (s.modEngine e fun x => { x with seg := some id })
      let s := s.modJob id fun j => { j with engine := e }
      if j.st = .running then s else moveJob id .running s
  | none => s

def execJobSegmentDispatch (engine job : Nat) (s : State) : Out := onUnit engine 32 (segmentDispatch engine job s)

/-- Source bytes of a line: of an import as its home gave them. -/
def jobBytesOf (s : State) (l : Nat) : List Byte :=
  match aget s.codec.fetched l with
  | some x => if (importOf s l).isSome then lineBytes x.1 else lineBytes (Memory.readLine s.mem l)
  | none => lineBytes (Memory.readLine s.mem l)

/-- Source bytes of a span. -/
def spanBytes (s : State) (x : Nat × Nat) : List Byte :=
  (((spanLines x).map (jobBytesOf s)).flatten.drop (x.1 % 64)).take x.2

/-- A read of a source line returns poison. -/
def jobPoison (s : State) (l : Nat) : Bool :=
  linePoison s l || ((importOf s l).isSome && ((aget s.codec.fetched l).map (·.2)).getD false)

/-- Write one line of a span: whole, or merged with the line's old bytes; into an import by a remote write. A part of a lost line is
discarded (04 R111), and nothing is written outside the valid ranges (06 R161). -/
def jobLine (j : Job) (a : Nat) (bs : List Byte) (l : Nat) (s : State) : State :=
  let lo := max a (64 * l)
  let hi := min (a + bs.length) (64 * l + 64)
  let new := zeros (lo - 64 * l) ++ (bs.drop (lo - a)).take (hi - lo) ++ zeros (64 * l + 64 - hi)
  let mask : BitVec 64 := BitVec.ofNat 64 (2 ^ (hi - 64 * l) - 2 ^ (lo - 64 * l))
  if (keyRangeOf s (64 * l)).isNone then s
  else if (importOf s l).isSome then
    let rid := s.req.next
    visitorStage rid false (addReq {
      id := 0, kind := if hi - lo < 64 then .wrPtl else .wr, mv := .invalid, head := 14, cls := j.cls, line := l, mask := mask
      data := BitVec.ofNat 512 (ofLe new 0 64) } s)
  else if hi - lo < 64 ∧ lineLost s l = true then
    raiseAddrOf j.issuer 326 (64 * l) (le 8 (l / 64) ++ le 1 (l % 64) ++ le 1 j.issuer) s
  else
    let bytes := mergeLine (Memory.readLine s.mem l) (BitVec.ofNat 512 (ofLe new 0 64)) mask
    writeLineNow l bytes (decide (hi - lo < 64) && s.dur.hostPoison.contains l) s

/-- Write a span (05 R149): ordinary writes. -/
def jobWrite (j : Job) (x : Nat × List Byte) (s : State) : State :=
  (spanLines (x.1, x.2.length)).foldl (fun t l => jobLine j x.1 x.2 l t) s

/-! ### Streams (05 R146, R147, R151, R152) -/

/-- FRAMING and WINDOW_LOG. -/
def Job.framing (j : Job) : Nat := j.p0 % 4
def Job.log (j : Job) : Nat := j.p0 / 2 ^ 8 % 16

/-- The check sum of the framing over further bytes. -/
def sumOver (framing prior : Nat) (bs : List Byte) : Nat :=
  if framing = 1 then adlerOver prior bs else if framing = 2 then crcOver 32 0xEDB88320 prior bs else 0

/-- One block of a COMPRESS stream (05 R146): 4,096 bytes of input (DESIGN CHOICE, log 64), in the codes that CODES or the job's own
history chooses. -/
def packBlock (ver : Nat) (last : Bool) (j : Job) (bs : List Byte) : Job :=
  let ts := parseOf ver (2 ^ j.log) j.win bs
  let fix := fixedBlock last ts
  let dyn := dynBlock ver last j.win ts
  let codes := j.p0 / 4 % 4
  let d := codes == 2 || (codes == 0 && decide (16 ≤ j.gain))
  let size := fun b : List Bool => blockSize ((b.length + 7) / 8)
  let all := j.bits ++ (if d then dyn else fix)
  let r := packBits (all.length / 8) all
  let seen := j.win ++ bs
  { j with
    win := seen.drop (seen.length - 2 ^ j.log), bits := r.2, pend := j.pend ++ r.1, sum := sumOver j.framing j.sum bs
    gain := j.gain - j.gain / 16 + ((size fix : Int) - size dyn) }

/-- A COMPRESS segment over its input: header, blocks, and after the last the padding and the trailer. -/
def packSegment (ver : Nat) (j : Job) (bs : List Byte) : Job :=
  let j := if j.opened then j
    else { j with opened := true, pend := j.pend ++ streamHeader j.framing j.log, sum := if j.framing = 1 then 1 else 0 }
  let last := decide (j.srcLen ≤ j.used + bs.length)
  let n := (bs.length + 4095) / 4096
  let j := (List.range n).foldl (fun x i => packBlock ver (last && i + 1 == n) x ((bs.drop (4096 * i)).take 4096)) j
  let j := { j with used := j.used + bs.length }
  if last && decide (0 < bs.length) then
    { j with
      ended := true, bits := []
      pend := j.pend ++ packAll j.bits ++ streamTrailer j.framing j.sum (j.srcLen % 2 ^ 32) }
  else j

/-- A DECOMPRESS segment over its input; none where the stream is in error (05 R147). Reading stops at the end of the stream. -/
def unpackSegment (j : Job) (bs : List Byte) : Option Job :=
  let inp := j.inp ++ bs
  let d := decodeStream j.framing j.log inp
  if d.bad then none
  else some { j with
    inp := inp, ended := d.used.isSome, used := d.used.getD inp.length
    pend := j.pend ++ d.out.drop (j.outTotal + j.pend.length) }

/-- Bytes that a stream writes now: what the destination has room for, and for COMPRESS what keeps its output below SRC_LEN or
brings it there (05 R152). -/
def streamOut (j : Job) : List Byte :=
  j.pend.take (min (j.dstLen - j.outSeg) (if j.func = 1 then j.srcLen - j.outTotal else j.pend.length))

/-- The stream has written them. -/
def streamPut (j : Job) : Job :=
  let n := (streamOut j).length
  { j with pend := j.pend.drop n, outTotal := j.outTotal + n, outSeg := j.outSeg + n }

/-- The stream after a segment's input, before its output is written; none where it is in error. A segment without input only
writes what waited. -/
def streamNext (s : State) (j : Job) : Option Job :=
  let bs := (j.srcSpans.map (spanBytes s)).flatten
  if j.srcSpans.isEmpty then some j
  else if j.func = 1 then some (packSegment (s.lm.clusterVer.getD (j.engine / 8) 0) j bs)
  else unpackSegment j bs

/-! ### Coding and check sums of a segment -/

/-- The parity or the erased shards of an RS segment (05 R157, R158). -/
def rsWrites (s : State) (j : Job) : List (Nat × List Byte) :=
  let cols := j.srcSpans.map (spanBytes s)
  let rows := codeRows j.k j.reads j.writes
  let col := j.used / max 1 j.k
  rows.mapIdx fun i row =>
    (j.dstAddr + i * j.shard + col,
     (List.range j.columns).map fun n => BitVec.ofNat 8 (gfDot row (cols.map fun c => byteAt c n)))

/-- RESULT after a CRC segment: the first continues from PRIOR or from nothing, the others from the result so far. -/
def crcNext (j : Job) (bs : List Byte) : Nat :=
  let prior := if 0 < j.used then j.result else if j.p0 = 1 then j.p1 else 0
  if j.func = 0x20 then crcOver 32 0x82F63B78 prior bs else crcOver 64 0x9A6C9329AC4BC9B5 prior bs

/-- The job after a segment and the bytes it writes, by span; none where a stream is in error (05 R147, R149-R152). -/
def segAdvance (s : State) (j : Job) : Option (Job × List (Nat × List Byte)) :=
  if j.isStream then (streamNext s j).map fun x => (streamPut x, [(x.dstAddr + x.outSeg, streamOut x)])
  else if j.isRs then
    let x := { j with used := j.used + j.k * j.columns }
    let n := if j.k * j.shard ≤ x.used then j.writes.length * j.shard else j.outTotal
    some ({ x with outTotal := n, outSeg := n }, rsWrites s j)
  else
    let bs := (j.srcSpans.map (spanBytes s)).flatten
    some ({ j with result := crcNext j bs, used := j.used + bs.length }, [])

/-- Between segments: a cancel takes effect, and bulk work that is held returns to QUEUED (05 R153, R155). -/
def afterSegment (e id : Nat) (s : State) : State :=
  match s.job? id with
  | some j =>
    if j.st ≠ .running then s
    else if j.cancel.isSome then stopJob id .cancelled 0 s
    else if s.power.brace ∨ 1 ≤ s.lm.therm ∨ (s.engine e).st ≠ .inService
        ∨ (s.dom (domCEC (e / 8))).st = .draining then moveJob id .queued s
    else s
  | none => s

/-- The lines of imports that a segment has read go. -/
def dropFetched (ls : List Nat) (s : State) : State :=
  { s with codec := { s.codec with fetched := s.codec.fetched.filter fun y => !ls.contains y.1 } }

/-- JOB_SEGMENT_DONE (05 R149-R153): the engine is free again, the segment's bytes are written, and the job goes on or stops. A
destination line that somebody still holds is withdrawn first, and the sluice must pass what is written. -/
def segmentDone (e : Nat) (s : State) : State :=
  match (if stalled s e then none else (s.engine e).seg) with
  | none => s
  | some id =>
    let ls := ((s.job? id).map fun j => linesOf j.srcSpans).getD []
    let free := dropFetched ls (startItem e (s.modEngine e fun x => { x with seg := none }))
    match s.job? id with
    | none => free
    | some j =>
      if ls.any (jobPoison s) then stopJob id .failed 0x0704 free
      else match segAdvance s j with
        | none => stopJob id .failed Config.streamWsc free
        | some (x, ws) =>
          let spans := ws.map fun y => (y.1, y.2.length)
          let busy := (linesOf spans).filter fun l => (importOf s l).isNone && jobHeld s true l
          if !busy.isEmpty then jobSnoop busy s
          else if !sluicePassesAt s j.sluice (spanSum spans) then s
          else
            let s := ws.foldl (fun t y => jobWrite j y t) (chargeSluiceAt j.sluice (spanSum spans) free)
            afterSegment e id (endJob id (s.modJob id fun _ => x))

def execJobSegmentDone (engine job : Nat) (s : State) : Out :=
  onUnit engine 32 (if (s.engine engine).seg = some job then segmentDone engine s else s)

/-- JOB_RECORD_EXPIRE (05 R154): 2^26 ticks after the job stopped for good. -/
def execJobRecordExpire (job : Nat) (s : State) : Out :=
  .next (match s.job? job with
    | some j => if !j.open_ && decide (j.stopped + 2 ^ 26 ≤ s.time.elapsed) then
        { s with codec := { s.codec with jobs := s.codec.jobs.filter (·.id != job) } }
      else s
    | none => s)

/-! ### Commands -/

/-- The issuer of a job's commands; an unknown job fails later (05 R154). -/
def jobAdm (s : State) (h : Nat) (p : List Byte) : Bool :=
  match s.job? (ofLe p 0 4) with
  | some j => j.issuer == h
  | none => true

def getJobSpec : CmdSpec where
  opcode := 0xC601
  len := fun n => n == 8
  mgt := true
  adm := jobAdm
  read := true
  resv := [(4, 0xFFFFFFFF)]

/-- The 64 bytes of GET_JOB. DESIGN CHOICE: the sideband, which "receives the state only, with HOST_TAG and RESULT zeroed", gets every
field but these two (05 R154; log 64). -/
def jobBytes (j : Job) (sb : Bool) : List Byte :=
  le 4 j.id ++ le 1 j.st.code ++ le 1 j.engine ++ le 2 j.wsc ++ le 8 j.used ++ le 8 j.outTotal ++ le 8 j.outSeg
    ++ le 8 (if sb then 0 else j.result) ++ le 8 (if sb then 0 else j.tag) ++ le 8 j.time ++ zeros 8

/-- A read of the head's oldest notification (05 R156). -/
def readNotice (h : Nat) (s : State) : CmdRes :=
  match s.codec.notes.getD h [] with
  | [] => .fail 0x0708 0
  | n :: rest =>
    let lost := s.codec.notesLost.getD h false
    let mid := match s.job? n.job with
      | some j => ((jobBytes j false).drop 5).take 43
      | none => zeros 43
    .ok (le 4 n.job ++ le 1 n.st.code ++ mid ++ le 8 n.time ++ le 1 (b2n lost) ++ le 2 rest.length ++ zeros 5)
      { s with codec := { s.codec with notes := s.codec.notes.set h rest, notesLost := s.codec.notesLost.set h false } }

/-- GET_JOB's own effect. -/
def getJob (m : Mb) (p : List Byte) (s : State) : CmdRes :=
  let id := ofLe p 0 4
  if id = 0xFFFFFFFF then (if m.src = 8 then .fail 0x0002 0 else readNotice m.src s)
  else match s.job? id with
    | some j => .ok (jobBytes j (m.src == 8)) s
    | none => .fail 0x0708 0

/-- GET_JOB (05 R154). -/
def execGetJob (m : Mb) (p : List Byte) (s : State) : Out := .next (runCrity getJobSpec m p (getJob m p) s)

def resumeJobSpec : CmdSpec where
  opcode := 0xC602
  len := fun n => n == 24
  mgt := true
  adm := jobAdm
  sb := fun _ => false
  resv := [(4, 0xFFFFFFFF), (14, 0xFFF0), (21, 0xFFFFFE)]
  checks := fun p _ => [⟨16, decide (ofLe p 16 8 ≤ 2 ^ 40), 0x0701⟩]

/-- RESUME_JOB's own checks and effect (05 R151, R153): the new destination is checked as in R148. -/
def resumeJob (p : List Byte) (s : State) : CmdRes :=
  let id := ofLe p 0 4
  match s.job? id with
  | none => .fail 0x0708 0
  | some j =>
    if j.st ≠ .resumable then .fail 0x0707 0
    else
      let n := { j with dstAddr := ofLe p 8 8, dstLen := ofLe p 16 8, outSeg := 0 }
      match dstBad s n 8 with
      | some (w, d) => .fail w d
      | none => .ok [] (moveJob id .queued (s.modJob id fun _ => n))

/-- RESUME_JOB (05 R153). -/
def execResumeJob (m : Mb) (p : List Byte) (s : State) : Out := .next (runCrity resumeJobSpec m p (resumeJob p) s)

/-- CANCEL_JOB's own effect (05 R153): at once, or at the end of the segment that runs. -/
def cancelJob (m : Mb) (p : List Byte) (s : State) : CmdRes :=
  let id := ofLe p 0 4
  match s.job? id with
  | none => .fail 0x0708 0
  | some j =>
    if !j.open_ then .fail 0x0706 0
    else if jobOnEngine s id then .wait (s.modJob id fun j => { j with cancel := some m })
    else .ok [] (stopJob id .cancelled 0 s)

/-- CANCEL_JOB (05 R153). -/
def execCancelJob (m : Mb) (p : List Byte) (s : State) : Out :=
  .next (runCrity { resumeJobSpec with
    opcode := 0xC603
    len := fun n => n == 8
    resv := [(4, 0xFFFFFFFF)]
    checks := fun _ _ => [] } m p (cancelJob m p) s)

/-- Jobs that touch a span of a key range that is reconfigured or erased fail at their next segment (05 R150). -/
def denyJobs (a n : Nat) (s : State) : State :=
  let hit : Nat → Nat → Bool := fun b l => decide (0 < l) && decide (a < b + l) && decide (b < a + n)
  let f : Job → Job := fun j =>
    if j.open_ && (hit j.srcAddr j.srcLen || hit j.dstAddr j.dstLen) then { j with denied := true } else j
  { s with codec := { s.codec with jobs := s.codec.jobs.map f } }

end Sys2Proof.Machine
end

