-- ==== Sys2Proof/Machine/Link.lean ====
section
/-! DEFINITION. The Stechaisk link: training, frames sent and received, acknowledgement and replay, flow control, loopbacks
(12 R318-R345; 13 R353, R361). -/

namespace Sys2Proof.Machine

/-! ### Sequence numbers (12 R334-R336) -/

/-- `a - b` modulo 4,096. -/
def seqDiff (a b : Nat) : Nat := (a + 4096 - b % 4096) % 4096

/-- Last SEQ of a transmitted frame: its own, or its extension's. -/
def lastSeq (f : Frame) : Nat := (f.seq + seqSpan f - 1) % 4096

/-- Frames transmitted under the current training and not acknowledged. -/
def Port.outstanding (x : Port) : List HeldFrame := x.held.filter (·.sent)

/-- SEQs outstanding. -/
def Port.seqs (x : Port) : Nat := (x.outstanding.map fun h => seqSpan h.frame).sum

/-- The place in the buffer of the transmitted frame that carries SEQ `q`. -/
def Port.find (x : Port) (q : Nat) : Option Nat := x.held.findIdx? fun h => h.sent && (h.frame.seq == q || lastSeq h.frame == q)

/-- The frames before place `n` are acknowledged: the count of R337 clears with the oldest, the replay timer restarts. -/
def ackFrames (p n : Nat) (s : State) : State :=
  if n = 0 then s
  else resumePort p <| s.modPort p fun x =>
    let held := x.held.drop n
    { x with
      held := held, count := 0, timerAt := s.time.elapsed
      spilled := x.spilled && decide (1024 < held.length), spillFull := x.spillFull && decide (heldMax ≤ held.length) }

/-- ACK of SEQ `q`; one that is not outstanding is ignored (12 R336). -/
def ackSeq (p q : Nat) (s : State) : State :=
  match (s.port p).find q with
  | some i =>
    let whole := (((s.port p).held.getD i { frame := {} }).frame |> lastSeq) == q
    ackFrames p (if whole then i + 1 else i) s
  | none => s

/-- An event of a port at the counters (19, events 0x20-0x22), with the SEQ it concerns. -/
def portCount (p event seq : Nat) (s : State) : State := pmcCount (linkEvent event (8 + p) p (seq % 4096 + p % 2 * 2 ^ 12)) s

/-! ### Training starts; the port goes DOWN (12 R331, R333, R339) -/

/-- Frames that survive a hand-over: EVICT and writes that may no longer be sent again stay behind (13 R361, R362). -/
def handsOver (s : State) (h : HeldFrame) : Bool :=
  h.frame.opcode != 0x06 &&
    !((h.frame.opcode == 0x04 || h.frame.opcode == 0x05) && h.frame.src == s.chain.id &&
      s.chain.remotes.any fun x => x.isWrite && x.wtag == h.frame.wtag && !mayResend s x)

/-- The other port takes every frame in order; the buffer is empty (12 R339). -/
def handOver (p : Nat) (s : State) : State :=
  let waits : List HeldFrame := (s.port p).backlog.map fun f => { frame := f }
  let l := ((s.port p).held ++ waits).filter (handsOver s)
  let s := s.modPort p fun x =>
    { x with held := [], backlog := [], count := 0, handed := true, spilled := false, spillFull := false }
  l.foldl (fun t h => hold (1 - p) { h.frame with seq := 0 } t) s

/-- What a training clears. -/
def Port.beginTraining (x : Port) (now : Nat) (absent : Bool) : Port :=
  { x with
    st := .align, retraining := !absent, trainAt := now, fromAbsent := absent, leak := 0, helloSent := false, helloRx := false
    rounds := [], roundSum := 0, accepted := none, credits := false, readySent := false, readyRx := false }

/-- A retrain starts on a port that is UP (12 R331): triggers in the order of that list, 0 replays, 1 TRAIN frame, 2 lane, 3
marker, 4 Keeper firmware or a command. -/
def startRetrain (p trigger : Nat) (s : State) : State :=
  if (s.port p).st ≠ .up then s
  else
    let ring := closedRing s
    let old := s
    let s := s.modPort p fun x => { x.beginTraining s.time.elapsed false with retrains := addSat 24 x.retrains 1 }
    let s := portCount p 0x21 (s.port p).txNext (portEvent p 2 (le 1 trigger) s)
    afterRoutes old (if ring then handOver p s else s)

/-- DOWN: the event with its cause, the frames handed over or given up, the cut (12 R333, R339; 13 R351). -/
def enterDown (p cause : Nat) (s : State) : State :=
  let x := s.port p
  if x.st = .off then s
  else
    let ring := closedRing s
    let old := s
    let s := s.modPort p fun x => { x with
      st := .down, retraining := false, downAt := s.time.elapsed, downCause := cause, downs := addSat 8 x.downs 1 }
    let s := portEvent p 1 (le 1 cause ++ le 4 x.held.length) s
    let s := if ring then handOver p s else s.modPort p fun x =>
      { x with held := [], backlog := [], count := 0, spilled := false, spillFull := false }
    afterRoutes old (sendCut p s)

/-- The port leaves service for a loopback; the chain sees a link that is down (12 R324). -/
def enterLoop (p : Nat) (st : PortSt) (s : State) : State :=
  let ring := closedRing s
  let old := s
  let clear : Lane → Lane := fun l => { l with errors := 0 }
  let s := s.modPort p fun x => { x with st := st, retraining := false, lanes := x.lanes.map clear }
  let code := match st with | .loopSerial => 7 | .loopParallel => 8 | .loopFar => 9 | _ => 10
  let s := portEvent p 12 (le 1 code ++ le 1 1 ++ le 4 0) s
  let s := if ring then handOver p s else s.modPort p fun x =>
    { x with held := [], backlog := [], count := 0, spilled := false, spillFull := false }
  afterRoutes old (sendCut p s)

/-- ABSENT: training from nothing. -/
def enterAbsent (p : Nat) (s : State) : State :=
  s.modPort p fun x => { x with st := .absent, retraining := false, quiet := none, fromAbsent := true }

/-! ### Alignment and deskew -/

/-- LANE_SIGNAL_DETECT (12 R330): every lane has had signal for 1 ms. -/
def signalDetect (p : Nat) (s : State) : State :=
  let lit : Lane → Lane := fun l => { l with signal := true }
  if (s.port p).st = .absent ∧ s.flt.halted = false then
    s.modPort p fun x => { x.beginTraining s.time.elapsed true with lanes := x.lanes.map lit }
  else s

def execLaneSignalDetect (port : Nat) (s : State) : Out := onUnit port 2 (signalDetect port s)

/-- LANE_ALIGN_DONE (12 R322): reasons 1 no lock, 2 no comma, 3 no valid code, 4 lane order. -/
def alignDone (p : Nat) (res : List LaneResult) (s : State) : State :=
  if (s.port p).st ≠ .align then s
  else
    let set : Nat → Lane → Lane := fun i l =>
      let r := res.getD i ⟨0, false, 0⟩
      { l with slips := r.slips, invert := r.invert, failed := r.fail != 0 }
    let s := s.modPort p fun x => { x with lanes := x.lanes.mapIdx set }
    match (List.range 16).find? fun i => (res.getD i ⟨0, false, 0⟩).fail != 0 with
    | some i => enterDown p 2 (portEvent p 4 (le 1 i ++ le 1 (res.getD i ⟨0, false, 0⟩).fail) s)
    | none => s.modPort p fun x => { x with st := .deskew }

def execLaneAlignDone (port : Nat) (res : List LaneResult) (s : State) : Out := onUnit port 2 (alignDone port res s)

/-- HELLO with RX_READY: the port's own deskew is done (12 R332 step 1). -/
def sendHello (p : Nat) (s : State) : State :=
  control p (.hello 1 (s.port p).headroom p true)
    (s.modPort p fun x => { x with helloSent := true, helloAt := s.time.elapsed })

/-- DESKEW_DONE (12 R323): the stage absorbs up to 32 columns. -/
def deskewDone (p : Nat) (depths : List Nat) (ok : Bool) (s : State) : State :=
  if (s.port p).st ≠ .deskew then s
  else if ok ∧ depths.all (· ≤ 32) = true then
    sendHello p (s.modPort p fun x => { x with
      st := .handshake, lanes := x.lanes.mapIdx fun i l => { l with depth := depths.getD i 0 } })
  else enterDown p 3 (portEvent p 5 (depths.map fun d => BitVec.ofNat 8 d) s)

def execDeskewDone (port : Nat) (depths : List Nat) (ok : Bool) (s : State) : Out := onUnit port 2 (deskewDone port depths ok s)

/-! ### The handshake (12 R332) -/

/-- HELLO_RESEND: once every 2 µs (33 ticks) in HANDSHAKE. -/
def execHelloResend (port : Nat) (s : State) : Out :=
  onUnit port 2 (if (s.port port).st = .handshake ∧ (s.port port).helloAt + 33 ≤ s.time.elapsed then sendHello port s else s)

/-- The local count of symbol clocks: 2.8125 GHz. -/
def symbolClock (s : State) : Nat := s.time.elapsed * 2812500000 / 2 ^ 24 % 2 ^ 32

/-- Step of the handshake a port is in. -/
def handshakeStep (x : Port) : Nat :=
  if x.st ≠ .handshake then 0
  else if !x.helloRx then 1 else if x.rounds.length < 8 then 2 else if !x.readySent then 3 else 4

/-- The handshake fails. -/
def handshakeFail (p version : Nat) (s : State) : State :=
  enterDown p 4 (portEvent p 6 (le 1 (handshakeStep (s.port p)) ++ le 1 version) s)

/-- TRAIN_HELLO: a TRAIN frame at a port that is UP starts a retrain (R331). -/
def trainHello (p : Nat) (rxReady : Bool) (version : Nat) (s : State) : State :=
  let x := s.port p
  if x.st = .up then startRetrain p 1 s
  else if x.st ≠ .handshake then s
  else if version ≠ 1 then handshakeFail p version s
  else if rxReady && !x.helloRx then
    let s := s.modPort p fun x => { x with helloRx := true }
    (List.range 8).foldl (fun t i => control p (.echoReq (symbolClock s) i) t) s
  else s

def execTrainHello (port : Nat) (rxReady : Bool) (version _peerPort _headroom : Nat) (s : State) : Out :=
  onUnit port 2 (trainHello port rxReady version s)

/-- TRAIN_ECHO_REQ: answered at once. -/
def execTrainEchoReq (port sendTime round turnaround : Nat) (s : State) : Out :=
  onUnit port 2 (if (s.port port).st = .up then startRetrain port 1 s
    else if (s.port port).st = .handshake then control port (.echoRsp sendTime round turnaround) s else s)

/-- SKL_DELAY of a sum over eight rounds in symbol clocks, in 2^-8 ticks: mean of half the difference. -/
def delayOf (sum : Nat) : Nat := sum * 2 ^ 32 / (16 * 2812500000)

/-- Step 3: ACCEPTED and CREDIT_ABS. -/
def sendAccepted (p : Nat) (s : State) : State :=
  let x := s.port p
  let s := s.modPort p fun x => { x with returns := [0, 0, 0, 0], returnAt := none }
  let t := x.trackers
  control p (.creditAbs (t.getD 0 0) (t.getD 1 0) (t.getD 2 0) (t.getD 3 0))
    (control p (.accepted ((x.rxExpected + 4095) % 4096) (!x.fromAbsent)) s)

/-- TRAIN_ECHO_RSP: the eighth round gives the one-way delay. -/
def echoRsp (p sendTime round turnaround now : Nat) (s : State) : State :=
  let x := s.port p
  if x.st ≠ .handshake ∨ 8 ≤ round ∨ x.rounds.contains round = true then s
  else
    let d := (now + 2 ^ 32 - sendTime % 2 ^ 32) % 2 ^ 32 - turnaround
    let s := s.modPort p fun x => { x with rounds := round :: x.rounds, roundSum := x.roundSum + d }
    if (s.port p).rounds.length < 8 then s
    else sendAccepted p (s.modPort p fun x => { x with delay := min (delayOf x.roundSum) (2 ^ 24 - 1) })

def execTrainEchoRsp (port sendTime round turnaround now : Nat) (s : State) : Out :=
  onUnit port 2 (if (s.port port).st = .up then startRetrain port 1 s else echoRsp port sendTime round turnaround now s)

/-- UP (12 R332): sequence numbers 0; held frames up to the partner's ACCEPTED are acknowledged, the others not yet transmitted;
credits of CREDIT_ABS; LINK_UP or RETRAIN_DONE; NEIGHBOUR (13 R347). -/
def enterUp (p : Nat) (s : State) : State :=
  let old := s
  let x := s.port p
  let s := match x.accepted with
    | some (q, true) => if x.handed then s else ackSeq p q s
    | _ => s
  let fresh : HeldFrame → HeldFrame := fun h => { h with sent := false, credit := false }
  let s := s.modPort p fun x => { x with
    st := .up, retraining := false, txNext := 0, rxExpected := 0, held := x.held.map fresh, avail := x.granted, unacked := 0
    nakAt := none, xoffSent := false, xoffHeld := false, handed := false, downCause := 0, flowAt := s.time.elapsed }
  let took := s.time.elapsed - x.trainAt
  let s := if x.fromAbsent then
      portEvent p 0 (le 4 took ++ (x.lanes.map fun l => BitVec.ofNat 8 l.slips) ++ le 4 x.delay) s
    else portEvent p 3 (le 4 took) s
  afterRoutes old (sendNeighbour p (flowState p s))

/-- READY follows once the own echoes, ACCEPTED and CREDIT_ABS are done (step 4); UP once it is sent and received. -/
def tryReady (p : Nat) (s : State) : State :=
  let x := s.port p
  if x.st ≠ .handshake then s
  else
    let s := if x.rounds.length = 8 ∧ x.accepted.isSome ∧ x.credits ∧ x.readySent = false then
        control p .ready (s.modPort p fun x => { x with readySent := true })
      else s
    if (s.port p).readySent && (s.port p).readyRx then enterUp p s else s

/-- A TRAIN frame of the handshake's later steps. -/
def trainFrame (p : Nat) (f : Port → Port) (s : State) : State :=
  if (s.port p).st = .up then startRetrain p 1 s
  else if (s.port p).st = .handshake then tryReady p (s.modPort p f) else s

def execTrainAccepted (port seq : Nat) (valid : Bool) (s : State) : Out :=
  onUnit port 2 (trainFrame port (fun x => { x with accepted := some (seq, valid) }) s)

def execTrainCreditAbs (port c0 c1 c2 c3 : Nat) (s : State) : Out :=
  onUnit port 2 (trainFrame port (fun x => { x with granted := [c0, c1, c2, c3], credits := true }) s)

def execTrainReady (port : Nat) (s : State) : Out := onUnit port 2 (trainFrame port (fun x => { x with readyRx := true }) s)

/-- TRAIN_LOOPBACK (12 R324): the partner serves the loop. -/
def execTrainLoopback (port : Nat) (enter : Bool) (s : State) : Out :=
  onUnit port 2 (if enter ∧ ((s.port port).st = .up ∨ (s.port port).st = .handshake) then enterLoop port .loopFarRemote s else s)

/-- The loop ends: PRBS errors of the lanes, LOOPBACK left, and training from ABSENT. -/
def leaveLoop (p : Nat) (errs : List Nat) (s : State) : State :=
  let code := match (s.port p).st with | .loopSerial => 7 | .loopParallel => 8 | .loopFar => 9 | _ => 10
  let set : Nat → Lane → Lane := fun i l => { l with errors := min (errs.getD i l.errors) (2 ^ 24 - 1) }
  let s := s.modPort p fun x => { x with lanes := x.lanes.mapIdx set }
  enterAbsent p (portEvent p 12 (le 1 code ++ le 1 0 ++ le 4 errs.sum) s)

/-- LOOPBACK_QUIET_END (12 R324): 2 µs of quiet transmitters. -/
def execLoopbackQuietEnd (port : Nat) (prbsErrors : List Nat) (s : State) : Out :=
  onUnit port 2 (match (s.port port).quiet with
    | some t => if t ≤ s.time.elapsed then leaveLoop port prbsErrors s else s
    | none => s)

/-! ### Sending (12 R336, R342, R343) -/

/-- Chain ID of the partner. -/
def partnerId (s : State) (p : Nat) : Nat := ((s.chain.neighbours.getD p none).map (·.id)).getD 0xFFF

/-- The frame needs a credit: it is addressed to the partner. -/
def needsCredit (s : State) (p : Nat) (f : Frame) : Bool := f.dst != 0xFFF && f.dst == partnerId s p

/-- An armed injection damages what the port sends; the partner drops it (19, checkers 0x08 and 0x09). -/
def damageSent (c p : Nat) (s : State) : State :=
  match armedFor c p 0 s with
  | some a => useArmed a s
  | none => s

/-- The place of the first frame not yet transmitted. -/
def Port.nextUnsent (x : Port) : Option Nat := x.held.findIdx? fun h => !h.sent

/-- DATA_FRAME_SEND: the next frame goes out with the next SEQ; at most 2,047 are unacknowledged, XOFF stops it, its credit is
consumed at this first transmission. -/
def frameSend (p : Nat) (s : State) : State :=
  let x := s.port p
  if x.st ≠ .up ∨ x.xoffHeld = true then s
  else match x.nextUnsent with
    | none => s
    | some i =>
      let f := (x.held.getD i { frame := {} }).frame
      let credit := needsCredit s p f
      if 2047 < x.seqs + seqSpan f ∨ (credit = true ∧ x.avail.getD f.vc 0 = 0) then s
      else
        let f := { f with seq := x.txNext }
        let first := x.outstanding.isEmpty
        let g : Port → Port := fun x => { x with
          held := x.held.set i { frame := f, sent := true, credit := credit }
          txNext := (x.txNext + seqSpan f) % 4096
          avail := if credit then x.avail.modify f.vc (· - 1) else x.avail
          timerAt := if first then s.time.elapsed else x.timerAt }
        let s := if i + 1024 < x.held.length then countDram 1 128 s else s
        damageSent 0x08 p ((s.modPort p g).emit (.frame p f))

def execDataFrameSend (port : Nat) (s : State) : Out := onUnit port 2 (frameSend port s)

/-- A replay from the oldest frame (12 R336, R337). The count of replays that begin at the same frame includes the one that is
not sent: at 4 the port retrains, at 8 it goes DOWN. -/
def replayFrames (p : Nat) (s : State) : State :=
  let x := s.port p
  if x.xoffHeld then s
  else
    let s := s.modPort p fun x => { x with count := x.count + 1 }
    if x.count + 1 = 4 then startRetrain p 0 s
    else if 8 ≤ x.count + 1 then enterDown p 1 s
    else
      let s := s.modPort p fun x => { x with replays := addSat 24 x.replays 1, timerAt := s.time.elapsed }
      let s := countDram 1 (128 * (x.held.length - 1024)) s
      x.outstanding.foldl (fun t h => damageSent 0x08 p (portCount p 0x20 h.frame.seq (t.emit (.frame p h.frame)))) s

/-- ACK (12 R336). -/
def execAck (port seq : Nat) (s : State) : Out := onUnit port 2 (if (s.port port).st = .up then ackSeq port seq s else s)

/-- LINK_NAK (12 R335, R336): acknowledges every frame before SEQ e, and replays from e. -/
def execLinkNak (port seq : Nat) (s : State) : Out :=
  onUnit port 2 (if (s.port port).st ≠ .up then s
    else match (s.port port).find seq with
      | some i => replayFrames port (ackFrames port i s)
      | none => s)

/-- REPLAY_TIMER_EXPIRE (12 R336): 2 µs (34 ticks) since it restarted. -/
def execReplayTimerExpire (port : Nat) (s : State) : Out :=
  onUnit port 2 (if (s.port port).st = .up ∧ (s.port port).outstanding ≠ [] ∧ (s.port port).timerAt + 34 ≤ s.time.elapsed
    then replayFrames port s else s)

/-! ### Receiving (12 R334, R335, R340) -/

/-- ACK of the last accepted SEQ. -/
def sendAck (p : Nat) (s : State) : State :=
  damageSent 0x09 p (control p (.ack (((s.port p).rxExpected + 4095) % 4096)) (s.modPort p fun x => { x with unacked := 0 }))

/-- NAK with the expected SEQ, at most one in 1 µs (17 ticks). -/
def sendNak (p : Nat) (s : State) : State :=
  let recent := match (s.port p).nakAt with | some t => decide (s.time.elapsed < t + 17) | none => false
  if recent then s
  else
    let s := s.modPort p fun x => { x with nakAt := some s.time.elapsed, unacked := 0 }
    portCount p 0x22 (s.port p).rxExpected (damageSent 0x09 p (control p (.nak (s.port p).rxExpected) s))

/-- Opcodes of R211 and R369, with whether PL is set. -/
def opcodePl (op : Nat) : Option Bool :=
  if op = 0x04 ∨ op = 0x05 ∨ op = 0x20 ∨ op = 0x21 ∨ op = 0x26 ∨ (0x30 ≤ op ∧ op ≤ 0x38) then some true
  else if (1 ≤ op ∧ op ≤ 6) ∨ (0x10 ≤ op ∧ op ≤ 0x13) ∨ (0x22 ≤ op ∧ op ≤ 0x25) then some false
  else none

/-- Header bits [63:0] (12 R325). -/
def headerLow (f : Frame) : Nat :=
  f.seq % 2 ^ 12 + f.vc % 4 * 2 ^ 12 + b2n f.pl * 2 ^ 14 + b2n f.ext * 2 ^ 15 + f.opcode % 64 * 2 ^ 16 + f.dst % 2 ^ 12 * 2 ^ 22
    + f.src % 2 ^ 12 * 2 ^ 34 + f.hops % 256 * 2 ^ 46 + f.cls % 8 * 2 ^ 54 + b2n f.poison * 2 ^ 57 + b2n f.priority * 2 ^ 58
    + f.code % 4 * 2 ^ 59 + f.wtag / 2 ^ 18 % 8 * 2 ^ 61

/-- Header bits [127:64] (12 R325): the line, and the request tag or the write tag's low bits. -/
def headerHigh (f : Frame) : Nat :=
  f.line % 2 ^ 46
    + (if f.opcode = 0x04 ∨ f.opcode = 0x05 ∨ f.opcode = 0x22 then f.wtag % 2 ^ 18 else f.tag % 2 ^ 12) * 2 ^ 46

/-- The bytes of a data frame under its CRC (12 R325). -/
def wireBytes (f : Frame) : List Byte :=
  le 8 (headerLow f) ++ le 8 (headerHigh f) ++ (if f.pl then lineBytes f.payload else [])

/-- The bytes of its extension frame under the CRC of that one (12 R326). -/
def extensionBytes (f : Frame) : List Byte :=
  let g : Frame := { seq := f.seq + 1, vc := f.vc, opcode := 0x3F, dst := f.dst, src := f.src, hops := f.hops, cls := f.cls }
  le 8 (headerLow g) ++ le 8 (if f.opcode = 0x05 then f.mask.toNat else f.reqId % 2 ^ 12 + f.reqTag % 2 ^ 12 * 2 ^ 12)

/-- The CRCs with which a frame and its extension arrived are good (12 R327). -/
def frameCrcOk (f : Frame) (crc : FrameCrc) : Bool :=
  crc.base == crc32 (wireBytes f) && (!f.ext || crc.ext == crc32 (extensionBytes f))

/-- An accepted frame: stored, tracked when it is addressed to this device, then discarded, forwarded or kept for its message
row. -/
def acceptFrame (p : Nat) (f : Frame) (s : State) : State :=
  let mine := f.dst == s.chain.id && f.dst != 0xFFF
  let g : Port → Port := fun x => { x with
    rx := x.rx ++ [f], free := x.free - frameBytes f, rxExpected := (x.rxExpected + seqSpan f) % 4096
    trackers := if mine then x.trackers.modify f.vc (· - 1) else x.trackers
    unackedAt := if x.unacked = 0 then s.time.elapsed else x.unackedAt, unacked := x.unacked + seqSpan f }
  let s := flowState p (s.modPort p g)
  let s := if 32 ≤ (s.port p).unacked then sendAck p s else s
  if opcodePl f.opcode ≠ some f.pl then consume p f (portEvent p 11 (le 8 (headerLow f)) s)
  else if passing s f then forwardFrame p f s
  else s

/-- DATA_FRAME_RECEIVE (12 R334). -/
def frameReceive (p : Nat) (f : Frame) (crc : FrameCrc) (s : State) : State :=
  let x := s.port p
  let d := seqDiff f.seq x.rxExpected
  if x.st ≠ .up then s
  else if frameCrcOk f crc = false then sendNak p (s.modPort p fun x => { x with crcErr := addSat 24 x.crcErr 1 })
  else if d = 0 then
    if frameBytes f ≤ x.free then acceptFrame p f s
    else
      let s := if x.overflow then s
        else portEvent p 8 (le 4 x.free ++ le 1 x.headroom) (s.modPort p fun x => { x with overflow := true })
      sendNak p s
  else if d ≤ 2048 then sendNak p s
  else sendAck p s

def execDataFrameReceive (port : Nat) (f : Frame) (crc : FrameCrc) (s : State) : Out :=
  onUnit port 2 (frameReceive port f crc s)

/-! ### Control frames and their timers -/

def execXon (port : Nat) (s : State) : Out :=
  onUnit port 2 (if (s.port port).st = .up then s.modPort port fun x => { x with xoffHeld := false } else s)

def execXoff (port : Nat) (s : State) : Out :=
  onUnit port 2 (if (s.port port).st = .up then s.modPort port fun x => { x with xoffHeld := true } else s)

/-- CREDIT (12 R342): increments for VC 0-3. -/
def execCredit (port c0 c1 c2 c3 : Nat) (s : State) : Out :=
  let add : Port → Port := fun x => { x with avail := List.zipWith (· + ·) x.avail [c0, c1, c2, c3] }
  onUnit port 2 (if (s.port port).st = .up then s.modPort port add else s)

/-- CONTROL_FRAME_DROP (12 R344): SKL_LEAK; at LEAK_LIMIT the event, and the retrain that Keeper firmware requests. -/
def controlDrop (p : Nat) (s : State) : State :=
  let s := s.modPort p fun x => { x with leak := addSat 24 x.leak 1, ctrlDrop := addSat 24 x.ctrlDrop 1 }
  let x := s.port p
  if x.leak = x.leakLimit then
    let s := portEvent p 7 (le 4 x.leak ++ (x.avail.map fun n => le 2 n).flatten) s
    if x.leakRetrain then startRetrain p 4 s else s
  else s

/-- CONTROL_FRAME_DROP: the frame's eight bytes do not match its CRC-16 (12 R327, R344). -/
def execControlFrameDrop (x : CtlArrival) (s : State) : Out :=
  onUnit x.port 2 (match (s.port x.port).st with
    | .up | .handshake => if crc16 x.bytes = x.crc then s else controlDrop x.port s
    | .off | .absent | .align | .deskew | .down | .loopSerial | .loopParallel | .loopFar | .loopFarRemote => s)

/-- ACK_TIMER (12 R335): 128 ns (2 ticks) after the earliest acceptance not acknowledged. -/
def execAckTimer (port : Nat) (s : State) : Out :=
  onUnit port 2 (if (s.port port).st = .up ∧ 0 < (s.port port).unacked ∧ (s.port port).unackedAt + 2 ≤ s.time.elapsed
    then sendAck port s else s)

/-- CREDIT_RETURN_TIMER (12 R342): 128 ns after the oldest pending return. -/
def execCreditReturnTimer (port : Nat) (s : State) : Out :=
  onUnit port 2 (match (s.port port).returnAt with
    | some t => if (s.port port).st = .up ∧ t + 2 ≤ s.time.elapsed then damageSent 0x09 port (sendCredits port s) else s
    | none => s)

/-- FLOW_STATE_REPEAT (12 R340). -/
def execFlowStateRepeat (port : Nat) (s : State) : Out :=
  onUnit port 2 (if (s.port port).st = .up then
      control port (if (s.port port).xoffSent then .xoff else .xon)
        (s.modPort port fun x => { x with flowAt := s.time.elapsed })
    else s)

/-! ### Lanes and limits (12 R331, R333) -/

/-- LANE_ERROR_BURST: a lane loses signal, or shows more than 32 code violations within 2^10 ticks. -/
def laneBurst (p lane : Nat) (lost : Bool) (s : State) : State :=
  let f : Lane → Lane := fun l => if lost then { l with signal := false } else { l with errors := addSat 24 l.errors 33 }
  startRetrain p 2 (s.modPort p fun x => { x with lanes := x.lanes.modify lane f })

def execLaneErrorBurst (port lane : Nat) (signalLost : Bool) (s : State) : Out :=
  onUnit port 2 (if lane < 16 then laneBurst port lane signalLost s else s)

def execMarkerMisalign (port : Nat) (s : State) : Out := onUnit port 2 (startRetrain port 3 s)

/-- RETRAIN_TIMEOUT (12 R331): 10 ms (167,772 ticks) after it began. -/
def execRetrainTimeout (port : Nat) (s : State) : Out :=
  onUnit port 2 (if (s.port port).retraining ∧ (s.port port).trainAt + 167772 ≤ s.time.elapsed then handshakeFail port 1 s else s)

/-- ALL_LANES_SIGNAL_LOSS (12 R324, R333): for 1 µs. -/
def allLost (p : Nat) (s : State) : State :=
  let dark : Lane → Lane := fun l => { l with signal := false }
  let t := s.modPort p fun x => { x with lanes := x.lanes.map dark }
  match (s.port p).st with
  | .up | .align | .deskew | .handshake => enterDown p 5 t
  | .loopFarRemote => leaveLoop p [] t
  | .off | .absent | .down | .loopSerial | .loopParallel | .loopFar => t

def execAllLanesSignalLoss (port : Nat) (s : State) : Out := onUnit port 2 (allLost port s)

/-- DOWN_HOLD_EXPIRE (12 R333): 2^24 ticks, unless it was disabled. -/
def execDownHoldExpire (port : Nat) (s : State) : Out :=
  onUnit port 2 (if (s.port port).st = .down ∧ (s.port port).disabled = false ∧ s.flt.halted = false
      ∧ (s.port port).downAt + 2 ^ 24 ≤ s.time.elapsed then enterAbsent port s else s)

/-! ### Commands (12 R345) -/

/-- STATE code. -/
def PortSt.code : PortSt → Nat
  | .off => 0 | .absent => 1 | .align => 2 | .deskew => 3 | .handshake => 4 | .up => 5 | .down => 6 | .loopSerial => 7
  | .loopParallel => 8 | .loopFar => 9 | .loopFarRemote => 10

/-- The SKL_ register at an offset of a port's block. -/
def sklReg (x : Port) (off : Nat) : Nat :=
  if off = 0x000 then
    x.st.code + 16 * b2n x.retraining + 32 * b2n x.xoffSent + 64 * b2n x.xoffHeld + 128 * b2n (decide (1024 < x.held.length))
      + 256 * b2n x.optical + 4096 * x.downCause
  else if off = 0x004 then x.headroom + 256 * x.leakLimit + 65536 * b2n x.leakRetrain
  else if off = 0x008 then x.delay
  else if off = 0x00C then x.txNext + 4096 * x.rxExpected
  else if off = 0x010 then x.replays
  else if off = 0x014 then x.retrains + 2 ^ 24 * x.downs
  else if off = 0x018 then min 1024 x.held.length + 2048 * (x.held.length - 1024)
  else if off = 0x01C then x.free
  else if 0x020 ≤ off ∧ off < 0x030 then
    let v := (off - 0x020) / 4
    wrap 12 (x.avail.getD v 0) + 4096 * wrap 12 (x.granted.getD v 0)
  else if off = 0x030 then x.leak
  else if off = 0x034 then x.crcErr
  else if off = 0x038 then x.ctrlDrop
  else if 0x100 ≤ off ∧ off < 0x140 then
    let l := x.lanes.getD ((off - 0x100) / 4) {}
    l.slips % 16 + 16 * b2n l.invert + 32 * (l.depth % 64) + 2048 * b2n l.signal + 4096 * b2n l.failed
  else if 0x140 ≤ off ∧ off < 0x180 then (x.lanes.getD ((off - 0x140) / 4) {}).errors
  else 0

def getLinkStatusSpec : CmdSpec where
  opcode := 0xC403
  len := fun n => n == 4
  any := true
  read := true
  resv := [(1, 0xFFFFFF)]
  checks := fun p _ => [⟨0, decide (byteAt p 0 ≤ 1), 0x0007⟩]

/-- GET_LINK_STATUS. -/
def execGetLinkStatus (m : Mb) (p : List Byte) (s : State) : Out :=
  .next (runCrity getLinkStatusSpec m p (fun s =>
    let x := s.port (byteAt p 0)
    .ok (((List.range 16).map fun i => le 4 (sklReg x (4 * i))).flatten
      ++ ((List.range 32).map fun i => le 4 (sklReg x (0x100 + 4 * i))).flatten) s) s)

def retrainLinkSpec : CmdSpec where
  opcode := 0xC404
  len := fun n => n == 8
  mgt := true
  resv := [(4, 0xFC), (5, 0xFFFFFF)]
  resvWsc := 0x0501
  checks := fun p _ => [
    ⟨0, decide (byteAt p 0 ≤ 1), 0x0501⟩, ⟨1, decide (byteAt p 1 ≤ 7), 0x0501⟩,
    ⟨2, byteAt p 2 == 0 || (decide (8 ≤ byteAt p 2) && decide (byteAt p 2 ≤ 128) && byteAt p 2 % 4 == 0), 0x0501⟩]

/-- The state allows an ACTION (12 R330, R345): 0 no, 1 busy, 2 yes. -/
def actionAllowed (st : PortSt) (a : Nat) : Nat :=
  if a = 0 then 2
  else if a = 1 ∨ (4 ≤ a ∧ a ≤ 6) then
    match st with
    | .up => 2
    | .align | .deskew | .handshake => 1
    | .off | .absent | .down | .loopSerial | .loopParallel | .loopFar | .loopFarRemote => 0
  else if a = 2 then (if st = .off then 0 else 2)
  else if a = 3 then (if st = .down then 2 else 0)
  else match st with
    | .loopSerial | .loopParallel | .loopFar => 2
    | .off | .absent | .align | .deskew | .handshake | .up | .down | .loopFarRemote => 0

/-- What an ACTION does. -/
def linkAction (i a : Nat) (s : State) : State :=
  match a with
  | 1 => startRetrain i 4 s
  | 2 =>
    let s := if (s.port i).st = .down then s.modPort i fun x => { x with downCause := 6 } else enterDown i 6 s
    s.modPort i fun x => { x with disabled := true }
  | 3 => enterAbsent i (s.modPort i fun x => { x with disabled := false })
  | 4 => enterLoop i .loopSerial s
  | 5 => enterLoop i .loopParallel s
  | 6 => enterLoop i .loopFar (control i (.loopback true) s)
  | 7 => s.modPort i fun x => { x with quiet := some (s.time.elapsed + 34) }
  | _ => s

/-- RETRAIN_LINK's own checks and effect. -/
def retrainLink (p : List Byte) (s : State) : CmdRes :=
  let i := byteAt p 0
  let ok := actionAllowed (s.port i).st (byteAt p 1)
  if ok = 0 then .fail 0x0501 1
  else if ok = 1 then .fail 0x0502 1
  else
    let f : Port → Port := fun x => { x with
      headroom := if byteAt p 2 = 0 then x.headroom else byteAt p 2
      leakLimit := if byteAt p 3 = 0 then x.leakLimit else byteAt p 3
      leakRetrain := if bitAt p 4 1 then bitAt p 4 0 else x.leakRetrain }
    .ok [] (linkAction i (byteAt p 1) (flowState i (s.modPort i f)))

/-- RETRAIN_LINK. -/
def execRetrainLink (m : Mb) (p : List Byte) (s : State) : Out := .next (runCrity retrainLinkSpec m p (retrainLink p) s)

end Sys2Proof.Machine
end

