-- ==== Sys2Proof/Machine/Movers.lean ====
section
/-! DEFINITION. Movers: which moves may start in a berth, commits, barges, dredging, and outings as they go on and end
(03 R72-R90; 04 R110, R113, R122; 06 R176-R187; 14 R383-R386). -/

namespace Sys2Proof.Machine

/-! ### Berths (02 R50-R54) -/

/-- The overrides of R54 and R78: rebuild while redundancy is reduced, dredging below 5 %, migration above OVL_SOFT. -/
def holdsAll (s : State) (a : Nat) : Bool :=
  if a = 2 then reduced s
  else if a = 1 then lowFree s 1 || lowFree s 2
  else if a = 0 then decide (ovlSoftLimit s < overlayCount s) else false

/-- The berth in force is agent `a`'s; `here` work that restores a local unit's redundancy (02 R50). -/
def inForce (s : State) (a : Nat) (here : Bool) : Bool :=
  !s.flt.halted && (s.time.inBerth a || holdsAll s a)
    && (!(s.time.untimed && s.time.coord.getLsbD s.time.berthNow) || (a == 2 && here && reduced s))

/-- Agent `a` may start work in the berth in force: a brace stops migration, dredging, scrub and outings (15 R406). -/
def mayRun (s : State) (a : Nat) (here : Bool) : Bool := !s.power.brace && inForce s a here

/-- An outing may start a unit now: running, not held, its master's berth (14 R384, R385). -/
def outingRuns (s : State) (o : Outing) : Bool :=
  o.state == 0 && o.hold == 0 && mayRun s (berthAgent (kindMaster o.kind)) (localRebuild o.kind)
    && (o.kind != 7 || s.time.coord.getLsbD s.time.berthNow)

/-! ### Barges (03 R64, R82; 04 R102, R103, R110; 06 R172; 11 R307, R308) -/

/-- Barge of a location in tier 1 or 2. -/
def bargeOf (s : State) (t loc : Nat) : Nat := if t = 1 then warmBarge s.map.geo loc else coldBarge s.map.geo loc

/-- Pages whose block lies in a barge. -/
def bargeBlocks (s : State) (t b : Nat) : List Nat :=
  (s.map.pages.filter fun x => !x.2.zero && x.2.tier == t && bargeOf s t x.2.loc == b).map (·.1)

/-- A barge holds nothing that anybody reads any more. -/
def bargeEmpty (s : State) (t b : Nat) : Bool :=
  (bargeBlocks s t b).isEmpty && !(s.map.old.any fun o => o.tier == t && bargeOf s t o.loc == b)

/-- A barge is freed: a cold one is deallocated on its drives, one command for each chunk (11 R307). -/
def freeBarge (t b : Nat) (s : State) : State :=
  let s : State := { s with dur := { s.dur with dredge := s.dur.dredge.filter (· != (t, b)) } }
  if t = 1 then { s with dur := { s.dur with warm := adel s.dur.warm b } }
  else
    let g := s.map.geo
    let off : Nat × ColdBarge → Nat × ColdBarge := fun x =>
      if x.1 = b then (x.1, { x.2 with live := false, absent := [] }) else x
    let l := (List.range (g.coldK + g.coldM)).filter fun j => (s.unit (32 + coldDrive g b j)).readable
    let s : State := { s with dur := { s.dur with cold := s.dur.cold.map off } }
    l.foldl (fun u j => submit (coldDrive g b j) .dealloc 32 (8 * coldRow g b j) 8 u) s

/-- No chunk of the barge is being written. -/
def bargeIdle (s : State) (t b : Nat) : Bool := !(s.drives.writes.any fun w => w.tier == t && w.barge == b)

/-- The write of a warm barge begins (04 R102, R110): the channels that are HEALTHY now are its members, and one chunk goes to each
on port P2. A chunk's commands stand as one in the queues (log 62). -/
def startWarmBarge (b : Nat) (s : State) : State :=
  let m := newMembers s
  if s.map.geo.warmBarges ≤ b ∨ (aget s.dur.warm b).isSome = true ∨ bargeEmpty s 1 b = false ∨ m.length < 4 then s
  else
    let mask : BitVec 16 := m.foldl (fun x c => x ||| BitVec.ofNat 16 (2 ^ c)) 0
    let put : BargeWrite := { tier := 1, barge := b, waiting := m.map fun c => warmDimm s c b, abandoned := false }
    let s : State := { s with
      dur := { s.dur with warm := aset s.dur.warm b { members := mask, live := false } }
      drives := { s.drives with writes := s.drives.writes ++ [put] } }
    m.foldl (fun u c => queueCmd c ⟨6, false, chunkKey b, 4096 * (u.ddr.warmBase + b)⟩ u) (countDram 2 (4096 * m.length) s)

/-- The write of a cold barge begins (04 R103, R110; 06 R172): the next generation, chunks of drives that are not HEALTHY
absent, one chunk write to each other drive. -/
def startColdBarge (b : Nat) (s : State) : State :=
  let g := s.map.geo
  let old := (aget s.dur.cold b).getD ⟨[], 0, false, false, []⟩
  if g.coldBarges ≤ b ∨ old.live ∨ old.retired ∨ bargeIdle s 2 b = false ∨ bargeEmpty s 2 b = false then s
  else
    let chunks := List.range (g.coldK + g.coldM)
    let ok := fun j : Nat => (s.unit (32 + coldDrive g b j)).readable
    let gen := old.gen + 1
    let entry : ColdBarge := { absent := chunks.filter (!ok ·), gen := gen, live := false, retired := decide (0xFFFF ≤ gen) }
    let put : BargeWrite := {
      tier := 2, barge := b, waiting := (chunks.filter ok).map fun j => 32 + coldDrive g b j, abandoned := false }
    let s : State := { s with
      dur := { s.dur with cold := aset s.dur.cold b entry }
      drives := { s.drives with writes := s.drives.writes ++ [put] } }
    let s := if 0xFFFF ≤ gen then raiseAll 579 0 (le 8 b) s else s
    (chunks.filter ok).foldl (fun u j =>
      submit (coldDrive g b j) (.chunk b false) (27 + b % 5) (8 * coldRow g b j) 8 u) s

/-- DREDGE_URGENT when a tier's free space first falls below 5 % (03 R81); the hold of re-protection outings follows
(04 R114). -/
def checkFree (s : State) : State :=
  let w := lowFree s 1
  let c := lowFree s 2
  let s := if w && !s.map.urgentW then raiseAll 194 0 (le 1 1 ++ le 2 (freeSpace s 1)) s else s
  let s := if c && !s.map.urgentC then raiseAll 194 0 (le 1 2 ++ le 2 (freeSpace s 2)) s else s
  refreshHolds { s with map := { s.map with urgentW := w, urgentC := c } }

/-! ### Commits (03 R74, R89; 06 R176) -/

/-- The sidebands of a page's overlay become those of its frame. -/
def overlaySides (p : Nat) (s : State) : State :=
  let move : Nat × LineSide → Option (Nat × LineSide) := fun x =>
    if x.1 / 2 / 64 ≠ p then some x else if x.1 % 2 = 1 then some (x.1 - 1, x.2) else none
  { s with map := { s.map with side := s.map.side.filterMap move } }

/-- The counters a whole-page encryption leaves (06 R176). -/
def commitCounters (l : Lock) (e : PageEnt) : PageEnt :=
  if encrypts l.kind then { e with epoch := l.tEpoch, major := l.tMajor } else e

/-- The page becomes a zero page, with an overlay for the lines in `keep` only (03 R74). -/
def commitZero (l : Lock) (keep : BitVec 64) (s : State) : State :=
  let p := l.page
  let e := s.page p
  let s := if e.zero then s else retireLoc e.tier e.loc e.size s
  let s := match e.overlay with
    | some o => if keep = 0 then retireLoc 0 o.frame 0 s else s
    | none => s
  let s := dropSides p (fun i ovl => ovl && keep.getLsbD i) s
  s.modPage p fun e => { commitCounters l e with
    tier := 0, loc := 0, size := 0, start := 0, zero := true, block := none
    overlay := if keep = 0 then none else e.overlay.map fun o => { o with mask := keep, queued := false } }

/-- Lines of a full overlay that the mover has still to write: for a move that encrypts anew all but those that it or a host has
written since the lock was taken, else those whose mask bit is clear (03 R88; 06 R176, R178). -/
def fillLeft (s : State) (l : Lock) : BitVec 64 :=
  if encrypts l.kind then ~~~(l.wm ||| l.done) else ~~~(((s.page l.page).overlay.map (·.mask)).getD 0)

/-- The mover writes line `i` into the overlay (03 R87, R88): not one that a host write on its way will write, and only while the
in-flight write table, the port and the master's sluice have room. Its minor counter is 0 (06 R177). -/
def fillLine (p i : Nat) (s : State) : State :=
  match lockOf s p, (s.page p).overlay with
  | some l, some o =>
    let line := 64 * p + i
    let chans := writeChans s o.frame
    if !(fillLeft s l).getLsbD i || writePending s line || chans.isEmpty || decide (4096 ≤ s.req.ifwt.length)
        || (chans.any fun c => (s.chan c).full (moverOrder l)) || !sluicePasses s (moverMaster l.kind) 128 then s
    else
      let f : Lock → Lock := fun x => if x.page = p then { x with done := x.done ||| BitVec.ofNat 64 (2 ^ i) } else x
      let s : State := { s with map := { s.map with locks := s.map.locks.map f } }
      let s := chargeSluice (moverMaster l.kind) 128 (countDram (moverPort l) 128 s)
      let bytes := lineBytes (Memory.readLine s.mem line)
      let s := storeLine line bytes (s.dur.hostPoison.contains line) false true 0 s
      enterTableAt (moverOrder l) line 0 o.frame chans s
  | _, _ => s

/-- The mover fills what it may of an overlay, in line order. -/
def fillLines (p : Nat) (s : State) : State := (List.range 64).foldl (fun t i => fillLine p i t) s

/-- The full overlay becomes the page (03 R89, promotion; 06 R178). -/
def commitHot (l : Lock) (s : State) : State :=
  let p := l.page
  let e := s.page p
  match e.overlay with
  | some o =>
    let s := if e.zero then s else retireLoc e.tier e.loc e.size s
    (overlaySides p s).modPage p fun e => { commitCounters l e with
      tier := 0, loc := o.frame, size := 0, start := 0, zero := false, overlay := none, block := none }
  | none => s

/-- The generation of a cold barge; 0 for a warm one. -/
def bargeGen (s : State) (t b : Nat) : Nat := if t = 2 then ((aget s.dur.cold b).map (·.gen)).getD 0 else 0

/-- LOCATION and SIZE take the new block; the overlay keeps the lines hosts wrote meanwhile (03 R89, merge and
demotion). The block is sealed under the counters that the entry takes (06 R171, R175), and its range's history takes it (05
R143). -/
def commitBlock (l : Lock) (d : MoveDest) (s : State) : State :=
  let p := l.page
  let e := s.page p
  let keep := ((e.overlay.map (·.mask)).getD 0 &&& ~~~ l.snap) ||| l.wm
  let size := match l.block with | some b => b.size | none => d.size
  let b := bargeOf s d.tier d.loc
  let made := l.block.or (e.block.map (·.made))
  let sealed := made.map (sealBlock s p d.tier b (bargeGen s d.tier b) l.tEpoch l.tMajor)
  let s := match l.block with
    | some b => historyUpdate p b.sFix b.sDyn s
    | none => s
  let s := if d.tier = 1 then chargeSluice (moverMaster l.kind) (256 * size) (useKey p l.tEpoch (blockBlocks size) s) else s
  let s := if e.zero then s else retireLoc e.tier e.loc e.size s
  let s := match e.overlay with
    | some o => if keep = 0 then retireLoc 0 o.frame 0 s else s
    | none => s
  let s := dropSides p (fun i ovl => ovl && keep.getLsbD i) s
  s.modPage p fun e => { commitCounters l e with
    tier := d.tier, loc := d.loc, size := size, start := if d.tier = 2 then d.start else 0, zero := false, block := sealed
    overlay := if keep = 0 then none else e.overlay.map fun o => { o with mask := keep, queued := false } }

/-- LOCATION takes the copied block (03 R89, dredging). -/
def commitCopy (l : Lock) (d : MoveDest) (s : State) : State :=
  let e := s.page l.page
  let s := if d.tier = 1 then chargeSluice (moverMaster l.kind) (256 * e.size) s else s
  (retireLoc e.tier e.loc e.size s).modPage l.page fun e => { e with loc := d.loc, start := if d.tier = 2 then d.start else 0 }

/-- A frame has a copy on a DIMM slot. -/
def frameOn (s : State) (f slot : Nat) : Bool :=
  frameDimm s (frameLow s f) f == slot || frameDimm s (frameLow s f + 8) f == slot

/-- A mover writes lines of a page to both copies of a new frame, through the in-flight write table (03 R87). -/
def writeFrame (l : Lock) (ovl : Bool) (f : Nat) (mask : BitVec 64) (s : State) : State :=
  let lines := (List.range 64).filter mask.getLsbD
  let s := chargeSluice (moverMaster l.kind) (128 * lines.length) (countDram (moverPort l) (128 * lines.length) s)
  lines.foldl (fun t i =>
    let line := 64 * l.page + i
    enterTableAt (moverOrder l) line ((lastMinor t line ovl).getD 0) f (writeChans t f) t) s

/-- Re-mirroring moves the page's frame, or else its overlay's frame, off a pair that is not healthy (04 R113). -/
def commitRebuild (l : Lock) (d : MoveDest) (s : State) : State :=
  let e := s.page l.page
  if !e.zero && e.tier == 0 && !frameOk s e.loc then
    (retireLoc 0 e.loc 0 (writeFrame l false d.loc (BitVec.allOnes 64) s)).modPage l.page fun e => { e with loc := d.loc }
  else match e.overlay with
    | some o => (retireLoc 0 o.frame 0 (writeFrame l true d.loc o.mask s)).modPage l.page fun e =>
        { e with overlay := e.overlay.map fun o => { o with frame := d.loc } }
    | none => s

/-- Commits at the counters (19): dredge moves, promotions and demotions. -/
def moverEvent (l : Lock) (old new : Nat) (s : State) : State :=
  let ev := fun n m : Nat => { evOf n m 0 with tier := new, tierValid := true, addr := 4096 * l.page, addrValid := true }
  match l.kind with
  | .dredge => pmcCount (ev 0x28 11) s
  | _ => if new < old then pmcCount (ev 0x29 10) s else if old < new then pmcCount (ev 0x2A 10) s else s

/-- A write of the page waits for a re-encryption: its line's minor counter has run out (06 R179). -/
def minorWaits (s : State) (p : Nat) : Bool :=
  s.req.reqs.any fun r => r.st == .waiting && r.line / 64 == p && decide (63 < nextMinor s r.line (s.page p).overlay.isSome)

/-- What follows every commit: the lock is released, or kept until the old location has drained, a re-encryption that waited
starts, waiting writes go on (03 R80, R85, R89; 06 R179). -/
def afterCommit (l : Lock) (old : PageEnt) (s : State) : State :=
  let p := l.page
  let s := dropHeld p (passLock l old.tier old.loc (endMoverReads p s))
  let e := s.page p
  let s := if old.zero || e.zero then s else moverEvent l old.tier e.tier s
  let s := s.modPage p fun e => { e with queued := false, hot := false }
  let s := if ovlHardLimit s ≤ overlayCount s then s else { s with map := { s.map with ovlFull := false } }
  let done := encrypts l.kind
  let again := (s.keys.reenc.contains p && !done) || minorWaits s p
  let s : State := { s with keys := { s.keys with reenc := s.keys.reenc.filter fun q => q != p || !done } }
  let s := if again then startReencrypt p s else s
  keepVotes (checkFree (wakeWaiting p s))

/-- A location in a barge of `w` data chunks can hold a block: in the data space, inside its barge and, in Tier C, inside its
chunk, and not in a tag sector (03 R63, R64; 04 R102; 05 R139). -/
def fits (s : State) (d : MoveDest) : Bool :=
  let g := s.map.geo
  if d.tier = 1 then
    let w := (membersOf (((aget s.dur.warm (warmBarge g d.loc)).map (·.members)).getD 0)).length
    decide (1 ≤ d.size ∧ d.size ≤ 16) && decide (d.loc % max 1 (warmSectors g) + d.size ≤ warmTagSector w)
      && decide (warmBarge g d.loc < g.warmBarges)
  else if d.tier = 2 then
    decide (1 ≤ d.size ∧ d.size ≤ 16) && decide (d.start < 16) && decide (coldBarge g d.loc < g.coldBarges)
      && decide (d.loc % 8 * 16 + d.start + d.size ≤ 127)
  else false

/-- The destination that a block names. -/
def putDest (x : BlockPut) (t : Nat) : MoveDest := { tier := t, loc := x.loc, size := x.size, start := x.start, zero := false }

/-- Two blocks of a tier share no sector. -/
def apart (t : Nat) (x y : BlockPut) : Bool :=
  let first := fun z : BlockPut => if t = 1 then z.loc else 16 * z.loc + z.start
  decide (first x + x.size ≤ first y) || decide (first y + y.size ≤ first x)

/-- Blocks that were written in a barge and are not committed (04 R110). -/
def bargePuts (s : State) (t b : Nat) : List BlockPut :=
  if t = 1 then ((aget s.dur.warm b).map (·.blocks)).getD [] else ((aget s.dur.cold b).map (·.blocks)).getD []

def setPuts (t b : Nat) (l : List BlockPut) (s : State) : State :=
  let w : Nat × WarmBarge → Nat × WarmBarge := fun x => if x.1 = b then (x.1, { x.2 with blocks := l }) else x
  let c : Nat × ColdBarge → Nat × ColdBarge := fun x => if x.1 = b then (x.1, { x.2 with blocks := l }) else x
  if t = 1 then { s with dur := { s.dur with warm := s.dur.warm.map w } }
  else { s with dur := { s.dur with cold := s.dur.cold.map c } }

/-- A barge may take commits: every chunk has been written (04 R110). -/
def bargeLive (s : State) (t b : Nat) : Bool :=
  if t = 1 then ((aget s.dur.warm b).map (·.live)).getD false else ((aget s.dur.cold b).map (·.live)).getD false

/-- SIZE that the move's block has: the engine's, or that of a block that is not compressed anew. -/
def blockSizeOf (s : State) (l : Lock) : Option Nat :=
  if needsBlock s l then l.block.map (·.size) else some (s.page l.page).size

/-- Host writes of the page's overlay are on their way (03 R88). -/
def overlayWrites (s : State) (p : Nat) : Bool :=
  s.req.reqs.any fun r => r.line / 64 == p && (match r.st with
    | .write o _ _ => o
    | .sideband o _ _ _ => o
    | _ => false)

/-- The block that stands in its barge for the move is `d`, of a page in a range (06 R161). -/
def blockReady (s : State) (l : Lock) (d : MoveDest) : Bool :=
  decide (1 ≤ l.tier) && decide (d.tier = l.tier) && bargeLive s d.tier (bargeOf s d.tier d.loc)
    && (bargePuts s d.tier (bargeOf s d.tier d.loc)).any (fun x => x.page == l.page && putDest x d.tier == { d with zero := false })
    && blockSizeOf s l == some d.size

/-- Commit the move of a locked page to `d` (03 R89), where it can be committed. A move into Tier H fills the overlay first. -/
def commitMove (l : Lock) (d : MoveDest) (s : State) : State :=
  let p := l.page
  let old := s.page p
  if !l.reading || (keyRangeOf s (4096 * p)).isNone then s
  else match l.kind with
    | .dredge => if blockReady s l d then afterCommit l old (commitCopy l d s) else s
    | .rebuild =>
      if frameOk s d.loc && !(usedFrames s).contains d.loc && decide (d.loc < s.map.geo.hotFrames) && d.tier == 0
          && sluicePasses s 12 128 && decide (s.req.ifwt.length ≤ 4032)
      then afterCommit l old (commitRebuild l d s) else s
    | .promote | .merge | .demote | .rekey | .reencrypt =>
      if overlayWrites s p then s
      else if zeroResult s l then afterCommit l old (commitZero l (if l.tier = 0 then 0 else l.wm) s)
      else if l.tier = 0 then
        let s := fillLines p s
        match lockOf s p, (s.page p).overlay with
        | some l, some _ => if fillLeft s l = 0 then afterCommit l old (commitHot l s) else s
        | _, _ => s
      else if blockReady s l d then afterCommit l old (commitBlock l d s) else s

/-- MOVER_COMMIT (03 R89). -/
def moverCommit (page : Nat) (d : MoveDest) (s : State) : State :=
  if s.flt.halted then s
  else
    let s := beginReads page s
    match lockOf s page with
    | some l => commitMove l d s
    | none => s

def execMoverCommit (page : Nat) (dest : MoveDest) (s : State) : Out := .next (moverCommit page dest s)

/-- The blocks of a list that a barge holds: of locked pages, in its data space, and apart from one another. -/
def goodPuts (s : State) (t b : Nat) (blocks : List BlockPut) : List BlockPut :=
  blocks.foldl (fun acc x =>
    let mine := (lockOf s x.page).any fun l => l.tier == t && blockSizeOf s l == some x.size
    if bargeOf s t x.loc = b ∧ fits s (putDest x t) = true ∧ mine = true ∧ acc.all (fun y => apart t x y && y.page != x.page) = true
    then acc ++ [x] else acc) []

/-- A barge that was committed with a chunk on a unit that is gone is queued for re-protection (04 R110): with the restriping of
that unit, or else to be dredged. -/
def queueReprotect (t b : Nat) (s : State) : State :=
  match (membersOf (((aget s.dur.warm b).map (·.members)).getD 0)).find? fun c => !(s.unit (warmDimm s c b)).readable with
  | some c =>
    if t ≠ 1 then s
    else
      let slot := warmDimm s c b
      match s.crity.outings.find? fun o => o.open_ && o.kind == 2 && o.subject == slot with
      | some o => s.modOuting o.id fun o => { o with work := o.work ++ [b], total := o.total + 1 }
      | none => { s with dur := { s.dur with dredge := s.dur.dredge ++ [(1, b)] } }
  | none => s

/-- A barge is whole: it is live, and its blocks are committed (04 R110). -/
def commitBarge (t b : Nat) (blocks : List BlockPut) (s : State) : State :=
  let w : Nat × WarmBarge → Nat × WarmBarge := fun x => if x.1 = b then (x.1, { x.2 with live := true }) else x
  let c : Nat × ColdBarge → Nat × ColdBarge := fun x => if x.1 = b then (x.1, { x.2 with live := true }) else x
  let s : State :=
    if t = 1 then { s with dur := { s.dur with warm := s.dur.warm.map w } }
    else { s with dur := { s.dur with cold := s.dur.cold.map c } }
  let s := queueReprotect t b (setPuts t b (goodPuts s t b blocks) s)
  (bargePuts s t b).foldl (fun u x => moverCommit x.page (putDest x t) u) s

/-- BARGE_WRITE_COMMIT (04 R110): every present chunk has reached its devices, or its unit has been fenced. An abandoned barge
commits nothing (11 R308). -/
def bargeCommit (t b : Nat) (blocks : List BlockPut) (s : State) : State :=
  match (if s.flt.halted then none else s.drives.writes.find? fun w => w.tier == t && w.barge == b) with
  | some w =>
    if !w.waiting.isEmpty then s
    else
      let s : State := { s with drives := { s.drives with writes := s.drives.writes.filter (· != w) } }
      if w.abandoned then s else commitBarge t b blocks s
  | none => s

def execBargeWriteCommit (tier barge : Nat) (blocks : List BlockPut) (s : State) : Out :=
  .next (bargeCommit tier barge blocks s)

/-! ### Moves that start (03 R72-R79, R85; 04 R113, R114; 06 R178, R182) -/

/-- A mover may take the page: no lock on it, one free, no lost line, in a range or in the device range, not being erased (03 R85,
R90; 06 R161). -/
def lockable (s : State) (p : Nat) : Bool :=
  (lockOf s p).isNone && !lockDrains s p && lockFree s false && lossCovered s p == 0 && (keyRangeOf s (4096 * p)).isSome
    && !pageErasing s p

/-- An open outing of a kind has the page in its work and may start it. -/
def outingFor (s : State) (kind p : Nat) : Option Outing :=
  s.crity.outings.find? fun o => o.kind == kind && outingRuns s o && o.work.contains p

/-- A merge of a zero page's overlay that R74 would have sent to Tier H and a pin or hint sends elsewhere is an override of
loop 1. -/
def firstTouch (p t : Nat) (s : State) : State :=
  if (s.page p).zero ∧ t ≠ 0 ∧ tierOpen s 0 = true ∧ [2, 4, 6, 7].contains (pinOf s p) = true then countOverride 1 s else s

/-- Take the lock of a page and start its move: an overlay to fill for Tier H, a compression for a barge tier (03 R85, R86). Without a
place in the map cache no lock is taken (03 R67), nor while the master's sluice is red. -/
def startMove (kind : MoveKind) (p t outing : Nat) (s : State) : State :=
  let s := loadEntry p s
  let hot := decide (t = 0) && (match kind with | .promote | .merge | .rekey => true | _ => false)
  let frame := (s.page p).overlay.isSome || ((freeFrame s).isSome && decide (overlayCount s < ovlHardLimit s))
  if !cached s p || (hot && !frame) || !sluicePasses s (moverMaster kind) 4096 then s
  else
    let s := takeLock kind p t outing s
    beginReads p (if hot then fillOverlay p s else s)

/-- A queued page whose PIN forbids its tier (03 R77). -/
def misplaced (s : State) (p : Nat) : Bool :=
  let e := s.page p
  !e.zero && !pinAllows (pinOf s p) e.tier

/-- A stage outing wants the page in a tier (03 R95). -/
def stagedTo (s : State) (p t : Nat) : Option Outing :=
  s.crity.outings.find? fun o => o.kind == 0x0A && outingRuns s o && o.tier == t && o.work.contains p

/-- Promotion by heat, pin or stage (03 R72, R77, R95). A queued page goes where its heat sample sent it: a Tier C page to Tier H once
it has reached PROMOTE_W. -/
def planPromote (p t : Nat) (s : State) : State :=
  let e := s.page p
  let stage := stagedTo s p t
  let byHeat := e.queued && (if e.hot then t == 0 || !pinAllows (pinOf s p) 0 else t == 1)
  if e.zero ∨ e.tier ≤ t ∨ 2 ≤ t then s
  else if !pinAllows (pinOf s p) t || !tierOpen s t then s
  else if stage.isSome || (mayRun s 0 false && (misplaced s p || byHeat)) then
    startMove (if t = 0 then .promote else .merge) p t ((stage.map (·.id)).getD 0) s
  else s

/-- Fill marks and threshold of a tier in hundredths of a percent (03 R73). -/
def lowMark (s : State) (t : Nat) : Nat := 100 * (if t = 0 then s.map.pol.hotLow else s.map.pol.warmLow)
def highMark (s : State) (t : Nat) : Nat := 100 * (if t = 0 then s.map.pol.hotHigh else s.map.pol.warmHigh)
def demoteAt (s : State) (t : Nat) : Nat := if t = 0 then s.map.pol.demoteH else s.map.pol.demoteW

/-- The first clause of R73 calls for the page's demotion: fill above the low mark, and heat at most the threshold. -/
def coolEnough (s : State) (p : Nat) : Bool :=
  let e := s.page p
  let v := pinOf s p
  !e.zero && decide (lowMark s e.tier < fillOf s e.tier) && v != 5 && (v == 6 || decide (heatOf s p ≤ demoteAt s e.tier))
    && decide (p < levelOnePage 0)

/-- A pin permits no lower tier. -/
def heldUp (s : State) (p : Nat) : Bool := (List.range 3).all fun t => decide (t ≤ (s.page p).tier) || !pinAllows (pinOf s p) t

/-- Pages of a tier that a mover may take and its rules let go down. -/
def goesDown (s : State) (t p : Nat) : Bool :=
  let e := s.page p
  !e.zero && e.tier == t && lockable s p && !hotBound s p && !heldUp s p && decide (p < levelOnePage 0)

/-- Where migration's scan of a tier continues, and how far from there a page lies in page order (03 R73). -/
def scanOf (s : State) (t : Nat) : Nat := if t = 0 then s.map.scanH else s.map.scanW
def scanDist (s : State) (t p : Nat) : Nat := (p + 2 ^ 41 - scanOf s t) % 2 ^ 41

/-- No page that the scan must demote first lies before the page. -/
def nextInScan (s : State) (t p : Nat) : Bool :=
  s.map.pages.all fun x => decide (scanDist s t p ≤ scanDist s t x.1) || !(coolEnough s x.1 && goesDown s t x.1)

/-- Above the high mark the lowest-heat unpinned page goes, whatever its heat (03 R73). -/
def coldest (s : State) (t p : Nat) : Bool :=
  let free := fun q : Nat => goesDown s t q && (pinOf s q == 0 || decide (3 ≤ pinOf s q ∧ pinOf s q ≤ 6))
  free p && s.map.pages.all fun x => decide (heatOf s p ≤ heatOf s x.1) || !free x.1

/-- The rules of R73 call for the demotion of this page now. -/
def demotable (s : State) (p : Nat) : Bool :=
  let t := (s.page p).tier
  (coolEnough s p && nextInScan s t p) || (decide (highMark s t < fillOf s t) && coldest s t p)

/-- The scan of a tier passes a page: each forbidden demotion on the way is an override of loop 0 (03 R92). -/
def scanPast (t p : Nat) (s : State) : State :=
  let l := s.map.pages.filter fun x =>
    decide (scanDist s t x.1 ≤ scanDist s t p) && !x.2.zero && x.2.tier == t && coolEnough s x.1 && heldUp s x.1
  let s := l.foldl (fun u _ => countOverride 0 u) s
  { s with map := { s.map with
    scanH := if t = 0 then p + 1 else s.map.scanH, scanW := if t = 0 then s.map.scanW else p + 1 } }

/-- Re-mirroring finds no free frame for the page, or for a page pinned to Tier H to which this one, the coldest, gives way (04 R113,
R114). -/
def makesRoom (s : State) (p : Nat) : Bool :=
  (freeFrame s).isNone && (s.page p).tier == 0 && ((outingFor s 1 p).isSome ||
    (coldest s 0 p && s.crity.outings.any fun o => o.kind == 1 && outingRuns s o && o.work.any fun q => pinOf s q == 1))

/-- Demotion (03 R73, R77, R95; 04 R113, R114): one that the PIN forbids is an override of loop 0, and the scan passes it. -/
def planDemote (p t : Nat) (s : State) : State :=
  let e := s.page p
  let stage := stagedTo s p t
  let space := if t = 1 then warmOpen s else coldOpen s
  let calls := mayRun s 0 false && demotable s p
  if e.zero ∨ t ≤ e.tier ∨ 2 < t ∨ hotBound s p = true ∨ levelOnePage 0 ≤ p then s
  else if heldUp s p then
    (if mayRun s 0 false && coolEnough s p && nextInScan s e.tier p then scanPast e.tier p s else s)
  else if !pinAllows (pinOf s p) t then s
  else if space && (stage.isSome || calls || (mayRun s 0 false && misplaced s p) || makesRoom s p) then
    let o := ((stage.map (·.id)).orElse fun _ => (outingFor s 1 p).map (·.id)).getD 0
    startMove .demote p t o (if calls && coolEnough s p then scanPast e.tier p s else s)
  else s

/-- The conditions of R78 for merging a page's overlay; above OVL_SOFT `queueOverlays` queues the oldest. -/
def mergeDue (s : State) (p : Nat) : Bool :=
  match (s.page p).overlay with
  | some o => o.queued || (s.page p).queued || o.mask == BitVec.allOnes 64
  | none => false

/-- A stage outing wants a zero page whose data stand in its overlay alone (03 R95). -/
def stagedOverlay (s : State) (p : Nat) : Option Outing :=
  let e := s.page p
  let may : Nat → Bool := fun t =>
    (if t = 0 then tierOpen s 0 else !hotBound s p && (if t = 1 then warmOpen s else coldOpen s)) && pinAllows (pinOf s p) t
  if e.zero && e.overlay.isSome then
    s.crity.outings.find? fun o => o.kind == 0x0A && outingRuns s o && o.work.contains p && may o.tier
  else none

/-- A merge (03 R78, R79). One into Tier H fills the overlay as a promotion does, and keeps the page's counters (06
R176). -/
def planMerge (p : Nat) (s : State) : State :=
  let t := mergeTarget s p
  match stagedOverlay s p with
  | some o => startMove (if o.tier = 0 then .promote else .merge) p o.tier o.id s
  | none =>
    if (s.page p).overlay.isSome && mayRun s 0 false && mergeDue s p then
      startMove (if t = 0 then .promote else .merge) p t 0 (firstTouch p t s)
    else s

/-- Re-mirroring of a page (04 R113). -/
def planRebuild (p : Nat) (s : State) : State :=
  match outingFor s 1 p with
  | some o => startMove .rebuild p 0 o.id s
  | none => s

/-- Re-key of a page (06 R182): a Tier C page without an overlay is not touched. -/
def planRekey (p : Nat) (s : State) : State :=
  match outingFor s 8 p with
  | some o =>
    let e := s.page p
    if e.overlay.isSome ∧ (e.zero = true ∨ e.tier ≠ 0) then
      startMove (if mergeTarget s p = 0 then .rekey else .merge) p (mergeTarget s p) o.id (firstTouch p (mergeTarget s p) s)
    else if e.zero ∨ e.tier = 2 then s
    else startMove .rekey p e.tier o.id s
  | none => s

/-- One move of the plan starts where the rules admit it. Dredging is planned by barge, re-encryption by the write that
needs it. -/
def planMove (s : State) (m : Nat × MoveKind × Nat) : State :=
  let p := m.1
  if !lockable s p then s
  else match m.2.1 with
    | .promote => planPromote p m.2.2 s
    | .demote => planDemote p m.2.2 s
    | .merge => planMerge p s
    | .rebuild => planRebuild p s
    | .rekey => planRekey p s
    | .dredge | .reencrypt => s

/-- Live fraction of a barge, in hundredths of a percent of its data sectors. -/
def liveFraction (s : State) (t b : Nat) : Nat :=
  let used := ((s.map.pages.filter fun x => !x.2.zero && x.2.tier == t && bargeOf s t x.2.loc == b).map fun x => x.2.size).sum
  let all := if t = 1 then warmSectors s.map.geo else 128 * s.map.geo.coldK
  used * 10000 / max 1 all

/-- A restriping outing has the barge in its work (04 R113). -/
def restripes (s : State) (t b : Nat) : Bool :=
  decide (t = 1) && s.crity.outings.any fun o => o.kind == 2 && outingRuns s o && o.work.contains b

/-- Every page of a barge is held by another mover: dredging skips it (03 R83). -/
def allSkipped (s : State) (t b : Nat) : Bool :=
  !bargeEmpty s t b && (bargeBlocks s t b).all fun p => !lockable s p

/-- No other live barge of the tier that could be dredged has a smaller live fraction (03 R81). -/
def leastLive (s : State) (t b : Nat) : Bool :=
  let l := if t = 1 then s.dur.warm.map (·.1) else s.dur.cold.map (·.1)
  l.all fun c => c == b || !bargeLive s t c || allSkipped s t c || decide (liveFraction s t b ≤ liveFraction s t c)

/-- The barge may be dredged now (03 R81; 10 R298; 11 R309): the least live first, or one that is queued for it. -/
def dredgeable (s : State) (t b : Nat) : Bool :=
  bargeLive s t b && (restripes s t b || (mayRun s 1 false && (s.dur.dredge.contains (t, b)
    || ((decide (freeSpace s t < 1000) || decide (liveFraction s t b ≤ 5000)) && leastLive s t b))))

/-- Dredging takes the locks of a barge's pages that no other mover holds (03 R82, R83). -/
def dredgeBarge (s : State) (x : Nat × Nat) : State :=
  if !dredgeable s x.1 x.2 then s
  else if bargeEmpty s x.1 x.2 then freeBarge x.1 x.2 s
  else (bargeBlocks s x.1 x.2).foldl (fun u p =>
    if lockable u p then startMove .dredge p x.1 0 u else u) s

/-- MERGE_QUEUE (03 R78): above OVL_SOFT, overlays are queued oldest first. -/
def queueOverlays (s : State) : State :=
  let excess := overlayCount s - ovlSoftLimit s
  let l := (s.map.pages.filterMap fun x => x.2.overlay.map fun o => (o.seq, x.1)).mergeSort fun a b => decide (a.1 ≤ b.1)
  (l.take excess).foldl (fun u x => u.modPage x.2 fun e =>
    { e with overlay := e.overlay.map fun o => { o with queued := true } }) s

end Sys2Proof.Machine
end

