-- ==== Sys2Proof/Machine/Outings.lean ====
section
/-! DEFINITION. Outings as Keeper firmware runs them: their starts, units recorded, ends and what follows (04 R113, R122,
R126; 06 R166, R182, R187, R188; 14 R381-R387); recording a unit LOST (04 R98, R113). -/

namespace Sys2Proof.Machine

/-! ### The work of an outing (04 R113, R122, R123) -/

/-- Frames in use on a DIMM slot, ascending. -/
def slotFrames (s : State) (slot : Nat) : List Nat :=
  let l := (s.map.pages.filterMap fun x => if !x.2.zero && x.2.tier == 0 then some x.2.loc else none)
    ++ (s.map.pages.filterMap fun x => x.2.overlay.map (·.frame))
  (l.filter fun f => frameOn s f slot).mergeSort fun a b => decide (a ≤ b)

/-- A warm barge has a chunk on a DIMM slot. -/
def bargeOn (s : State) (b slot : Nat) : Bool :=
  match aget s.dur.warm b with
  | some w => w.live && (membersOf w.members).any fun c => warmDimm s c b == slot
  | none => false

/-- Live warm barges with a chunk on a DIMM slot, ascending. -/
def slotBarges (s : State) (slot : Nat) : List Nat :=
  ((s.dur.warm.map (·.1)).filter fun b => bargeOn s b slot).mergeSort fun a b => decide (a ≤ b)

/-- The chunk of a cold barge on a drive. -/
def driveChunk (s : State) (b d : Nat) : Option Nat :=
  (List.range (s.map.geo.coldK + s.map.geo.coldM)).find? fun j => coldDrive s.map.geo b j == d

/-- Live cold barges with a chunk on a drive, in sequence order. -/
def driveBarges (s : State) (d : Nat) : List Nat :=
  ((s.dur.cold.filter fun x => x.2.live && (driveChunk s x.1 d).isSome).map (·.1)).mergeSort fun a b => decide (a ≤ b)

/-- Pages with a frame on a DIMM slot. -/
def slotPages (s : State) (slot : Nat) : List Nat :=
  (s.map.pages.filter fun x => (!x.2.zero && x.2.tier == 0 && frameOn s x.2.loc slot)
    || x.2.overlay.any fun o => frameOn s o.frame slot).map (·.1)

/-- An element of the work of an outing needs nothing more: the page has left the DIMM, the barge has been freed, the page is
in the newest epoch, or is in the target tier or may not go there. No mover moves a page with a lost line (03 R90): re-mirroring is
done with it. -/
def satisfied (s : State) (o : Outing) (x : Nat) : Bool :=
  let e := s.page x
  if o.kind = 1 then
    lossCovered s x != 0 || (!(!e.zero && e.tier == 0 && frameOn s e.loc o.subject) && !(e.overlay.any fun v => frameOn s v.frame o.subject))
  else if o.kind = 2 then !bargeOn s x o.subject
  else if o.kind = 8 then
    e.epoch == (s.range o.subject).epoch || e.isZero || (!e.zero && e.tier == 2 && e.overlay.isNone)
  else if o.kind = 0x0A then !e.outside o.tier || !pinAllows (pinOf s x) o.tier
  else false

/-! ### Ends (04 R113, R122, R123; 06 R166, R187) -/

/-- A unit has its full redundancy again. -/
def unitRestored (slot : Nat) (s : State) : State :=
  let s := s.modUnit slot fun u => { u with
    health := .healthy, fenced := false, cause := 0, hotMark := 0, warmMark := 0, catchUp := [] }
  refreshHolds (raiseAll 323 0 (le 1 slot) s)

/-- The older epoch is retired (06 R166). -/
def retireEpoch (r : Nat) (s : State) : State :=
  s.modRange r fun x => { x with live := 1, useOld := 0, rekey := none, lateRaised := false }

/-- The range leaves ERASING; a deleted one is unused (06 R162, R187). -/
def endErase (r : Nat) (s : State) : State :=
  s.modRange r fun x =>
    if x.deleted then {} else { x with erase := none, eraseSpans := [], eraseFresh := [], watermark := 0 }

/-- The start phase of a background command ends with this result, which its next row reports (14 R374). -/
def noteBg (op : BgOp) (rc : Rc) (wsc : Nat) (out : List Byte) (s : State) : State :=
  (List.range 9).foldl (fun u i => if (bgOf u i).busy && (bgOf u i).op == some op then
    u.modBg i fun b => { b with result := some (rc, wsc, out) } else u) s

/-- Issuer of a background command under way; the device where there is none. -/
def bgIssuer (op : BgOp) (s : State) : Nat :=
  ((List.range 9).find? fun i => (bgOf s i).busy && (bgOf s i).op == some op).getD 0xFF

/-- What follows the end of an outing: restriping after re-mirroring, warm refill after hot refill, and the states their
ends restore. `n` bounds the chain of outings that have nothing to do. -/
def outingDone : Nat → Outing → State → State
  | 0, _, s => s
  | n + 1, o, s =>
    let next : Nat → List Nat → State := fun kind work =>
      let id := s.crity.nextOuting
      let s := s.modOuting o.id fun x => { x with linked := id }
      let s := openOuting kind o.issuer o.subject work.length work s
      if work.isEmpty then outingDone n { id := id, kind := kind, issuer := o.issuer, subject := o.subject } s else s
    if o.kind = 1 then next 2 (slotBarges s o.subject)
    else if o.kind = 2 then raiseAll 323 0 (le 1 o.subject) s
    else if o.kind = 3 then next 4 (slotBarges s o.subject)
    else if o.kind = 4 ∨ o.kind = 6 then unitRestored o.subject s
    else if o.kind = 5 then
      let part := s.crity.outings.any fun x => x.open_ && (x.kind == 3 || x.kind == 4) && x.subject == o.subject
      refreshHolds (s.modUnit o.subject fun u => { u with
        health := if u.health = .held then (if part then .refill else .healthy) else u.health, catchUp := [] })
    else if o.kind = 8 then retireEpoch o.subject s
    else if o.kind = 9 then endErase o.subject s
    else if o.kind = 0x0B then
      noteBg (.sanitize o.id) .success 0 [] { s with keys := { s.keys with sanitize := none } }
    else s

/-- Start an outing; one with nothing to do is DONE at once (14 R383). -/
def startOuting (kind issuer subject total : Nat) (work : List Nat) (s : State) : State :=
  let id := s.crity.nextOuting
  let s := openOuting kind issuer subject total work s
  let s := refreshHolds s
  if total = 0 then outingDone 3 { id := id, kind := kind, issuer := issuer, subject := subject } s else s

/-! ### Steps of Keeper firmware (14 R386) -/

/-- Record the units of an open outing that are done; the last one ends it (14 R383, R386). -/
def recordUnits (s : State) (o : Outing) : State :=
  let fin := o.work.filter (satisfied s o)
  let list := o.kind == 1 || o.kind == 2 || o.kind == 8 || o.kind == 0x0A
  let k := if list then fin.length else o.signalled
  let rest := if list then o.work.filter fun x => !satisfied s o x else o.work
  let late := if o.kind = 8 ∧ rest.isEmpty = true then
      rekeyPages s o.subject ((s.range o.subject).epoch - 1) else []
  let done := min o.total (o.done + k)
  let o' : Outing := { o with
    done := done, percent := openPercent done o.total, signalled := 0, work := rest ++ late
    last := if k = 0 then o.last else s.time.chain, unitsCycle := addSat 24 o.unitsCycle k }
  let s := s.modOuting o.id fun _ => o'
  if o.kind = 7 then s
  else if (if list then o'.work.isEmpty else if o.kind = 5 then (s.unit o.subject).catchUp.isEmpty else decide (o.total ≤ done)) then
    outingDone 3 o' (endOuting o.id 2 0 (s.modOuting o.id fun x => { x with done := o.total }))
  else s

/-- A paused re-key outing resumes by itself from 2^54 uses of the newest key (14 R387). -/
def resumeRekey (s : State) : State :=
  s.crity.outings.foldl (fun u o =>
    if o.kind = 8 ∧ o.state = 1 ∧ 2 ^ 54 ≤ (u.range o.subject).useNew then
      outingVector o (u.modOuting o.id fun x => { x with state := 0, last := u.time.chain })
    else u) s

/-- Solo ranges whose buddy has a route resynchronise (13 R368). -/
def resumeTandem (s : State) : State :=
  s.dur.tandem.foldl (fun u t => if t.solo && (direction u t.buddy).isSome then startResync t.range u else u) s

/-- Units that a replacement of a DIMM refills: the new one, and the partner that GRACE abandoned (04 R126). -/
def refillSlots (s : State) (slot : Nat) : List Nat :=
  let o := otherSlot slot
  slot :: (if (s.unit o).health = .lost ∧ (s.unit o).cause = 0x0D then [o] else [])

/-- A unit enters REFILL (04 R100, R122). -/
def toRefill (slot : Nat) (s : State) : State :=
  s.modUnit slot fun u => { u with
    health := .refill, fenced := false, cause := 0, hotMark := 0, warmMark := 0, catchUp := [] }

/-- END_REPLACE of a DIMM completes: the refill starts, its outing is the command's output (04 R122, R124). -/
def finishReplace (r : Replacement) (s : State) : State :=
  let op : BgOp := .endReplace r.slot
  let l := refillSlots s r.slot
  let by_ := bgIssuer op s
  let id := s.crity.nextOuting
  let s : State := { s with dur := { s.dur with repl := s.dur.repl.filter (·.slot != r.slot) } }
  let s := l.foldl (fun u i => toRefill i u) s
  let s := l.foldl (fun u i => let w := slotFrames u i; startOuting 3 by_ i w.length w u) s
  refreshHolds (noteBg op .success 0 (le 4 id) s)

/-- Step 10 of a replacement follows step 9: trained DIMMs whose partner is not HELD enter REFILL. -/
def startRefills (s : State) : State :=
  (s.dur.repl.filter (·.trained)).foldl (fun u r =>
    if (u.unit (otherSlot r.slot)).health = .held then u else finishReplace r u) s

/-- KEEPER_STEP (14 R386): completions are recorded, then work that firmware starts. -/
def keeperStep (s : State) : State :=
  if keeperOff s || keeperPaused s then s
  else
    let s := (s.crity.outings.filter (·.open_)).foldl (fun u o =>
      match findOuting u o.id with
      | some x => if x.open_ then recordUnits u x else u
      | none => u) s
    refreshHolds (startRefills (resumeTandem (keepVotes (resumeCodec (resumeRekey s)))))

def execKeeperStep (s : State) : Out := .next (keeperStep s)

/-! ### A unit is lost (04 R98, R113, R126; 14 R384) -/

/-- Outings that work on the unit end FAILED with UNIT_LOST. -/
def failUnitOutings (slot : Nat) (s : State) : State :=
  let l := s.crity.outings.filter fun o => o.open_ && decide (3 ≤ o.kind ∧ o.kind ≤ 6) && o.subject == slot
  l.foldl (fun u o => endOuting o.id 4 0x0309 u) s

/-- Re-mirroring, and restriping after it, for a DIMM (04 R113). -/
def reprotect (slot : Nat) (s : State) : State :=
  let work := slotPages s slot
  startOuting 1 0xFF slot work.length work s

/-- Re-protection is deferred while an open replacement of the slot has its GRACE (04 R126). -/
def deferred (s : State) (slot : Nat) : Bool :=
  s.dur.repl.any fun r => r.slot == slot && !r.reprotect && !r.expired

/-- Keeper firmware records a fenced unit as LOST, or UNTRUSTED for a FET_SHORT slot (04 R99), and starts re-protection; the
lengthsman powers a drive's slot down (11 R315). -/
def recordLost (slot : Nat) (s : State) : State :=
  let u := s.unit slot
  let known := u.health == .lost || u.health == .untrusted || u.health == .absent
  if !u.fenced || known then s
  else
    let bad := (s.slot slot).st == .fetShort
    let s := s.modUnit slot fun u => { u with
      health := if bad then .untrusted else .lost, catchUp := [], hotMark := 0, warmMark := 0 }
    let s := failUnitOutings slot (raiseAll 322 0 (le 1 slot ++ le 1 u.cause) s)
    if isDrive slot then refreshHolds (slotOff slot 1 3 s)
    else if deferred s slot then refreshHolds s
    else reprotect slot s

/-- UNIT_RECORD_LOST (04 R113); what falls in a device reset, or in a Keeper pause, is recorded when Keeper firmware has taken over
(20 R498, R499). -/
def execUnitRecordLost (slot : Nat) (s : State) : Out :=
  onUnit slot 48 (if keeperOff s || keeperPaused s then s else recordLost slot s)

end Sys2Proof.Machine
end

