-- ==== Sys2Proof/Machine/Berths.lean ====
section
/-! DEFINITION. What happens at berth and berth cycle boundaries: migration, dredging, heat decay, drift re-centring, scrub,
units of outings; per-cycle counts, drive estimates, SMART, reconciliation (02 R52-R55; 03 R70, R73, R92; 10 R287-R298; 11
R311-R317; 17 R440, R452). -/

namespace Sys2Proof.Machine

/-! ### Heat decay (03 R70) -/

/-- Share `k` of `b` of `n` indexes. -/
def shareLo (n k b : Nat) : Nat := n * k / max 1 b
def inShare (n k b i : Nat) : Bool := decide (shareLo n k b ≤ i) && decide (i < shareLo n (k + 1) b)

/-- A run of the heat decay agent: the unmarked entries of its share are halved and marked, and the stamps of its share of
the level-1 entries come within 8 of the count. -/
def decayRun (s : State) : State :=
  let m := s.time.berth.getD 6 0
  let b := (List.range 64).countP fun i => m.getLsbD i
  let k := (List.range s.time.berthNow).countP fun i => m.getLsbD i
  let mine := s.map.cache.filter fun x => !x.2 && inShare 65536 k b (cacheSet x.1)
  let s := mine.foldl (fun u x => halveHeat x.1 u) s
  let mark : Nat × Bool → Nat × Bool := fun x => if inShare 65536 k b (cacheSet x.1) then (x.1, true) else x
  let count := seconds s.time.chain % 256
  let maps := (offeredPages s + 255) / 256
  let clamp : Nat × Nat → Nat × Nat := fun x =>
    let d := (count + 256 - x.2) % 256
    if inShare maps k b x.1 ∧ 8 < d ∧ d < 128 then (x.1, (count + 248) % 256) else x
  { s with
    map := { s.map with cache := s.map.cache.map mark, stamps := s.map.stamps.map clamp }
    time := { s.time with lastDecay := some s.time.elapsed } }

/-- At least 2^17 ticks of local time have passed since the last run (02 R55). -/
def gapOver (now : Nat) (last : Option Nat) : Bool :=
  match last with
  | some t => decide (t + 2 ^ 17 ≤ now)
  | none => true

/-! ### Drift re-centring (10 R288-R290) -/

/-- Offset of delay register `i` of a device in its channel's block. -/
def delayReg (sub slot dev i : Nat) : Nat := 0x1000 + 0x1000 * sub + 0x200 * slot + 0x20 * dev + 4 * i

/-- Delays a channel was trained to: the stored training set of the channel, else the delays in force. -/
def trainedDelay (s : State) (c off : Nat) : Nat :=
  match (s.lm.training.reverse.find? fun t => t.chan == c).bind fun t => aget t.delays off with
  | some v => v
  | none => (aget (s.chan c).delays off).getD 0

/-- Nearest integer to a/b, halves upwards (log 24). -/
def roundDiv (a : Int) (b : Nat) : Int := (2 * a + b) / (2 * (max 1 b) : Nat)

/-- The drift of a device in 1/64 UI (10 R290). -/
def driftStep (base count : Nat) : Int := roundDiv (64 * Config.oscRun * ((base : Int) - count)) (base * count)

/-- Each lane of a deskew register moved by `step`, within its 6 bits. -/
def deskewBy (v : Nat) (step : Int) : Nat :=
  (List.range 4).foldl (fun acc n =>
    let x : Int := (v / 2 ^ (6 * n) % 64 : Nat)
    acc + ((x + step) % 64).toNat * 2 ^ (6 * n)) 0

/-- A FINE and COARSE delay moved by `step` of 1/64 UI. -/
def delayBy (v : Nat) (step : Int) : Nat :=
  let x : Int := (v % 64 + v / 256 % 128 * 64 : Nat)
  let y := (max 0 (x + step)).toNat
  y % 64 + y / 64 % 128 * 256

/-- Stage a delay register (10 R289). -/
def stageDelay (c off v : Nat) (s : State) : State := s.modChan c fun x => { x with staged := aset x.staged off v }

/-- Staged values of a subchannel take effect together; during an alert replay they wait for its end (10 R289). -/
def commitDelays (c sub : Nat) (s : State) : State :=
  if (s.chan c).replaying then
    s.modChan c fun x => { x with commits := if x.commits.contains sub then x.commits else x.commits ++ [sub] }
  else
    let mine : Nat × Nat → Bool := fun x => decide (0x1000 + 0x1000 * sub ≤ x.1) && decide (x.1 < 0x2000 + 0x1000 * sub)
    s.modChan c fun x => { x with
      delays := (x.staged.filter mine).reverse.foldl (fun l v => aset l v.1 v.2) x.delays
      staged := x.staged.filter fun v => !mine v }

/-- One device is re-centred (10 R290). -/
def recentre (s : State) (d : DriftSample) : State :=
  let u := s.unit (2 * d.chan + d.slot / 4)
  let out := u.fenced || (u.health != .healthy && u.health != .refill) || (s.dom (domDC d.chan)).st != .on
    || (s.unit (2 * d.chan)).health == .held || (s.unit (2 * d.chan + 1)).health == .held
  if out || decide (16 ≤ d.chan ∨ 2 ≤ d.sub ∨ 8 ≤ d.slot ∨ 10 ≤ d.dev) then s
  else
    let s := touchChan d.chan s
    let osc := delayReg d.sub d.slot d.dev 5
    let now := (aget (s.chan d.chan).delays osc).getD 0
    let base := now % 2 ^ 16
    let step := driftStep base d.count
    if 16 < step.natAbs then
      raiseAll (srcChannel d.chan 10) 0 (le 1 d.slot ++ le 1 d.dev ++ le 2 (twos 16 step)) s
    else
      let last : Chan → Chan := fun x => { x with delays := aset x.delays osc (base + wrap 16 d.count * 2 ^ 16) }
      let s := s.modChan d.chan last
      let wdq := delayReg d.sub d.slot d.dev 4
      let s := if 2 ≤ step.natAbs then stageDelay d.chan wdq (deskewBy (trainedDelay s d.chan wdq) step) s else s
      let rdqs := delayReg d.sub d.slot d.dev 1
      let cur := (aget (s.chan d.chan).delays rdqs).getD 0
      let s := if d.minusOk = d.plusOk then s
        else stageDelay d.chan rdqs (delayBy cur (if d.plusOk then 1 else -1)) s
      commitDelays d.chan d.sub s

def driftRun (l : List DriftSample) (s : State) : State :=
  let s := l.foldl recentre s
  { s with time := { s.time with lastDrift := some s.time.elapsed } }

/-! ### Scrub (10 R296-R298) -/

/-- The page whose line lies in Tier H frame `f`, as its frame or its overlay's. -/
def frameUser (s : State) (f line : Nat) : Option Nat :=
  (s.map.pages.find? fun x =>
    match x.2.overlay with
    | some o => (o.frame == f && o.mask.getLsbD line)
        || (!x.2.zero && x.2.tier == 0 && x.2.loc == f && !o.mask.getLsbD line)
    | none => !x.2.zero && x.2.tier == 0 && x.2.loc == f).map (·.1)

/-- The Tier H frame at a channel-local frame slot, if it is one (04 R101). -/
def frameAt (s : State) (c slot : Nat) : Option Nat :=
  let g := s.map.geo
  match g.low.idxOf? (if c < 8 then c else c - 8) with
  | some i =>
    let f := (slot - s.ddr.hotBase) * g.low.length + i
    if s.ddr.hotBase ≤ slot ∧ slot < s.ddr.warmBase ∧ f < g.hotFrames then some f else none
  | none => none

/-- The frame slot of a scrub read. -/
def scrubAt (s : State) (x : ScrubRead) : Nat := if x.warm then s.ddr.warmBase + x.slot else x.slot

/-- The pass of a channel's scrub moves on with the last line of a slot; past the last slot it begins anew (10 R296). -/
def scrubMoved (x : ScrubRead) (s : State) : State :=
  let at_ := scrubAt s x
  let frames := s.ddr.frames
  s.modChan x.chan fun c =>
    if x.line < 63 then { c with scrub := at_ }
    else if frames ≤ at_ + 1 then { c with scrub := 0, scrubAt := s.time.elapsed, scrubLate := false }
    else { c with scrub := at_ + 1 }

/-- The read of a line of a DIMM in service goes out on P3 (08 R222; 10 R287, R296). -/
def scrubFetch (c : Nat) (s : State) : State := chargeSluice 15 64 (countDram 3 64 (touchChan c s))

/-- A warm slot's burst does not match its device-8 parity: the barge is queued for dredging (10 R298). -/
def scrubMismatch (x : ScrubRead) (s : State) : State :=
  let s := raiseAll (srcChannel x.chan 4) 0 (le 8 (4096 * (s.ddr.warmBase + x.slot) + 64 * x.line) ++ le 1 2) s
  if s.dur.dredge.contains (1, x.slot) then s
  else { s with dur := { s.dur with dredge := s.dur.dredge ++ [(1, x.slot)] } }

/-- One scrub read, in frame order (10 R296-R298). Free frames and slots are passed over. A Tier H line is read as a host read of
that copy: the request of head 15 goes through the ladder of 04 R104. -/
def scrubRead (s : State) (x : ScrubRead) : State :=
  if 16 ≤ x.chan ∨ 64 ≤ x.line ∨ scrubAt s x < (s.chan x.chan).scrub ∨ sluicePasses s 15 64 = false then s
  else
    let s := scrubMoved x s
    if x.warm then
      if bargeLive s 1 x.slot = false ∨ (s.unit (warmDimm s x.chan x.slot)).readable = false then s
      else if x.out = .good then
        -- 19 R482: an injection inverts the parity as delivered
        match armedFor 0x0D x.chan 0 s with
        | some a => scrubMismatch x (scrubFetch x.chan (useArmed a s))
        | none => scrubFetch x.chan s
      else scrubMismatch x (scrubFetch x.chan s)
    else match frameAt s x.chan x.slot with
      | some f =>
        (match frameUser s f x.line with
        | some p =>
          if copyReadable s x.chan f && !writePending s (64 * p + x.line) then
            let r : Req := {
              id := s.req.next, kind := .rd, mv := .any, head := 15, cls := 0, line := 64 * p + x.line, dead := true
              st := .line x.chan 1 [] false, src_ := some (0, f) }
            addReq r (scrubFetch x.chan s)
          else s
        | none => s)
      | none => s

/-- SCRUB_LATE once a pass has taken longer than SCRUB_PERIOD hours: the fraction done, in hundredths of a percent. -/
def scrubLate (s : State) : State :=
  (List.range 16).foldl (fun u c =>
    let x := u.chan c
    if u.ddr.population.getLsbD c && !x.scrubLate
        && decide (x.scrubAt + u.slu.cfg.scrubPeriod * 3600 * 2 ^ 24 < u.time.elapsed) then
      raiseAll (srcChannel c 5) 0 (le 2 (x.scrub * 10000 / max 1 u.ddr.frames))
        (u.modChan c fun x => { x with scrubLate := true })
    else u) s

/-! ### Units of outings that go by count or watermark (04 R122, R123; 06 R187; 11 R316; 13 R368) -/

/-- Take the first `n` elements of the work of an outing; answers them. -/
def takeWork (id n : Nat) (s : State) : List Nat × State :=
  match findOuting s id with
  | some o => (o.work.take n, s.modOuting id fun x => { x with work := x.work.drop n, signalled := x.signalled + min n x.work.length })
  | none => ([], s)

/-- Pages of the spans at or above a watermark. -/
def spansLeft (l : List (Nat × Nat)) (wm : Nat) : Nat := (l.map fun x => x.2 - max x.1 wm).sum

/-- The watermark `n` pages of the spans further on. -/
def advanceMark : List (Nat × Nat) → Nat → Nat → Nat
  | [], wm, _ => wm
  | (lo, hi) :: t, wm, n =>
    let a := max lo wm
    if hi ≤ a then advanceMark t wm n else if n ≤ hi - a then a + n else advanceMark t hi (n - (hi - a))

/-- `n` pages of an erase: cleared, the watermark passes them. -/
def eraseUnits (o : Outing) (n : Nat) (s : State) : State :=
  let r := s.range o.subject
  let k := min n (spansLeft r.eraseSpans r.watermark)
  let wm := if k = 0 then r.watermark else advanceMark r.eraseSpans r.watermark k
  let hit := fun p : Nat => r.erasing p && decide (p < wm) && !r.eraseFresh.contains p
  let s := ((s.map.pages.map (·.1)).filter hit).foldl (fun u p => clearPage p u) s
  let s := s.modRange o.subject fun x => { x with watermark := wm, eraseFresh := x.eraseFresh.filter fun p => decide (wm ≤ p) }
  signalUnits o.id k s

/-- The chunk of a refilled cold barge is present again. -/
def chunkRefilled (d b : Nat) (s : State) : State :=
  match driveChunk s b d with
  | some j =>
    let fix : Nat × ColdBarge → Nat × ColdBarge := fun x =>
      if x.1 = b then (x.1, { x.2 with absent := x.2.absent.filter (· != j) }) else x
    { s with dur := { s.dur with cold := s.dur.cold.map fix } }
  | none => s

/-- The page whose Tier H frame or overlay a frame is, and the lines it holds. -/
def frameOwner (s : State) (f : Nat) : Option (Nat × BitVec 64) :=
  s.map.pages.findSome? fun x =>
    let own : Option (Nat × BitVec 64) :=
      if !x.2.zero && x.2.tier == 0 && x.2.loc == f then some (x.1, BitVec.allOnes 64) else none
    match x.2.overlay with
    | some o => if o.frame = f then some (x.1, o.mask) else own
    | none => own

/-- A frame's copy on channel `c` is written from its pair partner, under the page's lock and through the in-flight write table (04
R122, R123; 03 R85, R87); none where the page is locked, no lock is free, a write of the page is on its way, or the table has no
room. The lock is taken and released within the unit (log 62). -/
def copyFrame (c f : Nat) (s : State) : Option State :=
  match frameOwner s f with
  | none => some s
  | some (p, mask) =>
    if (lockOf s p).isSome || lockDrains s p || !lockFree s false || s.req.ifwt.any (fun e => e.line / 64 == p) || frameWrites s p
        || overlayWrites s p || decide (4032 < s.req.ifwt.length) || !sluicePasses s 12 128 then none
    else
      let ovl := (s.page p).overlay.any fun o => o.frame == f
      let lines := (List.range 64).filter mask.getLsbD
      let s := chargeSluice 12 (128 * lines.length) (countDram 3 (128 * lines.length) s)
      some (lines.foldl (fun t i =>
        let line := 64 * p + i
        enterTableAt 7 line ((lastMinor t line ovl).getD 0) f [c] t) s)

/-- Copy frames in order, up to the first that cannot be taken now; answers those copied. -/
def copyFrames (c : Nat) : List Nat → State → List Nat × State
  | [], s => ([], s)
  | f :: t, s =>
    match copyFrame c f s with
    | some u => let r := copyFrames c t u; (f :: r.1, r.2)
    | none => ([], s)

/-- Frames of a hot refill, in order: the watermark passes them (04 R122). -/
def refillUnits (o : Outing) (n : Nat) (s : State) : State :=
  let r := copyFrames (o.subject / 2) (o.work.take n) s
  let s := (takeWork o.id r.1.length r.2).2
  r.1.foldl (fun u f => u.modUnit o.subject fun y => { y with hotMark := max y.hotMark (f + 1) }) s

/-- Frames of a catch-up, those marked meanwhile among them (04 R123). -/
def catchUpUnits (o : Outing) (n : Nat) (s : State) : State :=
  let r := copyFrames (o.subject / 2) ((s.unit o.subject).catchUp.take n) s
  signalUnits o.id r.1.length
    (r.2.modUnit o.subject fun y => { y with catchUp := y.catchUp.filter fun f => !r.1.contains f })

/-- Warm barges of a warm refill, in order: a chunk is rebuilt from all the other data chunks but one, and written (04 R122). -/
def warmUnits (o : Outing) (n : Nat) (s : State) : State :=
  let bytes := fun b : Nat => 4096 * ((membersOf (((aget s.dur.warm b).map (·.members)).getD 0)).length - 1)
  let one : Bool × State → Nat → Bool × State := fun x _ =>
    if x.1 && sluicePasses x.2 12 4096 then
      let r := takeWork o.id 1 x.2
      (!r.1.isEmpty, r.1.foldl (fun u b => chargeSluice 12 (bytes b) (countDram 3 (bytes b)
        (u.modUnit o.subject fun y => { y with warmMark := max y.warmMark (b + 1) }))) r.2)
    else (false, x.2)
  ((List.range n).foldl one (true, s)).2

/-- Pages of a resync (13 R368): each line is read for its copy at the buddy. -/
def resyncUnits (o : Outing) (n : Nat) (s : State) : State :=
  (List.range (min n 64)).foldl (fun u _ =>
    if sluicePasses u 12 4096 then resyncPage o.subject (chargeSluice 12 4096 (countDram 3 4096 u)) else u) s

/-- `n` units of an outing are done in hardware. -/
def doUnits (s : State) (x : Nat × Nat) : State :=
  match findOuting s x.1 with
  | some o =>
    if !outingRuns s o then s
    else if o.kind = 3 then refillUnits o x.2 s
    else if o.kind = 4 then warmUnits o x.2 s
    else if o.kind = 5 then catchUpUnits o x.2 s
    else if o.kind = 6 then
      let d := o.subject - 32
      let r := takeWork o.id x.2 s
      r.1.foldl (fun u b =>
        let row := coldRow u.map.geo b ((driveChunk u b d).getD 0)
        chunkRefilled d b (u.modUnit o.subject fun y => { y with hotMark := max y.hotMark (row + 1) })) r.2
    else if o.kind = 7 then resyncUnits o x.2 s
    else if o.kind = 9 then eraseUnits o x.2 s
    else if o.kind = 0x0B then signalUnits o.id (min x.2 (o.total - o.done - o.signalled - o.work.length)) s
    else s
  | none => s

/-! ### BERTH_BOUNDARY (02 R52-R55) -/

/-- What the agents of a berth do. A brace stops migration, dredging, scrub and outings, not heat decay and drift (02 R55; 15
R406). -/
def berthWork (plan : BerthPlan) (s : State) : State :=
  let s : State := match s.map.polNext with
    | some p => { s with map := { s.map with pol := p, polNext := none } }
    | none => s
  let s := queueOverlays (refreshHolds s)
  let s := plan.moves.foldl planMove s
  let s := plan.dredge.foldl dredgeBarge s
  let s := plan.warm.foldl (fun u b => startWarmBarge b u) s
  let s := plan.cold.foldl (fun u b => startColdBarge b u) s
  let s := plan.units.foldl doUnits s
  let s := if inForce s 6 false && gapOver s.time.elapsed s.time.lastDecay then decayRun s else s
  let s := if inForce s 5 false && gapOver s.time.elapsed s.time.lastDrift then driftRun plan.drift s else s
  let s := if mayRun s 4 false then scrubLate (plan.scrub.foldl scrubRead s) else s
  checkFree s

/-- BERTH_BOUNDARY (02 R52): a new berth is in force. -/
def berthBoundary (plan : BerthPlan) (s : State) : State :=
  if s.boot.phase ≠ .ready ∨ s.flt.halted = true ∨ s.time.chain / 2 ^ 18 = s.time.lastBerth / 2 ^ 18 then s
  else berthWork plan { s with time := { s.time with lastBerth := s.time.chain } }

def execBerthBoundary (plan : BerthPlan) (s : State) : Out := .next (berthBoundary plan s)

/-! ### BERTH_CYCLE_BOUNDARY -/

/-- Override counts move to the previous cycle (03 R92); overlays without a write in the cycle are queued (03 R78); marks of
the map cache clear (03 R70). -/
def mapCycle (m : MapState) : MapState :=
  let idle : PageEnt → PageEnt := fun e => { e with overlay := e.overlay.map fun o =>
    { o with queued := o.queued || !o.written, written := false } }
  { m with
    overridePrev := m.overrides, overrides := [0, 0, 0, 0, 0, 0], advised := []
    cache := m.cache.map fun x => (x.1, false)
    pages := m.pages.map fun x => (x.1, idle x.2) }

/-- Counts of CE events go into EVENT_COUNT records, the next of which carries the count of dropped records (17 R440). -/
def countRecords (s : State) : State :=
  let l := s.lm.ceCounts
  let s : State := { s with lm := { s.lm with ceCounts := [], cycleRecs := 0 }, flt := { s.flt with ceSeen := [] } }
  l.foldl (fun u x =>
    let d := u.lm.droppedCount
    stage 0x02 1 x.1 (min x.2 (2 ^ 24 - 1)) (le 4 d) { u with lm := { u.lm with droppedCount := 0 } }) s

/-- The least value that at least `n` of the counted values do not pass. -/
def rankOf (h : List (Nat × Nat)) (n : Nat) : Nat :=
  let keys := h.map (·.1)
  let below := fun v => ((h.filter fun x => decide (x.1 ≤ v)).map (·.2)).sum
  ((keys.filter fun v => decide (n ≤ below v)).min?).getD 0

/-- The 99th percentile of a histogram: 99 of 100 of its reads took no longer (11 R311). -/
def percentile99 (h : List (Nat × Nat)) : Nat := rankOf h (((h.map (·.2)).sum * 99 + 99) / 100)

/-- Estimate and read-avoidance of a drive; a cycle with fewer than 1,000 reads leaves E (11 R311, R314). -/
def driveCycle (s : State) (p : Nat) : State :=
  let d := s.drive p
  let e := if 1000 ≤ (d.hist.map (·.2)).sum then percentile99 d.hist else d.e
  let slow := !d.avoided && decide (1000 ≤ d.reads ∧ d.reads < 20 * d.hedges)
  let back := d.avoided && decide (16 ≤ d.probes ∧ 100 * d.probeHedges ≤ d.probes)
  let s := s.modDrive p fun y => { y with e := e, avoided := (y.avoided || slow) && !back }
  if slow then raiseAll (srcDrive p 3) 0 (le 4 e ++ le 2 (d.hedges * 10000 / max 1 d.reads)) s else s

/-- The step of Percentage Used that a value has reached: 80, 90, 100 (11 R317). -/
def wearStep (used : Nat) : Nat := if 100 ≤ used then 3 else if 90 ≤ used then 2 else if 80 ≤ used then 1 else 0

/-- The SMART log of a drive (11 R302, R317; 17 R435). -/
def smartPoll (s : State) (x : DrivePoll) : State :=
  let p := x.drive
  let d := s.drive p
  if 16 ≤ p ∨ (s.unit (32 + p)).readable = false then s
  else
    let step := wearStep x.used
    let low := decide (x.spare < x.spareThresh)
    let crit := x.critical.testBit 2
    let new := decide (d.wearLevel < step) || (low && !d.wearSpare) || (crit && !d.wearCrit)
    let s := s.modDrive p fun y => { y with
      used := x.used, spare := x.spare, critical := x.critical, wearLevel := max y.wearLevel step
      wearSpare := low, wearCrit := crit }
    let s : State := { s with lm := { s.lm with samples := aset s.lm.samples (209 + p) (1024 * x.temp) } }
    let s := if new then raiseAll (srcDrive p 5) 0 (le 1 x.used ++ le 1 x.spare ++ le 1 x.critical) s else s
    if x.critical.testBit 3 then fenceUnit (32 + p) 0x0A s else s

/-- Counts of a drive restart with the cycle. -/
def driveCounts (x : Drive) : Drive := { x with reads := 0, hedges := 0, probes := 0, probeHedges := 0, hist := [] }

/-- An advisory copy is brought up to its owner's value; STATE_DISAGREE where the sequences agree and the values do not
(17 R452). -/
def reconcile (kind unit value : Nat) (s : State) : State :=
  let mine : Advisory → Bool := fun a => a.kind == kind && a.unit == unit
  let put : Advisory → State → State := fun a u =>
    { u with lm := { u.lm with advisory := a :: u.lm.advisory.filter (!mine ·) } }
  match s.lm.advisory.find? mine with
  | some a =>
    let seq := if a.value = value then a.seq else a.seq + 1
    let bad := a.copySeq == seq && a.copy != value
    let s := put ⟨kind, unit, value, seq, value, seq⟩ s
    if bad then
      let c := le 1 kind ++ le 1 unit ++ le 1 value ++ le 1 a.copy ++ le 4 seq
      stage 0x08 0 0x7FF 1 c (raiseAll 1504 0 c s)
    else s
  | none => put ⟨kind, unit, value, 0, value, 0⟩ s

/-- The cross-checks of R452 for a slot. -/
def crossCheck (s : State) (slot : Nat) : State :=
  let u := s.unit slot
  let on := (s.slot slot).st == .on
  let short := (s.slot slot).st == .fetShort
  let gone := u.health == .lost || u.health == .absent || u.health == .untrusted
  let ending := s.dur.repl.any fun r => r.slot == slot && r.ending
  if short && u.health != .untrusted then
    (recordLost slot (fenceUnit slot 0x05 s)).modUnit slot fun u => { u with health := .untrusted }
  else if !gone && !on then recordLost slot (fenceUnit slot 0x0E s)
  else if isDrive slot && gone && on && !ending && (s.drive (slot - 32)).step == 0 then slotOff slot 1 3 s
  else s

/-- STATE_RECONCILE (17 R451, R452): health (kind 0), slot power (1), domain power (2) and link state (3). -/
def reconcileAll (s : State) : State :=
  let s := (List.range 48).foldl (fun u i => reconcile 0 i (u.unit i).health.code u) s
  let s := (List.range 48).foldl (fun u i => reconcile 1 i (u.slot i).st.code u) s
  let s := (List.range 44).foldl (fun u d => reconcile 2 d (u.dom d).st.code u) s
  let s := (List.range 2).foldl (fun u k => reconcile 3 k (u.port k).st.code u) s
  (List.range 48).foldl crossCheck s

/-- Counts of outings restart with the cycle (14, UNITS_LAST_CYCLE). -/
def outingCycle (o : Outing) : Outing := { o with unitsLast := o.unitsCycle, unitsCycle := 0 }

/-- What the cycle restarts and runs. -/
def cycleWork (polls : List DrivePoll) (s : State) : State :=
  let s := countRecords s
  let s : State := { s with
    map := mapCycle s.map
    codec := { s.codec with engines := s.codec.engines.map fun x => { x with fails := 0 } }
    crity := { s.crity with outings := s.crity.outings.map outingCycle }
    time := { s.time with outsideInCycle := false } }
  let s := (List.range 16).foldl driveCycle s
  let s := polls.foldl smartPoll s
  let s : State := { s with drives := { s.drives with drives := s.drives.drives.map driveCounts } }
  let s := retryOffs (braceLong (scrubLate s))
  let s := reconcileAll s
  if s.boot.switchBack then { s with boot := { s.boot with internalOsc := false, switchBack := false } } else s

/-- BERTH_CYCLE_BOUNDARY (03 R92): at each chain-time second. -/
def cycleBoundary (polls : List DrivePoll) (s : State) : State :=
  if s.boot.phase ≠ .ready ∨ s.flt.halted = true ∨ seconds s.time.chain = seconds s.time.lastCycle then s
  else cycleWork polls { s with time := { s.time with lastCycle := s.time.chain } }

def execBerthCycleBoundary (polls : List DrivePoll) (s : State) : Out := .next (cycleBoundary polls s)

end Sys2Proof.Machine
end

