-- ==== Sys2Proof/Machine/FaultCmds.lean ====
section
/-! DEFINITION. Collector, history and reaction commands, and the quiet timer (18 R456-R461, R470). -/

namespace Sys2Proof.Machine

/-- A collector returns to NORMAL (18 R458, R459); a recovery is counted only when its quiet timer expired. -/
def collNormal (counted : Bool) (c : Collector) : Collector :=
  { c with fault := false, overflow := false, pend := 0, events := 0, worst := 0,
           recoveries := addSat 24 c.recoveries (b2n counted) }

/-- The quiet timer of a collector in FAULT has run out (18 R458). -/
def quietDue (now : Nat) (c : Collector) : Bool := c.fault && decide (c.since + 2 ^ c.quiet ≤ now)

/-- QUIET_TIMER_EXPIRE (18 R458): no quiet timer runs while the device is halted (R460). -/
def execQuietTimerExpire (coll : Nat) (s : State) : Out :=
  let expire : Collector → Collector := fun c => if quietDue s.time.elapsed c then collNormal true c else c
  onUnit coll 48 (if s.flt.halted then s else
    { s with flt := { s.flt with colls := s.flt.colls.modify coll expire } })

/-- One collector under CLEAR_FAULT with its FLAGS (18 R459, R460 input table): bit 0 to NORMAL, bit 1 clears RECOVERIES,
bit 2 applies QUIET, which returns the collector at once if its time has already run. -/
def clearColl (flags q now : Nat) (c : Collector) : Collector :=
  let c := if flags.testBit 0 then collNormal false c else c
  let c := if flags.testBit 1 then { c with recoveries := 0 } else c
  if flags.testBit 2 then
    let c := { c with quiet := q }
    if quietDue now c then collNormal true c else c
  else c

/-- Collector numbers that COLLECTOR names: one, or all for 0xFF. -/
def clearTargets (coll : Nat) : List Nat := if coll = 0xFF then List.range 48 else [coll]

def clearFaultSpec : CmdSpec where
  opcode := 0xC801
  len := fun n => n == 8
  mgt := true
  resv := [(1, 0xF8), (3, 0xFFFFFFFFFF)]
  resvWsc := 0x0901
  checks := fun p _ => [
    ⟨0, byteAt p 0 == 0xFF || decide (byteAt p 0 ≤ 47), 0x0901⟩,
    ⟨2, !bitAt p 1 2 || (decide (16 ≤ byteAt p 2) && decide (byteAt p 2 ≤ 30)), 0x0901⟩]

/-- CLEAR_FAULT's own effect. -/
def clearFault (p : List Byte) (s : State) : State :=
  let one : List Collector → Nat → List Collector :=
    fun cs n => cs.modify n (clearColl (byteAt p 1) (byteAt p 2) s.time.elapsed)
  { s with flt := { s.flt with colls := (clearTargets (byteAt p 0)).foldl one s.flt.colls } }

/-- CLEAR_FAULT (18 R459, R470). -/
def execClearFault (m : Mb) (p : List Byte) (s : State) : Out :=
  .next (runCrity clearFaultSpec m p (fun s => .ok [] (clearFault p s)) s)

/-- Time until the quiet timer expires, in units of 2^8 ticks; frozen while halted (18 R460). -/
def quietLeft (f : FaultState) (now : Nat) (c : Collector) : Nat :=
  let t := if f.halted then f.haltElapsed else now
  if c.fault then (c.since + 2 ^ c.quiet - t) / 2 ^ 8 else 0

/-- The 32 bytes of one collector in GET_FAULT_STATE. -/
def collBytes (f : FaultState) (now n : Nat) : List Byte :=
  let c := f.colls.getD n {}
  le 1 n ++ le 1 (b2n c.fault + 2 * b2n c.overflow + 4 * b2n c.haltCause) ++ le 1 c.first ++ le 1 c.firstClass
    ++ le 4 c.firstEseq ++ le 8 c.firstTime ++ le 3 c.events ++ le 1 c.worst ++ le 3 c.recoveries ++ le 1 c.quiet
    ++ le 4 c.pend.toNat ++ le 3 (quietLeft f now c) ++ le 1 0

/-- Collectors in FAULT. -/
def faultCount (f : FaultState) : Nat := f.colls.countP (·.fault)

def getFaultStateSpec : CmdSpec where
  opcode := 0xC800
  len := fun n => n == 4
  any := true
  read := true
  resv := [(2, 0xFFFF)]
  checks := fun p _ => [
    ⟨0, decide (byteAt p 0 ≤ 47), 0x0007⟩,
    ⟨1, decide (1 ≤ byteAt p 1) && decide (byteAt p 0 + byteAt p 1 ≤ 48), 0x0007⟩]

/-- The output of GET_FAULT_STATE. -/
def faultStateBytes (first count : Nat) (s : State) : List Byte :=
  le 1 count ++ le 1 (faultCount s.flt) ++ le 1 (b2n s.flt.halted) ++ le 1 0 ++ le 4 s.flt.eseq
    ++ le 8 (if s.flt.halted then s.flt.haltTime else 0)
    ++ ((List.range count).map fun i => collBytes s.flt s.time.elapsed (first + i)).flatten

/-- GET_FAULT_STATE (18 R457, R470). -/
def execGetFaultState (m : Mb) (p : List Byte) (s : State) : Out :=
  .next (runCrity getFaultStateSpec m p
    (fun s => .ok (faultStateBytes (byteAt p 0) (byteAt p 1) s) s) s)

/-- SOURCE, CLASS and INJECTED as bytes 4-5 of the event record (18 R454). -/
def sourceWord (source cls : Nat) (injected : Bool) : Nat := source + cls * 2 ^ 11 + b2n injected * 2 ^ 14

/-- The 16 bytes of a history entry (18 R456). -/
def histBytes (e : HistEntry) : List Byte :=
  le 4 e.eseq ++ le 2 (sourceWord e.source e.cls e.injected) ++ le 1 e.kind ++ le 1 e.head ++ le 3 e.count ++ le 1 0
    ++ le 3 e.stamp ++ le 1 0

/-- The output of GET_HISTORY: entry slots without an entry read zero. -/
def historyBytes (g : Nat) (s : State) : List Byte :=
  let x := s.group g
  le 1 g ++ le 1 x.entries.length ++ le 2 0 ++ le 3 x.count ++ le 1 0 ++ le 8 x.newest
    ++ ((x.entries.map histBytes).flatten ++ zeros 128).take 128

def getHistorySpec : CmdSpec where
  opcode := 0xC802
  len := fun n => n == 8
  any := true
  read := true
  resv := [(1, 0xFFFFFFFFFFFFFF)]
  checks := fun p _ => [⟨0, decide (byteAt p 0 ≤ 78), 0x0007⟩]

/-- GET_HISTORY (18 R456, R470). -/
def execGetHistory (m : Mb) (p : List Byte) (s : State) : Out :=
  .next (runCrity getHistorySpec m p (fun s => .ok (historyBytes (byteAt p 0) s) s) s)

/-- The sources from `first`, `count` of them. -/
def sourceSpan (first count : Nat) : List Nat := (List.range count).map (first + ·)

/-- CLASS is 0 to 4, or 0xFF for the defaults. -/
def classOk (c : Nat) : Bool := decide (c ≤ 4) || c == 0xFF

/-- No source of the range would go below its floor (18 R461). -/
def reactionOk (first count cls : Nat) : Bool :=
  (sourceSpan first count).all fun src =>
    match defaultClass src with
    | some d => cls == 0xFF || decide (classFloor d ≤ cls)
    | none => true

/-- No source of the range is reserved (18 R461). -/
def noReserved (first count : Nat) : Bool := (sourceSpan first count).all fun src => (defaultClass src).isSome

def setReactionSpec : CmdSpec where
  opcode := 0xC803
  len := fun n => n == 8
  mgt := true
  resv := [(1, 0xF8), (3, 0xF8), (5, 0xFFFFFF)]
  checks := fun p _ => [
    ⟨2, decide (1 ≤ ofLe p 2 2) && decide (ofLe p 2 2 ≤ 1536), 0x0007⟩,
    ⟨if ofLe p 0 2 < 1536 then 2 else 0, decide (ofLe p 0 2 + ofLe p 2 2 ≤ 1536), 0x0901⟩,
    ⟨4, classOk (byteAt p 4), 0x0901⟩,
    ⟨4, reactionOk (ofLe p 0 2) (ofLe p 2 2) (byteAt p 4), 0x0901⟩,
    ⟨0, noReserved (ofLe p 0 2) (ofLe p 2 2), 0x0901⟩]

/-- Set the class of the sources of a range; 0xFF restores each source's default (18 R461). -/
def setReaction (first count cls : Nat) (f : FaultState) : FaultState :=
  let one : List (Nat × Nat) → Nat → List (Nat × Nat) :=
    fun l src => if cls = 0xFF then adel l src else aset l src cls
  { f with react := (sourceSpan first count).foldl one f.react }

/-- SET_REACTION (18 R461, R470). -/
def execSetReaction (m : Mb) (p : List Byte) (s : State) : Out :=
  .next (runCrity setReactionSpec m p
    (fun s => .ok [] { s with flt := setReaction (ofLe p 0 2) (ofLe p 2 2) (byteAt p 4) s.flt }) s)

end Sys2Proof.Machine
end

