-- ==== Sys2Proof/Machine/ChainTime.lean ====
section
/-! DEFINITION. Chain time, its sources, election and TIME frames (02 R36-R58). -/

namespace Sys2Proof.Machine

/-! ### Words and latches -/

/-- CHAIN_RANK and MASTER_ID name the master while following, and this device otherwise (02 CTB_STATUS). -/
def ctbStatus (s : State) : Nat :=
  let t := s.time
  b2n t.untimed * 2 ^ 31 + b2n t.master * 2 ^ 30 + t.rank * 2 ^ 28
    + (if t.following then t.masterRank else t.rank) * 2 ^ 26 + b2n (t.upstream == 1 && t.following) * 2 ^ 25
    + (b2n t.enTref + 2 * b2n t.enChain + 4 * b2n t.enHost) * 2 ^ 20 + (if t.following then wrap 8 t.hops else 0) * 2 ^ 12
    + (if t.following then t.masterId else s.chain.id)

/-- A head reads a BAR2 register: honoured while its link is up, it is not in D3hot and no reset of it
is under way (09 R251, R255, R265). -/
def canRead (s : State) (h : Nat) : Bool := headUp s h && !(s.head h).d3 && !(s.head h).resetting

/-- CTB_NOW_LO_READ (02 R58): the word read, and CTB_NOW_HI latched for the head. -/
def execCtbNowLoRead (head : Nat) (s : State) : Out :=
  onUnit head 8 (if canRead s head then
      let s := { s with time := { s.time with nowHi := s.time.nowHi.set head (s.time.chain / 2 ^ 32) } }
      s.emit (.reg head 0x10000 (s.time.chain % 2 ^ 32))
    else s)

/-- CTB_LOCAL_LO_READ (02 R58). -/
def execCtbLocalLoRead (head : Nat) (s : State) : Out :=
  onUnit head 8 (if canRead s head then
      let s := { s with time := { s.time with localHi := s.time.localHi.set head (s.time.elapsed / 2 ^ 32) } }
      s.emit (.reg head 0x10018 (s.time.elapsed % 2 ^ 32))
    else s)

/-! ### Changes of chain time and of rank -/

/-- After a change of a source or of the upstream: a device that follows nobody is master while its rank is above 0
(02 R42), and UNTIMED is raised at every change into or out of the untimed state (02 R49). -/
def retime (s : State) : State :=
  let t := s.time
  let t := if t.following then t else { t with master := decide (0 < t.rank) }
  let u := t.isUntimed
  let was := t.untimed
  let s := { s with time := { t with untimed := u } }
  if u = was then s else raiseAll 1475 0 (le 1 (b2n u)) s

/-- Chain time becomes `new` at once: slewing ends, the next TREF edge is the first after it (02 R37), and the instant
counts as a regulation window boundary (02 R56). -/
def setChain (new : Nat) (s : State) : State :=
  windowBoundary { s with time := { s.time with
    chain := wrap64 new, slew := 0, slewLeft := 0, firstEdge := true, jumped := false } }

/-- Chain time moves by a signed number of ticks. -/
def moved (chain : Nat) (d : Int) : Nat := ((chain + d) % (2 ^ 64 : Int)).toNat

/-- A step by `d` ticks with its TIME_STEP event, old and new chain time (02 R38, R45, R56). -/
def stepChain (d : Int) (s : State) : State :=
  let old := s.time.chain
  let new := moved old d
  raiseAll 1476 0 (le 8 old ++ le 8 new) (setChain new s)

/-- Remove an offset: up to 16 ticks by slewing over the next 2^14 ticks, more by a step (02 R38, R45). -/
def correct (d : Int) (s : State) : State :=
  if d.natAbs ≤ 16 then
    { s with time := { s.time with slew := d, slewLeft := 2 ^ 14 } }
  else stepChain d s

/-! ### TREF -/

/-- The whole second nearest to chain time, minus chain time (02 R38): up from a fraction of 2^23. -/
def edgeOffset (chain : Nat) : Int :=
  if fraction chain < 2 ^ 23 then -(fraction chain : Int) else (2 ^ 24 : Int) - fraction chain

/-- An edge is valid within 2^8 ticks of a whole second, or as the first after a set, a step or a start (02 R37). -/
def edgeValid (t : TimeState) : Bool := t.firstEdge || decide ((edgeOffset t.chain).natAbs ≤ 2 ^ 8)

/-- An edge outside the window: counted, and TREF_OUTSIDE for the first in a berth cycle (18, source 1479). -/
def edgeOutside (s : State) : State :=
  let first := !s.time.outsideInCycle
  let off := edgeOffset s.time.chain
  let s := { s with time := { s.time with outside := s.time.outside + 1, outsideInCycle := true } }
  if first then raiseAll 1479 0 (le 4 (twos 32 off)) s else s

/-- TREF_EDGE (02 R37, R38): a disabled TREF_IN is ignored (R41). The rate that the device adjusts is the length of the tick that
LOCAL_TICK stands for, of both counts (log 63). -/
def trefEdge (s : State) : State :=
  if s.boot.phase = .auxOff ∨ s.time.enTref = false then s
  else if edgeValid s.time then
    let off := edgeOffset s.time.chain
    let now := s.time.elapsed
    let s := { s with time := { s.time with
      trefHeld := true, lostAt := none, missed := 0, firstEdge := false, lastEdge := now, edgeAt := some now } }
    retime (correct off s)
  else edgeOutside s

/-- TREF_EDGE (02 R38). -/
def execTrefEdge (s : State) : Out := .next (trefEdge s)

/-- Loss of TREF: holdover is timed from now; TREF_LOST carries the edges missed and the rank after (02 R37, R41). -/
def loseTref (missed : Nat) (s : State) : State :=
  let s := { s with time := { s.time with trefHeld := false, lostAt := some s.time.elapsed, missed := missed } }
  retime (raiseAll 1478 0 (le 1 missed ++ le 1 s.time.rank) s)

/-- Expected edges whose window has passed since the last valid edge, in local time (02 R36, R37; log 63). -/
def missedEdges (t : TimeState) : Nat := (t.elapsed - t.lastEdge - 2 ^ 8 - 1) / 2 ^ 24

/-- TREF_LOST (02 R37): three expected edges in a row without a valid one. -/
def execTrefLost (s : State) : Out :=
  .next (if s.time.trefHeld && s.time.enTref && decide (3 ≤ missedEdges s.time) then loseTref 3 s else s)

/-- HOLDOVER_EXPIRE (02 table of ranks): 2^30 ticks of local time after the loss. -/
def execHoldoverExpire (s : State) : Out :=
  .next (match s.time.lostAt with
    | some l => if l + 2 ^ 30 ≤ s.time.elapsed then retime { s with time := { s.time with lostAt := none } } else s
    | none => s)

/-! ### TIME frames -/

/-- This device comes before a master of rank `r` and chain ID `i` (02 R42). -/
def outranks (s : State) (r i : Nat) : Bool :=
  decide (0 < s.time.rank) && (decide (r < s.time.rank) || (s.time.rank == r && decide (s.chain.id < i)))

/-- Send a TIME frame on port `p` when it is up. -/
def sendTime (p rank master hops : Nat) (s : State) : State :=
  if (s.port p).st = .up then
    s.emit (.ctl p (.time (seconds s.time.chain) (fraction s.time.chain) s.time.w rank master hops))
  else s

/-- TIME_FRAME_SEND (02 R43, R44): at a multiple of 2^14 ticks of chain time. -/
def timeFrameSend (s : State) : State :=
  let t := s.time
  if s.boot.phase = .auxOff ∨ atMultiple t 14 = false ∨ s.flt.halted = true then s
  else if t.following = false ∨ outranks s t.masterRank t.masterId = true then
    if t.rank = 0 then s
    else
      let s := retime { s with time := { t with following := false, forward := false, master := true } }
      sendTime 1 s.time.rank s.chain.id 0 (sendTime 0 s.time.rank s.chain.id 0 s)
  else if t.forward then
    sendTime (1 - t.upstream) t.masterRank t.masterId t.hops { s with time := { t with forward := false } }
  else s

/-- TIME_FRAME_SEND (02 R43). -/
def execTimeFrameSend (s : State) : Out := .next (timeFrameSend s)

/-- The frame is one to follow: its master outranks this device, and it is the current master's on the better port, or a
better master's than the one followed (02 R42, R44). A device without a chain ID treats itself as alone, and is in no chain that
another could follow it in (02 R42; 13 R346). -/
def follows (s : State) (port rank master hops : Nat) : Bool :=
  let t := s.time
  assigned s && master != 0xFFF && !outranks s rank master && decide (0 < rank) && master != s.chain.id &&
  (if t.following then
    if master = t.masterId then
      port == t.upstream || decide (hops + 1 < t.hops) || (hops + 1 == t.hops && port == 0)
    else decide (t.masterRank < rank) || (rank == t.masterRank && decide (master < t.masterId))
  else true)

/-- The offset of an upstream frame: its time plus the one-way delay, minus chain time, as a signed count (02 R44). DESIGN CHOICE:
the 8 fraction bits of the measured delay are cut off, since the rule does not say how they are rounded (log 63). -/
def frameOffset (s : State) (port sec frac : Nat) : Int :=
  let e : Int := sec * 2 ^ 24 + frac + ((s.port port).delay / 256 : Nat)
  let d : Int := e - s.time.chain
  let m : Int := (d + 2 ^ 63) % 2 ^ 64
  m - 2 ^ 63

/-- A frame in the tick of a valid TREF edge, or of a host setting of a master at rank 1, is ignored (02 R48). -/
def frameYields (t : TimeState) : Bool := t.edgeAt == some t.elapsed || t.hostAt == some t.elapsed

/-- TIME_FRAME_RECEIVE (02 R42-R45, R48, R51): HOPS counts this hop too (log 10); a disabled chain source or a torn pair is ignored
(R41, 12 R329). A follower whose upstream now names a master that it outranks takes part in election at once (02 R43). -/
def timeFrameReceive (port sec frac w rank master hops : Nat) (s : State) : State :=
  if (s.port port).st ≠ .up ∨ s.time.enChain = false ∨ s.flt.halted = true then s
  else
    let s := if w = s.time.w then s else raiseAll 1477 0 (le 1 s.time.w ++ le 1 w ++ le 1 port) s
    if frameYields s.time then s
    else if follows s port rank master hops then
      let off := frameOffset s port sec frac
      let was := s.time.master && s.time.rank == 1
      let t := { s.time with
        following := true, master := false, upstream := port, hops := hops + 1, masterId := master, masterRank := rank
        lastFrame := s.time.elapsed, forward := true, offset := satSigned 24 off
        yieldAt := if was then some s.time.elapsed else s.time.yieldAt }
      retime (correct off { s with time := t })
    else if s.time.following && port == s.time.upstream && outranks s rank master then
      { s with time := { s.time with masterId := master, masterRank := rank } }
    else s

/-- TIME_FRAME_RECEIVE (02 R44). -/
def execTimeFrameReceive (port seconds fraction w rank master hops : Nat) (intact : Bool) (s : State) : Out :=
  onUnit port 2 (if intact then timeFrameReceive port seconds fraction w rank master hops s else s)

/-- UPSTREAM_LOSS (02 R46): no upstream frame for 2^16 ticks. -/
def execUpstreamLoss (s : State) : Out :=
  .next (if s.time.following && decide (s.time.lastFrame + 2 ^ 16 ≤ s.time.elapsed) then
      retime { s with time := { s.time with following := false, forward := false } }
    else s)

/-! ### Host settings -/

/-- A host setting may take effect: time master at rank 1, or rank 0 and no master followed, with the host source enabled
(02 R40, R41). It wins over a TIME frame of its tick (R48). -/
def settable (t : TimeState) : Bool :=
  t.enHost && ((t.master && t.rank == 1) || (t.rank == 0 && !t.following) || t.yieldAt == some t.elapsed)

/-- Chain time is set by a host (02 R40). -/
def hostSetTime (v : Nat) (s : State) : State :=
  let now := s.time.elapsed
  let wins := s.time.yieldAt == some now
  let first := s.time.master && s.time.rank == 1
  let s := setChain v s
  retime { s with time := { s.time with
    hostSet := true, hostAt := if first || wins then some now else s.time.hostAt
    following := s.time.following && !wins, yieldAt := none } }

def setChainTimeSpec : CmdSpec where
  opcode := 0xC011
  len := fun n => n == 8
  mgt := true

/-- SET_CHAIN_TIME (02 R40). -/
def execSetChainTime (m : Mb) (p : List Byte) (s : State) : Out :=
  .next (runCrity setChainTimeSpec m p (fun s =>
    if settable s.time then .ok [] (hostSetTime (ofLe p 0 8) s) else .fail 0x0101 0xFFFF) s)

/-- Nanoseconds to chain time (02 R39). -/
def ofNanos (ns : Nat) : Nat := ns / 10 ^ 9 * 2 ^ 24 + ns % 10 ^ 9 * 2 ^ 24 / 10 ^ 9

/-- Chain time to nanoseconds (02 R39). -/
def toNanos (t : Nat) : Nat := seconds t * 10 ^ 9 + fraction t * 10 ^ 9 / 2 ^ 24

/-- SET_TIMESTAMP (02 R40; 09 R257, R514): always Success; refused settings go to CTB_HOSTOFS. -/
def setTimestamp (m : Mb) (ns : Nat) (s : State) : State :=
  if settable s.time ∧ (m.src = 8 ∨ isManaging s m.src = true) then hostSetTime (ofNanos ns) s
  else { s with time := { s.time with hostOfs := satSigned 24 ((ofNanos ns : Int) - s.time.chain) } }

/-- SET_TIMESTAMP (02 R40). -/
def execSetTimestamp (m : Mb) (p : List Byte) (s : State) : Out :=
  .next (runStd { opcode := 0x0301 } m p (fun s =>
    if p.length = 8 then .ok [] (setTimestamp m (ofLe p 0 8) s) else .std .invalidPayloadLength 0) s)

/-- GET_TIMESTAMP (02 R39). -/
def execGetTimestamp (m : Mb) (p : List Byte) (s : State) : Out :=
  .next (runStd { opcode := 0x0300 } m p (fun s => .ok (le 8 (toNanos s.time.chain)) s) s)

def setTimeSourceSpec : CmdSpec where
  opcode := 0xC012
  len := fun n => n == 4
  mgt := true
  resv := [(0, 0xFFFFFFF8)]

/-- SET_TIME_SOURCE's own effect (02 R41): disabling TREF while it is held is a loss of TREF at that instant. DESIGN CHOICE: its event
carries the expected edges missed by then, as the rule does not say (log 63). -/
def setTimeSource (bits : Nat) (s : State) : State :=
  let heldNow := s.time.trefHeld && s.time.enTref
  let t := { s.time with enTref := bits.testBit 0, enChain := bits.testBit 1, enHost := bits.testBit 2 }
  let t := if t.enChain then t else { t with following := false, forward := false }
  let s := { s with time := t }
  if heldNow ∧ bits.testBit 0 = false then loseTref (missedEdges s.time) s else retime s

/-- SET_TIME_SOURCE (02 R41). -/
def execSetTimeSource (m : Mb) (p : List Byte) (s : State) : Out :=
  .next (runCrity setTimeSourceSpec m p (fun s => .ok [] (setTimeSource (byteAt p 0) s)) s)

def getChainTimeSpec : CmdSpec where
  opcode := 0xC010
  len := fun n => n == 0
  any := true
  read := true

/-- GET_CHAIN_TIME (02 R36, time commands). -/
def execGetChainTime (m : Mb) (p : List Byte) (s : State) : Out :=
  .next (runCrity getChainTimeSpec m p (fun s => .ok
    (le 8 s.time.chain ++ le 8 s.time.elapsed ++ le 4 (ctbStatus s) ++ le 4 (twos 24 s.time.offset)) s) s)

/-! ### One tick -/

/-- The correction of chain time in the tick that leaves `left` ticks of a slew: the offset is spread evenly over 2^14
ticks (02 R45). -/
def slewStep (slew : Int) (left : Nat) : Int :=
  let k := 2 ^ 14 - left
  let q := fun n : Nat => (n * slew.natAbs / 2 ^ 14 : Nat)
  if q (k + 1) = q k then 0 else if 0 ≤ slew then 1 else -1

/-- Local elapsed time and chain time advance by one tick (02 R36, R45). -/
def tickTime (t : TimeState) : TimeState :=
  let d : Int := if t.slewLeft = 0 then 0 else slewStep t.slew t.slewLeft
  { t with
    elapsed := wrap64 (t.elapsed + 1)
    chain := moved t.chain (1 + d)
    jumped := decide (0 < d)
    slewLeft := t.slewLeft - 1
    slew := if t.slewLeft ≤ 1 then 0 else t.slew }

/-- LOCAL_TICK (02 R36): both times advance, the sluices' buckets are refilled (08 R224), event 0x30 is counted, delayed responses
leave, and what a perturbation held back enters its sluice (19). A device without auxiliary power counts nothing. -/
def execLocalTick (s : State) : Out :=
  .next (if s.boot.phase = .auxOff then s
    else admitWaiting (sendLate (pmcCount (evOf 0x30 0 0) (refillAll { s with time := tickTime s.time }))))

end Sys2Proof.Machine
end

