-- ==== Sys2Proof/Machine/Tiers.lean ====
section
/-! DEFINITION. Capacity, geometry, pins, stage and heat commands (03 R59-R62, R75-R77, R92-R97; 10 R276; 11 R304; 20
R495). -/

namespace Sys2Proof.Machine

/-! ### Offered capacity (03 R59-R62) -/

/-- Drives that are HEALTHY now, in port order (03 R61). -/
def healthyDrives (s : State) : List Nat := (List.range 16).filter fun p => (s.unit (32 + p)).readable

/-- L_min: the smallest namespace of a population, a whole number of chunk rows, at most 256 TB (11 R304). -/
def lMin (s : State) (l : List Nat) : Nat :=
  match l.map fun p => (s.drive p).lbas with
  | [] => 0
  | x :: rest => min (rest.foldl min x / 8 * 8) 62500000000

/-- Raw DRAM in GiB: every DIMM on a populated channel, whatever its state (03 R61). -/
def rawDram (s : State) : Nat := s.ddr.gib * (if s.ddr.twoDpc then 2 else 1) * (membersOf s.ddr.population).length

/-- Channels of the population below 8. -/
def lowChannels (s : State) : List Nat := (List.range 8).filter fun c => s.ddr.population.getLsbD c

/-- The channel populations supported (10 R271). -/
def populationOk (s : State) : Bool :=
  let l := lowChannels s
  ((List.range 8).all fun c => s.ddr.population.getLsbD c == s.ddr.population.getLsbD (c + 8))
    && (l.length == 4 || l.length == 6 || l.length == 8)

/-- The geometry of a hot share and cold stripe on the present population (03 R59, R61; 10 R276). Capacities are in bytes;
the offered capacity is rounded once, from the exact sum. -/
def geometryOf (s : State) (share k m : Nat) : Geometry :=
  let low := lowChannels s
  let n := 2 * low.length
  let drives := if k = 0 then [] else healthyDrives s
  let d := (rawDram s - 64) * gib
  let h := d * share / 100
  let c := drives.length * lMin s drives * 4096
  let stripe := max 1 (k + m)
  let den := 20000 * n * stripe
  let hot := d * share * 100 * n * stripe
  let warm := d * (100 - share) * (n - 2) * 186 * stripe
  let cold := c * k * 18600 * n
  let slot := fun x : Nat => (x + n * 4096 - 1) / (max 1 n * 4096)
  let hotBase := slot (64 * gib)
  let warmBase := hotBase + slot h
  { hotShare := share, coldK := k, coldM := m, low := low, drives := drives, lMin := lMin s drives
    offeredGib := min ((hot + warm + cold) * 256 / (257 * max 1 den * gib)) (2 ^ 22)
    uHot := hot / max 1 den, uWarm := warm / max 1 den, uCold := cold / max 1 den
    hotFrames := (warmBase - hotBase) * low.length
    warmBarges := rawDram s * gib / (max 1 n * 4096) - warmBase
    coldBarges := drives.length * (lMin s drives / 8) / stripe }

/-- Level 1 of the map and the hard overlay limit fit in half of the dredging reserve (03 R62). -/
def reserveOk (s : State) (g : Geometry) (soft : Nat) : Bool :=
  let d := (rawDram s - 64) * gib
  let warm := (d - d * g.hotShare / 100) * (g.n - 2) / max 1 g.n
  let cold := g.drives.length * g.lMin * 4096 * g.coldK / max 1 (g.coldK + g.coldM)
  let use := ((g.offeredGib * 2 ^ 18 + 65535) / 65536 + 2 * (g.hotFrames * soft / 64)) * 4096
  decide (200 * use ≤ 7 * (warm + cold))

/-- Put a geometry in force: regions of every channel, no barge and no overlay left, the level-1 map pages in their Tier H frames (03
R61, R62, R65, R93; 10 R276). -/
def commitGeometry (g : Geometry) (s : State) : State :=
  let n := max 1 g.n
  let hotBase := (64 * gib + n * 4096 - 1) / (n * 4096)
  let s : State := { s with map := { s.map with geo := g } }
  { s with
    map := { s.map with
      urgentW := false, urgentC := false
      pages := levelOneEntries s ++ s.map.pages.filter fun x => decide (x.1 < ownPages) }
    dur := { s.dur with
      warm := [], dredge := [], cold := s.dur.cold.map fun x => (x.1, { x.2 with live := false, absent := [] }) }
    ddr := { s.ddr with
      hotBase := hotBase, warmBase := hotBase + g.hotFrames / max 1 g.low.length
      frames := rawDram s * gib / (n * 4096) } }

/-- The cold stripe of the default geometry for a number of drives (20 R495). -/
def defaultStripe (d : Nat) : Nat × Nat :=
  if d < 6 then (0, 0)
  else
    let m := if d ≤ 9 then 2 else if d ≤ 13 then 3 else 4
    (min 14 (d - m), m)

/-- What becomes of the device when the geometry is committed: Memory_Active, Media Status Ready (20 R495). -/
def mediaReady (s : State) : State :=
  { s with
    boot := { s.boot with mediaReady := true, phase := .ready }
    host := { s.host with heads := s.host.heads.map fun h => { h with memActive := true } } }

/-- Every channel and drive has ended its bring-up (20 R490, R495). -/
def bringupDone (s : State) : Bool :=
  decide (4 ≤ s.boot.dimmBatch) && decide (2 ≤ s.boot.driveBatch) && !s.boot.dimmBusy && !s.boot.driveBusy
    && s.ddr.chans.all (!·.training) && s.drives.drives.all fun d => d.step == 0

/-- GEOMETRY_COMMIT_DEFAULT (20 R495): with no valid DRAM population none is committed. -/
def defaultGeometry (s : State) : State :=
  if s.boot.phase = .bringup ∧ bringupDone s = true ∧ populationOk s = true then
    let st := defaultStripe (healthyDrives s).length
    keepVotes (mediaReady (commitGeometry (geometryOf s 25 st.1 st.2) s))
  else s

def execGeometryCommitDefault (s : State) : Out := .next (defaultGeometry s)

/-! ### SET_TIER_GEOMETRY (03 R93, R94) -/

/-- The policy fields of the input. -/
def policyOf (p : List Byte) : Policy where
  promoteW := byteAt p 4
  promoteC := byteAt p 5
  demoteH := byteAt p 6
  demoteW := byteAt p 7
  hotHigh := byteAt p 8
  hotLow := byteAt p 9
  warmHigh := byteAt p 10
  warmLow := byteAt p 11
  ovlSoft := byteAt p 12
  dredgeBoost := byteAt p 13
  thresh := ofLe p 16 3

/-- The ranges and orders of the placement thresholds table. -/
def policyChecks (q : Policy) : List Check :=
  [⟨4, decide (1 ≤ q.promoteW), 0x0301⟩, ⟨5, decide (1 ≤ q.promoteC ∧ q.promoteC ≤ q.promoteW), 0x0301⟩,
   ⟨6, decide (q.demoteH < q.promoteW), 0x0301⟩, ⟨7, decide (q.demoteW < q.promoteC), 0x0301⟩,
   ⟨8, decide (50 ≤ q.hotHigh ∧ q.hotHigh ≤ 98), 0x0301⟩, ⟨9, decide (q.hotLow < q.hotHigh), 0x0301⟩,
   ⟨10, decide (50 ≤ q.warmHigh ∧ q.warmHigh ≤ 98), 0x0301⟩, ⟨11, decide (q.warmLow < q.warmHigh), 0x0301⟩,
   ⟨12, decide (1 ≤ q.ovlSoft ∧ q.ovlSoft ≤ 8), 0x0301⟩, ⟨13, decide (q.dredgeBoost ≤ 100), 0x0301⟩,
   ⟨16, decide (1 ≤ q.thresh), 0x0301⟩]

def setTierGeometrySpec : CmdSpec where
  opcode := 0xC200
  len := fun n => n == 20
  mgt := true
  resv := [(3, 0xFC), (14, 0xFFFF), (19, 0xFF)]
  checks := fun p _ =>
    (if bitAt p 3 0 then
      [⟨0, decide (5 ≤ byteAt p 0 ∧ byteAt p 0 ≤ 50), 0x0301⟩, ⟨1, decide (4 ≤ byteAt p 1 ∧ byteAt p 1 ≤ 14), 0x0301⟩,
       ⟨2, decide (2 ≤ byteAt p 2 ∧ byteAt p 2 ≤ 4), 0x0301⟩] else [])
    ++ (if bitAt p 3 1 then policyChecks (policyOf p) else [])

/-- SET_TIER_GEOMETRY's own work. -/
def setTierGeometry (p : List Byte) (s : State) : CmdRes :=
  let pol := if bitAt p 3 1 then policyOf p else s.map.polNext.getD s.map.pol
  let take : State → State := fun t =>
    if bitAt p 3 1 then { t with map := { t.map with polNext := some (policyOf p) } } else t
  if bitAt p 3 0 then
    let g := geometryOf s (byteAt p 0) (byteAt p 1) (byteAt p 2)
    if !allZero s then .fail 0x0302 0xFFFF
    else if (healthyDrives s).length < byteAt p 1 + byteAt p 2 ∨ populationOk s = false ∨ reserveOk s g pol.ovlSoft = false then
      .fail 0x0301 0xFFFF
    else .ok [] (take (commitGeometry g s))
  else if bitAt p 3 1 && decide (s.map.geo.offeredGib ≠ 0) && !reserveOk s s.map.geo pol.ovlSoft then .fail 0x0301 0xFFFF
  else .ok [] (take s)

def execSetTierGeometry (m : Mb) (p : List Byte) (s : State) : Out :=
  .next (runCrity setTierGeometrySpec m p (setTierGeometry p) s)

/-! ### GET_CAPACITY -/

def getCapacitySpec : CmdSpec where
  opcode := 0xC201
  len := fun n => n == 0
  any := true
  read := true

/-- Geometry and policy in force, in the layout of SET_TIER_GEOMETRY. -/
def geometryBytes (s : State) : List Byte :=
  let g := s.map.geo
  let q := s.map.pol
  le 1 g.hotShare ++ le 1 g.coldK ++ le 1 g.coldM ++ le 1 0 ++ le 1 q.promoteW ++ le 1 q.promoteC ++ le 1 q.demoteH
    ++ le 1 q.demoteW ++ le 1 q.hotHigh ++ le 1 q.hotLow ++ le 1 q.warmHigh ++ le 1 q.warmLow ++ le 1 q.ovlSoft
    ++ le 1 q.dredgeBoost ++ zeros 2 ++ le 3 q.thresh ++ zeros 1

/-- Zero pages without an overlay. -/
def zeroPages (s : State) : Nat := offeredPages s - s.map.pages.countP fun x => !x.2.isZero

/-- The 128 bytes of GET_CAPACITY. -/
def capacityBytes (s : State) : List Byte :=
  let g := s.map.geo
  le 8 (g.offeredGib * gib) ++ le 8 g.uHot ++ le 8 g.uWarm ++ le 8 g.uCold
    ++ le 8 (pagesIn s 0) ++ le 8 (pagesIn s 1) ++ le 8 (pagesIn s 2) ++ le 8 (zeroPages s)
    ++ le 4 (overlayCount s) ++ le 2 (freeSpace s 1) ++ le 2 (freeSpace s 2) ++ geometryBytes s ++ zeros 4
    ++ (s.map.overridePrev.map (le 4)).flatten ++ zeros 8

def execGetCapacity (m : Mb) (p : List Byte) (s : State) : Out :=
  .next (runCrity getCapacitySpec m p (fun s => .ok (capacityBytes s) s) s)

/-! ### Pins, hints, stage (03 R75-R77, R95, R96) -/

/-- START_PAGE and PAGE_COUNT of an input. -/
def spanOf (p : List Byte) : Nat × Nat := (ofLe p 0 8, ofLe p 8 8)

/-- Reserved bits and checks of the 24-byte page-range input. -/
def pageResv : List (Nat × Nat) := [(5, 0xFFFFFF), (13, 0xFFFFFE)]

def pageChecks (p : List Byte) (s : State) : List Check :=
  [⟨0, decide (ofLe p 0 8 < offeredPages s), 0x0007⟩, ⟨8, decide (1 ≤ ofLe p 8 8 ∧ ofLe p 8 8 ≤ 2 ^ 40), 0x0007⟩,
   ⟨8, decide (ofLe p 0 8 + ofLe p 8 8 ≤ offeredPages s), 0x0007⟩]

def pageSpec (opcode : Nat) (ok : Nat → Bool) : CmdSpec where
  opcode := opcode
  len := fun n => n == 24
  mgt := true
  resv := pageResv ++ [(17, 0xFFFFFFFFFFFFFF)]
  checks := fun p s => pageChecks p s ++ [⟨16, ok (byteAt p 16), 0x0007⟩]

/-- The limits of R76 on a pin table. -/
def pinsFit (s : State) (l : List PinSpan) : Bool :=
  let g := s.map.geo
  let fit := fun (n cap : Nat) => decide (4 * n ≤ 3 * cap)
  fit (pinned l [1]) g.hotFrames && fit (4096 * pinned l [2]) g.uWarm && fit (4096 * pinned l [7]) g.uCold
    && fit (4096 * pinned l [3]) (g.uHot + g.uWarm) && fit (4096 * pinned l [4]) (g.uWarm + g.uCold)

/-- Pages of a span whose PIN has changed: one in a forbidden tier is queued; a move towards a forbidden tier is aborted and
the page queued again (03 R77). -/
def repin (a n : Nat) (s : State) : State :=
  let inSpan := fun p : Nat => decide (a ≤ p) && decide (p < a + n)
  let bad := (s.map.locks.filter fun l => inSpan l.page && !pinAllows (pinOf s l.page) l.tier
    && (match l.kind with | .promote | .demote | .merge | .rekey | .reencrypt => true | .dredge | .rebuild => false)).map (·.page)
  let s := bad.foldl (fun u p => abortMove p true u) s
  let fix : Nat × PageEnt → Nat × PageEnt := fun x =>
    if inSpan x.1 && !x.2.zero && !pinAllows (pinOf s x.1) x.2.tier then (x.1, { x.2 with queued := true }) else x
  { s with map := { s.map with pages := s.map.pages.map fix } }

/-- Set a PIN value on a span; `limited` commands obey R76. -/
def pinCommand (p : List Byte) (v : Nat) (limited : Bool) (s : State) : CmdRes :=
  let (a, n) := spanOf p
  let l := setPin a n v s.map.pins
  if limited && !pinsFit s l then .fail 0x0303 0xFFFF
  else .ok [] (repin a n { s with map := { s.map with pins := l } })

def execPlaceHint (m : Mb) (p : List Byte) (s : State) : Out :=
  .next (runCrity (pageSpec 0xC202 fun v => decide (3 ≤ v ∧ v ≤ 6)) m p (pinCommand p (byteAt p 16) true) s)

def execPinPages (m : Mb) (p : List Byte) (s : State) : Out :=
  .next (runCrity (pageSpec 0xC203 fun v => v == 1 || v == 2 || v == 7) m p (pinCommand p (byteAt p 16) true) s)

def execUnpinPages (m : Mb) (p : List Byte) (s : State) : Out :=
  .next (runCrity (pageSpec 0xC204 fun _ => true) m p (pinCommand p 0 false) s)

/-- Overrides counted at once. -/
def countOverrides (loop k : Nat) (s : State) : State :=
  if k = 0 then s
  else countOverride loop { s with map := { s.map with
    overrides := s.map.overrides.set loop (addSat 24 (s.map.overrides.getD loop 0) (k - 1)) } }

/-- Pages of a span whose PIN forbids a tier. -/
def forbidden (l : List PinSpan) (a n t : Nat) : Nat :=
  ((l.filter fun x => !pinAllows x.value t).map fun x => min (x.start + x.count) (a + n) - max x.start a).sum

/-- STAGE_PAGES (03 R95; 14 R382): pages already there and pages whose PIN forbids the tier are done at once. -/
def stagePages (m : Mb) (p : List Byte) (s : State) : CmdRes :=
  let (a, n) := spanOf p
  let t := byteAt p 16
  if 64 ≤ s.crity.outings.countP fun o => o.open_ && o.kind == 0x0A then .fail 0x0605 0xFFFF
  else
    let work := (s.map.pages.filter fun x => decide (a ≤ x.1) && decide (x.1 < a + n) && x.2.outside t
      && pinAllows (pinOf s x.1) t).map (·.1)
    let id := s.crity.nextOuting
    let s := countOverrides 0 (forbidden s.map.pins a n t) s
    let s := openOuting 0x0A m.src 0xFFFFFFFF n work s
    let s := s.modOuting id fun o => { o with tier := t, done := n - work.length, percent := openPercent (n - work.length) n }
    .ok (le 4 id) (refreshHolds s)

def execStagePages (m : Mb) (p : List Byte) (s : State) : Out :=
  .next (runCrity (pageSpec 0xC205 fun v => decide (v ≤ 2)) m p (stagePages m p) s)

/-! ### GET_HEAT (03 R96, R97) -/

/-- A 4-byte record of GET_HEAT. -/
def heatRecord (s : State) (p : Nat) : List Byte :=
  let e := s.page p
  let flags := b2n e.zero + 2 * b2n e.overlay.isSome + 4 * b2n (lockOf s p).isSome + 8 * b2n e.loss + 16 * b2n e.queued
  le 4 (heatOf s p + e.tier * 2 ^ 8 + flags * 2 ^ 10 + pinOf s p * 2 ^ 16 + e.size * 2 ^ 19)

/-- Every page of a span lies in a range that admits a head. -/
def pagesAdmit (s : State) (h a n : Nat) : Bool :=
  (List.range ((a + n) / 2 ^ 18 - a / 2 ^ 18 + 1)).all fun i =>
    let g := a / 2 ^ 18 + i
    decide (a + n ≤ g * 2 ^ 18) || admits s h (g * gib)

def getHeatSpec : CmdSpec where
  opcode := 0xC206
  len := fun n => n == 16
  mgt := true
  adm := fun s h p => decide (offeredPages s ≤ ofLe p 0 8)
    || pagesAdmit s h (ofLe p 0 8) (min (min (ofLe p 8 8) 16380) (offeredPages s - ofLe p 0 8))
  read := true
  resv := pageResv
  checks := fun p s =>
    [⟨0, decide (ofLe p 0 8 < offeredPages s), 0x0007⟩, ⟨8, decide (1 ≤ ofLe p 8 8 ∧ ofLe p 8 8 ≤ 16380), 0x0007⟩,
     ⟨8, decide (ofLe p 0 8 + ofLe p 8 8 ≤ offeredPages s), 0x0007⟩]

def getHeatBytes (p : List Byte) (s : State) : List Byte :=
  let (a, n) := spanOf p
  le 8 a ++ le 4 n ++ zeros 4 ++ ((List.range n).map fun i => heatRecord s (a + i)).flatten

def execGetHeat (m : Mb) (p : List Byte) (s : State) : Out :=
  .next (runCrity getHeatSpec m p (fun s => .ok (getHeatBytes p s) s) s)

end Sys2Proof.Machine
end

