-- ==== Sys2Proof/Machine/Durability.lean ====
section
/-! DEFINITION. Replacing units and the loss-list commands (04 R118-R126; 13 R365). -/

namespace Sys2Proof.Machine

/-! ### Replacements (04 R123-R126) -/

/-- The open replacement of a slot. -/
def replOf (s : State) (slot : Nat) : Option Replacement := s.dur.repl.find? (·.slot == slot)

def State.modRepl (s : State) (slot : Nat) (f : Replacement → Replacement) : State :=
  { s with dur := { s.dur with repl := s.dur.repl.map fun r => if r.slot = slot then f r else r } }

/-- The unit is in service with its contents. -/
def inService (u : UnitSt) : Bool :=
  !u.fenced && (u.health == .healthy || u.health == .refill || u.health == .held)

/-- The other DIMM of the channel is HELD while its partner is replaced (04 R98, R123). -/
def holdPartner (slot : Nat) (s : State) : State :=
  let o := otherSlot slot
  let u := s.unit o
  if !u.fenced && (u.health == .healthy || u.health == .refill) then s.modUnit o fun u => { u with health := .held } else s

/-- Step 3: the channel's domain is suspended and goes Off with its pads held (15 R393). -/
def suspendChannel (c : Nat) (s : State) : State :=
  keepVotes (arbitrate (domDC c) (s.modDom (domDC c) fun x => { x with suspended := true }))

/-- Step 4: once the channel's domain is Off, the slot being replaced is powered down. -/
def replaceDown (d : Nat) (s : State) : State :=
  if d < 6 ∨ 22 ≤ d ∨ (s.dom d).st ≠ .off then s
  else match s.dur.repl.find? (fun r => !isDrive r.slot && slotChannel r.slot == d - 6 && !r.ending) with
    | some r => refreshHolds (slotOff r.slot 1 3 s)
    | none => s

/-- DOMAIN_DRAIN_DONE (15 R396, R398; 04 R123, step 4). -/
def execDomainDrainDone (dom : Nat) (s : State) : Out :=
  onUnit dom 44 (if (s.dom dom).st = .draining ∧ undrained s dom = 0 then
      let t := replaceDown dom (offNow dom s)
      settleMode (arbitrate dom (if 42 ≤ dom then afterRoutes s (sendCut (dom - 42) t) else t)) else s)

/-- BEGIN_REPLACE's own checks and effect (04 R123-R126). -/
def beginReplace (p : List Byte) (s : State) : CmdRes :=
  let i := byteAt p 0
  let u := s.unit i
  let g := ofLe p 2 2
  let r : Replacement := {
    slot := i, grace := s.time.elapsed + (if g = 0 then 600 else g) * 2 ^ 24, reprotect := bitAt p 1 1
    expired := isDrive i, spd := u.spd }
  if bitAt p 1 0 = false ∧ inService u = true ∧ losesData s [i] = true then .fail 0x0305 0
  else if isDrive i then
    let s := recordLost i (fenceUnit i 3 s)
    let s : State := if (replOf s i).isSome then s else { s with dur := { s.dur with repl := s.dur.repl ++ [r] } }
    .ok [] (refreshHolds (slotOff i 1 3 s))
  else if s.dur.repl.any (fun x => !isDrive x.slot && slotChannel x.slot == slotChannel i) then .fail 0x0306 0
  else
    let s : State := { s with dur := { s.dur with repl := s.dur.repl ++ [r] } }
    let s := holdPartner i (recordLost i (fenceUnit i 3 s))
    .ok [] (refreshHolds (replaceDown (domDC (slotChannel i)) (suspendChannel (slotChannel i) s)))

def beginReplaceSpec : CmdSpec where
  opcode := 0xCA04
  len := fun n => n == 4
  mgt := true
  resv := [(1, 0xFC)]
  checks := fun p _ => [⟨0, decide (byteAt p 0 ≤ 47), 0x0007⟩, ⟨2, decide (ofLe p 2 2 ≤ 3600), 0x0007⟩]

def execBeginReplace (m : Mb) (p : List Byte) (s : State) : Out :=
  .next (runCrity beginReplaceSpec m p (beginReplace p) s)

/-- END_REPLACE's own checks and the start of its work: the slot is powered (04, step 6). -/
def endReplace (p : List Byte) (s : State) : CmdRes :=
  let i := byteAt p 0
  let x := s.slot i
  match replOf s i with
  | none => .fail 0x0307 0
  | some r =>
    if r.ending then .fail 0x0306 0
    else if isDrive i && !x.present then .fail 0x0308 0
    else
      let s := s.modRepl i fun r => { r with ending := true, trained := false }
      .bg (.endReplace i) (match x.st with
        | .on => replaceWake i (slotPowered i s)
        | .off => powerUp i s
        | .stopping => s.modSlot i fun x => { x with commanded := true }
        | .waiting | .starting | .ramp | .qualify | .backoff | .latched | .fetShort => s)

def execEndReplace (m : Mb) (p : List Byte) (s : State) : Out :=
  .next (runCrity { beginReplaceSpec with
    opcode := 0xCA05, checks := fun p _ => [⟨0, decide (byteAt p 0 ≤ 47), 0x0007⟩] } m p (endReplace p) s)

/-- END_REPLACE ends in a failure: the replacement stays open and the slot is left powered down (04 R125). -/
def failReplace (slot wsc : Nat) (s : State) : State :=
  let s := s.modRepl slot fun r => { r with ending := false, trained := false }
  slotOff slot 1 3 (noteBg (.endReplace slot) (rcOf wsc) wsc (le 2 wsc ++ le 2 0xFFFF) s)

/-- The new module suits: the type, capacity, rank organisation, die density and stack height of the module replaced, or of
the device where the slot was empty, and the rate of R272 (04 R125; 10 R269, R272). -/
def moduleFits (s : State) (old new : SpdRead) : Bool :=
  let ref := if old.occupied then old else
    (((List.range 32).find? fun i => (s.unit i).spd.occupied).map fun i => (s.unit i).spd).getD new
  new.occupied && new.mrdimm == ref.mrdimm && new.gib == ref.gib && new.ranks == ref.ranks && new.density == ref.density
    && new.stack == ref.stack && decide (s.ddr.rateMts ≤ new.rate)

/-- GRACE_EXPIRE (04 R126): re-protection starts, and the HELD partner is abandoned. -/
def graceExpire (slot : Nat) (s : State) : State :=
  match replOf s slot with
  | some r =>
    if r.expired ∨ isDrive slot ∨ s.time.elapsed < r.grace then s
    else
      let o := otherSlot slot
      let s := s.modRepl slot fun r => { r with expired := true }
      let s := if (s.unit o).health = .held then recordLost o (fenceUnit o 0x0D s) else s
      if r.reprotect ∨ (s.unit slot).health ≠ .lost then s else reprotect slot s
  | none => s

def execGraceExpire (slot : Nat) (s : State) : Out :=
  onUnit slot 48 (if s.flt.halted || !s.boot.phase.keeper then s else graceExpire slot s)

/-- HELD_DIMM_RESTORE (04 R123, step 9): the channel is awake and the new DIMM trained, or no replacement is left open. -/
def heldRestore (slot : Nat) (s : State) : State :=
  let c := slotChannel slot
  let ready := match replOf s (otherSlot slot) with
    | some r => r.trained
    | none => true
  let open_ := s.crity.outings.any fun o => o.open_ && o.kind == 5 && o.subject == slot
  if (s.unit slot).health ≠ .held ∨ (s.unit slot).fenced ∨ (s.dom (domDC c)).st ≠ .on ∨ (s.dom (domDC c)).padsHeld
      ∨ ready = false ∨ open_ = true then s
  else
    let l := (s.unit slot).catchUp
    startRefills (startOuting 5 0xFF slot l.length l s)

def execHeldDimmRestore (slot : Nat) (s : State) : Out :=
  onUnit slot 32 (if s.flt.halted || keeperPaused s then s else heldRestore slot s)

/-! ### The loss list (04 R118-R121) -/

/-- The 32 bytes of an entry. -/
def lossBytes (e : LossEntry) : List Byte :=
  le 4 e.seq
    ++ le 4 (e.cause + e.tier % 4 * 2 ^ 8 + b2n (e.mask == BitVec.allOnes 64) * 2 ^ 10 + b2n e.map * 2 ^ 11
        + e.unit * 2 ^ 16)
    ++ le 8 e.page ++ le 8 e.mask.toNat ++ le 8 e.time

/-- The issuer is shown an entry (04 R121). -/
def lossShown (s : State) (src : Nat) (e : LossEntry) : Bool :=
  src == 8 || isManaging s src || admits s src (4096 * e.page)

/-- The output of GET_LOSS_LIST. -/
def lossList (src : Nat) (p : List Byte) (s : State) : List Byte :=
  let l := s.dur.loss.filter (lossShown s src)
  let from_ := l.dropWhile fun e => decide (e.seq < ofLe p 0 4)
  let n := min (min (ofLe p 4 2) from_.length) ((limitOf s src - 16) / 32)
  let next := ((from_[n]?).map (·.seq)).getD s.dur.lossSeq
  le 2 n ++ le 2 (b2n s.dur.overflow) ++ le 4 s.dur.loss.length ++ le 4 next ++ zeros 4
    ++ ((from_.take n).map lossBytes).flatten

def getLossListSpec : CmdSpec where
  opcode := 0xC207
  len := fun n => n == 8
  any := true
  read := true
  resv := [(6, 0xFFFF)]
  checks := fun p _ => [⟨4, decide (1 ≤ ofLe p 4 2 ∧ ofLe p 4 2 ≤ 2047), 0x0007⟩]

def execGetLossList (m : Mb) (p : List Byte) (s : State) : Out :=
  .next (runCrity getLossListSpec m p (fun s => .ok (lossList m.src p s) s) s)

/-- Remove an entry; LOSS clears on its pages when they have none left (04 R111). -/
def removeLoss (e : LossEntry) (s : State) : State :=
  let d := { s.dur with loss := s.dur.loss.filter (·.seq != e.seq) }
  let s : State := { s with dur := if e.map then forgetLost (fun p => e.pages.contains p) d else tidyLoss d }
  e.pages.foldl (fun u p => if (u.page p).loss && lossCovered u p == 0 then u.modPage p fun x => { x with loss := false } else u) s

/-- Zeros are written to every line of an entry through the write path of R111, and the entry is removed. -/
def zeroEntry (e : LossEntry) (s : State) : State :=
  let lines := fun p => (List.range 64).filter fun i => (if e.map then lossCovered s p else e.mask).getLsbD i
  let s := (e.pages.filter fun p => (keyRangeOf s (4096 * p)).isSome).foldl (fun u p => (lines p).foldl (fun v i => writeLineNow (64 * p + i) (zeros 64) false v) u) s
  removeLoss e s

/-- CLEAR_LOSS_ENTRY (04 R121; 13 R365): an entry of CAUSE 0x05 sends its zeros to the home and waits for the WACKs. -/
def clearLossEntry (src : Nat) (p : List Byte) (s : State) : CmdRes :=
  match s.dur.loss.find? (·.seq == ofLe p 0 4) with
  | none => .fail 0x0304 0
  | some e =>
    if !(isManaging s src || admits s src (4096 * e.page)) then .fail 0x0304 0
    else match (if e.cause = 5 then importOf s (64 * e.page) else none) with
      | none => .ok [] (zeroEntry e s)
      | some (idx, w) =>
        if (direction s w.peer).isNone then .fail 0x0508 0xFFFF
        else
          let put : State → Nat → State := fun u i => (openRemote {
            tag := 0, why := .clear e.seq i, opcode := 0x04, home := w.peer, line := homeLine w (64 * e.page + i)
            own := 64 * e.page + i, window := idx, wtag := 0, cls := 0, data := 0, mask := BitVec.allOnes 64
            poison := false, since := 0, sent := none, naks := 0, retryAt := none, held := none } u).2
          .wait (((List.range 64).filter fun i => e.mask.getLsbD i).foldl put s)

def clearLossEntrySpec : CmdSpec where
  opcode := 0xC208
  len := fun n => n == 8
  mgt := true
  adm := fun _ _ _ => true
  sb := fun _ => false
  resv := [(4, 0xFFFFFFFF)]

def execClearLossEntry (m : Mb) (p : List Byte) (s : State) : Out :=
  .next (runCrity clearLossEntrySpec m p (clearLossEntry m.src p) s)

end Sys2Proof.Machine
end

