-- ==== Sys2Proof/Machine/Keys.lean ====
section
/-! DEFINITION. Key ranges: setting, erasing, re-keying and reporting them, key-use limits, Secure Erase and Sanitize
(06 R161-R164, R181-R188, R191, R516; 11 R316; 14 R375). -/

namespace Sys2Proof.Machine

/-! ### Root keys (06 R163) -/

/-- A root key: the host's, or a draw of the device's generator (log 4). -/
def newRoot (host : Option (BitVec 256)) (s : State) : BitVec 256 × State :=
  match host with
  | some k => (k, s)
  | none => (Config.rootKey s.free, { s with free := s.free + 1 })

/-- A range starts again at epoch 0 under a new root key, or keeps none (06 R162, R166; 05 R143). -/
def freshKey (root : BitVec 256) (keyed : Bool) (k : KeyRange) : KeyRange :=
  { k with root := root, keyed := keyed, epoch := 0, live := 1, useNew := 0, useOld := 0, rekey := none, lateRaised := false,
           histP := 0, histG := 0 }

/-- The root key field of an input, where KEY_SOURCE is 1. -/
def hostKey (p : List Byte) : Option (BitVec 256) := if bitAt p 1 5 then some (BitVec.ofNat 256 (ofLe p 32 32)) else none

/-- A host-supplied key is taken from the managing head alone, with CXL IDE active on its CXL.io (06 R163). -/
def transportOk (s : State) (src : Nat) (p : List Byte) : Bool :=
  !bitAt p 1 5 || (decide (src < 8) && isManaging s src && (s.head src).ide.any fun x => x.kind != .cachemem && x.secure)

/-! ### Erasing (06 R162, R187, R516) -/

/-- The outings of a range end ABORTED (06 R187). -/
def abortKeyOutings (r : Nat) (s : State) : State :=
  let k := s.range r
  let s := match k.rekey with | some id => endOuting id 3 0 s | none => s
  match k.erase with | some id => endOuting id 3 0 s | none => s

/-- Pages of a range. -/
def KeyRange.span (k : KeyRange) : Nat × Nat := (k.baseGib * 2 ^ 18, (k.baseGib + k.sizeGib) * 2 ^ 18)

/-- Join spans that touch; the list rises. -/
def joinSpans : List (Nat × Nat) → List (Nat × Nat)
  | [] => []
  | x :: t => match joinSpans t with
    | y :: u => if y.1 ≤ x.2 then (x.1, max x.2 y.2) :: u else x :: y :: u
    | [] => [x]

/-- What an open erase has not passed. -/
def spansRest (k : KeyRange) : List (Nat × Nat) :=
  if k.erase.isSome then (k.eraseSpans.filter fun x => decide (k.watermark < x.2)).map fun x => (max x.1 k.watermark, x.2) else []

/-- The spans of an erase: those given, and what an earlier erase of the range has not passed (log 25). -/
def eraseSpansOf (k : KeyRange) (l : List (Nat × Nat)) : List (Nat × Nat) :=
  joinSpans ((l ++ spansRest k).mergeSort fun a b => decide (a.1 ≤ b.1))

/-- A crypto-erase of range `r` over some spans (06 R187): keys gone or replaced at once, outings of the range aborted, an erase
outing from the lowest page. Requests under way complete under the old keys. -/
def cryptoErase (r issuer : Nat) (key : Option (BitVec 256)) (spans : List (Nat × Nat)) (s : State) : State :=
  let l := eraseSpansOf (s.range r) spans
  let s := abortKeyOutings r s
  let s := l.foldl (fun u x => denyJobs (4096 * x.1) (4096 * (x.2 - x.1)) u) s
  let old : Req → Req := fun q =>
    { q with erased := q.erased || l.any fun x => decide (x.1 ≤ q.line / 64) && decide (q.line / 64 < x.2) }
  let s : State := { s with req := { s.req with reqs := s.req.reqs.map old } }
  let id := s.crity.nextOuting
  let s := s.modRange r fun k => { freshKey (key.getD 0) key.isSome k with
    erase := some id, eraseSpans := l, eraseFresh := [], watermark := (l.headD (0, 0)).1 }
  let n := (l.map fun x => x.2 - x.1).sum
  startOuting 9 issuer r n [] s

/-- A page that an erase has not passed and that lies outside its range's current span would become valid (06 R516). -/
def heldOut (s : State) (base size : Nat) : Bool :=
  s.keys.ranges.any fun k => (spansRest k).any fun x =>
    let lo := max x.1 (base * 2 ^ 18)
    let hi := min x.2 ((base + size) * 2 ^ 18)
    decide (lo < hi) && (!k.valid || decide (lo < k.span.1) || decide (k.span.2 < hi))

/-! ### SET_KEY_RANGE (06 R161-R163, R516) -/

/-- The reserved bits of the 64-byte input. -/
def keyResv : List (Nat × Nat) :=
  [(0, 0xF0), (1, 0xC0), (3, 0xFF), (6, 0xFFC0), (10, 0xFF80), (12, 2 ^ 160 - 1)]

/-- ROOT_KEY is zero without KEY_SOURCE 1. -/
def rootKeyZero (p : List Byte) : Bool := bitAt p 1 5 || ofLe p 32 32 == 0

def setKeyRangeSpec : CmdSpec where
  opcode := 0xC100
  len := fun n => n == 64
  mgt := true
  resv := keyResv
  checks := fun p s =>
    let valid := bitAt p 1 0
    [⟨32, (!valid && !(s.range (byteAt p 0 % 16)).valid) || rootKeyZero p, 0x0003⟩,
     ⟨8, !valid || (decide (1 ≤ ofLe p 8 4) && decide (ofLe p 8 4 ≤ 2 ^ 22)), 0x0007⟩]

/-- One bit is set in a mask. -/
def oneBit (m : Nat) : Bool := ((List.range 8).countP fun i => m.testBit i) == 1

/-- The attributes an input asks for. -/
def withAttrs (p : List Byte) (k : KeyRange) : KeyRange :=
  { k with
    valid := true, bypass := bitAt p 1 1, priv := bitAt p 1 2, codecStatic := bitAt p 1 3
    mask := BitVec.ofNat 8 (byteAt p 2), baseGib := ofLe p 4 4, sizeGib := ofLe p 8 4 }

/-- The change needs a range without data, or ERASE (06 R162). -/
def structural (p : List Byte) (k : KeyRange) : Bool :=
  let n := withAttrs p k
  !k.valid || n.baseGib != k.baseGib || n.sizeGib != k.sizeGib || n.bypass != k.bypass || n.priv != k.priv || bitAt p 1 5

/-- Some page of the range is not a zero page without an overlay. -/
def rangeUsed (s : State) (k : KeyRange) : Bool := spanUsed s k.span.1 (k.span.2 - k.span.1)

/-- Deletion of a valid range (06 R162). A host key is refused as for a range that stays (R173, R191). DESIGN CHOICE: where an erase
of the range still runs, it goes on, and the range is a deleted one that is ERASING until it ends, since R162 does not say
(log 65). -/
def deleteRange (r src : Nat) (p : List Byte) (s : State) : CmdRes :=
  let k := s.range r
  let erase := bitAt p 1 4
  if bitAt p 1 5 && k.bypass then .fail 0x0007 1
  else if !erase && rangeUsed s k then .fail 0x0202 1
  else if !transportOk s src p then .fail 0x0203 1
  else if erase then
    .ok [] (cryptoErase r src none [k.span] (s.modRange r fun k => { k with valid := false, deleted := true }))
  else
    let s := denyJobs (4096 * k.span.1) (4096 * (k.span.2 - k.span.1)) s
    let s := match k.rekey with | some id => endOuting id 3 0 s | none => s
    .ok [] (s.modRange r fun k =>
      if k.erase.isSome then { freshKey 0 false k with valid := false, deleted := true, eraseFresh := [] } else {})

/-- SET_KEY_RANGE's own checks and effect. -/
def setKeyRange (src : Nat) (p : List Byte) (s : State) : CmdRes :=
  let r := byteAt p 0 % 16
  let k := s.range r
  let n := withAttrs p k
  let others := (List.range 16).any fun j => j != r && (s.range j).valid
    && decide (n.baseGib < (s.range j).baseGib + (s.range j).sizeGib) && decide ((s.range j).baseGib < n.baseGib + n.sizeGib)
  if k.deleted then .fail 0x0202 0
  else if !bitAt p 1 0 then (if k.valid then deleteRange r src p s else .ok [] s)
  else if s.map.geo.offeredGib < n.baseGib + n.sizeGib then .fail 0x0007 4
  else if n.priv && !oneBit (byteAt p 2) then .fail 0x0007 2
  else if bitAt p 1 5 && n.bypass then .fail 0x0007 1
  else if others then .fail 0x0201 4
  else if heldOut s n.baseGib n.sizeGib && (!k.valid || n.span != k.span) then .fail 0x0202 4
  else if k.valid && structural p k && !bitAt p 1 4 && rangeUsed s k then .fail 0x0202 1
  else if !transportOk s src p then .fail 0x0203 1
  else if rekeyTooSlow s s.slu.next (n.sizeGib * gib) then .fail 0x0204 8
  else if !k.valid || structural p k || bitAt p 1 4 then
    let (root, s) := newRoot (hostKey p) s
    if k.valid && bitAt p 1 4 then
      .ok [] (cryptoErase r src (some root) [k.span, n.span] (s.modRange r (withAttrs p)))
    else
      let s := denyJobs (4096 * k.span.1) (4096 * (k.span.2 - k.span.1)) s
      let s := match k.rekey with | some id => endOuting id 3 0 s | none => s
      .ok [] (s.modRange r fun k => { freshKey root true (withAttrs p k) with eraseFresh := [] })
  else if n = k then .ok [] s
  else .ok [] (denyJobs (4096 * k.span.1) (4096 * (k.span.2 - k.span.1))
    (s.modRange r fun k => { withAttrs p k with histP := 0, histG := 0 }))

def execSetKeyRange (m : Mb) (p : List Byte) (s : State) : Out :=
  .next (runCrity setKeyRangeSpec m p (setKeyRange m.src p) s)

/-! ### GET_KEY_RANGE (06 R191) -/

/-- STATE of a range: UNUSED, ACTIVE, REKEYING, ERASING. -/
def KeyRange.stateCode (k : KeyRange) : Nat :=
  if k.erase.isSome then 3 else if !k.valid then 0 else if k.live = 2 then 2 else 1

/-- The 64 bytes of GET_KEY_RANGE. -/
def keyRangeBytes (r : Nat) (s : State) : List Byte :=
  let k := s.range r
  let old := if k.live = 2 then (rekeyPages s r (k.epoch - 1)).length else 0
  le 1 r ++ le 1 (b2n k.valid + 2 * b2n k.bypass + 4 * b2n k.priv + 8 * b2n k.codecStatic) ++ le 1 k.mask.toNat
    ++ le 1 k.stateCode ++ le 4 k.baseGib ++ le 4 k.sizeGib ++ le 3 k.epoch ++ le 1 k.live ++ le 8 k.useNew
    ++ le 8 (if k.live = 2 then k.useOld else 0) ++ le 4 ((k.erase.or k.rekey).getD 0xFFFFFFFF) ++ le 8 old
    ++ le 8 (if k.erase.isSome then k.watermark else 0) ++ zeros 12

def getKeyRangeSpec : CmdSpec where
  opcode := 0xC101
  len := fun n => n == 4
  adm := fun s h p => isManaging s h || (s.range (byteAt p 0)).mask.getLsbD h
  read := true
  resv := [(0, 0xF0), (1, 0xFFFFFF)]

def execGetKeyRange (m : Mb) (p : List Byte) (s : State) : Out :=
  .next (runCrity getKeyRangeSpec m p (fun s => .ok (keyRangeBytes (byteAt p 0) s) s) s)

/-! ### REKEY_RANGE and CRYPTO_ERASE (06 R185, R187) -/

def rekeyRange (src : Nat) (p : List Byte) (s : State) : CmdRes :=
  let r := byteAt p 0
  let k := s.range r
  if k.live = 2 ∨ k.erase.isSome then .fail 0x0205 0
  else if !k.valid then .fail 0x0007 0
  else if 0xF00000 ≤ k.epoch then .fail 0x0206 0
  else .bgDone (.rekey r s.crity.nextOuting) (le 4 s.crity.nextOuting) (refreshHolds (openEpoch r src s))

def execRekeyRange (m : Mb) (p : List Byte) (s : State) : Out :=
  .next (runCrity { setKeyRangeSpec with
    opcode := 0xC102, len := fun n => n == 4, resv := [(0, 0xF0), (1, 0xFFFFFF)]
    checks := fun _ _ => [] } m p (rekeyRange m.src p) s)

def eraseRange (src : Nat) (p : List Byte) (s : State) : CmdRes :=
  let r := byteAt p 0
  let k := s.range r
  if !k.valid then .fail 0x0007 0
  else if bitAt p 1 5 && k.bypass then .fail 0x0007 1
  else if !transportOk s src p then .fail 0x0203 1
  else
    let (root, s) := newRoot (hostKey p) s
    .bgDone (.erase r s.crity.nextOuting) (le 4 s.crity.nextOuting) (cryptoErase r src (some root) [k.span] s)

def execCryptoErase (m : Mb) (p : List Byte) (s : State) : Out :=
  .next (runCrity { setKeyRangeSpec with
    opcode := 0xC103
    resv := [(0, 0xF0), (1, 0xDF), (2, 0xFF), (3, 0xFF), (4, 0xFFFFFFFF), (8, 0xFFFFFFFF), (12, 2 ^ 160 - 1)]
    checks := fun p _ => [⟨32, rootKeyZero p, 0x0003⟩] } m p (eraseRange m.src p) s)

/-! ### Key-use limits (06 R181, R184; 14 R387) -/

/-- KEY_SOFT_LIMIT: 2^55 uses with one live epoch open the next. -/
def execKeySoftLimit (range : Nat) (s : State) : Out :=
  onUnit range 17 (
    let k := s.range range
    if s.flt.halted = false ∧ (k.valid ∨ range = 16) ∧ k.live = 1 ∧ 2 ^ 55 ≤ k.useNew then refreshHolds (openEpoch range 0xFF s) else s)

/-- KEY_HARD_LIMIT: 2^56 uses while an older epoch holds data halt the device. -/
def execKeyHardLimit (range : Nat) (s : State) : Out :=
  onUnit range 17 (
    let k := s.range range
    if s.flt.halted = false ∧ (k.valid ∨ range = 16) ∧ k.live = 2 ∧ (2 ^ 56 ≤ k.useNew ∨ 2 ^ 56 ≤ k.useOld) then
      raiseAll 577 0 (le 1 range ++ le 4 k.epoch ++ le 8 (max k.useNew k.useOld)) s
    else s)

/-- REKEY_LATE: 2^54 uses while an older epoch is live; a paused re-key resumes. -/
def execRekeyLate (range : Nat) (s : State) : Out :=
  onUnit range 17 (
    let k := s.range range
    if s.flt.halted = false ∧ (k.valid ∨ range = 16) ∧ k.live = 2 ∧ k.lateRaised = false ∧ 2 ^ 54 ≤ k.useNew then
      let s := raiseAll 578 0 (le 1 range ++ le 8 k.useNew) s
      resumeRekey (s.modRange range fun k => { k with lateRaised := true })
    else s)

/-! ### Secure Erase and Sanitize (06 R188; 11 R316) -/

/-- The device range is crypto-erased (06 R164, R188): a new root key; the lines of the visitor cache go, each with EVICT to its home
(log 35). -/
def rekeyDevice (s : State) : State :=
  let s := dropVLines s.chain.visitor s
  let (root, s) := newRoot none s
  { s with keys := { s.keys with device := freshKey root true s.keys.device, reserve := [] } }

/-- The loss list and what it lists are cleared; its SEQ goes on (04 R118). -/
def clearLossList (s : State) : State :=
  let f : Nat × PageEnt → Nat × PageEnt := fun x => (x.1, { x.2 with loss := false })
  let w : Nat × Window → Nat × Window := fun x => (x.1, { x.2 with poisoned := false })
  { s with
    dur := { s.dur with loss := [], overflow := false }
    map := { s.map with pages := s.map.pages.map f }
    chain := { s.chain with undelivered := [], imports := s.chain.imports.map w } }

/-- Valid ranges. -/
def validRanges (s : State) : List Nat := (List.range 16).filter fun r => (s.range r).valid

/-- SECURE_ERASE: CRYPTO_ERASE of every valid range and of the device range; the generations of the cold barges restart. -/
def secureErase (src : Nat) (s : State) : State :=
  let s := (validRanges s).foldl (fun u r =>
    let (root, u) := newRoot none u
    cryptoErase r src (some root) [(u.range r).span] u) s
  let g : Nat × ColdBarge → Nat × ColdBarge := fun x => (x.1, { x.2 with gen := 0 })
  let s := clearLossList (rekeyDevice s)
  { s with dur := { s.dur with cold := s.dur.cold.map g } }

def execSecureErase (m : Mb) (p : List Byte) (s : State) : Out :=
  .next (runStd { opcode := 0x4401, managing := true } m p (fun s =>
    if p.length ≠ 0 then .std .invalidPayloadLength 0
    else if s.flt.halted then .std .mediaDisabled 0
    else .ok [] (secureErase m.src s)) s)

/-- Every page becomes a zero page, the map begins anew, and no barge is left (06 R188). -/
def clearAll (s : State) : State :=
  let s := (s.map.pages.map (·.1)).foldl (fun u p => clearPage p u) s
  { s with
    mem := []
    keys := { s.keys with reenc := [] }
    map := { s.map with locks := [], pages := levelOneEntries s }
    dur := { s.dur with warm := [], cold := [], dredge := [], hostPoison := [] }
    drives := { s.drives with writes := [] } }

/-- Drives that Sanitize covers (11 R316). -/
def sanitizeDrives (s : State) : List Nat :=
  (List.range 16).filter fun d => !(s.unit (32 + d)).fenced
    && ((s.unit (32 + d)).health == .healthy || (s.unit (32 + d)).health == .refill)

/-- NVMe Sanitize is issued to a drive: opcode PRESUMED (log 8). -/
def sanitizeDrive (s : State) (d : Nat) : State :=
  (s.modDrive d fun x => { x with sanitizing := true }).emit (.nvme d 0 0x84 0 (if (s.drive d).cryptoErase then 4 else 2))

/-- SANITIZE: what Secure Erase does, every location overwritten, the outing over DRAM and drives (06 R188; 11 R316). -/
def sanitize (src : Nat) (s : State) : CmdRes :=
  let s := clearAll (secureErase src s)
  let id := s.crity.nextOuting
  let l := sanitizeDrives s
  let s : State := { s with keys := { s.keys with sanitize := some id } }
  let s := l.foldl sanitizeDrive s
  .bg (.sanitize id) (startOuting 0x0B src 0xFFFFFFFF (rawDram s + l.length) l s)

def execSanitize (m : Mb) (p : List Byte) (s : State) : Out :=
  .next (runStd { opcode := 0x4400, managing := true } m p (fun s =>
    if p.length ≠ 0 then .std .invalidPayloadLength 0
    else if s.flt.halted then .std .mediaDisabled 0
    else if s.keys.sanitize.isSome then .std .busy 0
    else sanitize m.src s) s)

/-- SANITIZE_DRIVE_DONE (11 R316): the namespace is deallocated, or the drive is fenced. -/
def execSanitizeDriveDone (drive : Nat) (ok : Bool) (s : State) : Out :=
  onUnit drive 16 (
    if !(s.drive drive).sanitizing || s.flt.halted then s
    else if ok then (sanitizeUnit drive s).emit (.nvme drive 0 0x09 0 (s.drive drive).lbas)
    else fenceUnit (32 + drive) 0x0C s)

end Sys2Proof.Machine
end

