-- ==== Sys2Proof/Machine/Drives.lean ====
section
/-! DEFINITION. Drive ports: completions, hedges, timeouts, presence, fatal status and the bring-up of a drive (11 R299-R317; 20
R490). -/

namespace Sys2Proof.Machine

/-! ### Commands that end (11 R306-R310, R313) -/

/-- The command of a drive with this identifier. -/
def cmdOf (s : State) (d cid : Nat) : Option NvmeCmd := (s.drive d).cmds.find? (·.cid == cid)

def State.modCmd (s : State) (d cid : Nat) (f : NvmeCmd → NvmeCmd) : State :=
  s.modDrive d fun x => { x with cmds := x.cmds.map fun c => if c.cid = cid then f c else c }

/-- A command of a drive ended in error or timed out; the eighth in a row fences it (04 R99). -/
def driveError (d : Nat) (s : State) : State :=
  let s := s.modDrive d fun x => { x with errors := x.errors + 1 }
  if 8 ≤ (s.drive d).errors then fenceUnit (32 + d) 0x0B s else s

/-- The barge with a chunk at this LBA of a drive (04 R103). -/
def bargeAt (g : Geometry) (d lba : Nat) : Nat :=
  let n := max 1 g.drives.length
  let row := lba / 8
  let x := (g.drives.idxOf d + n - row % n) % n
  (row * n + x) / max 1 (g.coldK + g.coldM)

/-- The barge of a failed read is queued for dredging whatever its live fraction (11 R309). -/
def dredgeFailed (d lba : Nat) (s : State) : State :=
  let x := (2, bargeAt s.map.geo d lba)
  if s.dur.dredge.contains x then s else { s with dur := { s.dur with dredge := s.dur.dredge ++ [x] } }

/-- The original read of a request ends: with its data, or failed. A degraded read under way goes on (11 R312); one that ran out
of trials waited for this (11 R313). A raw block's data wait for its tag, and fail without it (05 R139). -/
def originalEnds (rid : Nat) (out : ReadOutcome) (s : State) : State :=
  match s.req? rid with
  | some r0 =>
    let late := r0.tagOut && out == .good
    let out := if r0.early.isSome then .mediaError else out
    let r := { r0 with cid := none, early := if late then some .good else r0.early }
    let s := s.modReq rid fun _ => r
    if late then s
    else (match r.st, r.src_ with
    | .block 0 missing checked quiet, _ => blockArrives r missing checked quiet out s
    | .block t missing checked quiet, some (tier, loc) =>
      let e := { s.page (r.line / 64) with tier := tier, loc := loc }
      let x := injectBlock (decide (16 ≤ e.size)) ((blockChunks s e).map (chunkSlot s tier loc)) (r.line / 64) out s
      let miss := missing || x.1 == .mediaError
      if x.1 = .good then startDecode rid (r.line / 64) r.failed x.2
      else if t < 1000 then x.2.setSt rid (.block t miss (checked || x.1 != .mediaError) quiet)
      else blockVerdict r miss (checked || x.1 != .mediaError) quiet tier loc (blockChunks s e) x.2
    | _, _ => s)
  | none => s

/-- The Read of a raw block's tag sector ends; a block whose data have come goes on (05 R139; 11 R307). -/
def tagEnds (rid : Nat) (out : ReadOutcome) (s : State) : State :=
  match s.req? rid with
  | some r =>
    let s := endTag rid out s
    if r.tagOut && r.early.isSome && r.cid.isNone then
      originalEnds rid out (s.modReq rid fun r => { r with early := none })
    else s
  | none => s

/-- Marks of the barge being written on the drives. -/
def State.modWrite (s : State) (b : Nat) (f : BargeWrite → BargeWrite) : State :=
  { s with drives := { s.drives with writes := s.drives.writes.map fun w => if w.tier = 2 ∧ w.barge = b then f w else w } }

/-- A chunk write ends: it has reached its devices, or it failed, and is made once more at the same LBAs; after a second failure
the barge is abandoned (11 R308). -/
def chunkEnds (d b lba : Nat) (again ok : Bool) (s : State) : State :=
  if ok then s.modWrite b fun w => { w with waiting := w.waiting.filter (· != 32 + d) }
  else if again then s.modWrite b fun w => { w with abandoned := true, waiting := w.waiting.filter (· != 32 + d) }
  else submit d (.chunk b true) (27 + b % 5) lba 8 s

/-- Latency of a command in microseconds of local time. -/
def latencyUs (s : State) (c : NvmeCmd) : Nat := (s.time.elapsed - c.since) * 1000000 / 2 ^ 24

/-- A read on queue pairs 1-16 enters its drive's histogram (11 R311). -/
def noteLatency (d : Nat) (c : NvmeCmd) (us : Nat) (s : State) : State :=
  if qpClass c.qp = 0 then s.modDrive d fun x => { x with hist := aset x.hist us ((aget x.hist us).getD 0 + 1) } else s

/-- NVME_COMPLETION (11 R308-R310). The completion of a command that has been aborted is discarded. -/
def nvmeCompletion (d cid status : Nat) (out : ReadOutcome) (s : State) : State :=
  match cmdOf s d cid with
  | none => s
  | some c =>
    if c.waiting then s
    else if c.abort.isSome then endCmd d cid s
    else
      let s := noteLatency d c (latencyUs s c) (endCmd d cid s)
      let bad := status != 0
      let out := if bad then .mediaError else out
      let s := if bad
        then raiseAll (srcDrive d 1) 0 (le 1 (nvmeOpcode c.why) ++ le 2 status ++ le 8 c.lba) s
        else s.modDrive d fun x => { x with errors := 0 }
      let s := match c.why with
        | .read rid _ => originalEnds rid out (if bad then dredgeFailed d c.lba s else s)
        | .tag rid => tagEnds rid out (if bad then dredgeFailed d c.lba s else s)
        | .hedge _ => if bad then dredgeFailed d c.lba s else s
        | .mover p => if bad then moverFailed d p (dredgeFailed d c.lba s) else s
        | .chunk b again => chunkEnds d b c.lba again (!bad) s
        | .dealloc => s
      if bad then driveError d s else s

def execNvmeCompletion (drive cid status : Nat) (out : ReadOutcome) (s : State) : Out :=
  onUnit drive 16 (nvmeCompletion drive cid status out s)

/-- Ticks of 100 ms. -/
def ms100 : Nat := 2 ^ 24 / 10

/-- NVME_COMMAND_TIMEOUT (11 R310): Abort is issued, and the command counts as failed. -/
def nvmeTimeout (d cid : Nat) (s : State) : State :=
  match cmdOf s d cid with
  | none => s
  | some c =>
    if c.waiting ∨ c.abort.isSome ∨ s.time.elapsed < c.since + ms100 then s
    else
      let s := noteLatency d c 100000 (s.modCmd d cid fun c => { c with abort := some s.time.elapsed })
      let s := s.emit (.nvme d cid 0x08 0 0)
      let s := raiseAll (srcDrive d 2) 0 (le 1 (nvmeOpcode c.why) ++ le 1 c.qp ++ le 8 c.lba) s
      let s := match c.why with
        | .read rid _ => originalEnds rid .mediaError s
        | .tag rid => tagEnds rid .mediaError s
        | .chunk b again => chunkEnds d b c.lba again false s
        | .mover p => moverFailed d p s
        | .hedge _ | .dealloc => s
      driveError d s

def execNvmeCommandTimeout (drive cid : Nat) (s : State) : Out := onUnit drive 16 (nvmeTimeout drive cid s)

/-- NVME_ABORT_TIMEOUT (11 R302): an Abort without completion 100 ms after it was issued. -/
def abortTimeout (d cid : Nat) (s : State) : State :=
  match (cmdOf s d cid).bind (·.abort) with
  | some t => if t + ms100 ≤ s.time.elapsed then fenceUnit (32 + d) 0x0A s else s
  | none => s

def execNvmeAbortTimeout (drive cid : Nat) (s : State) : Out := onUnit drive 16 (abortTimeout drive cid s)

/-- The hedge delay in ticks: min(3 × E, 2 ms) (11 R311). -/
def hedgeDelay (x : Drive) : Nat := min (3 * x.e) 2000 * 2 ^ 24 / 1000000

/-- HEDGE_DELAY_EXPIRE (11 R312): a host-path read that has not completed starts its degraded read beside it. -/
def hedgeExpire (d cid : Nat) (s : State) : State :=
  match cmdOf s d cid with
  | none => s
  | some c =>
    match c.why with
    | .read rid probe =>
      if c.waiting ∨ c.hedged ∨ c.abort.isSome ∨ s.time.elapsed < c.since + hedgeDelay (s.drive d) then s
      else
        let count : Drive → Drive := fun x =>
          if probe then { x with probeHedges := x.probeHedges + 1 } else { x with hedges := x.hedges + 1 }
        let s := (s.modCmd d cid fun c => { c with hedged := true }).modDrive d count
        (match s.req? rid with
        | some r => (match r.st with
          | .block 0 missing checked _ => advanceBlock r 1 missing checked true s
          | _ => s)
        | none => s)
    | .hedge _ | .tag _ | .mover _ | .chunk _ _ | .dealloc => s

def execHedgeDelayExpire (drive cid : Nat) (s : State) : Out := onUnit drive 16 (hedgeExpire drive cid s)

/-! ### Bringing a drive into service (11 R300-R305) -/

/-- A drive fails a step or a requirement: DRIVE_UNSUITABLE, its slot is powered down, and END_REPLACE fails (11 R303). -/
def driveUnsuitable (d step req : Nat) (s : State) : State :=
  let replace := (s.drive d).replace
  let s := s.modDrive d fun x => { x with step := 0, replace := false }
  let s := raiseAll (srcDrive d 6) 0 (le 1 step ++ le 1 req) s
  if replace && (replOf s (32 + d)).any (·.ending) then failReplace (32 + d) 0x0308 s else slotOff (32 + d) 1 3 s

/-- The first requirement of R303 that a drive does not meet, by its row in the table. -/
def requirementMissed (s : State) (d lbas queues entries : Nat) (format dealloc sanitize version : Bool) : Option Nat :=
  let size := !(s.drive d).replace || decide (s.map.geo.lMin ≤ lbas)
  [(1, version), (2, decide (32 ≤ queues)), (3, decide (256 ≤ entries)), (4, format), (5, size), (6, dealloc),
   (7, sanitize)].find? (fun x => !x.2) |>.map (·.1)

/-- The drive ends its bring-up: HEALTHY at power-up, REFILL after END_REPLACE (11, step 10; 04 R122). -/
def driveReady (d : Nat) (s : State) : State :=
  let slot := 32 + d
  let replace := (s.drive d).replace
  let s := s.modDrive d fun x => { x with step := 0, replace := false, errors := 0, e := 200 }
  if replace then
    let op : BgOp := .endReplace slot
    let by_ := bgIssuer op s
    let id := s.crity.nextOuting
    let s := toRefill slot { s with dur := { s.dur with repl := s.dur.repl.filter (·.slot != slot) } }
    let w := driveBarges s d
    refreshHolds (noteBg op .success 0 (le 4 id) (startOuting 6 by_ slot w.length w s))
  else refreshHolds (s.modUnit slot fun u => { u with health := .healthy, fenced := false, cause := 0 })

/-- The longest a bring-up step may take, in seconds, where the table of steps gives it a limit: the link 1 s, the ready bit 60 s,
a format 10 min, the deallocation 60 s. -/
def stepLimit : Nat → Option Nat
  | 3 => some 1
  | 5 | 9 => some 60
  | 7 => some 600
  | _ => none

/-- The step under way has passed its limit. -/
def stepLate (s : State) (x : Drive) : Bool := (stepLimit x.step).any fun n => decide (x.stepAt + n * 2 ^ 24 < s.time.elapsed)

/-- A step of a drive's bring-up ends; one that ends past its limit has failed. -/
def bringupStep (d : Nat) (res : DriveStep) (s : State) : State :=
  let x := s.drive d
  let go : Nat → State → State := fun n s => s.modDrive d fun y => { y with step := n, stepAt := s.time.elapsed }
  match (if stepLate s x then DriveStep.failed (if x.step = 5 then 9 else 0) else res) with
  | .failed req => driveUnsuitable d x.step req s
  | .ok =>
    if x.step = 2 then
      if x.stepAt + ms100 ≤ s.time.elapsed then go 3 (s.modSlot (32 + d) fun y => { y with perst := false }) else s
    else if x.step = 4 ∨ x.step = 5 ∨ x.step = 7 ∨ x.step = 8 then go (x.step + 1) s
    else if x.step = 9 then driveReady d s
    else s
  | .linkUp w r =>
    if x.step ≠ 3 then s
    else
      let s := go 4 (s.modDrive d fun y => { y with width := w, rate := r })
      if w < 4 ∨ r < 32 then raiseAll (srcDrive d 4) 0 (le 1 w ++ le 1 4 ++ le 1 r ++ le 1 32) s else s
  | .identified lbas queues entries format needs dealloc sanitize version crypto =>
    if x.step ≠ 6 then s
    else match requirementMissed s d lbas queues entries format dealloc sanitize version with
      | some k => driveUnsuitable d 6 k s
      | none => go (if needs then 7 else 8) (s.modDrive d fun y => { y with lbas := lbas, cryptoErase := crypto })

def execDriveBringupStepDone (drive : Nat) (res : DriveStep) (s : State) : Out :=
  onUnit drive 16 (if keeperOff s || keeperPaused s || (s.drive drive).step == 0 then s else bringupStep drive res s)

/-- DRIVE_BRINGUP_TIMEOUT (20 R490): 180 s after Keeper firmware started, as a failure of step 5. -/
def execDriveBringupTimeout (drive : Nat) (s : State) : Out :=
  onUnit drive 16 (if s.boot.phase = .bringup ∧ s.flt.halted = false ∧ (s.drive drive).step ≠ 0
      ∧ s.boot.keeperAt + 180 * 2 ^ 24 ≤ s.time.elapsed then driveUnsuitable drive 5 9 s else s)

/-! ### Presence and fatal status (11 R302, R305, R315) -/

/-- DRIVE_PRESENCE_LOST: the fence, with presence as its cause, and the slot goes down. -/
def presenceLost (d : Nat) (s : State) : State :=
  let slot := 32 + d
  let s := s.modSlot slot fun x => { x with present := false }
  let s := s.modDrive d fun x => { x with since := 0, inserted := false }
  slotOff slot 6 9 (fenceUnit slot 9 s)

def execDrivePresenceLost (drive : Nat) (s : State) : Out := onUnit drive 16 (presenceLost drive s)

/-- The slots of this drive's batch have been powered at power-up (20 R489). -/
def pastBringup (s : State) (d : Nat) : Bool := s.boot.phase.keeper && (s.boot.phase == .ready || decide (d / 8 < s.boot.driveBatch))

/-- DRIVE_PRESENCE_STABLE (11 R305): DRIVE_INSERTED once for a slot whose unit is LOST or ABSENT. -/
def presenceStable (d : Nat) (s : State) : State :=
  let slot := 32 + d
  let fresh := !(s.slot slot).present
  let s := s.modSlot slot fun x => { x with present := true }
  let s := if fresh then s.modDrive d fun x => { x with since := s.time.elapsed, inserted := false } else s
  let h := (s.unit slot).health
  if pastBringup s d && !s.flt.halted && (h == .lost || h == .absent) && !(s.slot slot).st.powering && !(s.drive d).inserted then
    raiseAll (srcDrive d 7) 0 (le 1 slot) (s.modDrive d fun x => { x with inserted := true })
  else s

def execDrivePresenceStable (drive : Nat) (s : State) : Out := onUnit drive 16 (presenceStable drive s)

/-- DRIVE_FATAL_STATUS (11 R302); during the bring-up it fails the step. -/
def execDriveFatalStatus (drive _status : Nat) (s : State) : Out :=
  onUnit drive 16 (if (s.drive drive).step ≠ 0 then driveUnsuitable drive (s.drive drive).step 0 s
    else fenceUnit (32 + drive) 0x0A s)

end Sys2Proof.Machine
end

