-- ==== Sys2Proof/Machine/Ddr.lean ====
section
/-! DEFINITION. DDR5 channels: alerts and replays, refresh, idle self-refresh, temperatures, the module sideband, delays and
training (10 R273-R294; 20 R491-R493). -/

namespace Sys2Proof.Machine

/-- The channel's clocks run: its domain is On with its pads released and the device is not halted. -/
def chanRuns (s : State) (c : Nat) : Bool :=
  (match (s.dom (domDC c)).st with
    | .on | .draining | .asking => true
    | .off | .poweringOff | .waking => false) && !(s.dom (domDC c)).padsHeld && !s.flt.halted

/-! ### Alerts (10 R291-R294) -/

/-- An armed check-bit inversion of the channel is used up by its first alert (19 R482). -/
def useChanInject (c : Nat) (wcrc : Bool) (s : State) : State :=
  match armedFor (if wcrc then 0x04 else 0x05) c 0 s with
  | some a => useArmed a s
  | none => s

/-- A replay begins (10 R293). -/
def startReplay (c : Nat) (s : State) : State :=
  pmcCount (chanEvent 0x23 c)
    (s.modChan c fun x => { x with
      replaying := true, replays := x.replays + 1, replayCount := addSat 24 x.replayCount 1 })

/-- The fence of a channel (04 R99; 10 R294). -/
def fenceChannel (c alerts : Nat) (s : State) : State :=
  let s := raiseAll (srcChannel c 2) 0 (le 1 alerts) s
  let s := fenceUnit (2 * c + 1) 6 (fenceUnit (2 * c) 6 s)
  s.modChan c fun x => { x with replaying := false, replays := 0, ports := [], retry := [], rows := [] }

/-- DRAM_ALERT: the alert is counted and reported; the channel replays its retry buffer, or is fenced by the alert that follows
the third replay of the same contents. -/
def dramAlert (c : Nat) (wcrc : Bool) (s : State) : State :=
  let n := (s.chan c).replays
  let s := if n = 0 then useChanInject c wcrc s else s
  let count : Chan → Chan := fun x =>
    if wcrc then { x with wcrc := addSat 24 x.wcrc 1 } else { x with capar := addSat 24 x.capar 1 }
  let s := s.modChan c count
  let s := raiseAll (srcChannel c (b2n wcrc)) 0 (le 1 n ++ le 1 (s.chan c).retry.length) s
  if 3 ≤ n then fenceChannel c n s else startReplay c s

def execDramAlert (chan : Nat) (writeCrc : Bool) (s : State) : Out :=
  onUnit chan 16 (if chanRuns s chan then dramAlert chan writeCrc s else s)

/-- REPLAY_COMPLETE (10 R289, R293): the buffer has been issued without an alert; a commit of delays that waited is made. -/
def execReplayComplete (chan : Nat) (s : State) : Out :=
  onUnit chan 16 (if (s.chan chan).replaying then
    let s := issueAll chan (s.modChan chan fun x => { x with replaying := false, replays := 0 })
    (s.chan chan).commits.foldl (fun u k => commitDelays chan k u) (s.modChan chan fun x => { x with commits := [] })
  else s)

/-! ### Refresh and self-refresh (10 R284, R286) -/

/-- REFRESH_DUE: a blocked refresh is postponed, by four intervals at most; then it is issued with those postponed. -/
def refreshDue (c k : Nat) (blocked : Bool) (s : State) : State :=
  let n := (s.chan c).postponed.getD k 0
  if blocked = true ∧ n < 4 then s.modChan c fun x => { x with postponed := x.postponed.set k (n + 1) }
  else s.modChan c fun x => { x with
    postponed := x.postponed.set k 0, refreshes := x.refreshes.set k (x.refreshes.getD k 0 + n + 1) }

def execRefreshDue (chan sub : Nat) (blocked : Bool) (s : State) : Out :=
  onUnit chan 16 (if chanRuns s chan && !(s.chan chan).sr then refreshDue chan sub blocked s else s)

/-- SR_IDLE_EXPIRE: self-refresh, or an override of loop 3 where a vote kept the channel active. -/
def srIdleExpire (c : Nat) (s : State) : State :=
  let x := s.chan c
  if s.power.srIdle = 0 ∨ x.sr = true ∨ x.training = true ∨ x.replaying = true ∨ chanItems s c ≠ 0
      ∨ s.time.elapsed < x.idleAt + 2 ^ s.power.srIdle ∨ x.postponed.any (4 ≤ ·) then s
  else if (s.dom (domDC c)).votes &&& ~~~ (BitVec.ofNat 12 (2 ^ 10)) ≠ 0 then
    countOverride 3 (s.modChan c fun x => { x with idleAt := s.time.elapsed })
  else s.modChan c fun x => { x with sr := true, srCount := addSat 24 x.srCount 1 }

def execSrIdleExpire (chan : Nat) (s : State) : Out := onUnit chan 16 (if chanRuns s chan then srIdleExpire chan s else s)

/-! ### Temperatures and the module sideband (10 R273, R274, R285) -/

/-- Levels of R285 that a temperature reaches. -/
def hotLevel (t : Nat) : Nat := if 95 ≤ t then 3 else if 90 ≤ t then 2 else if 85 ≤ t then 1 else 0

/-- The level in force: one already reached clears 3 °C below its threshold. -/
def nextLevel (old t : Nat) : Nat := max (hotLevel t) (min old (hotLevel (t + 2)))

/-- A position is at a temperature: the channel's refresh interval and throttle follow, with an event for a level reached. -/
def applyTemp (c pos t : Nat) (s : State) : State :=
  let old := (s.chan c).level.getD pos 0
  let new := nextLevel old t
  let f : Chan → Chan := fun x =>
    let l := x.level.set pos new
    { x with level := l, hot := l.any (1 ≤ ·), throttle := (l.foldl max 0) - 1 }
  let s := issueAll c (s.modChan c f)
  let s := if old < 1 ∧ 1 ≤ new then raiseAll (srcChannel c 6) 0 (le 1 pos ++ le 1 t) s else s
  if old < new ∧ 2 ≤ new then raiseAll (srcChannel c 7) 0 (le 1 pos ++ le 1 t ++ le 1 (new - 1)) s else s

/-- The poll of one position's hottest sensor; a second poll missed in a row is an error of the sideband's target 0, the
sensors. -/
def pollPos (c pos : Nat) (t : Option Nat) (s : State) : State :=
  let slot := 2 * c + pos
  if (s.slot slot).pgood = false then s
  else match t with
    | some v =>
      let s := s.modChan c fun x => { x with temp := x.temp.set pos v, missed := x.missed.set pos 0 }
      let s : State := { s with lm := { s.lm with samples := aset s.lm.samples (177 + slot) (1024 * v) } }
      applyTemp c pos v s
    | none =>
      let n := (s.chan c).missed.getD pos 0 + 1
      let s := s.modChan c fun x => { x with missed := x.missed.set pos n }
      if n < 2 then s
      else
        let s := if n = 2 then raiseAll (srcChannel c 9) 0 (le 1 pos ++ le 1 0) s else s
        applyTemp c pos 85 s

/-- A PMIC fault fences the DIMM. -/
def pmicFault (c pos status : Nat) (s : State) : State :=
  if (s.slot (2 * c + pos)).pgood then
    fenceUnit (2 * c + pos) 4 (raiseAll (srcChannel c 8) 0 (le 1 pos ++ le 1 status) s)
  else s

/-- TEMP_POLL: every 2^14 ticks of local elapsed time. -/
def tempPoll (c : Nat) (t0 t1 p0 p1 : Option Nat) (s : State) : State :=
  if chanRuns s c = false ∨ s.time.elapsed < (s.chan c).lastPoll + 2 ^ 14 then s
  else
    let s := s.modChan c fun x => { x with lastPoll := s.time.elapsed }
    let s := pollPos c 1 t1 (pollPos c 0 t0 s)
    let s := match p0 with | some v => pmicFault c 0 v s | none => s
    let s := match p1 with | some v => pmicFault c 1 v s | none => s
    refreshHolds s

def execTempPoll (chan : Nat) (t0 t1 pmic0 pmic1 : Option Nat) (s : State) : Out :=
  onUnit chan 16 (tempPoll chan t0 t1 pmic0 pmic1 s)

/-- PMIC_IBI (10 R274). -/
def execPmicIbi (chan pos status : Nat) (s : State) : Out :=
  onUnit chan 16 (if chanRuns s chan = true ∧ pos < 2 then pmicFault chan pos status s else s)

/-! ### Delays and training (10 R288, R289; 20 R491-R493) -/

/-- DELAY_COMMIT (10 R289): during a replay it waits for the replay's end. -/
def execDelayCommit (chan sub : Nat) (s : State) : Out :=
  onUnit chan 16 (if chanRuns s chan = false ∨ 2 ≤ sub then s
    else commitDelays chan sub s)

/-- Serial numbers of a channel's DIMMs, by position; 0 for none. -/
def chanSerials (s : State) (c : Nat) : List Nat :=
  [2 * c, 2 * c + 1].map fun i => if (s.unit i).spd.occupied then (s.unit i).spd.serial else 0

/-- The stored set has this channel's key (20 R491). -/
def setMatches (s : State) (c : Nat) (t : TrainingSet) : Bool :=
  t.chan == c && t.rate == s.ddr.rate.getD c 0 && t.mrdimm == s.ddr.mrdimm && t.serials == chanSerials s c

/-- Store a set: in its own key's sector, a free one, or that of the oldest set that matches no channel brought up (20 R491). -/
def storeSet (c : Nat) (s : State) : State :=
  let new : TrainingSet := {
    chan := c, rate := s.ddr.rate.getD c 0, mrdimm := s.ddr.mrdimm, serials := chanSerials s c, delays := (s.chan c).delays }
  let l := s.lm.training.filter fun t => !setMatches s c t
  let used := fun t : TrainingSet => s.ddr.population.getLsbD t.chan && setMatches s t.chan t
  let l := if l.length < 240 then l else
    match l.find? fun t => !used t with
    | some t => l.erase t
    | none => l.drop 1
  { s with lm := { s.lm with training := l ++ [new] } }

/-- Load delays; values of a position that is not trained now stay (10 R288). -/
def loadDelays (c : Nat) (d : List (Nat × Nat)) (s : State) : State :=
  s.modChan c fun x => { x with delays := d.foldl (fun l v => aset l v.1 v.2) x.delays, staged := [], idleAt := s.time.elapsed }

/-- A channel is brought up: its DIMMs are HEALTHY and it is in DCT_POPULATION. -/
def channelUp (c : Nat) (s : State) : State :=
  let s := s.modChan c fun x => { x with training := false }
  let up : State → Nat → State := fun s i =>
    if (s.unit i).spd.occupied = true ∧ (s.unit i).health = .absent then s.modUnit i fun u => { u with health := .healthy } else s
  let s := up (up s (2 * c)) (2 * c + 1)
  keepVotes (refreshHolds { s with ddr := { s.ddr with population := s.ddr.population ||| BitVec.ofNat 16 (2 ^ c) } })

/-- A channel without a DIMM left, and its partner, stay out of the population (10 R271; 20 R493). -/
def channelOut (c : Nat) (s : State) : State :=
  let o := (c + 8) % 16
  let off : Chan → Chan := fun x => { x with training := false }
  let s := (s.modChan c off).modChan o off
  let away : State → Nat → State := fun s i =>
    if (s.unit i).health = .healthy then s.modUnit i fun u => { u with health := .absent } else s
  let s := away (away s (2 * o)) (2 * o + 1)
  let keep := ~~~ (BitVec.ofNat 16 (2 ^ c) ||| BitVec.ofNat 16 (2 ^ o))
  keepVotes { s with ddr := { s.ddr with population := s.ddr.population &&& keep } }

/-- A DIMM fails its full training at power-up (20 R493). -/
def trainLost (c pos : Nat) (s : State) : State :=
  let slot := 2 * c + pos
  let s := s.modUnit slot fun u => { u with health := .lost, fenced := true, cause := 7 }
  let s := slotOff slot 1 3 (raiseAll 322 0 (le 1 slot ++ le 1 7) s)
  let other := s.unit (otherSlot slot)
  if other.spd.occupied && other.health != .lost then s else channelOut c s

/-- The result of a training, at power-up (20 R492, R493). -/
def trainedAtPowerUp (c : Nat) (res : TrainResult) (s : State) : State :=
  match res, s.lm.training.find? (setMatches s c) with
  | .verified, some t => channelUp c (loadDelays c t.delays s)
  | .verified, none => s
  | .verifyFailed, some _ =>
    let s := raiseAll (srcChannel c 12) 0 (le 1 0xFF ++ le 1 0xFF ++ le 1 0) s
    { s with lm := { s.lm with training := s.lm.training.filter fun t => !setMatches s c t } }
  | .verifyFailed, none => s
  | .trained d, _ => channelUp c (storeSet c (loadDelays c d s))
  | .fullFailed pos k stage, _ =>
    if 2 ≤ pos ∨ (s.unit (2 * c + pos)).spd.occupied = false ∨ (s.unit (2 * c + pos)).health = .lost then s
    else trainLost c pos (raiseAll (srcChannel c 12) 0 (le 1 pos ++ le 1 k ++ le 1 stage) s)

/-- The new DIMM of a replacement is trained (04, steps 8 and 9). -/
def replaceTrained (c slot : Nat) (spd : SpdRead) (d : List (Nat × Nat)) (store : Bool) (s : State) : State :=
  let s := loadDelays c d (s.modUnit slot fun u => { u with spd := spd })
  let s := s.modChan c fun x => { x with training := false }
  startRefills (s.modRepl slot (fun r => { r with trained := true }) |> if store then storeSet c else id)

/-- The result of a training, under END_REPLACE (04 R125; 10 R275). -/
def trainedInService (c : Nat) (r : Replacement) (res : TrainResult) (spd : Option SpdRead) (s : State) : State :=
  let stop : State → State := fun s => failReplace r.slot 0x0308 (s.modChan c fun x => { x with training := false })
  match spd with
  | none => stop s
  | some n =>
    if moduleFits s r.spd n = false then stop s
    else
      let t := s.modUnit r.slot fun u => { u with spd := n }
      match res, s.lm.training.find? (setMatches t c) with
      | .verified, some w => replaceTrained c r.slot n w.delays false s
      | .verified, none => s
      | .verifyFailed, some w =>
        let s := raiseAll (srcChannel c 12) 0 (le 1 (r.slot % 2) ++ le 1 0xFF ++ le 1 0) s
        { s with lm := { s.lm with training := s.lm.training.erase w } }
      | .verifyFailed, none => s
      | .trained d, _ => replaceTrained c r.slot n d true s
      | .fullFailed _ k stage, _ => stop (raiseAll (srcChannel c 12) 0 (le 1 (r.slot % 2) ++ le 1 k ++ le 1 stage) s)

/-- DIMM_TRAINING_DONE. -/
def trainingDone (c : Nat) (res : TrainResult) (spd : Option SpdRead) (s : State) : State :=
  if (s.chan c).training = false ∨ chanRuns s c = false ∨ keeperPaused s = true ∨ s.boot.phase.keeper = false then s
  else if s.boot.phase = .bringup then trainedAtPowerUp c res s
  else match s.dur.repl.find? fun r => !isDrive r.slot && slotChannel r.slot == c && r.ending with
    | some r => trainedInService c r res spd s
    | none => s.modChan c fun x => { x with training := false }

def execDimmTrainingDone (chan : Nat) (res : TrainResult) (spd : Option SpdRead) (s : State) : Out :=
  onUnit chan 16 (trainingDone chan res spd s)

end Sys2Proof.Machine
end

