-- ==== Sys2Proof/Machine/Crity.lean ====
section
/-! DEFINITION. Crity commands of identity, health, the managing head and outings; unlisted opcodes; the end of a start phase
(14 R370-R389). -/

namespace Sys2Proof.Machine

/-! ### Outings (14 R381-R387) -/

/-- PAUSE_OUTING is accepted now: open, of a kind that may be paused, and no re-key that R387 has made unpausable. -/
def pausable (s : State) (o : Outing) : Bool :=
  o.open_ && kindPausable o.kind && !(o.kind == 8 && decide (2 ^ 54 ≤ (s.range o.subject).useNew))

def abortable (o : Outing) : Bool := o.open_ && kindAbortable o.kind

/-- The 64 bytes of an outing record. -/
def outingBytes (s : State) (o : Outing) : List Byte :=
  le 4 o.id ++ le 1 o.kind ++ le 1 o.state
    ++ le 1 (b2n (o.hold != 0) + 2 * b2n (pausable s o) + 4 * b2n (abortable o) + 8 * b2n o.deviceStarted + 16 * o.hold)
    ++ le 1 (kindMaster o.kind) ++ le 2 o.percent ++ le 2 o.wsc ++ le 1 o.issuer ++ zeros 3 ++ le 6 o.done ++ le 6 o.total
    ++ le 4 o.subject ++ le 8 o.start ++ le 8 o.last ++ le 8 o.ended ++ le 4 o.linked ++ le 3 o.unitsLast ++ zeros 1

def getOutingSpec : CmdSpec where
  opcode := 0xC501
  len := fun n => n == 4
  any := true
  read := true

def execGetOuting (m : Mb) (p : List Byte) (s : State) : Out :=
  .next (runCrity getOutingSpec m p (fun s => match findOuting s (ofLe p 0 4) with
    | some o => .ok (outingBytes s o) s
    | none => .fail 0x0601 0) s)

/-- The output of LIST_OUTINGS. -/
def outingList (src : Nat) (p : List Byte) (s : State) : List Byte :=
  let pick := fun o : Outing => decide (ofLe p 0 4 ≤ o.id) && (!bitAt p 4 0 || o.open_) && (!bitAt p 4 1 || o.issuer == src)
  let l := (s.crity.outings.filter pick).mergeSort fun a b => decide (a.id ≤ b.id)
  let n := min (ofLe p 6 2) l.length
  le 2 n ++ le 2 (s.crity.outings.countP (·.open_)) ++ le 4 (((l[n]?).map (·.id)).getD 0) ++ le 4 s.crity.outings.length
    ++ zeros 4 ++ ((l.take n).map (outingBytes s)).flatten

def execListOutings (m : Mb) (p : List Byte) (s : State) : Out :=
  .next (runCrity { getOutingSpec with
    opcode := 0xC500, len := fun n => n == 8, resv := [(4, 0xFC), (5, 0xFF)]
    checks := fun p _ => [⟨6, decide (1 ≤ ofLe p 6 2 ∧ ofLe p 6 2 ≤ 1023), 0x0007⟩] } m p
    (fun s => .ok (outingList m.src p s) s) s)

def outingSpec : CmdSpec where
  opcode := 0xC502
  len := fun n => n == 4
  mgt := true

/-- The outing a command names, open (14 R385). -/
def onOuting (p : List Byte) (k : Outing → CmdRes) (s : State) : CmdRes :=
  match findOuting s (ofLe p 0 4) with
  | none => .fail 0x0601 0
  | some o => if o.open_ then k o else .fail 0x0602 0

/-- STATE of an open outing changes. -/
def setOutingState (o : Outing) (st : Nat) (s : State) : State :=
  if o.state = st then s else outingVector o (s.modOuting o.id fun x => { x with state := st, last := s.time.chain })

def execPauseOuting (m : Mb) (p : List Byte) (s : State) : Out :=
  .next (runCrity outingSpec m p (fun s => onOuting p (fun o =>
    if pausable s o then .ok [] (setOutingState o 1 s) else .fail 0x0603 0) s) s)

def execResumeOuting (m : Mb) (p : List Byte) (s : State) : Out :=
  .next (runCrity { outingSpec with opcode := 0xC503 } m p (fun s => onOuting p (fun o =>
    .ok [] (setOutingState o 0 s)) s) s)

def execAbortOuting (m : Mb) (p : List Byte) (s : State) : Out :=
  .next (runCrity { outingSpec with opcode := 0xC504 } m p (fun s => onOuting p (fun o =>
    if abortable o then .ok [] (endOuting o.id 3 0 s) else .fail 0x0604 0) s) s)

/-! ### Identity and health (14) -/

/-- GLB_IDENT (00 R3). -/
def glbIdent (s : State) : Nat := Config.part * 2 ^ 16 + s.boot.grade * 2 ^ 12 + Config.revision * 2 ^ 4

/-- The managing head as reported: 0xFF while none manages or the head named is absent (14 R378). -/
def managingNow (s : State) : Nat :=
  match s.crity.managing with
  | some h => if (s.head h).present then h else 0xFF
  | none => 0xFF

/-- The 128 bytes of IDENTIFY_WALBEN. -/
def identity (src : Nat) (s : State) : List Byte :=
  le 4 (glbIdent s) ++ le 2 0x0100 ++ le 1 src ++ le 1 (managingNow s) ++ le 8 s.boot.serial
    ++ le 4 s.boot.bootId.toNat ++ le 2 s.chain.id ++ le 2 s.chain.gen ++ le 8 (s.map.geo.offeredGib * gib)
    ++ le 2 s.ddr.population.toNat ++ le 1 (if s.ddr.twoDpc then 2 else 1) ++ le 1 s.map.geo.drives.length
    ++ le 2 s.ddr.rateMts ++ le 1 (bitsOf 8 fun h => (s.head h).present) ++ le 1 (bitsOf 4 fun n => s.host.bifur.getD n false)
    ++ le 4 s.lm.keeperVer ++ le 4 s.lm.lmVer ++ le 4 s.lm.codecVer ++ le 1 (b2n s.lm.runB) ++ le 1 (b2n s.power.handshake)
    ++ le 2 64 ++ le 2 1024 ++ zeros 70

def identifyWalbenSpec : CmdSpec where
  opcode := 0xC000
  len := fun n => n == 0
  any := true
  read := true
  lmOwn := true

def execIdentifyWalben (m : Mb) (p : List Byte) (s : State) : Out :=
  .next (runCrity identifyWalbenSpec m p (fun s => .ok (identity m.src s) s) s)

/-- Bytes 0-3 of GET_HEALTH_SUMMARY. -/
def healthFlags (s : State) : Nat :=
  b2n s.flt.halted + 2 * b2n (reduced s) + 4 * b2n (decide (s.slu.fNum < s.slu.fDen)) + 8 * b2n s.power.brace
    + 16 * b2n s.time.untimed + 32 * b2n (s.ddr.chans.any fun c => decide (0 < c.throttle)) + 64 * b2n s.dur.overflow
    + 128 * b2n s.codec.unavailable + 256 * b2n (s.dur.tandem.any fun t => t.solo || t.resyncing)
    + 512 * b2n (s.keys.ranges.any (·.lateRaised)) + 1024 * b2n (s.map.urgentW || s.map.urgentC) + 2048 * b2n s.map.ovlFull
    + 4096 * b2n s.time.master

/-- Whole degrees of a sample in 2^-10 °C. -/
def degrees (x : Int) : Int := x / 1024

/-- The hottest drive, °C. -/
def driveTemp (s : State) : Nat :=
  ((List.range 16).map fun p => (degrees ((aget s.lm.samples (209 + p)).getD 0)).toNat).foldl max 0

/-- The 128 bytes of GET_HEALTH_SUMMARY. -/
def healthSummary (s : State) : List Byte :=
  let unit := fun i => (s.unit i).health.code
  le 4 (healthFlags s) ++ ((List.range 24).map fun i => le 1 (unit (2 * i) + 16 * unit (2 * i + 1))).flatten
    ++ le 4 (bitsOf 32 fun e => (s.engine e).st == .inService) ++ le 4 (bitsOf 32 fun e => (s.engine e).st == .failed)
    ++ le 1 s.lm.cores.toNat ++ le 1 (s.port 0).st.code ++ le 1 (s.port 1).st.code ++ le 1 (bitsOf 8 (headUp s))
    ++ le 4 (s.slu.floor.getD 0) ++ le 4 (factor23 s.slu) ++ le 4 s.dur.loss.length ++ le 4 s.dur.lossSeq
    ++ le 2 (s.crity.outings.countP (·.open_)) ++ le 2 (s.codec.jobs.countP (·.open_)) ++ le 1 (twos 8 (degrees s.lm.tempMax))
    ++ le 1 ((s.ddr.chans.map fun c => c.temp.foldl max 0).foldl max 0) ++ le 1 (driveTemp s) ++ zeros 1
    ++ le 2 (fillOf s 0) ++ le 2 (freeSpace s 1) ++ le 2 (freeSpace s 2)
    ++ le 6 (bitsOf 48 fun n => (s.coll n).fault) ++ le 4 (seconds s.time.elapsed) ++ le 8 s.time.chain ++ zeros 40

def execGetHealthSummary (m : Mb) (p : List Byte) (s : State) : Out :=
  .next (runCrity { identifyWalbenSpec with opcode := 0xC001 } m p (fun s => .ok (healthSummary s) s) s)

/-- SET_MANAGING_HEAD (14 R379). -/
def execSetManagingHead (m : Mb) (p : List Byte) (s : State) : Out :=
  .next (runCrity { outingSpec with
    opcode := 0xC002, resv := [(1, 0xFFFFFF)]
    checks := fun p _ => [⟨0, decide (byteAt p 0 ≤ 7), 0x0007⟩] } m p
    (fun s => if (s.head (byteAt p 0)).present && headUp s (byteAt p 0)
      then .ok [] { s with crity := { s.crity with managing := some (byteAt p 0) } }
      else .fail 0x0005 0) s)

/-! ### Opcodes (14 R370, R380; 09 R257) -/

/-- Opcodes of the Crity read commands (14 R376). -/
def crityReads : List Nat :=
  [0xC000, 0xC001, 0xC010, 0xC101, 0xC201, 0xC206, 0xC207, 0xC301, 0xC303, 0xC304, 0xC403, 0xC500, 0xC501, 0xC601, 0xC702,
   0xC703, 0xC800, 0xC802, 0xCA00]

/-- Opcodes of the other Crity commands. -/
def crityWrites : List Nat :=
  [0xC002, 0xC011, 0xC012, 0xC100, 0xC102, 0xC103, 0xC200, 0xC202, 0xC203, 0xC204, 0xC205, 0xC208, 0xC300, 0xC302, 0xC305,
   0xC400, 0xC401, 0xC402, 0xC404, 0xC405, 0xC502, 0xC503, 0xC504, 0xC600, 0xC602, 0xC603, 0xC700, 0xC701, 0xC704, 0xC801,
   0xC803, 0xC900, 0xC901, 0xC902, 0xCA01, 0xCA02, 0xCA03, 0xCA04, 0xCA05]

/-- Opcodes of the standard commands the device accepts (09 R257). -/
def stdOpcodes : List Nat :=
  [0x0001, 0x0002, 0x0003, 0x0004, 0x0100, 0x0101, 0x0102, 0x0103, 0x0200, 0x0201, 0x0202, 0x0300, 0x0301, 0x0400, 0x0401,
   0x0500, 0x4000, 0x4200, 0x4201, 0x4202, 0x4300, 0x4301, 0x4302, 0x4400, 0x4401]

/-- The opcode is listed. -/
def listed (opcode : Nat) : Bool := crityReads.contains opcode || crityWrites.contains opcode || stdOpcodes.contains opcode

/-- UNSUPPORTED_COMMAND (14 R370; 09 R257): an opcode that no table lists. -/
def execUnsupportedCommand (m : Mb) (opcode : Nat) (p : List Byte) (s : State) : Out :=
  .next (if listed opcode then s else runStd { opcode := opcode } m p (fun _ => .std .unsupported 0) s)

/-! ### The end of a start phase (14 R374, R375) -/

/-- The outing that a background command started. -/
def bgOuting (b : BgSlot) (out : List Byte) : Nat :=
  match b.op with
  | some (.rekey _ o) | some (.erase _ o) | some (.sanitize o) => o
  | some (.endReplace _) => if out.length = 4 then ofLe out 0 4 else 0xFFFFFFFF
  | some .discover | some .activate | none => 0xFFFFFFFF

/-- END_REPLACE whose slot cannot come up has failed (04 R125; 16 R419, R424). -/
def replaceStuck (slot : Nat) (s : State) : State :=
  if (replOf s slot).any (·.ending) then
    match (s.slot slot).st with
    | .latched => failReplace slot 0x0B02 s
    | .fetShort => failReplace slot 0x0B03 s
    | .off => if (s.slot slot).commanded then s else failReplace slot 0x0308 s
    | .waiting | .starting | .ramp | .qualify | .on | .stopping | .backoff => s
  else s

/-- A background command's own work has a result: it is delivered. -/
def deliverBg (src : Nat) (s : State) : State :=
  let b := bgOf s src
  if !b.busy then s
  else match b.result with
    | some (rc, wsc, out) => endBackground src rc wsc out (bgOuting b out) s
    | none => s

def startPhaseEnd (src : Nat) (s : State) : State :=
  let s := match (bgOf s src).op with
    | some (.endReplace slot) => if (bgOf s src).busy && (bgOf s src).result.isNone then replaceStuck slot s else s
    | _ => s
  deliverBg src s

def execBackgroundStartPhaseEnd (src : Nat) (s : State) : Out := onUnit src 9 (startPhaseEnd src s)

end Sys2Proof.Machine
end

