-- ==== Sys2Proof/Machine/Std.lean ====
section
/-! DEFINITION. Standard CXL commands (09 R256-R260, R514; 14 R375, R388; 18 R464-R466). The layouts and numbers are those of CXL
3.1, which the manual does not repeat (PRESUMED, log 8); a byte that neither gives is `Config.cxlByte`. -/

namespace Sys2Proof.Machine

/-- The input has this length. -/
def needLen (p : List Byte) (n : Nat) (r : CmdRes) : CmdRes := if p.length = n then r else .std .invalidPayloadLength 0

/-- Bytes `a` to `a + n - 1` of an output that neither the manual nor this model gives. -/
def openBytes (opcode a n : Nat) : List Byte := (List.range n).map fun i => Config.cxlByte opcode (a + i)

/-! ### Information, limits, background status -/

/-- IDENTIFY (09 R247, R257). -/
def execIdentify (m : Mb) (p : List Byte) (s : State) : Out :=
  .next (runStd { opcode := 0x0001 } m p (fun s => needLen p 0 (.ok
    (le 2 0x1D9A ++ le 2 0x9720 ++ openBytes 0x0001 4 4 ++ le 8 s.boot.serial ++ le 1 16 ++ le 1 3) s)) s)

/-- Percentage of a background command: a Sanitize reports that of its outing (14 R374, R375). -/
def bgPercent (s : State) (b : BgSlot) : Nat :=
  match b.busy, b.op with
  | true, some (.sanitize o) => ((findOuting s o).map (·.percent / 100)).getD 0
  | _, _ => b.percent

/-- BACKGROUND_OPERATION_STATUS. -/
def execBackgroundOperationStatus (m : Mb) (p : List Byte) (s : State) : Out :=
  .next (runStd { opcode := 0x0002 } m p (fun s => needLen p 0 (
    let b := bgOf s m.src
    .ok (le 1 (b2n b.busy + 2 * bgPercent s b) ++ le 1 0 ++ le 2 b.opcode ++ le 2 (if b.busy then 0 else b.rc.code)
      ++ le 2 (if b.busy then 0 else b.wsc)) s)) s)

/-- GET_RESPONSE_MESSAGE_LIMIT: the exponent of the limit. -/
def execGetResponseMessageLimit (m : Mb) (p : List Byte) (s : State) : Out :=
  .next (runStd { opcode := 0x0003 } m p (fun s => needLen p 0 (.ok (le 1 (Nat.log2 (limitOf s m.src))) s)) s)

/-- SET_RESPONSE_MESSAGE_LIMIT: 2^8 to 2^16 bytes; over the sideband 2^12 at least (17 R434). -/
def execSetResponseMessageLimit (m : Mb) (p : List Byte) (s : State) : Out :=
  .next (runStd { opcode := 0x0004 } m p (fun s => needLen p 1 (
    let n := byteAt p 0
    if n < (if m.src = 8 then 12 else 8) ∨ 16 < n then .std .invalidInput 0
    else .ok (le 1 n) (if m.src = 8 then { s with crity := { s.crity with sbLimit := 2 ^ n } }
      else s.modHead m.src fun h => { h with limit := 2 ^ n }))) s)

/-! ### Events (18 R462-R466) -/

/-- Handle of an event record: its ESEQ, never 0. -/
def eventHandle (r : EventRec) : Nat := r.eseq % 0xFFFF + 1

/-- UUIDs of the record types: General Media, DRAM, Memory Module, and Walben's own (18 R464). -/
def uuidMedia : Nat := 0xFBCD0A77C260417F85A9088B1621EBA6
def uuidDram : Nat := 0x601DCBB39C064EABB8AF4E9BFB5C9624
def uuidModule : Nat := 0xFE927475DD594339A58679BAB113B774
def uuidWalben : Nat := 0x9E3A5C712D4B4F80A6C21B7D9720C503

/-- The record type of an event: 0 General Media, 1 DRAM, 2 Memory Module, 3 Vendor Specific (18 R464). -/
def recordType (source : Nat) : Nat :=
  if source = 320 ∨ source = 321 ∨ source = 326 ∨ source = 576 ∨ source = 304 then 0
  else if (640 ≤ source ∧ source < 1152) ∨ source = 327 then 1
  else if (1408 ≤ source ∧ source < 1456) ∨ source = 322 ∨ source = 323 ∨ (1510 ≤ source ∧ source ≤ 1512) then 2
  else 3

/-- The 48-byte event record (18 R454). -/
def eventRecord (r : EventRec) : List Byte :=
  le 4 r.eseq ++ le 2 (r.source + r.cls * 2 ^ 11 + b2n r.injected * 2 ^ 14) ++ le 1 r.kind ++ le 1 r.head ++ le 8 r.time ++ zeros 4
    ++ (r.contents ++ zeros 28).take 28

/-! ### Health (09 R259) -/

/-- Life Used: the highest Percentage Used of any drive. -/
def lifeUsed (s : State) : Nat := (s.drives.drives.map (·.used)).foldl max 0

/-- Additional Status: fields beyond their enabled warning thresholds. -/
def additionalStatus (s : State) : Nat :=
  let a := s.crity.alerts
  let t := degrees s.lm.tempMax
  let on := fun i : Nat => a.valid.testBit i
  let signed := fun x : Nat => if x < 2 ^ 15 then (x : Int) else (x : Int) - 2 ^ 16
  b2n (on 0 && decide (a.lifeUsed ≤ lifeUsed s))
    + 4 * b2n ((on 1 && decide (signed a.overTemp ≤ t)) || (on 2 && decide (t ≤ signed a.underTemp)))
    + 16 * b2n (on 3 && decide (a.volErr ≤ s.flt.ceCount)) + 32 * b2n (on 4 && a.persErr == 0)

/-- The 18 bytes of Get Health Info. -/
def healthInfo (s : State) : List Byte :=
  le 1 (b2n (reduced s)) ++ le 1 (b2n (s.flt.halted || !s.boot.mediaReady)) ++ le 1 (additionalStatus s) ++ le 1 (lifeUsed s)
    ++ le 2 (twos 16 (degrees s.lm.tempMax)) ++ le 4 0 ++ le 4 s.flt.ceCount ++ le 4 0

def execGetHealthInfo (m : Mb) (p : List Byte) (s : State) : Out :=
  .next (runStd { opcode := 0x4200 } m p (fun s => needLen p 0 (.ok (healthInfo s) s)) s)

/-- GET_ALERT_CONFIG: the critical thresholds, which are not programmable, are open. -/
def execGetAlertConfig (m : Mb) (p : List Byte) (s : State) : Out :=
  .next (runStd { opcode := 0x4201 } m p (fun s => needLen p 0 (
    let a := s.crity.alerts
    .ok (le 1 a.valid ++ le 1 0x1F ++ openBytes 0x4201 2 1 ++ le 1 a.lifeUsed ++ openBytes 0x4201 4 4 ++ le 2 a.overTemp
      ++ le 2 a.underTemp ++ le 2 a.volErr ++ le 2 a.persErr) s)) s)

/-- Set Alert Config: byte 0 names the alerts that change, byte 1 those that are enabled. -/
def setAlerts (p : List Byte) (a : AlertConfig) : AlertConfig :=
  let act := fun i : Nat => bitAt p 0 i
  { valid := bitsOf 5 fun i => if act i then bitAt p 1 i else a.valid.testBit i
    lifeUsed := if act 0 then byteAt p 2 else a.lifeUsed
    overTemp := if act 1 then ofLe p 4 2 else a.overTemp
    underTemp := if act 2 then ofLe p 6 2 else a.underTemp
    volErr := if act 3 then ofLe p 8 2 else a.volErr
    persErr := if act 4 then ofLe p 10 2 else a.persErr }

def execSetAlertConfig (m : Mb) (p : List Byte) (s : State) : Out :=
  .next (runStd { opcode := 0x4202, managing := true } m p (fun s => needLen p 12 (
    if 31 < byteAt p 0 then .std .invalidInput 0
    else .ok [] { s with crity := { s.crity with alerts := setAlerts p s.crity.alerts } })) s)

/-! ### Event logs -/

/-- What a record type's own fields say, in 32 bytes (18 R464). -/
def recordFields (s : State) (r : EventRec) : List Byte :=
  let ty := recordType r.source
  let open_ := openBytes 0x0100
  let page := ofLe r.contents (if r.source = 326 ∨ r.source = 576 then 0 else 1) 8
  let line := if r.source = 320 ∨ r.source = 304 then byteAt r.contents 9 else if r.source = 321 then
      ((List.range 64).find? fun i => (ofLe r.contents 9 8).testBit i).getD 0
    else byteAt r.contents 8
  if ty = 0 then
    le 8 (4096 * page + 64 * line) ++ open_ 56 1 ++ le 1 (if r.cls = 2 then 0 else 2)
      ++ open_ 58 22
  else if ty = 1 then
    let chan := if r.source = 327 then slotChannel (byteAt r.contents 0) else (r.source - 640) / 32
    le 8 (if (r.source - 640) % 32 = 3 ∨ (r.source - 640) % 32 = 4 then ofLe r.contents 0 8 else 0) ++ open_ 56 5 ++ le 1 chan
      ++ open_ 62 18
  else if ty = 2 then le 1 0 ++ healthInfo s ++ open_ 67 13
  else []

/-- A record of Get Event Records, 128 bytes: the common header, the fields of its type, and the event record: last in the
first three types, first in a Vendor Specific record. -/
def cxlRecord (s : State) (i : Nat) (r : EventRec) : List Byte :=
  let ty := recordType r.source
  let uuid := if ty = 0 then uuidMedia else if ty = 1 then uuidDram else if ty = 2 then uuidModule else uuidWalben
  let flags := i + 4 * b2n (r.cls == 4) + 8 * b2n (reduced s)
  be 16 uuid ++ le 1 128 ++ le 3 flags ++ le 2 (eventHandle r) ++ le 2 0 ++ le 8 (toNanos r.time) ++ zeros 16
    ++ (if ty = 3 then eventRecord r ++ zeros 32 else recordFields s r ++ eventRecord r)

/-- The output of Get Event Records for log `i` of a head. -/
def eventLogBytes (s : State) (h i : Nat) : List Byte :=
  let l := (s.head h).logs.getD i {}
  let n := min l.records.length ((limitOf s h - 32) / 128)
  le 1 (b2n l.overflow + 2 * b2n (decide (n < l.records.length))) ++ zeros 1 ++ le 2 (min l.lost 0xFFFF)
    ++ le 8 (if l.overflow then toNanos l.firstLost else 0) ++ le 8 (if l.overflow then toNanos l.lastLost else 0) ++ le 2 n ++ zeros 10
    ++ ((l.records.take n).map (cxlRecord s i)).flatten

def execGetEventRecords (m : Mb) (p : List Byte) (s : State) : Out :=
  .next (runStd { opcode := 0x0100, sb := false } m p (fun s => needLen p 1 (
    if 3 < byteAt p 0 then .std .invalidInput 0 else .ok (eventLogBytes s m.src (byteAt p 0)) s)) s)

/-- A log after a clear: the overflow fields go when it is empty (18 R465). -/
def EventLog.keep (l : EventLog) (f : EventRec → Bool) : EventLog :=
  let r := l.records.filter f
  if r.isEmpty then {} else { l with records := r }

/-- CLEAR_EVENT_RECORDS (18 R465). -/
def clearEvents (h : Nat) (p : List Byte) (s : State) : CmdRes :=
  let i := byteAt p 0
  let n := byteAt p 2
  let hs := (List.range n).map fun k => ofLe p (6 + 2 * k) 2
  let l := (s.head h).logs.getD i {}
  let put : (EventRec → Bool) → State := fun f => s.modHead h fun x => { x with logs := x.logs.modify i fun l => l.keep f }
  if p.length ≠ 6 + 2 * n then .std .invalidPayloadLength 0
  else if 3 < i then .std .invalidInput 0
  else if bitAt p 1 0 then .ok [] (put fun _ => false)
  else if hs.any fun x => !(l.records.any fun r => eventHandle r == x) then .std .invalidHandle 0
  else .ok [] (put fun r => !hs.contains (eventHandle r))

def execClearEventRecords (m : Mb) (p : List Byte) (s : State) : Out :=
  .next (runStd { opcode := 0x0101, sb := false } m p (clearEvents m.src p) s)

/-- GET_EVENT_INTERRUPT_POLICY: MSI-X or none, with the fixed vectors 1 to 4 (18 R466). -/
def execGetEventInterruptPolicy (m : Mb) (p : List Byte) (s : State) : Out :=
  .next (runStd { opcode := 0x0102, sb := false } m p (fun s => needLen p 0 (.ok
    ((List.range 4).map fun i => le 1 (b2n ((s.head m.src).policy.getD i false) + 16 * (i + 1))).flatten s)) s)

/-- SET_EVENT_INTERRUPT_POLICY: a message number is ignored, FW Interrupt fails (18 R466). -/
def execSetEventInterruptPolicy (m : Mb) (p : List Byte) (s : State) : Out :=
  .next (runStd { opcode := 0x0103, sb := false } m p (fun s =>
    if p.length ≠ 4 ∧ p.length ≠ 5 then .std .invalidPayloadLength 0
    else if (List.range 4).any fun i => 2 ≤ byteAt p i % 4 then .std .invalidInput 0
    else .ok [] (s.modHead m.src fun h => { h with policy := (List.range 4).map fun i => byteAt p i % 4 == 1 })) s)

/-! ### Logs (14 R388, vendor logs) -/

def uuidEffects : Nat := 0x0DA9C0B5BF414B788F7996B1623B3F17
def uuidOutings : Nat := 0x9E3A5C712D4B4F80A6C21B7D9720C501
def uuidCommands : Nat := 0x9E3A5C712D4B4F80A6C21B7D9720C502

/-- The Command Effects Log: every command with its effects (14); those of a standard command are open. -/
def effectsLog : List Byte :=
  (stdOpcodes.map fun o => le 2 o ++ openBytes 0x0401 (2 * o) 2).flatten
    ++ (crityReads.map fun o => le 2 o ++ le 2 0).flatten
    ++ (crityWrites.map fun o => le 2 o ++ le 2 (if o = 0xC102 ∨ o = 0xC103 then 2 + 4 + 64 else 2)).flatten

/-- The Outing Log: finished outings, oldest first. -/
def outingLog (s : State) : List Byte :=
  let l := (s.crity.outings.filter (!·.open_)).mergeSort fun a b => decide (a.ended ≤ b.ended)
  ((l.map (outingBytes s)).flatten ++ zeros 16384).take 16384

/-- A Command Log record. -/
def cmdLogBytes (r : CmdLog) : List Byte :=
  le 4 r.seq ++ le 2 r.opcode ++ le 1 r.issuer ++ le 1 r.rc.code ++ le 2 r.wsc ++ zeros 2 ++ le 4 r.outing ++ le 8 r.time ++ zeros 8

def commandLog (s : State) : List Byte := ((s.crity.cmdLog.map cmdLogBytes).flatten ++ zeros 32768).take 32768

/-- A log by its UUID. -/
def logByUuid (s : State) (u : List Byte) : Option (List Byte) :=
  if u = be 16 uuidEffects then some effectsLog
  else if u = be 16 uuidOutings then some (outingLog s)
  else if u = be 16 uuidCommands then some (commandLog s)
  else none

def execGetSupportedLogs (m : Mb) (p : List Byte) (s : State) : Out :=
  .next (runStd { opcode := 0x0400 } m p (fun s => needLen p 0 (.ok
    (le 2 3 ++ zeros 6 ++ be 16 uuidEffects ++ le 4 effectsLog.length ++ be 16 uuidOutings ++ le 4 16384
      ++ be 16 uuidCommands ++ le 4 32768) s)) s)

def execGetLog (m : Mb) (p : List Byte) (s : State) : Out :=
  .next (runStd { opcode := 0x0401 } m p (fun s => needLen p 24 (
    match logByUuid s (p.take 16) with
    | none => .std .invalidLog 0
    | some l =>
      if l.length < ofLe p 16 4 + ofLe p 20 4 then .std .invalidInput 0
      else .ok ((l.drop (ofLe p 16 4)).take (ofLe p 20 4)) s)) s)

/-- GET_SUPPORTED_FEATURES: none. -/
def execGetSupportedFeatures (m : Mb) (p : List Byte) (s : State) : Out :=
  .next (runStd { opcode := 0x0500 } m p (fun s => needLen p 8 (.ok (zeros 8) s)) s)

/-! ### Memory device (09 R258) -/

def execIdentifyMemoryDevice (m : Mb) (p : List Byte) (s : State) : Out :=
  .next (runStd { opcode := 0x4000 } m p (fun s => needLen p 0 (.ok
    (openBytes 0x4000 0 16 ++ le 8 (4 * s.map.geo.offeredGib) ++ le 8 (4 * s.map.geo.offeredGib) ++ le 8 0 ++ le 8 0
      ++ le 2 1024 ++ le 2 1024 ++ le 2 1024 ++ le 2 1024 ++ le 4 0 ++ openBytes 0x4000 60 3 ++ le 2 1024
      ++ openBytes 0x4000 65 4) s)) s)

/-! ### Poison (04 R120; 09 R260) -/

/-- Runs of set bits of a mask: first line and length. -/
def maskRuns (m : BitVec 64) : List (Nat × Nat) :=
  (List.range 64).foldl (fun l i =>
    if m.getLsbD i then
      match l.getLast? with
      | some (a, n) => if a + n = i then l.dropLast ++ [(a, n + 1)] else l ++ [(i, 1)]
      | none => [(i, 1)]
    else l) []

/-- Poison records: byte address, length in lines, source (2 Internal, 3 Injected). -/
def poisonRuns (e : LossEntry) : List (Nat × Nat × Nat) :=
  (maskRuns e.mask).map fun r => (4096 * e.page + 64 * r.1, r.2, if e.cause = 6 then 3 else 2)

/-- The output of Get Poison List: the runs that meet the span asked for, of entries the issuer may see. -/
def poisonList (src : Nat) (p : List Byte) (s : State) : List Byte :=
  let a := ofLe p 0 8
  let b := a + 64 * ofLe p 8 8
  let seen := s.dur.loss.filter fun e => src == 8 || admits s src (4096 * e.page)
  let l := (seen.map poisonRuns).flatten.filter fun r => decide (r.1 < b) && decide (a < r.1 + 64 * r.2.1)
  let n := min l.length ((limitOf s src - 32) / 16)
  le 1 (b2n (decide (n < l.length)) + 2 * b2n s.dur.overflow) ++ zeros 1
    ++ (if s.dur.overflow then openBytes 0x4300 2 8 else zeros 8) ++ le 2 n ++ zeros 20
    ++ ((l.take n).map fun r => le 8 (r.1 + r.2.2) ++ le 4 r.2.1 ++ zeros 4).flatten

def execGetPoisonList (m : Mb) (p : List Byte) (s : State) : Out :=
  .next (runStd { opcode := 0x4300 } m p (fun s => needLen p 16 (.ok (poisonList m.src p s) s)) s)

/-- The checks of Inject Poison and Clear Poison on their address (09 R260). -/
def poisonAddr (src : Nat) (p : List Byte) (s : State) (k : Nat → CmdRes) : CmdRes :=
  let a := ofLe p 0 8
  if s.flt.halted then .std .mediaDisabled 0
  else if s.map.geo.offeredGib * gib ≤ a ∨ (rangeAt s a).isNone = true then .std .invalidPhysicalAddress 0
  else if !(isManaging s src || admits s src a) then .fail 0x0002 0
  else k (a / 64)

/-- INJECT_POISON (09 R260). -/
def injectPoison (src : Nat) (p : List Byte) (s : State) : CmdRes :=
  poisonAddr src p s fun l =>
    if 1024 ≤ s.dur.loss.countP (·.cause == 6) then .std .injectPoisonLimit 0
    else
      let s := writeLineNow l (zeros 64) true s
      let s := lose 6 0 false 0xFF (l / 64) (BitVec.ofNat 64 (2 ^ (l % 64))) s
      .ok [] (abortMove (l / 64) false (s.modPage (l / 64) fun e => { e with loss := true }))

def execInjectPoison (m : Mb) (p : List Byte) (s : State) : Out :=
  .next (runStd { opcode := 0x4301, sb := false } m p (fun s => needLen p 8 (injectPoison m.src p s)) s)

/-- CLEAR_POISON (09 R260; 04 R111): a full-line write. -/
def execClearPoison (m : Mb) (p : List Byte) (s : State) : Out :=
  .next (runStd { opcode := 0x4302, sb := false } m p (fun s => needLen p 72 (
    poisonAddr m.src p s fun l => .ok [] (writeLineNow l (p.drop 8) false s))) s)

end Sys2Proof.Machine
end

