-- ==== Sys2Proof/Machine/Spdm.lean ====
section
/-! DEFINITION. The DOE mailboxes: SPDM, IDE key management, discovery and CDAT (06 R190; 09 R261, R262; 17 R449, R450), and
writes to registers that have no row of their own (00 R5; 09 R255; 18 R466; 19). Codes and layouts are those of DMTF, PCIe and
CXL (PRESUMED, log 8); what a response carries beyond them is `Config.spdmBody` (log 7). -/

namespace Sys2Proof.Machine

/-! ### Responders -/

/-- The responder of a head, or of the sideband (8), answers: the head's link is up, or the lengthsman runs. -/
def responds (s : State) (who : Nat) : Bool :=
  if who = 8 then lmRuns s else headUp s who && !(s.head who).resetting && s.boot.phase.keeper

/-- The SPDM connection of a responder. -/
def spdmOf (s : State) (who : Nat) : SpdmState := if who = 8 then s.lm.spdm else (s.head who).spdm

def State.modSpdm (s : State) (who : Nat) (f : SpdmState → SpdmState) : State :=
  if who = 8 then { s with lm := { s.lm with spdm := f s.lm.spdm } } else s.modHead who fun h => { h with spdm := f h.spdm }

/-- ERROR with its code. -/
def spdmError (who code : Nat) (s : State) : State := s.emit (.doe who 0x7F (le 1 code))

/-- A response of code `rsp` that carries `data` and what the standard adds. -/
def spdmSay (who rsp arg : Nat) (data : List Byte) (s : State) : State :=
  { s.emit (.doe who rsp (data ++ Config.spdmBody rsp arg s.free)) with free := s.free + 1 }

/-- A request that needs the algorithms agreed. -/
def spdmReady (who : Nat) (k : State) (s : State) : State :=
  if !responds s who then s else if (spdmOf s who).algs then k else spdmError who 0x04 s

/-- SPDM_GET_VERSION: 1.2; the connection and its sessions start again. -/
def execSpdmGetVersion (who : Nat) (s : State) : Out :=
  onUnit who 9 (if responds s who then
    spdmSay who 0x04 0 (le 1 0x12) (s.modSpdm who fun _ => { version := true }) else s)

/-- SPDM_GET_CAPABILITIES. -/
def execSpdmGetCapabilities (who : Nat) (s : State) : Out :=
  onUnit who 9 (if !responds s who then s
    else if (spdmOf s who).version then spdmSay who 0x61 0 [] (s.modSpdm who fun c => { c with caps := true })
    else spdmError who 0x04 s)

/-- SPDM_NEGOTIATE_ALGORITHMS. -/
def execSpdmNegotiateAlgorithms (who : Nat) (s : State) : Out :=
  onUnit who 9 (if !responds s who then s
    else if (spdmOf s who).caps then spdmSay who 0x63 0 [] (s.modSpdm who fun c => { c with algs := true })
    else spdmError who 0x04 s)

/-- SPDM_GET_DIGESTS: slot 0 alone holds a chain. -/
def execSpdmGetDigests (who : Nat) (s : State) : Out := onUnit who 9 (spdmReady who (spdmSay who 0x01 0 (le 1 0x01) s) s)

/-- SPDM_GET_CERTIFICATE: slots 1-7 are empty. -/
def execSpdmGetCertificate (who slot : Nat) (s : State) : Out :=
  onUnit who 9 (spdmReady who (if slot = 0 then spdmSay who 0x02 0 (le 1 0) s else spdmError who 0x01 s) s)

/-- SPDM_CHALLENGE. -/
def execSpdmChallenge (who slot nonce : Nat) (s : State) : Out :=
  onUnit who 9 (spdmReady who (if slot = 0 then spdmSay who 0x03 nonce (le 1 0) s else spdmError who 0x01 s) s)

/-- The measurement of an index with the value in force (17 R449, R450). -/
def measurement (s : State) (i : Nat) : List Byte := le 1 i ++ le 16 (Config.digest i (s.lm.meas.getD (i - 1) 0)).toNat

/-- SPDM_GET_MEASUREMENTS: index 0 asks for their number, 0xFF for all six. -/
def measurements (who i nonce : Nat) (s : State) : State :=
  if i = 0 then spdmSay who 0x60 nonce (le 1 6) s
  else if i = 0xFF then spdmSay who 0x60 nonce ((List.range 6).map fun k => measurement s (k + 1)).flatten s
  else if i ≤ 6 then spdmSay who 0x60 nonce (measurement s i) s
  else spdmError who 0x01 s

def execSpdmGetMeasurements (who index nonce : Nat) (s : State) : Out :=
  onUnit who 9 (spdmReady who (measurements who index nonce s) s)

/-- Sessions a responder allows: four on a head, two on the sideband (09 R261; 17 R449). -/
def sessionLimit (who : Nat) : Nat := if who = 8 then 2 else 4

/-- SPDM_KEY_EXCHANGE. -/
def execSpdmKeyExchange (who session : Nat) (s : State) : Out :=
  onUnit who 9 (spdmReady who (
    let l := (spdmOf s who).sessions
    if l.any (·.id == session) then spdmError who 0x01 s
    else if sessionLimit who ≤ l.length then spdmError who 0x0A s
    else spdmSay who 0x64 session [] (s.modSpdm who fun c => { c with sessions := c.sessions ++ [⟨session, false⟩] })) s)

/-- An open session of a responder. -/
def sessionOpen (s : State) (who session : Nat) : Bool := (spdmOf s who).sessions.any fun x => x.id == session && x.open_

/-- SPDM_FINISH: the session is established. -/
def execSpdmFinish (who session : Nat) (s : State) : Out :=
  onUnit who 9 (spdmReady who (
    if (spdmOf s who).sessions.any fun x => x.id == session && !x.open_ then
      spdmSay who 0x65 session [] (s.modSpdm who fun c => { c with
        sessions := c.sessions.map fun x => if x.id = session then { x with open_ := true } else x })
    else spdmError who 0x02 s) s)

/-- A request within a session. -/
def inSession (who session : Nat) (k : State) (s : State) : State :=
  if !responds s who then s else if sessionOpen s who session then k else spdmError who 0x02 s

/-- SPDM_END_SESSION. -/
def execSpdmEndSession (who session : Nat) (s : State) : Out :=
  onUnit who 9 (inSession who session (spdmSay who 0x6C session []
    (s.modSpdm who fun c => { c with sessions := c.sessions.filter (·.id != session) })) s)

/-- SPDM_KEY_UPDATE: the keys themselves are not modelled (log 7). -/
def execSpdmKeyUpdate (who session : Nat) (s : State) : Out :=
  onUnit who 9 (inSession who session (spdmSay who 0x69 session [] s) s)

/-- SPDM_HEARTBEAT. -/
def execSpdmHeartbeat (who session : Nat) (s : State) : Out :=
  onUnit who 9 (inSession who session (spdmSay who 0x68 session [] s) s)

/-! ### IDE key management (06 R190) -/

/-- The streams a head may have: one CXL.cachemem, one link and four selective streams of CXL.io. -/
def ideRoom (h : Head) (kind : IdeKind) : Bool :=
  decide ((h.ide.countP fun x => x.kind == kind) < match kind with
    | .cachemem | .link => 1
    | .selective => 4)

/-- One operation on a head's streams; none where it cannot be made. -/
def ideStep (op : IdeOp) (h : Head) : Option Head :=
  let is := fun (n : Nat) (k : IdeKind) (x : IdeStream) => x.stream == n && x.kind == k
  match op with
  | .query => some h
  | .program n k skid =>
    if h.ide.any (is n k) then
      some { h with ide := h.ide.map fun x => if is n k x then { x with keyed := true, skid := skid } else x }
    else if ideRoom h k then some { h with ide := h.ide ++ [⟨n, k, skid, true, false⟩] }
    else none
  | .go n k =>
    if h.ide.any fun x => is n k x && x.keyed then
      some { h with ide := h.ide.map fun x => if is n k x then { x with secure := true } else x }
    else none
  | .stop n k =>
    if h.ide.any (is n k) then some { h with ide := h.ide.filter fun x => !is n k x } else none

/-- Object codes of the responses. -/
def ideRsp : IdeOp → Nat
  | .query => 0x101
  | .program _ _ _ => 0x103
  | .go _ _ | .stop _ _ => 0x106

/-- IDE_KM: within an open session of the head. -/
def execIdeKm (head session : Nat) (op : IdeOp) (s : State) : Out :=
  onUnit head 8 (inSession head session (match ideStep op (s.head head) with
    | some h => spdmSay head (ideRsp op) session [] (s.modHead head fun _ => h)
    | none => spdmError head 0x01 s) s)

/-! ### DOE discovery and CDAT (09 R261, R262) -/

/-- The four protocols: vendor and type. -/
def doeProtocols : List (Nat × Nat) := [(0x0001, 0), (0x0001, 1), (0x0001, 2), (0x1E98, 2)]

def execDoeDiscovery (head index : Nat) (s : State) : Out :=
  onUnit head 8 (if !responds s head then s else
    match doeProtocols[index]? with
    | some (v, t) => s.emit (.doe head 0x200 (le 2 v ++ le 1 t ++ le 1 (if index = 3 then 0 else index + 1)))
    | none => s.emit (.doe head 0x200 (le 2 0xFFFF ++ le 1 0 ++ le 1 0)))

/-- A DSLBIS of type `t` with its base unit and value. -/
def dslbis (t unit value : Nat) : List Byte :=
  le 1 1 ++ le 1 0 ++ le 2 24 ++ le 1 0 ++ le 1 0 ++ le 1 t ++ le 1 0 ++ le 8 unit ++ le 2 value ++ le 2 0 ++ le 2 0 ++ le 2 0

/-- The head's port is not bifurcated. -/
def isX16 (s : State) (h : Nat) : Bool := !s.host.bifur.getD (h / 2) false

/-- The CDAT of a head: DSMAS over the offered capacity, latencies of a hot read and a hot write, bandwidth, DSEMTS. -/
def cdat (s : State) (h : Nat) : List (List Byte) :=
  let n := s.map.geo.offeredGib * gib
  let body := [
    le 1 0 ++ le 1 0 ++ le 2 24 ++ le 1 0 ++ le 1 0 ++ le 2 0 ++ le 8 0 ++ le 8 n,
    dslbis 1 1000 290, dslbis 2 1000 310, dslbis 3 50 (if isX16 s h then 2150 else 1075),
    le 1 4 ++ le 1 0 ++ le 2 24 ++ le 1 0 ++ le 1 0 ++ le 2 0 ++ le 8 0 ++ le 8 n]
  let size := 16 + body.flatten.length
  (le 4 size ++ le 1 1 ++ (List.range 7).map (Config.cxlByte 0x10000) ++ le 4 0) :: body

/-- CXL_TABLE_ACCESS: one entry and the handle of the next. -/
def execCxlTableAccess (head entry : Nat) (s : State) : Out :=
  onUnit head 8 (if !responds s head then s else
    match (cdat s head)[entry]? with
    | some b => s.emit (.doe head 0x201 (le 2 (if entry = 5 then 0xFFFF else entry + 1) ++ b))
    | none => s.emit (.doe head 0x201 (le 2 0xFFFF)))

/-! ### Registers without a row of their own (00 R5; 09 R254, R255) -/

/-- PMC_SEL as written; CHAIN of the last counter of a bank reads 0 and ignores writes (19 R472). -/
def selWritten (n value : Nat) : Nat :=
  if n % 16 = 15 then value % 2 ^ 26 + value / 2 ^ 27 % 2 * 2 ^ 27 else value % 2 ^ 28

/-- A write to BAR2 by the managing head: PMC_SEL and PMC_RLD are RW; every other register without a row ignores it. -/
def bar2Own (addr value : Nat) (s : State) : State :=
  let n := (addr - 0x81000) / 16
  if addr < 0x81000 ∨ 192 ≤ n then s
  else if addr % 16 = 4 then { s with pmc := { s.pmc with sel := s.pmc.sel.set n (selWritten n value) } }
  else if addr % 16 = 8 then { s with pmc := { s.pmc with rld := s.pmc.rld.set n (value % 2 ^ 24) } }
  else s

/-- The mask bit of an MSI-X vector is written; one that is unmasked while pending is sent (18 R466). -/
def maskVector (h v : Nat) (on : Bool) (s : State) : State :=
  let bit : BitVec 64 := BitVec.ofNat 64 (2 ^ v)
  let s := s.modHead h fun x => { x with mask := if on then x.mask ||| bit else x.mask &&& ~~~ bit }
  if !on && (s.head h).msiPend.getLsbD v then
    fire h v (s.modHead h fun x => { x with msiPend := x.msiPend &&& ~~~ bit })
  else s

/-- A write to BAR0: MSI-X vector control, and the interrupt enables of the mailboxes' control registers. -/
def bar0Own (h addr value : Nat) (s : State) : State :=
  let on := fun (m : Mailbox) => { m with irq := value.testBit 1, bgIrq := value.testBit 2 }
  if 0x60000 ≤ addr ∧ addr < 0x60400 ∧ addr % 16 = 12 then maskVector h ((addr - 0x60000) / 16) (value.testBit 0) s
  else if addr = 0x20004 then s.modHead h fun x => { x with mb0 := on x.mb0 }
  else if addr = 0x40004 then s.modHead h fun x => { x with mb1 := on x.mb1 }
  else s

/-- REGISTER_WRITE (00 R5; 09 R251, R254, R255). -/
def execRegisterWrite (head bar addr : Nat) (value : BitVec 32) (s : State) : Out :=
  onUnit head 8 (if bar = 2 then bar2Write head addr (bar2Own addr value.toNat) s
    else if bar = 0 ∧ bar0On s head = true then bar0Own head addr value.toNat s
    else s)

end Sys2Proof.Machine
end

