-- ==== Sys2Proof/Machine/Held.lean ====
section
/-! DEFINITION. Mailbox commands that waited, started when nothing makes them wait any longer (14 R373). -/

namespace Sys2Proof.Machine

/-- Start a command that waited, by its opcode. -/
def runHeld (c : HeldCmd) (s : State) : Out :=
  match c.opcode with
  | 0x0001 => execIdentify c.m c.p s
  | 0x0002 => execBackgroundOperationStatus c.m c.p s
  | 0x0003 => execGetResponseMessageLimit c.m c.p s
  | 0x0004 => execSetResponseMessageLimit c.m c.p s
  | 0x0100 => execGetEventRecords c.m c.p s
  | 0x0101 => execClearEventRecords c.m c.p s
  | 0x0102 => execGetEventInterruptPolicy c.m c.p s
  | 0x0103 => execSetEventInterruptPolicy c.m c.p s
  | 0x0200 => execGetFwInfo c.m c.p s
  | 0x0201 => (match c.part with
    | some part => execTransferFw c.m part s
    | none => .next s)
  | 0x0202 => execActivateFw c.m c.p s
  | 0x0300 => execGetTimestamp c.m c.p s
  | 0x0301 => execSetTimestamp c.m c.p s
  | 0x0400 => execGetSupportedLogs c.m c.p s
  | 0x0401 => execGetLog c.m c.p s
  | 0x0500 => execGetSupportedFeatures c.m c.p s
  | 0x4000 => execIdentifyMemoryDevice c.m c.p s
  | 0x4200 => execGetHealthInfo c.m c.p s
  | 0x4201 => execGetAlertConfig c.m c.p s
  | 0x4202 => execSetAlertConfig c.m c.p s
  | 0x4300 => execGetPoisonList c.m c.p s
  | 0x4301 => execInjectPoison c.m c.p s
  | 0x4302 => execClearPoison c.m c.p s
  | 0x4400 => execSanitize c.m c.p s
  | 0x4401 => execSecureErase c.m c.p s
  | 0xC000 => execIdentifyWalben c.m c.p s
  | 0xC001 => execGetHealthSummary c.m c.p s
  | 0xC002 => execSetManagingHead c.m c.p s
  | 0xC010 => execGetChainTime c.m c.p s
  | 0xC011 => execSetChainTime c.m c.p s
  | 0xC012 => execSetTimeSource c.m c.p s
  | 0xC100 => execSetKeyRange c.m c.p s
  | 0xC101 => execGetKeyRange c.m c.p s
  | 0xC102 => execRekeyRange c.m c.p s
  | 0xC103 => execCryptoErase c.m c.p s
  | 0xC200 => execSetTierGeometry c.m c.p s
  | 0xC201 => execGetCapacity c.m c.p s
  | 0xC202 => execPlaceHint c.m c.p s
  | 0xC203 => execPinPages c.m c.p s
  | 0xC204 => execUnpinPages c.m c.p s
  | 0xC205 => execStagePages c.m c.p s
  | 0xC206 => execGetHeat c.m c.p s
  | 0xC207 => execGetLossList c.m c.p s
  | 0xC208 => execClearLossEntry c.m c.p s
  | 0xC300 => execSetSluice c.m c.p s
  | 0xC301 => execGetSluice c.m c.p s
  | 0xC302 => execSetGuarantee c.m c.p s
  | 0xC303 => execGetBwCounters c.m c.p s
  | 0xC304 => execGetDeliverableFloor c.m c.p s
  | 0xC305 => execSetMasterAttr c.m c.p s
  | 0xC400 => execChainDiscover c.m c.p s
  | 0xC401 => execSetRemoteWindow c.m c.p s
  | 0xC402 => execSetTandem c.m c.p s
  | 0xC403 => execGetLinkStatus c.m c.p s
  | 0xC404 => execRetrainLink c.m c.p s
  | 0xC405 => execSetHopLimit c.m c.p s
  | 0xC500 => execListOutings c.m c.p s
  | 0xC501 => execGetOuting c.m c.p s
  | 0xC502 => execPauseOuting c.m c.p s
  | 0xC503 => execResumeOuting c.m c.p s
  | 0xC504 => execAbortOuting c.m c.p s
  | 0xC600 => execSubmitJob c.m c.p s
  | 0xC601 => execGetJob c.m c.p s
  | 0xC602 => execResumeJob c.m c.p s
  | 0xC603 => execCancelJob c.m c.p s
  | 0xC700 => execCastVote c.m c.p s
  | 0xC701 => execWithdrawVote c.m c.p s
  | 0xC702 => execGetDomainState c.m c.p s
  | 0xC703 => execGetWakeRecord c.m c.p s
  | 0xC704 => execSetPowerMode c.m c.p s
  | 0xC800 => execGetFaultState c.m c.p s
  | 0xC801 => execClearFault c.m c.p s
  | 0xC802 => execGetHistory c.m c.p s
  | 0xC803 => execSetReaction c.m c.p s
  | 0xC900 => execTestUnlock c.m c.p s
  | 0xC901 => execSetPerturb c.m c.p s
  | 0xC902 => execInject c.m c.p s
  | 0xCA00 => execSlotStatus c.m c.p s
  | 0xCA01 => execSlotPower c.m c.p s
  | 0xCA02 => execSlotConfig c.m c.p s
  | 0xCA03 => execSlotClearLatch c.m c.p s
  | 0xCA04 => execBeginReplace c.m c.p s
  | 0xCA05 => execEndReplace c.m c.p s
  | other => execUnsupportedCommand c.m other c.p s

/-- The oldest command that waits starts, once nothing makes it wait (14 R373; log 21). -/
def releaseHeld (s : State) : Out :=
  if mustWait s then .next s
  else match s.held with
    | [] => .next s
    | c :: rest =>
      match runHeld c { s with held := rest, crity := { s.crity with releasing := true } } with
      | .next t => .next { t with crity := { t.crity with releasing := false } }
      | .fault f => .fault f
      | .refused r => .refused r

end Sys2Proof.Machine
end

