-- ==== Sys2Proof/Machine/Boot.lean ====
section
/-! DEFINITION. Power-up, bring-up, brownout, references and the device reset (20; 15 R408, R409; 17 R443; 21 R508,
R509). -/

namespace Sys2Proof.Machine

/-! ### Cold reset (20 R483, R484, R496) -/

/-- Slot settings stored in the boot flash (16 R429). -/
def SlotCfg.ofList (l : List Nat) : SlotCfg :=
  { retries := l.getD 0 0, rampRate := l.getD 1 0, ilim := l.getD 2 0, inrush := l.getD 3 0, faultTime := l.getD 4 0
    discharge := l.getD 5 0, rsense := l.getD 6 0 }

/-- A slot after a cold reset: OFF, with the stored settings, else the defaults; the drive's presence pin stays. -/
def freshSlot (saved : List (Nat × List Nat)) (i : Nat) (x : Slot) : Slot :=
  let c : SlotCfg := match aget saved i with
    | some l => SlotCfg.ofList l
    | none => {}
  { present := x.present, cfg := c, staged := c }

/-- Domains with the standing votes of the ports whose HPn_PERST_N is deasserted, all Off but DOM_AON. -/
def freshDoms (perst : List Bool) : List Domain :=
  let x : PowerState := {}
  x.doms.mapIdx fun d y => if 2 ≤ d ∧ d < 6 ∧ perst.getD (d - 2) true = false then { y with votes := 0x800 } else y

/-- Domains after a brownout: as after a cold reset, with the wake record that DOM_AON keeps, and the flag of the next wake (15 R390,
R408). -/
def brownDoms (s : State) : List Domain :=
  (freshDoms s.host.perst).mapIdx fun d y =>
    let x := s.dom d
    { y with
      wakeFlag := x.wakeFlag, deferred := x.deferred, failed := x.failed, voter := x.voter, wakes := x.wakes
      wakeTime := x.wakeTime, latency := x.latency, offSpan := x.offSpan, brown := decide (d ≠ 0)
      offTime := if x.st = .off then x.offTime else s.time.chain, offAt := if x.st = .off then x.offAt else s.time.elapsed }

/-- Heads after a cold reset or a brownout: presence is the strap's (09 R245). -/
def freshHeads (l : List Head) : List Head := l.map fun x => { present := x.present }

/-- What outlives auxiliary power: the boot flash, the straps and pins outside, and the model's own fields. SEQ of the log
ring continues from the highest record written (17 R441). -/
def withoutAux (s : State) : State :=
  { pending := s.pending
    tx := s.tx
    free := s.free
    host := { heads := freshHeads s.host.heads, bifur := s.host.bifur, perst := s.host.perst }
    power := { doms := freshDoms s.host.perst }
    slots := { slots := s.slots.slots.mapIdx (freshSlot s.lm.savedSlots) }
    boot := { grade := s.boot.grade, serial := s.boot.serial }
    lm := {
      imgA := s.lm.imgA, imgB := s.lm.imgB, activeB := s.lm.activeB, savedSlots := s.lm.savedSlots
      training := s.lm.training, ring := s.lm.ring
      nextSeq := match s.lm.ring.head? with
        | some r => wrap 32 (r.seq + 1)
        | none => 0 } }

/-- AUX_POWER_LOSS (15 R409; 16, coincidences). -/
def execAuxPowerLoss (s : State) : Out := .next (if s.boot.phase = .auxOff then s else withoutAux s)

/-- The boot ROM finds an image intact: its patch and the lengthsman firmware match the header (20 R484). -/
def imageIntact (i : FwImage) : Bool := i.romOk && i.lmOk

/-- The slot the boot ROM runs: the active one, else the other (20 R484). -/
def bootSlot (f : FlashImage) : Option Bool :=
  let img : Bool → FwImage := fun b => if b then f.slotB else f.slotA
  if imageIntact (img f.activeB) then some f.activeB
  else if imageIntact (img (!f.activeB)) then some (!f.activeB) else none

/-- Straps and fuses; what the boot ROM finds in the flash; BOOT_ID and the device range's root key from the generator (20
R483, R484, R496; 06 R164; 13 R347). Indices 1, 2, 5 and 6 are measured (17 R449). -/
def coldReset (st : Straps) (f : FlashImage) (s : State) : State :=
  let s := withoutAux s
  let run := bootSlot f
  let b := run.getD (!f.activeB)
  let i := if b then f.slotB else f.slotA
  let ok := run.isSome
  let head := wrap 3 st.mgmtHead
  let headroom : Bool → Nat := fun o => if o then 64 else 32
  let s : State := { s with
    free := s.free + 2
    crity := { s.crity with managing := some head }
    keys := { s.keys with device := freshKey (Config.rootKey (s.free + 1)) true s.keys.device }
    skl := { s.skl with ports := [
      { optical := st.optical0, headroom := headroom st.optical0 }, { optical := st.optical1, headroom := headroom st.optical1 }] }
    boot := { s.boot with
      phase := if ok then .aux else .recovery, mgmtHead := head, optical0 := st.optical0, optical1 := st.optical1
      bootId := Config.bootId s.free, grade := wrap 4 st.grade, serial := wrap 64 st.serial }
    lm := { s.lm with
      i3c := st.lmBus, addr := wrap 2 st.lmAddr, imgA := f.slotA, imgB := f.slotB, activeB := f.activeB, runB := b
      lmVer := if ok then i.lmVer else 0, codecVer := if ok then i.codecVer else 0, romDigest := i.romDigest
      meas := [i.romDigest, i.lmVer, 0, 0, wrap 4 st.grade, 0] } }
  if ok then stage 0x03 0 0x7FF 1 (le 1 0) s else s

/-- AUX_POWER_ON (20 R483). -/
def execAuxPowerOn (straps : Straps) (flash : FlashImage) (s : State) : Out :=
  .next (if s.boot.phase = .auxOff then coldReset straps flash s else s)

/-! ### Main power (20 R485-R487) -/

/-- Step 1 of the main sequence. -/
def startSequence (s : State) : State :=
  { s with boot := { s.boot with phase := .sequence 1, supEn := 1, backoff := none } }

/-- The lengthsman may start the sequence: its firmware runs, the device is not halted (20, kinds of reset) and VG3 is good. -/
def maySequence (s : State) : Bool := s.boot.phase == .aux && lmRuns s && !s.flt.halted && !(s.mon 3).below

/-- MAIN_SEQUENCE_START (20 R485): VG3 has been above its warning level for 100 ms of local elapsed time, which starts with the
lengthsman firmware. -/
def execMainSequenceStart (s : State) : Out :=
  .next (if maySequence s ∧ s.boot.brownout = false ∧ s.boot.backoff = none
      ∧ (s.mon 3).settleAt + tenthMs 1000 ≤ s.time.elapsed then startSequence s else s)

/-- Step 6 is good: SYS_PWROK, DOM_KEEP wakes, and the host ports whose PERST has been released (20 R487, R488). -/
def railsGood (s : State) : State :=
  let s : State := { s with boot := { s.boot with phase := .keepWake, pwrOk := true, failed := 0 } }
  arbitrateAll (wakeDom 1 1 0xFF s)

/-- RAIL_GOOD (20 R485). -/
def execRailGood (step : Nat) (s : State) : Out :=
  .next (if s.boot.phase ≠ .sequence step then s
    else if step < 6 then
      { s with boot := { s.boot with
        phase := .sequence (step + 1), supEn := s.boot.supEn ||| BitVec.ofNat 6 (2 ^ step) } }
    else railsGood s)

/-- RAIL_TIMEOUT (20 R486). -/
def execRailTimeout (step : Nat) (s : State) : Out :=
  .next (if s.boot.phase ≠ .sequence step then s
    else
      let n := s.boot.failed + 1
      let s : State := { s with boot := { s.boot with
        phase := .aux, supEn := 0, failed := n, backoff := some (s.time.elapsed + min 64 (2 ^ min n 6) * 2 ^ 24) } }
      stage 0x03 0 0x7FF 1 (le 1 step) s)

/-- SEQUENCE_BACKOFF_END (20 R486). -/
def execSequenceBackoffEnd (s : State) : Out :=
  .next (match s.boot.backoff with
    | some e => if maySequence s ∧ e ≤ s.time.elapsed then startSequence s else s
    | none => s)

/-! ### Bring-up (20 R487-R493) -/

/-- The bring-up powers a slot; one that is latched or shorted has ended (20 R489). -/
def bringupPower (i : Nat) (s : State) : State :=
  match (s.slot i).st with
  | .off => powerUp i s
  | .stopping => s.modSlot i fun x => { x with commanded := true }
  | .waiting | .starting | .ramp | .qualify | .on | .backoff | .latched | .fetShort => s

/-- The slots of a batch: eight DIMM slots, or those of eight drives that are present. -/
def batchSlots (s : State) (drives : Bool) (b : Nat) : List Nat :=
  if drives then ((List.range 8).map fun i => 32 + 8 * b + i).filter fun i => (s.slot i).present
  else (List.range 8).map fun i => 8 * b + i

/-- The next batch starts. -/
def startBatch (drives : Bool) (s : State) : State :=
  let b := if drives then s.boot.driveBatch else s.boot.dimmBatch
  let s : State := { s with boot :=
    if drives then { s.boot with driveBatch := b + 1, driveBusy := true }
    else { s.boot with dimmBatch := b + 1, dimmBusy := true } }
  (batchSlots s drives b).foldl (fun t i => bringupPower i t) s

/-- Keeper firmware is loaded, measured and started: mailboxes answer, the domains of the bring-up are held On, and both
first batches start (20 R487, R489; 17 R449). -/
def keeperStart (s : State) : State :=
  let i := runningImage s
  let s : State := { s with
    boot := { s.boot with phase := .bringup, mbReady := true, keeperAt := s.time.elapsed }
    lm := { s.lm with
      keeperVer := i.keeperVer, handover := i.handover, meas := s.lm.meas.set 2 i.keeperVer, cores := ~~~ s.lm.coresOut } }
  let s := s.modDom 1 fun x => { x with padsHeld := false }
  keepVotes (arbitrateAll (startBatch true (startBatch false s)))

/-- KEEPER_START (20 R487). -/
def execKeeperStart (s : State) : Out :=
  .next (if s.boot.phase = .keepWake ∧ (s.dom 1).st = .on ∧ lmRuns s ∧ s.flt.halted = false then keeperStart s else s)

/-- Which attribute of R269 sets a module apart from the reference: 1 type, 2 capacity, 3 ranks, 4 die density, 5 stack
height (codes of log 8). -/
def spdDiffers (r d : SpdRead) : Option Nat :=
  if d.mrdimm != r.mrdimm then some 1 else if d.gib != r.gib then some 2 else if d.ranks != r.ranks then some 3
  else if d.density != r.density then some 4 else if d.stack != r.stack then some 5 else none

/-- Occupied positions of a channel. -/
def chanDimms (s : State) (c : Nat) : List Nat := [0, 1].filter fun p => (s.unit (2 * c + p)).spd.occupied

/-- A channel's mismatch with the reference: position and attribute; 6 is the number of DIMMs of R269. -/
def chanMismatch (s : State) (r : SpdRead) (n c : Nat) : Option (Nat × Nat) :=
  match (chanDimms s c).findSome? fun p => (spdDiffers r (s.unit (2 * c + p)).spd).map fun a => (p, a) with
  | some x => some x
  | none => if (chanDimms s c).length ≠ 0 ∧ (chanDimms s c).length ≠ n then some (0xFF, 6) else none

/-- Transfer rates supported (10 R272). -/
def rateSet : List Nat := [12800, 10400, 8800, 8000, 6400, 5600, 4800]

/-- Grade and modules-per-channel limit (00 R2, ordering codes). -/
def rateLimit (s : State) (mr two : Bool) : Nat :=
  if mr then (if two then 8800 else if s.boot.grade = 0xA then 10400 else 12800) else if two then 5600 else 6400

/-- Masks of the standard configuration (10, table after R280). -/
def standardMasks : List Nat :=
  [0x08000040, 0x10000400, 0x40400080, 0x02000100, 0x04000200, 0x00802000, 0x01004000, 0, 0x80008000, 0, 0, 0x20001000]

/-- The standard configuration: 16 channels of two 256 GiB MRDIMMs of 2-high stacks of 32 Gb dies. -/
def isStandard (r : SpdRead) (two : Bool) (chans : Nat) : Bool :=
  r.mrdimm && r.gib == 256 && r.ranks == 1 && r.density == 32 && r.stack == 2 && two && chans == 16

/-- The selects that modules of this kind use (10, table of selects). -/
def selectsUsed (r : SpdRead) (two : Bool) : List Nat :=
  [0, 2, 3, 4, 5, 6] ++ (if r.mrdimm then [1] else []) ++ (if 2 ≤ r.ranks then [7] else [])
    ++ (if 2 ≤ r.stack then [8] else []) ++ (if 4 ≤ r.stack then [9] else []) ++ (if 8 ≤ r.stack then [10] else [])
    ++ (if two then [11] else [])

/-- The population to be trained, at its one rate, with masks and ROW_BITS; outside the standard configuration the manual
does not fix them (10 R280). A set that breaks R279 is refused, which leaves no channel to train (log 62). -/
def setPopulation (r : SpdRead) (two : Bool) (cand : List Nat) (s : State) : State :=
  let slots := (cand.map fun c => (chanDimms s c).map fun p => 2 * c + p).flatten
  let cap := slots.foldl (fun m i => min m (s.unit i).spd.rate) (rateLimit s r.mrdimm two)
  match rateSet.find? fun x => decide (x ≤ cap) with
  | none => s
  | some rate =>
    let std := isStandard r two cand.length
    let key := ((((r.gib * 64 + r.ranks) * 256 + r.density) * 64 + r.stack) * 2 + b2n r.mrdimm) * 2 + b2n two
    let masks := if std then standardMasks else (List.range 12).map fun i => Config.mapMask key i
    let bits := if std then 17 else Config.rowBits key
    let cand := if masksOk masks bits (r.gib * (if two then 2 else 1) * gib) (selectsUsed r two) two then cand else []
    let f : Nat → Chan → Chan := fun c x => if cand.contains c then { x with training := true } else x
    let d : DdrState := { s.ddr with
      mrdimm := r.mrdimm, twoDpc := two, gib := r.gib, rateMts := rate
      rate := (List.range 16).map fun c => if cand.contains c then rate else 0
      masks := masks, rowBits := bits
      chans := s.ddr.chans.mapIdx f }
    { s with ddr := d }

/-- Every SPD has been read: the reference, SPD_MISMATCH for each channel that differs, and the channels left whose partner
is left too (10 R270-R272, R280). -/
def spdDone (s : State) : State :=
  match (List.range 32).find? fun i => (s.unit i).spd.occupied with
  | none => s
  | some i =>
    let r := (s.unit i).spd
    let n := (chanDimms s (i / 2)).length
    let bad := (List.range 16).filter fun c => (chanMismatch s r n c).isSome
    let good : Nat → Bool := fun c => !(chanDimms s c).isEmpty && !bad.contains c
    let cand := (List.range 16).filter fun c => good c && good ((c + 8) % 16)
    let u := bad.foldl (fun t c => match chanMismatch s r n c with
      | some (p, a) => raiseAll (srcChannel c 11) 0 (le 1 p ++ le 1 a) t
      | none => t) s
    setPopulation r (decide (n = 2)) cand u

/-- A slot of a batch has ended its power-up. -/
def slotEnded (s : State) (i : Nat) : Bool :=
  match (s.slot i).st with
  | .on | .latched | .fetShort | .off => true
  | .waiting | .starting | .ramp | .qualify | .stopping | .backoff => false

/-- A batch of DIMM slots has ended: its SPDs, then the next batch or the end (20 R489). -/
def dimmBatchDone (spds : List SpdRead) (s : State) : State :=
  let read : State → Nat → State := fun t i =>
    match spds.find? fun x => x.slot == i && x.occupied with
    | some x => if (t.slot i).st = .on then t.modUnit i fun u => { u with spd := x } else t
    | none => t
  let s := (batchSlots s false (s.boot.dimmBatch - 1)).foldl read s
  if s.boot.dimmBatch < 4 then startBatch false s
  else keepVotes (arbitrateAll (spdDone { s with boot := { s.boot with dimmBusy := false } }))

/-- BRINGUP_BATCH_DONE (20 R489; 10 R270). -/
def batchDone (drives : Bool) (spds : List SpdRead) (s : State) : State :=
  let b := if drives then s.boot.driveBatch else s.boot.dimmBatch
  let busy := if drives then s.boot.driveBusy else s.boot.dimmBusy
  if s.boot.phase = .bringup ∧ busy = true ∧ s.flt.halted = false ∧ (batchSlots s drives (b - 1)).all (slotEnded s) = true then
    if drives then
      if b < 2 then startBatch true s else { s with boot := { s.boot with driveBusy := false } }
    else dimmBatchDone spds s
  else s

/-- BRINGUP_BATCH_DONE (20 R489). -/
def execBringupBatchDone (drives : Bool) (spds : List SpdRead) (s : State) : Out := .next (batchDone drives spds s)

/-! ### Brownout (15 R408; 16, coincidences; 20 R496) -/

/-- A slot at a brownout: one whose gate is on goes to STOPPING with cause RESET; LATCHED and FET_SHORT are kept. -/
def brownoutSlot (now chain : Nat) (x : Slot) : Slot :=
  let off : SlotSt → Slot := fun st => { x.gateOff now with
    st := st, changeTime := chain, entered := now, cause := 7, pgood := false, commanded := false, attempt := 0
    perst := true, pwrdis := true }
  match x.st with
  | .on | .ramp | .qualify => off .stopping
  | .waiting | .starting | .backoff => { x with
      st := .off, changeTime := chain, entered := now, commanded := false, attempt := 0, pwrdis := true }
  | .off | .stopping | .latched | .fetShort => { x with commanded := false }

/-- A monitor after a brownout: no dip is pending; the one that fell is below. -/
def brownoutMon (r sample i : Nat) (x : Monitor) : Monitor :=
  if i = r then { x with now := sample, min := min x.min sample, below := decide (r < 4), dipped := false }
  else { x with below := x.below && decide (i < 4), dipped := false }

/-- What a brownout leaves: everything in DOM_AON that holds no history of the device's contents; the rest as after a cold
reset (15 R408; 20 R496). A halt lasts through it. -/
def brownoutReset (r sample : Nat) (s : State) : State :=
  let keep : Port → Port := fun x => { (portOff x) with
    headroom := (if x.optical then 64 else 32), leakLimit := 0x20, leakRetrain := true, disabled := false }
  let drive : Drive → Drive := fun x => { since := x.since, inserted := x.inserted }
  { pending := s.pending
    held := s.held.filter (·.m.src == 8)
    tx := s.tx
    free := s.free + 2
    time := { elapsed := s.time.elapsed }
    flt := {
      halted := s.flt.halted, haltSource := s.flt.haltSource, haltTime := s.flt.haltTime, haltElapsed := s.flt.haltElapsed }
    host := { heads := freshHeads s.host.heads, bifur := s.host.bifur, perst := s.host.perst }
    crity := { sb := s.crity.sb, sbLimit := s.crity.sbLimit, managing := some s.boot.mgmtHead }
    power := { doms := brownDoms s, mons := s.power.mons.mapIdx (brownoutMon r sample) }
    slots := { slots := s.slots.slots.map (brownoutSlot s.time.elapsed s.time.chain) }
    lm := { s.lm with
      restarting := false, transfer := none, activation := none, cores := 0, coresHeld := 0, advisory := []
      ceCounts := [], cycleRecs := 0, clusterVer := [0, 0, 0, 0] }
    boot := {
      phase := if s.boot.phase = .recovery then .recovery else .aux
      mgmtHead := s.boot.mgmtHead, optical0 := s.boot.optical0, optical1 := s.boot.optical1, grade := s.boot.grade
      serial := s.boot.serial, bootId := Config.bootId s.free, brownout := true
      internalOsc := s.boot.internalOsc, switchBack := s.boot.switchBack }
    keys := { device := freshKey (Config.rootKey (s.free + 1)) (!s.flt.halted) {} }
    skl := { ports := s.skl.ports.map keep }
    drives := { drives := s.drives.drives.map drive } }

/-- The BROWNOUT record, then the reset: monitor, lowest sample, duration (15 R408; 17 R439). -/
def brownout (r sample : Nat) (s : State) : State :=
  let x := s.mon r
  let low := if x.dipped then min x.min sample else sample
  let span := if x.dipped then s.time.elapsed - x.dipStart else 0
  let s := if lmRuns s then stage 0x04 0 0x7FF 1 (le 1 r ++ le 4 low ++ le 8 span) s else s
  brownoutReset r sample s

/-- BROWNOUT (15 R408). -/
def execBrownout (mon sample : Nat) (s : State) : Out :=
  onUnit mon 10 (if monitored s mon ∧ sample ≤ (monLevels mon).2.1 then brownout mon sample s else s)

/-- The supply groups have been above warning for 100 ms; the rails are off and cannot be (15 R408, DEDUCED). -/
def suppliesGood (s : State) : Bool :=
  (List.range 4).all fun r => !(s.mon r).below && decide ((s.mon r).settleAt + tenthMs 1000 ≤ s.time.elapsed)

/-- BROWNOUT_RECOVERY (15 R408; 20 R485); a halted device stays down (20, kinds of reset). -/
def execBrownoutRecovery (s : State) : Out :=
  .next (if s.boot.brownout ∧ suppliesGood s ∧ maySequence s then
    startSequence { s with boot := { s.boot with brownout := false } } else s)

/-! ### References (21 R508, R509) -/

/-- SKREF_LOST (21 R509). -/
def execSkrefLost (s : State) : Out :=
  .next (if s.boot.pwrOk then enterDown 1 0 (enterDown 0 0 (raiseAll 1481 0 [] s)) else s)

/-- MGMTREF_LOST (21 R508). -/
def execMgmtrefLost (s : State) : Out :=
  .next (if s.boot.phase = .auxOff ∨ (s.boot.internalOsc = true ∧ s.boot.switchBack = false) then s
    else raiseAll 1480 0 [] { s with boot := { s.boot with internalOsc := true, switchBack := false } })

/-- MREF_IN_RESTORED (21 R508): the switch back is made at the next berth cycle boundary. -/
def execMrefInRestored (s : State) : Out :=
  .next (if s.boot.internalOsc then { s with boot := { s.boot with switchBack := true } } else s)

/-- PLL_UNLOCK (18 R467): an FT event; the device halts. -/
def execPllUnlock (pll : Nat) (s : State) : Out :=
  .next (if s.boot.pwrOk then raiseAll 1482 0 (le 1 pll) s else s)

/-! ### Firmware over PLDM (17 R443; 20 R484) -/

/-- In recovery a whole package that verified makes the boot ROM start a new cold reset. -/
def pldmUpdate (part : FwPart) (s : State) : State :=
  let t := pldmTransfer part s
  if s.boot.phase = .recovery ∧ part.last = true ∧ part.abort = false ∧ (t.lm.image (part.slot == 1)).valid = true
      ∧ t.lm.transfer.isNone = true then
    let b := part.slot == 1
    (coldReset ⟨s.boot.mgmtHead, s.boot.optical0, s.boot.optical1, s.lm.i3c, s.lm.addr, s.boot.grade, s.boot.serial⟩ ⟨t.lm.imgA, t.lm.imgB, b⟩
      { t with lm := { t.lm with activeB := b } }).emit .bootRestart
  else t

/-- PLDM_FW_UPDATE (17 R443; 20 R484). -/
def execPldmFwUpdate (part : FwPart) (s : State) : Out :=
  .next (if lmRuns s ∨ s.boot.phase = .recovery then pldmUpdate part s else s)

/-! ### Device reset (20 R497-R499) -/

/-- What refuses a device reset with ERROR_NOT_READY (20 R497). -/
def resetRefused (s : State) : Bool :=
  s.flt.halted || s.power.brace || s.lm.activation.isSome || keeperPaused s || s.lm.transfer.isSome
    || s.lm.runB != s.lm.activeB || s.dur.repl.any (fun r => !isDrive r.slot) || !s.boot.phase.keeper

/-- A channel's ports and retry buffer drain: what they hold reaches the devices (20 R498 step 2). -/
def drainChan (c : Nat) (s : State) : State :=
  let s := s.modChan c fun x => { x with replaying := false, replays := 0 }
  let n := (s.chan c).ports.length + (s.chan c).retry.length
  let s := (List.range n).foldl (fun t _ => retireRetry c (issueAll c t)) s
  s.modChan c fun x => { x with ports := [], retry := [], rows := [] }

/-- Step 2 (20 R498): moves under way are aborted before commit, the in-flight write table drains, drive queues drain; step 3:
open jobs end CANCELLED. -/
def quiesce (s : State) : State :=
  let s := s.map.locks.foldl (fun t l => abortMove l.page true t) s
  let s := (List.range 16).foldl (fun t c => drainChan c t) s
  let s : State := { s with req := { s.req with ifwt := [], fixes := [] } }
  let reads : CmdFor → Bool := fun w => match w with
    | .read _ _ | .hedge _ | .tag _ | .mover _ => true
    | .chunk _ _ | .dealloc => false
  let f : Drive → Drive := fun x => { x with cmds := x.cmds.filter fun c => !reads c.why }
  let s : State := { s with drives := { s.drives with drives := s.drives.drives.map f } }
  (s.codec.jobs.filter (·.open_)).foldl (fun t j => stopJob j.id .cancelled 0 t) s

/-- Domains that a device reset turns Off (20 R498 step 4): all but DOM_AON, DOM_KEEP and the drive ports. -/
def resetDoms : List Nat := (List.range 44).filter fun d => (2 ≤ d && d < 22) || 38 ≤ d

/-- Steps 1 to 5 of a device reset (20 R498). -/
def deviceReset (s : State) : State :=
  let s := (List.range 8).foldl (fun t h => headDown h 6 t) s
  let s := enterDown 1 0 (enterDown 0 0 s)
  let s := quiesce s
  let s : State := { s with
    boot := { s.boot with devReset := some s.time.elapsed }
    host := { s.host with heads := s.host.heads.map fun h => { h with memActive := false } }
    ddr := { s.ddr with chans := s.ddr.chans.map fun x => { x with sr := true } } }
  let s := resetDoms.foldl (fun t d => if (t.dom d).st = .off then t else offNow d t) s
  s.modDom 1 fun x => { x with
    wakeFlag := 5, voter := 0xFF, deferred := false, failed := false, wakes := wrap 32 (x.wakes + 1)
    wakeTime := s.time.chain, wakeAt := s.time.elapsed, offSpan := 0 }

/-- DEVICE_RESET_REQUEST (20 R497): effecter 1, state 2 of OEM state set 0x8001. ERROR_NOT_READY is PLDM's 0x04 (PRESUMED
number, log 8). -/
def execDeviceResetRequest (effecter state : Nat) (s : State) : Out :=
  .next (if lmRuns s = false ∨ effecter ≠ 1 ∨ state ≠ 2 then s
    else if resetRefused s then s.emit (.mctp 1 (le 1 0x04))
    else (deviceReset s).emit (.mctp 1 (le 1 0)))

/-- The OSC_BASE of every device of a channel is recorded anew (10 R290; 20 R498 step 6): free values. -/
def rebase (draw c : Nat) (l : List (Nat × Nat)) : List (Nat × Nat) :=
  l.map fun x => if 0x1000 ≤ x.1 ∧ x.1 % 0x20 = 0x14 then
    (x.1, (Config.oscCount draw c x.1).toNat + x.2 / 2 ^ 16 * 2 ^ 16) else x

/-- Steps 6 and 7 (20 R498): Keeper firmware takes over, the domains wake with flag DEVICE_RESET, the base counts of drift are
recorded again, and Memory_Active is set as each head retrains. -/
def deviceResume (s : State) : State :=
  let s : State := { s with
    boot := { s.boot with devReset := none }
    free := s.free + 1
    ddr := { s.ddr with chans := s.ddr.chans.mapIdx fun c x =>
      { x with delays := rebase s.free c x.delays, staged := rebase s.free c x.staged } }
    lm := { s.lm with cores := ~~~ s.lm.coresOut } }
  let s := s.modDom 1 fun x => { x with latency := min (s.time.elapsed - x.wakeAt) (2 ^ 24 - 1) }
  let s := resetDoms.foldl (fun t d =>
    if wantsOn t d ∧ (t.dom d).st = .off then wakeDom d 5 (firstVoter (t.dom d).votes) t else t) s
  keepVotes (refreshHolds s)

/-- DEVICE_RESET_RESUME (20 R498). -/
def execDeviceResetResume (s : State) : Out :=
  .next (if s.boot.devReset.isSome ∧ s.flt.halted = false ∧ lmRuns s then deviceResume s else s)

end Sys2Proof.Machine
end

