-- ==== Sys2Proof/Machine/Dispatch.lean ====
section
/-! DEFINITION. One arm for each command: a direct call of its meaning. -/

namespace Sys2Proof.Machine

def exec (i : Instr) (s : State) : Host.Outcome State Fault Refusal :=
  match i with
  | .registerWrite head bar addr value => Sys2Proof.Machine.execRegisterWrite head bar addr value s
  | .ctbNowLoRead head => Sys2Proof.Machine.execCtbNowLoRead head s
  | .ctbLocalLoRead head => Sys2Proof.Machine.execCtbLocalLoRead head s
  | .whdAliasWrite head dec value => Sys2Proof.Machine.execWhdAliasWrite head dec value s
  | .hdmDecoderCommit head dec cfg => Sys2Proof.Machine.execHdmDecoderCommit head dec cfg s
  | .hdmDecoderUncommit head dec => Sys2Proof.Machine.execHdmDecoderUncommit head dec s
  | .biEnableWrite head enable biId => Sys2Proof.Machine.execBiEnableWrite head enable biId s
  | .functionLevelReset head => Sys2Proof.Machine.execFunctionLevelReset head s
  | .cxlReset head => Sys2Proof.Machine.execCxlReset head s
  | .d3hotEntry head => Sys2Proof.Machine.execD3hotEntry head s
  | .d0Entry head => Sys2Proof.Machine.execD0Entry head s
  | .pmcCntWrite head n value sameCycle => Sys2Proof.Machine.execPmcCntWrite head n value sameCycle s
  | .pmcOvfClear head bank value sameCycle => Sys2Proof.Machine.execPmcOvfClear head bank value sameCycle s
  | .pmcFreezeWrite head freeze => Sys2Proof.Machine.execPmcFreezeWrite head freeze s
  | .pmcClearAll head => Sys2Proof.Machine.execPmcClearAll head s
  | .hpPerstAssert port => Sys2Proof.Machine.execHpPerstAssert port s
  | .hpPerstDeassert port bifur => Sys2Proof.Machine.execHpPerstDeassert port bifur s
  | .hotReset head => Sys2Proof.Machine.execHotReset head s
  | .linkDisable head => Sys2Proof.Machine.execLinkDisable head s
  | .headLinkDown head cause => Sys2Proof.Machine.execHeadLinkDown head cause s
  | .headLinkUp head width rate => Sys2Proof.Machine.execHeadLinkUp head width rate s
  | .pmeTurnOff head => Sys2Proof.Machine.execPmeTurnOff head s
  | .viralReceived head => Sys2Proof.Machine.execViralReceived head s
  | .ideIntegrityFailure head stream substream => Sys2Proof.Machine.execIdeIntegrityFailure head stream substream s
  | .memRd head mv addr => Sys2Proof.Machine.execMemRd head mv addr s
  | .memRdData head addr => Sys2Proof.Machine.execMemRdData head addr s
  | .memInv head mv addr => Sys2Proof.Machine.execMemInv head mv addr s
  | .memInvNt head addr => Sys2Proof.Machine.execMemInvNt head addr s
  | .memSpecRd head addr => Sys2Proof.Machine.execMemSpecRd head addr s
  | .memClnEvct head addr => Sys2Proof.Machine.execMemClnEvct head addr s
  | .biConflict head addr => Sys2Proof.Machine.execBiConflict head addr s
  | .memWr head mv addr data poison => Sys2Proof.Machine.execMemWr head mv addr data poison s
  | .memWrPtl head mv addr data mask => Sys2Proof.Machine.execMemWrPtl head mv addr data mask s
  | .biRsp head line rsp => Sys2Proof.Machine.execBiRsp head line rsp s
  | .schedulerDispatch => Sys2Proof.Machine.execSchedulerDispatch s
  | .pendingQueueGrant line => Sys2Proof.Machine.execPendingQueueGrant line s
  | .setWaitRetry set => Sys2Proof.Machine.execSetWaitRetry set s
  | .mapWalkComplete page => Sys2Proof.Machine.execMapWalkComplete page s
  | .dramReadReturn rid out => Sys2Proof.Machine.execDramReadReturn rid out s
  | .degradedFetchReturn rid out => Sys2Proof.Machine.execDegradedFetchReturn rid out s
  | .dramWriteAccepted rid => Sys2Proof.Machine.execDramWriteAccepted rid s
  | .retryBufferRetire chan => Sys2Proof.Machine.execRetryBufferRetire chan s
  | .waitingWriteResume page => Sys2Proof.Machine.execWaitingWriteResume page s
  | .codecItemComplete engine res => Sys2Proof.Machine.execCodecItemComplete engine res s
  | .codecWatchdogExpire engine => Sys2Proof.Machine.execCodecWatchdogExpire engine s
  | .codecSelfTestStart engine => Sys2Proof.Machine.execCodecSelfTestStart engine s
  | .codecSelfTestDone engine pass => Sys2Proof.Machine.execCodecSelfTestDone engine pass s
  | .submitJob m p => Sys2Proof.Machine.execSubmitJob m p s
  | .getJob m p => Sys2Proof.Machine.execGetJob m p s
  | .resumeJob m p => Sys2Proof.Machine.execResumeJob m p s
  | .cancelJob m p => Sys2Proof.Machine.execCancelJob m p s
  | .jobSegmentDispatch engine job => Sys2Proof.Machine.execJobSegmentDispatch engine job s
  | .jobSegmentDone engine job => Sys2Proof.Machine.execJobSegmentDone engine job s
  | .jobRecordExpire job => Sys2Proof.Machine.execJobRecordExpire job s
  | .trefEdge => Sys2Proof.Machine.execTrefEdge s
  | .trefLost => Sys2Proof.Machine.execTrefLost s
  | .holdoverExpire => Sys2Proof.Machine.execHoldoverExpire s
  | .timeFrameSend => Sys2Proof.Machine.execTimeFrameSend s
  | .timeFrameReceive port seconds fraction w rank master hops intact => Sys2Proof.Machine.execTimeFrameReceive port seconds fraction w rank master hops intact s
  | .upstreamLoss => Sys2Proof.Machine.execUpstreamLoss s
  | .setChainTime m p => Sys2Proof.Machine.execSetChainTime m p s
  | .setTimeSource m p => Sys2Proof.Machine.execSetTimeSource m p s
  | .getChainTime m p => Sys2Proof.Machine.execGetChainTime m p s
  | .setTimestamp m p => Sys2Proof.Machine.execSetTimestamp m p s
  | .getTimestamp m p => Sys2Proof.Machine.execGetTimestamp m p s
  | .regulationWindowBoundary => Sys2Proof.Machine.execRegulationWindowBoundary s
  | .berthBoundary plan => Sys2Proof.Machine.execBerthBoundary plan s
  | .berthCycleBoundary polls => Sys2Proof.Machine.execBerthCycleBoundary polls s
  | .moverCommit page dest => Sys2Proof.Machine.execMoverCommit page dest s
  | .bargeWriteCommit tier barge blocks => Sys2Proof.Machine.execBargeWriteCommit tier barge blocks s
  | .keySoftLimit range => Sys2Proof.Machine.execKeySoftLimit range s
  | .keyHardLimit range => Sys2Proof.Machine.execKeyHardLimit range s
  | .rekeyLate range => Sys2Proof.Machine.execRekeyLate range s
  | .keeperStep => Sys2Proof.Machine.execKeeperStep s
  | .unitRecordLost slot => Sys2Proof.Machine.execUnitRecordLost slot s
  | .graceExpire slot => Sys2Proof.Machine.execGraceExpire slot s
  | .heldDimmRestore slot => Sys2Proof.Machine.execHeldDimmRestore slot s
  | .beginReplace m p => Sys2Proof.Machine.execBeginReplace m p s
  | .endReplace m p => Sys2Proof.Machine.execEndReplace m p s
  | .getLossList m p => Sys2Proof.Machine.execGetLossList m p s
  | .clearLossEntry m p => Sys2Proof.Machine.execClearLossEntry m p s
  | .clearLossWackTimeout => Sys2Proof.Machine.execClearLossWackTimeout s
  | .tandemAckTimeout rid => Sys2Proof.Machine.execTandemAckTimeout rid s
  | .setTandem m p => Sys2Proof.Machine.execSetTandem m p s
  | .snoopTimeout head line => Sys2Proof.Machine.execSnoopTimeout head line s
  | .chainSnoopTimeout dev line => Sys2Proof.Machine.execChainSnoopTimeout dev line s
  | .reservationExpire line => Sys2Proof.Machine.execReservationExpire line s
  | .nakBackoffRetry rid => Sys2Proof.Machine.execNakBackoffRetry rid s
  | .rds port f => Sys2Proof.Machine.execRds port f s
  | .rda port f => Sys2Proof.Machine.execRda port f s
  | .rdcur port f => Sys2Proof.Machine.execRdcur port f s
  | .wr port f => Sys2Proof.Machine.execWr port f s
  | .wrptl port f => Sys2Proof.Machine.execWrptl port f s
  | .evict port f => Sys2Proof.Machine.execEvict port f s
  | .sinv port f => Sys2Proof.Machine.execSinv port f s
  | .sdown port f => Sys2Proof.Machine.execSdown port f s
  | .scur port f => Sys2Proof.Machine.execScur port f s
  | .sfwd port f => Sys2Proof.Machine.execSfwd port f s
  | .data port f => Sys2Proof.Machine.execData port f s
  | .fwdData port f => Sys2Proof.Machine.execFwdData port f s
  | .wack port f => Sys2Proof.Machine.execWack port f s
  | .chainNak port f => Sys2Proof.Machine.execChainNak port f s
  | .sackNone port f => Sys2Proof.Machine.execSackNone port f s
  | .sackS port f => Sys2Proof.Machine.execSackS port f s
  | .sackD port f => Sys2Proof.Machine.execSackD port f s
  | .rejoin port f => Sys2Proof.Machine.execRejoin port f s
  | .remoteResendWindowEnd rid => Sys2Proof.Machine.execRemoteResendWindowEnd rid s
  | .dupWriteExpire src wtag => Sys2Proof.Machine.execDupWriteExpire src wtag s
  | .undeliveredWrite rid => Sys2Proof.Machine.execUndeliveredWrite rid s
  | .probe port msg => Sys2Proof.Machine.execProbe port msg s
  | .probeEnd port msg => Sys2Proof.Machine.execProbeEnd port msg s
  | .topo port msg => Sys2Proof.Machine.execTopo port msg s
  | .neighbour port chainId gen bootId partner => Sys2Proof.Machine.execNeighbour port chainId gen bootId partner s
  | .routeCut port chainId cutPort => Sys2Proof.Machine.execRouteCut port chainId cutPort s
  | .routeJoin port chainId cutPort => Sys2Proof.Machine.execRouteJoin port chainId cutPort s
  | .windowCheck port src line sizeGib => Sys2Proof.Machine.execWindowCheck port src line sizeGib s
  | .windowRsp port result bootId => Sys2Proof.Machine.execWindowRsp port result bootId s
  | .windowCheckTimeout => Sys2Proof.Machine.execWindowCheckTimeout s
  | .chainDiscover m p => Sys2Proof.Machine.execChainDiscover m p s
  | .setRemoteWindow m p => Sys2Proof.Machine.execSetRemoteWindow m p s
  | .setHopLimit m p => Sys2Proof.Machine.execSetHopLimit m p s
  | .laneSignalDetect port => Sys2Proof.Machine.execLaneSignalDetect port s
  | .laneAlignDone port res => Sys2Proof.Machine.execLaneAlignDone port res s
  | .deskewDone port depths ok => Sys2Proof.Machine.execDeskewDone port depths ok s
  | .helloResend port => Sys2Proof.Machine.execHelloResend port s
  | .trainHello port rxReady version peerPort headroom => Sys2Proof.Machine.execTrainHello port rxReady version peerPort headroom s
  | .trainEchoReq port sendTime round turnaround => Sys2Proof.Machine.execTrainEchoReq port sendTime round turnaround s
  | .trainEchoRsp port sendTime round turnaround now => Sys2Proof.Machine.execTrainEchoRsp port sendTime round turnaround now s
  | .trainAccepted port seq valid => Sys2Proof.Machine.execTrainAccepted port seq valid s
  | .trainCreditAbs port c0 c1 c2 c3 => Sys2Proof.Machine.execTrainCreditAbs port c0 c1 c2 c3 s
  | .trainReady port => Sys2Proof.Machine.execTrainReady port s
  | .trainLoopback port enter => Sys2Proof.Machine.execTrainLoopback port enter s
  | .loopbackQuietEnd port prbsErrors => Sys2Proof.Machine.execLoopbackQuietEnd port prbsErrors s
  | .dataFrameSend port => Sys2Proof.Machine.execDataFrameSend port s
  | .dataFrameReceive port f crc => Sys2Proof.Machine.execDataFrameReceive port f crc s
  | .ack port seq => Sys2Proof.Machine.execAck port seq s
  | .linkNak port seq => Sys2Proof.Machine.execLinkNak port seq s
  | .xon port => Sys2Proof.Machine.execXon port s
  | .xoff port => Sys2Proof.Machine.execXoff port s
  | .credit port c0 c1 c2 c3 => Sys2Proof.Machine.execCredit port c0 c1 c2 c3 s
  | .controlFrameDrop x => Sys2Proof.Machine.execControlFrameDrop x s
  | .ackTimer port => Sys2Proof.Machine.execAckTimer port s
  | .creditReturnTimer port => Sys2Proof.Machine.execCreditReturnTimer port s
  | .flowStateRepeat port => Sys2Proof.Machine.execFlowStateRepeat port s
  | .replayTimerExpire port => Sys2Proof.Machine.execReplayTimerExpire port s
  | .laneErrorBurst port lane signalLost => Sys2Proof.Machine.execLaneErrorBurst port lane signalLost s
  | .markerMisalign port => Sys2Proof.Machine.execMarkerMisalign port s
  | .retrainTimeout port => Sys2Proof.Machine.execRetrainTimeout port s
  | .allLanesSignalLoss port => Sys2Proof.Machine.execAllLanesSignalLoss port s
  | .downHoldExpire port => Sys2Proof.Machine.execDownHoldExpire port s
  | .getLinkStatus m p => Sys2Proof.Machine.execGetLinkStatus m p s
  | .retrainLink m p => Sys2Proof.Machine.execRetrainLink m p s
  | .dramAlert chan writeCrc => Sys2Proof.Machine.execDramAlert chan writeCrc s
  | .replayComplete chan => Sys2Proof.Machine.execReplayComplete chan s
  | .refreshDue chan sub blocked => Sys2Proof.Machine.execRefreshDue chan sub blocked s
  | .srIdleExpire chan => Sys2Proof.Machine.execSrIdleExpire chan s
  | .tempPoll chan t0 t1 pmic0 pmic1 => Sys2Proof.Machine.execTempPoll chan t0 t1 pmic0 pmic1 s
  | .pmicIbi chan pos status => Sys2Proof.Machine.execPmicIbi chan pos status s
  | .delayCommit chan sub => Sys2Proof.Machine.execDelayCommit chan sub s
  | .dimmTrainingDone chan res spd => Sys2Proof.Machine.execDimmTrainingDone chan res spd s
  | .nvmeCompletion drive cid status out => Sys2Proof.Machine.execNvmeCompletion drive cid status out s
  | .nvmeCommandTimeout drive cid => Sys2Proof.Machine.execNvmeCommandTimeout drive cid s
  | .nvmeAbortTimeout drive cid => Sys2Proof.Machine.execNvmeAbortTimeout drive cid s
  | .hedgeDelayExpire drive cid => Sys2Proof.Machine.execHedgeDelayExpire drive cid s
  | .drivePresenceLost drive => Sys2Proof.Machine.execDrivePresenceLost drive s
  | .drivePresenceStable drive => Sys2Proof.Machine.execDrivePresenceStable drive s
  | .driveFatalStatus drive status => Sys2Proof.Machine.execDriveFatalStatus drive status s
  | .driveBringupStepDone drive res => Sys2Proof.Machine.execDriveBringupStepDone drive res s
  | .sanitizeDriveDone drive ok => Sys2Proof.Machine.execSanitizeDriveDone drive ok s
  | .castVote m p => Sys2Proof.Machine.execCastVote m p s
  | .withdrawVote m p => Sys2Proof.Machine.execWithdrawVote m p s
  | .domainDrainDone dom => Sys2Proof.Machine.execDomainDrainDone dom s
  | .domainDrainTimeout dom => Sys2Proof.Machine.execDomainDrainTimeout dom s
  | .handshakeReply dom block reply => Sys2Proof.Machine.execHandshakeReply dom block reply s
  | .handshakeDelayExpire dom block => Sys2Proof.Machine.execHandshakeDelayExpire dom block s
  | .domainWakeDone dom => Sys2Proof.Machine.execDomainWakeDone dom s
  | .domainWakeFail dom step => Sys2Proof.Machine.execDomainWakeFail dom step s
  | .padRelease dom => Sys2Proof.Machine.execPadRelease dom s
  | .getDomainState m p => Sys2Proof.Machine.execGetDomainState m p s
  | .getWakeRecord m p => Sys2Proof.Machine.execGetWakeRecord m p s
  | .setPowerMode m p => Sys2Proof.Machine.execSetPowerMode m p s
  | .supplyWarning mon sample => Sys2Proof.Machine.execSupplyWarning mon sample s
  | .supplyRecover mon sample => Sys2Proof.Machine.execSupplyRecover mon sample s
  | .braceSettleEnd => Sys2Proof.Machine.execBraceSettleEnd s
  | .brownout mon sample => Sys2Proof.Machine.execBrownout mon sample s
  | .brownoutRecovery => Sys2Proof.Machine.execBrownoutRecovery s
  | .auxWarn sample => Sys2Proof.Machine.execAuxWarn sample s
  | .slotPower m p => Sys2Proof.Machine.execSlotPower m p s
  | .slotConfig m p => Sys2Proof.Machine.execSlotConfig m p s
  | .slotClearLatch m p => Sys2Proof.Machine.execSlotClearLatch m p s
  | .slotStatus m p => Sys2Proof.Machine.execSlotStatus m p s
  | .slotStartingEnd slot vout vin => Sys2Proof.Machine.execSlotStartingEnd slot vout vin s
  | .slotRampEnd slot => Sys2Proof.Machine.execSlotRampEnd slot s
  | .slotQualified slot => Sys2Proof.Machine.execSlotQualified slot s
  | .slotStartFailure slot => Sys2Proof.Machine.execSlotStartFailure slot s
  | .slotLimitReached slot sense => Sys2Proof.Machine.execSlotLimitReached slot sense s
  | .slotFaultTimerReset slot => Sys2Proof.Machine.execSlotFaultTimerReset slot s
  | .slotTimerTrip slot sense => Sys2Proof.Machine.execSlotTimerTrip slot sense s
  | .slotFastTrip slot sense => Sys2Proof.Machine.execSlotFastTrip slot sense s
  | .slotBackoffEnd slot => Sys2Proof.Machine.execSlotBackoffEnd slot s
  | .slotDischargeEnd slot => Sys2Proof.Machine.execSlotDischargeEnd slot s
  | .slotFetShort slot vout => Sys2Proof.Machine.execSlotFetShort slot vout s
  | .dieTempCrossing point temp frozen => Sys2Proof.Machine.execDieTempCrossing point temp frozen s
  | .logCommit flashOk => Sys2Proof.Machine.execLogCommit flashOk s
  | .logRead startSeq maxRecords => Sys2Proof.Machine.execLogRead startSeq maxRecords s
  | .mctpControl cmd arg => Sys2Proof.Machine.execMctpControl cmd arg s
  | .mctpMessageDiscard msgType => Sys2Proof.Machine.execMctpMessageDiscard msgType s
  | .pldmFwUpdate part => Sys2Proof.Machine.execPldmFwUpdate part s
  | .pldmActivateFirmware online slotB => Sys2Proof.Machine.execPldmActivateFirmware online slotB s
  | .setSensorThresholds sensor warnHigh critHigh fatalHigh warnLow critLow fatalLow => Sys2Proof.Machine.execSetSensorThresholds sensor warnHigh critHigh fatalHigh warnLow critLow fatalLow s
  | .getSensorReading sensor => Sys2Proof.Machine.execGetSensorReading sensor s
  | .deviceResetRequest effecter state => Sys2Proof.Machine.execDeviceResetRequest effecter state s
  | .deviceResetResume => Sys2Proof.Machine.execDeviceResetResume s
  | .lengthsmanRestartDone => Sys2Proof.Machine.execLengthsmanRestartDone s
  | .keeperTakeoverDone => Sys2Proof.Machine.execKeeperTakeoverDone s
  | .keeperTakeoverTimeout => Sys2Proof.Machine.execKeeperTakeoverTimeout s
  | .clusterRollDone cluster pass => Sys2Proof.Machine.execClusterRollDone cluster pass s
  | .keeperCoreWatchdog core lastStep => Sys2Proof.Machine.execKeeperCoreWatchdog core lastStep s
  | .spdmGetVersion who => Sys2Proof.Machine.execSpdmGetVersion who s
  | .spdmGetCapabilities who => Sys2Proof.Machine.execSpdmGetCapabilities who s
  | .spdmNegotiateAlgorithms who => Sys2Proof.Machine.execSpdmNegotiateAlgorithms who s
  | .spdmGetDigests who => Sys2Proof.Machine.execSpdmGetDigests who s
  | .spdmGetCertificate who slot => Sys2Proof.Machine.execSpdmGetCertificate who slot s
  | .spdmChallenge who slot nonce => Sys2Proof.Machine.execSpdmChallenge who slot nonce s
  | .spdmGetMeasurements who index nonce => Sys2Proof.Machine.execSpdmGetMeasurements who index nonce s
  | .spdmKeyExchange who session => Sys2Proof.Machine.execSpdmKeyExchange who session s
  | .spdmFinish who session => Sys2Proof.Machine.execSpdmFinish who session s
  | .spdmEndSession who session => Sys2Proof.Machine.execSpdmEndSession who session s
  | .spdmKeyUpdate who session => Sys2Proof.Machine.execSpdmKeyUpdate who session s
  | .spdmHeartbeat who session => Sys2Proof.Machine.execSpdmHeartbeat who session s
  | .ideKm head session op => Sys2Proof.Machine.execIdeKm head session op s
  | .doeDiscovery head index => Sys2Proof.Machine.execDoeDiscovery head index s
  | .cxlTableAccess head entry => Sys2Proof.Machine.execCxlTableAccess head entry s
  | .identify m p => Sys2Proof.Machine.execIdentify m p s
  | .backgroundOperationStatus m p => Sys2Proof.Machine.execBackgroundOperationStatus m p s
  | .getResponseMessageLimit m p => Sys2Proof.Machine.execGetResponseMessageLimit m p s
  | .setResponseMessageLimit m p => Sys2Proof.Machine.execSetResponseMessageLimit m p s
  | .getEventRecords m p => Sys2Proof.Machine.execGetEventRecords m p s
  | .clearEventRecords m p => Sys2Proof.Machine.execClearEventRecords m p s
  | .getEventInterruptPolicy m p => Sys2Proof.Machine.execGetEventInterruptPolicy m p s
  | .setEventInterruptPolicy m p => Sys2Proof.Machine.execSetEventInterruptPolicy m p s
  | .getFwInfo m p => Sys2Proof.Machine.execGetFwInfo m p s
  | .transferFw m part => Sys2Proof.Machine.execTransferFw m part s
  | .activateFw m p => Sys2Proof.Machine.execActivateFw m p s
  | .getSupportedLogs m p => Sys2Proof.Machine.execGetSupportedLogs m p s
  | .getLog m p => Sys2Proof.Machine.execGetLog m p s
  | .getSupportedFeatures m p => Sys2Proof.Machine.execGetSupportedFeatures m p s
  | .identifyMemoryDevice m p => Sys2Proof.Machine.execIdentifyMemoryDevice m p s
  | .getHealthInfo m p => Sys2Proof.Machine.execGetHealthInfo m p s
  | .getAlertConfig m p => Sys2Proof.Machine.execGetAlertConfig m p s
  | .setAlertConfig m p => Sys2Proof.Machine.execSetAlertConfig m p s
  | .getPoisonList m p => Sys2Proof.Machine.execGetPoisonList m p s
  | .injectPoison m p => Sys2Proof.Machine.execInjectPoison m p s
  | .clearPoison m p => Sys2Proof.Machine.execClearPoison m p s
  | .sanitize m p => Sys2Proof.Machine.execSanitize m p s
  | .secureErase m p => Sys2Proof.Machine.execSecureErase m p s
  | .unsupportedCommand m opcode p => Sys2Proof.Machine.execUnsupportedCommand m opcode p s
  | .backgroundStartPhaseEnd src => Sys2Proof.Machine.execBackgroundStartPhaseEnd src s
  | .identifyWalben m p => Sys2Proof.Machine.execIdentifyWalben m p s
  | .getHealthSummary m p => Sys2Proof.Machine.execGetHealthSummary m p s
  | .setManagingHead m p => Sys2Proof.Machine.execSetManagingHead m p s
  | .setKeyRange m p => Sys2Proof.Machine.execSetKeyRange m p s
  | .getKeyRange m p => Sys2Proof.Machine.execGetKeyRange m p s
  | .rekeyRange m p => Sys2Proof.Machine.execRekeyRange m p s
  | .cryptoErase m p => Sys2Proof.Machine.execCryptoErase m p s
  | .setTierGeometry m p => Sys2Proof.Machine.execSetTierGeometry m p s
  | .getCapacity m p => Sys2Proof.Machine.execGetCapacity m p s
  | .placeHint m p => Sys2Proof.Machine.execPlaceHint m p s
  | .pinPages m p => Sys2Proof.Machine.execPinPages m p s
  | .unpinPages m p => Sys2Proof.Machine.execUnpinPages m p s
  | .stagePages m p => Sys2Proof.Machine.execStagePages m p s
  | .getHeat m p => Sys2Proof.Machine.execGetHeat m p s
  | .setSluice m p => Sys2Proof.Machine.execSetSluice m p s
  | .getSluice m p => Sys2Proof.Machine.execGetSluice m p s
  | .setGuarantee m p => Sys2Proof.Machine.execSetGuarantee m p s
  | .getBwCounters m p => Sys2Proof.Machine.execGetBwCounters m p s
  | .getDeliverableFloor m p => Sys2Proof.Machine.execGetDeliverableFloor m p s
  | .setMasterAttr m p => Sys2Proof.Machine.execSetMasterAttr m p s
  | .listOutings m p => Sys2Proof.Machine.execListOutings m p s
  | .getOuting m p => Sys2Proof.Machine.execGetOuting m p s
  | .pauseOuting m p => Sys2Proof.Machine.execPauseOuting m p s
  | .resumeOuting m p => Sys2Proof.Machine.execResumeOuting m p s
  | .abortOuting m p => Sys2Proof.Machine.execAbortOuting m p s
  | .getFaultState m p => Sys2Proof.Machine.execGetFaultState m p s
  | .clearFault m p => Sys2Proof.Machine.execClearFault m p s
  | .getHistory m p => Sys2Proof.Machine.execGetHistory m p s
  | .setReaction m p => Sys2Proof.Machine.execSetReaction m p s
  | .quietTimerExpire coll => Sys2Proof.Machine.execQuietTimerExpire coll s
  | .counterOverflow n inc ev => Sys2Proof.Machine.execCounterOverflow n inc ev s
  | .sampleCapture n ev => Sys2Proof.Machine.execSampleCapture n ev s
  | .sampleAbandon n => Sys2Proof.Machine.execSampleAbandon n s
  | .testUnlock m p => Sys2Proof.Machine.execTestUnlock m p s
  | .nonceExpire => Sys2Proof.Machine.execNonceExpire s
  | .unlockExpire => Sys2Proof.Machine.execUnlockExpire s
  | .setPerturb m p => Sys2Proof.Machine.execSetPerturb m p s
  | .perturbExpire entry => Sys2Proof.Machine.execPerturbExpire entry s
  | .inject m p => Sys2Proof.Machine.execInject m p s
  | .auxPowerOn straps flash => Sys2Proof.Machine.execAuxPowerOn straps flash s
  | .mainSequenceStart => Sys2Proof.Machine.execMainSequenceStart s
  | .railGood step => Sys2Proof.Machine.execRailGood step s
  | .railTimeout step => Sys2Proof.Machine.execRailTimeout step s
  | .sequenceBackoffEnd => Sys2Proof.Machine.execSequenceBackoffEnd s
  | .keeperStart => Sys2Proof.Machine.execKeeperStart s
  | .bringupBatchDone drives spds => Sys2Proof.Machine.execBringupBatchDone drives spds s
  | .driveBringupTimeout drive => Sys2Proof.Machine.execDriveBringupTimeout drive s
  | .geometryCommitDefault => Sys2Proof.Machine.execGeometryCommitDefault s
  | .skrefLost => Sys2Proof.Machine.execSkrefLost s
  | .mgmtrefLost => Sys2Proof.Machine.execMgmtrefLost s
  | .mrefInRestored => Sys2Proof.Machine.execMrefInRestored s
  | .pllUnlock pll => Sys2Proof.Machine.execPllUnlock pll s
  | .auxPowerLoss => Sys2Proof.Machine.execAuxPowerLoss s
  | .localTick => Sys2Proof.Machine.execLocalTick s
  | .sensorThresholdCrossing sensor reading => Sys2Proof.Machine.execSensorThresholdCrossing sensor reading s
  | .dynamicAddressAssignment addr entdaa => Sys2Proof.Machine.execDynamicAddressAssignment addr entdaa s

end Sys2Proof.Machine
end

