-- ==== Sys2Proof/WellFormed.lean ====
section
/-! DEFINITION. Well-formed commands: the unit a command names is one the device has. -/

namespace Sys2Proof

/-- What a command's unit number counts. -/
inductive UnitKind where
  /-- The Stechaisk ports (12). -/
  | skPort
  /-- The host ports (09 R245). -/
  | hostPort
  /-- The heads (09 R245). -/
  | head
  /-- The slots (16 R410). -/
  | slot
  /-- The DIMM slots (16 R410). -/
  | dimmSlot
  /-- The SPDM responders: eight heads and the sideband (09 R261; 17 R449). -/
  | responder
  /-- The drive ports (11). -/
  | drive
  /-- The DRAM channels (10). -/
  | chan
  /-- The power domains (15 R390). -/
  | domain
  /-- The codec engines (05). -/
  | engine
  /-- The key ranges and the device range (06 R161, R164). -/
  | range
  /-- The supply monitors that can brace (15 R406). -/
  | monitor
  /-- The performance counters (19 R470). -/
  | counter
  /-- The die temperature points (17 R437). -/
  | diePoint
  /-- The codec clusters (05). -/
  | cluster
  /-- The Keeper cores (17 R448). -/
  | core
  /-- The issuers of background commands: heads and the sideband (14 R374). -/
  | issuer
  /-- The fault collectors (18 R457). -/
  | collector
  /-- The perturbation entries (19 R476). -/
  | entry
  deriving DecidableEq, Repr

/-- How many units of a kind the device has. -/
def UnitKind.count : UnitKind → Nat
  | .skPort => 2
  | .hostPort => 4
  | .head => 8
  | .slot => 48
  | .dimmSlot => 32
  | .responder => 9
  | .drive => 16
  | .chan => 16
  | .domain => 44
  | .engine => 32
  | .range => 17
  | .monitor => 10
  | .counter => 192
  | .diePoint => 64
  | .cluster => 4
  | .core => 8
  | .issuer => 9
  | .collector => 48
  | .entry => 16

/-- What a command is sent to: a unit, a mailbox, or the device. -/
inductive Target where
  | unit (k : UnitKind) (n : Nat)
  | mailbox (m : Mb)
  | device
  deriving DecidableEq, Repr

/-- The target of each command. -/
def Instr.target : Instr → Target
  | .registerWrite head _ _ _ => .unit .head head
  | .ctbNowLoRead head => .unit .head head
  | .ctbLocalLoRead head => .unit .head head
  | .whdAliasWrite head _ _ => .unit .head head
  | .hdmDecoderCommit head _ _ => .unit .head head
  | .hdmDecoderUncommit head _ => .unit .head head
  | .biEnableWrite head _ _ => .unit .head head
  | .functionLevelReset head => .unit .head head
  | .cxlReset head => .unit .head head
  | .d3hotEntry head => .unit .head head
  | .d0Entry head => .unit .head head
  | .pmcCntWrite head _ _ _ => .unit .head head
  | .pmcOvfClear head _ _ _ => .unit .head head
  | .pmcFreezeWrite head _ => .unit .head head
  | .pmcClearAll head => .unit .head head
  | .hpPerstAssert port => .unit .hostPort port
  | .hpPerstDeassert port _ => .unit .hostPort port
  | .hotReset head => .unit .head head
  | .linkDisable head => .unit .head head
  | .headLinkDown head _ => .unit .head head
  | .headLinkUp head _ _ => .unit .head head
  | .pmeTurnOff head => .unit .head head
  | .viralReceived head => .unit .head head
  | .ideIntegrityFailure head _ _ => .unit .head head
  | .memRd head _ _ => .unit .head head
  | .memRdData head _ => .unit .head head
  | .memInv head _ _ => .unit .head head
  | .memInvNt head _ => .unit .head head
  | .memSpecRd head _ => .unit .head head
  | .memClnEvct head _ => .unit .head head
  | .biConflict head _ => .unit .head head
  | .memWr head _ _ _ _ => .unit .head head
  | .memWrPtl head _ _ _ _ => .unit .head head
  | .biRsp head _ _ => .unit .head head
  | .schedulerDispatch => .device
  | .pendingQueueGrant _ => .device
  | .setWaitRetry _ => .device
  | .mapWalkComplete _ => .device
  | .dramReadReturn _ _ => .device
  | .degradedFetchReturn _ _ => .device
  | .dramWriteAccepted _ => .device
  | .retryBufferRetire chan => .unit .chan chan
  | .waitingWriteResume _ => .device
  | .codecItemComplete engine _ => .unit .engine engine
  | .codecWatchdogExpire engine => .unit .engine engine
  | .codecSelfTestStart engine => .unit .engine engine
  | .codecSelfTestDone engine _ => .unit .engine engine
  | .submitJob m _ => .mailbox m
  | .getJob m _ => .mailbox m
  | .resumeJob m _ => .mailbox m
  | .cancelJob m _ => .mailbox m
  | .jobSegmentDispatch engine _ => .unit .engine engine
  | .jobSegmentDone engine _ => .unit .engine engine
  | .jobRecordExpire _ => .device
  | .trefEdge => .device
  | .trefLost => .device
  | .holdoverExpire => .device
  | .timeFrameSend => .device
  | .timeFrameReceive port _ _ _ _ _ _ _ => .unit .skPort port
  | .upstreamLoss => .device
  | .setChainTime m _ => .mailbox m
  | .setTimeSource m _ => .mailbox m
  | .getChainTime m _ => .mailbox m
  | .setTimestamp m _ => .mailbox m
  | .getTimestamp m _ => .mailbox m
  | .regulationWindowBoundary => .device
  | .berthBoundary _ => .device
  | .berthCycleBoundary _ => .device
  | .moverCommit _ _ => .device
  | .bargeWriteCommit _ _ _ => .device
  | .keySoftLimit range => .unit .range range
  | .keyHardLimit range => .unit .range range
  | .rekeyLate range => .unit .range range
  | .keeperStep => .device
  | .unitRecordLost slot => .unit .slot slot
  | .graceExpire slot => .unit .slot slot
  | .heldDimmRestore slot => .unit .dimmSlot slot
  | .beginReplace m _ => .mailbox m
  | .endReplace m _ => .mailbox m
  | .getLossList m _ => .mailbox m
  | .clearLossEntry m _ => .mailbox m
  | .clearLossWackTimeout => .device
  | .tandemAckTimeout _ => .device
  | .setTandem m _ => .mailbox m
  | .snoopTimeout head _ => .unit .head head
  | .chainSnoopTimeout _ _ => .device
  | .reservationExpire _ => .device
  | .nakBackoffRetry _ => .device
  | .rds port _ => .unit .skPort port
  | .rda port _ => .unit .skPort port
  | .rdcur port _ => .unit .skPort port
  | .wr port _ => .unit .skPort port
  | .wrptl port _ => .unit .skPort port
  | .evict port _ => .unit .skPort port
  | .sinv port _ => .unit .skPort port
  | .sdown port _ => .unit .skPort port
  | .scur port _ => .unit .skPort port
  | .sfwd port _ => .unit .skPort port
  | .data port _ => .unit .skPort port
  | .fwdData port _ => .unit .skPort port
  | .wack port _ => .unit .skPort port
  | .chainNak port _ => .unit .skPort port
  | .sackNone port _ => .unit .skPort port
  | .sackS port _ => .unit .skPort port
  | .sackD port _ => .unit .skPort port
  | .rejoin port _ => .unit .skPort port
  | .remoteResendWindowEnd _ => .device
  | .dupWriteExpire _ _ => .device
  | .undeliveredWrite _ => .device
  | .probe port _ => .unit .skPort port
  | .probeEnd port _ => .unit .skPort port
  | .topo port _ => .unit .skPort port
  | .neighbour port _ _ _ _ => .unit .skPort port
  | .routeCut port _ _ => .unit .skPort port
  | .routeJoin port _ _ => .unit .skPort port
  | .windowCheck port _ _ _ => .unit .skPort port
  | .windowRsp port _ _ => .unit .skPort port
  | .windowCheckTimeout => .device
  | .chainDiscover m _ => .mailbox m
  | .setRemoteWindow m _ => .mailbox m
  | .setHopLimit m _ => .mailbox m
  | .laneSignalDetect port => .unit .skPort port
  | .laneAlignDone port _ => .unit .skPort port
  | .deskewDone port _ _ => .unit .skPort port
  | .helloResend port => .unit .skPort port
  | .trainHello port _ _ _ _ => .unit .skPort port
  | .trainEchoReq port _ _ _ => .unit .skPort port
  | .trainEchoRsp port _ _ _ _ => .unit .skPort port
  | .trainAccepted port _ _ => .unit .skPort port
  | .trainCreditAbs port _ _ _ _ => .unit .skPort port
  | .trainReady port => .unit .skPort port
  | .trainLoopback port _ => .unit .skPort port
  | .loopbackQuietEnd port _ => .unit .skPort port
  | .dataFrameSend port => .unit .skPort port
  | .dataFrameReceive port _ _ => .unit .skPort port
  | .ack port _ => .unit .skPort port
  | .linkNak port _ => .unit .skPort port
  | .xon port => .unit .skPort port
  | .xoff port => .unit .skPort port
  | .credit port _ _ _ _ => .unit .skPort port
  | .controlFrameDrop x => .unit .skPort x.port
  | .ackTimer port => .unit .skPort port
  | .creditReturnTimer port => .unit .skPort port
  | .flowStateRepeat port => .unit .skPort port
  | .replayTimerExpire port => .unit .skPort port
  | .laneErrorBurst port _ _ => .unit .skPort port
  | .markerMisalign port => .unit .skPort port
  | .retrainTimeout port => .unit .skPort port
  | .allLanesSignalLoss port => .unit .skPort port
  | .downHoldExpire port => .unit .skPort port
  | .getLinkStatus m _ => .mailbox m
  | .retrainLink m _ => .mailbox m
  | .dramAlert chan _ => .unit .chan chan
  | .replayComplete chan => .unit .chan chan
  | .refreshDue chan _ _ => .unit .chan chan
  | .srIdleExpire chan => .unit .chan chan
  | .tempPoll chan _ _ _ _ => .unit .chan chan
  | .pmicIbi chan _ _ => .unit .chan chan
  | .delayCommit chan _ => .unit .chan chan
  | .dimmTrainingDone chan _ _ => .unit .chan chan
  | .nvmeCompletion drive _ _ _ => .unit .drive drive
  | .nvmeCommandTimeout drive _ => .unit .drive drive
  | .nvmeAbortTimeout drive _ => .unit .drive drive
  | .hedgeDelayExpire drive _ => .unit .drive drive
  | .drivePresenceLost drive => .unit .drive drive
  | .drivePresenceStable drive => .unit .drive drive
  | .driveFatalStatus drive _ => .unit .drive drive
  | .driveBringupStepDone drive _ => .unit .drive drive
  | .sanitizeDriveDone drive _ => .unit .drive drive
  | .castVote m _ => .mailbox m
  | .withdrawVote m _ => .mailbox m
  | .domainDrainDone dom => .unit .domain dom
  | .domainDrainTimeout dom => .unit .domain dom
  | .handshakeReply dom _ _ => .unit .domain dom
  | .handshakeDelayExpire dom _ => .unit .domain dom
  | .domainWakeDone dom => .unit .domain dom
  | .domainWakeFail dom _ => .unit .domain dom
  | .padRelease dom => .unit .domain dom
  | .getDomainState m _ => .mailbox m
  | .getWakeRecord m _ => .mailbox m
  | .setPowerMode m _ => .mailbox m
  | .supplyWarning mon _ => .unit .monitor mon
  | .supplyRecover mon _ => .unit .monitor mon
  | .braceSettleEnd => .device
  | .brownout mon _ => .unit .monitor mon
  | .brownoutRecovery => .device
  | .auxWarn _ => .device
  | .slotPower m _ => .mailbox m
  | .slotConfig m _ => .mailbox m
  | .slotClearLatch m _ => .mailbox m
  | .slotStatus m _ => .mailbox m
  | .slotStartingEnd slot _ _ => .unit .slot slot
  | .slotRampEnd slot => .unit .slot slot
  | .slotQualified slot => .unit .slot slot
  | .slotStartFailure slot => .unit .slot slot
  | .slotLimitReached slot _ => .unit .slot slot
  | .slotFaultTimerReset slot => .unit .slot slot
  | .slotTimerTrip slot _ => .unit .slot slot
  | .slotFastTrip slot _ => .unit .slot slot
  | .slotBackoffEnd slot => .unit .slot slot
  | .slotDischargeEnd slot => .unit .slot slot
  | .slotFetShort slot _ => .unit .slot slot
  | .dieTempCrossing point _ _ => .unit .diePoint point
  | .logCommit _ => .device
  | .logRead _ _ => .device
  | .mctpControl _ _ => .device
  | .mctpMessageDiscard _ => .device
  | .pldmFwUpdate _ => .device
  | .pldmActivateFirmware _ _ => .device
  | .setSensorThresholds _ _ _ _ _ _ _ => .device
  | .getSensorReading _ => .device
  | .deviceResetRequest _ _ => .device
  | .deviceResetResume => .device
  | .lengthsmanRestartDone => .device
  | .keeperTakeoverDone => .device
  | .keeperTakeoverTimeout => .device
  | .clusterRollDone cluster _ => .unit .cluster cluster
  | .keeperCoreWatchdog core _ => .unit .core core
  | .spdmGetVersion who => .unit .responder who
  | .spdmGetCapabilities who => .unit .responder who
  | .spdmNegotiateAlgorithms who => .unit .responder who
  | .spdmGetDigests who => .unit .responder who
  | .spdmGetCertificate who _ => .unit .responder who
  | .spdmChallenge who _ _ => .unit .responder who
  | .spdmGetMeasurements who _ _ => .unit .responder who
  | .spdmKeyExchange who _ => .unit .responder who
  | .spdmFinish who _ => .unit .responder who
  | .spdmEndSession who _ => .unit .responder who
  | .spdmKeyUpdate who _ => .unit .responder who
  | .spdmHeartbeat who _ => .unit .responder who
  | .ideKm head _ _ => .unit .head head
  | .doeDiscovery head _ => .unit .head head
  | .cxlTableAccess head _ => .unit .head head
  | .identify m _ => .mailbox m
  | .backgroundOperationStatus m _ => .mailbox m
  | .getResponseMessageLimit m _ => .mailbox m
  | .setResponseMessageLimit m _ => .mailbox m
  | .getEventRecords m _ => .mailbox m
  | .clearEventRecords m _ => .mailbox m
  | .getEventInterruptPolicy m _ => .mailbox m
  | .setEventInterruptPolicy m _ => .mailbox m
  | .getFwInfo m _ => .mailbox m
  | .transferFw m _ => .mailbox m
  | .activateFw m _ => .mailbox m
  | .getSupportedLogs m _ => .mailbox m
  | .getLog m _ => .mailbox m
  | .getSupportedFeatures m _ => .mailbox m
  | .identifyMemoryDevice m _ => .mailbox m
  | .getHealthInfo m _ => .mailbox m
  | .getAlertConfig m _ => .mailbox m
  | .setAlertConfig m _ => .mailbox m
  | .getPoisonList m _ => .mailbox m
  | .injectPoison m _ => .mailbox m
  | .clearPoison m _ => .mailbox m
  | .sanitize m _ => .mailbox m
  | .secureErase m _ => .mailbox m
  | .unsupportedCommand m _ _ => .mailbox m
  | .backgroundStartPhaseEnd src => .unit .issuer src
  | .identifyWalben m _ => .mailbox m
  | .getHealthSummary m _ => .mailbox m
  | .setManagingHead m _ => .mailbox m
  | .setKeyRange m _ => .mailbox m
  | .getKeyRange m _ => .mailbox m
  | .rekeyRange m _ => .mailbox m
  | .cryptoErase m _ => .mailbox m
  | .setTierGeometry m _ => .mailbox m
  | .getCapacity m _ => .mailbox m
  | .placeHint m _ => .mailbox m
  | .pinPages m _ => .mailbox m
  | .unpinPages m _ => .mailbox m
  | .stagePages m _ => .mailbox m
  | .getHeat m _ => .mailbox m
  | .setSluice m _ => .mailbox m
  | .getSluice m _ => .mailbox m
  | .setGuarantee m _ => .mailbox m
  | .getBwCounters m _ => .mailbox m
  | .getDeliverableFloor m _ => .mailbox m
  | .setMasterAttr m _ => .mailbox m
  | .listOutings m _ => .mailbox m
  | .getOuting m _ => .mailbox m
  | .pauseOuting m _ => .mailbox m
  | .resumeOuting m _ => .mailbox m
  | .abortOuting m _ => .mailbox m
  | .getFaultState m _ => .mailbox m
  | .clearFault m _ => .mailbox m
  | .getHistory m _ => .mailbox m
  | .setReaction m _ => .mailbox m
  | .quietTimerExpire coll => .unit .collector coll
  | .counterOverflow n _ _ => .unit .counter n
  | .sampleCapture n _ => .unit .counter n
  | .sampleAbandon n => .unit .counter n
  | .testUnlock m _ => .mailbox m
  | .nonceExpire => .device
  | .unlockExpire => .device
  | .setPerturb m _ => .mailbox m
  | .perturbExpire entry => .unit .entry entry
  | .inject m _ => .mailbox m
  | .auxPowerOn _ _ => .device
  | .mainSequenceStart => .device
  | .railGood _ => .device
  | .railTimeout _ => .device
  | .sequenceBackoffEnd => .device
  | .keeperStart => .device
  | .bringupBatchDone _ _ => .device
  | .driveBringupTimeout drive => .unit .drive drive
  | .geometryCommitDefault => .device
  | .skrefLost => .device
  | .mgmtrefLost => .device
  | .mrefInRestored => .device
  | .pllUnlock _ => .device
  | .auxPowerLoss => .device
  | .localTick => .device
  | .sensorThresholdCrossing _ _ => .device
  | .dynamicAddressAssignment _ _ => .device

/-- The target exists: a unit below the count of its kind; a mailbox of a head or the sideband's one. -/
def Target.ok : Target → Bool
  | .unit k n => decide (n < k.count)
  | .mailbox m => decide (m.src < 8) || (m.src == 8 && !m.sec)
  | .device => true

/-- A command is well formed when its target exists. -/
def Instr.wf (i : Instr) : Bool := i.target.ok

end Sys2Proof
end

