-- ==== Sys2Proof/Safety.lean ====
section
/-! DEFINITION. What the statements speak of: a command that its mailbox accepts, and states that a run can reach. -/

namespace Sys2Proof.Machine

/-- A Crity command passes every common check of 14 R371 and R373: its mailbox can take it, it need not wait, its issuer may
issue it and its fields are good. -/
def accepts (spec : CmdSpec) (s : State) (m : Mb) (p : List Byte) : Bool :=
  canIssue s m && !(m.src == 8 && keeperOff s && !spec.lmOwn) && ((m.src == 8 && keeperOff s) || !mustWait s)
    && (precheck spec s m p).isNone

/-- The same of a standard CXL command (09 R257, R514). -/
def acceptsStd (spec : StdSpec) (s : State) (m : Mb) : Bool :=
  canIssue s m && !(m.src == 8 && !spec.sb) && !(m.src == 8 && keeperOff s && !spec.lmOwn)
    && ((m.src == 8 && keeperOff s) || !mustWait s) && !(spec.managing && m.src != 8 && !isManaging s m.src)

/-- A Crity command other than a read command has succeeded: answered, and recorded in the Command Log with the outing it
started, `out` none (14 R372, R388). -/
def done (opcode : Nat) (m : Mb) (out : List Byte) (s : State) : State :=
  logCommand opcode m.src .success 0 0xFFFFFFFF (reply m opcode .success 0 out s)

/-- A Crity command that may start an outing or halt the device has taken effect: `s` before it, `t` after its own effect. It
has succeeded, or ends with DEVICE_HALTED where its own effect halted the device (14 R372, R381, R388; 18 R469). -/
def finished (opcode : Nat) (m : Mb) (out : List Byte) (s t : State) : State :=
  if haltsItself s t then
    logCommand opcode m.src .mediaDisabled 0x0006 0xFFFFFFFF (reply m opcode .mediaDisabled 0x0006 (le 2 0x0006 ++ le 2 0xFFFF) t)
  else logCommand opcode m.src .success 0 (outingStarted s (reply m opcode .success 0 out t)) (reply m opcode .success 0 out t)

/-- A background command has started (14 R374): answered, and its issuer's slot is taken. -/
def started (opcode : Nat) (m : Mb) (op : BgOp) (s : State) : State :=
  (reply m opcode .backgroundStarted 0 [] s).modBg m.src fun _ =>
    { opcode := opcode, busy := true, percent := 0, sec := m.sec, op := some op }

/-- The same where the command's answer is already known: REKEY_RANGE, CRYPTO_ERASE (14 R374). -/
def startedDone (opcode : Nat) (m : Mb) (op : BgOp) (out : List Byte) (s : State) : State :=
  (reply m opcode .backgroundStarted 0 [] s).modBg m.src fun _ =>
    { opcode := opcode, busy := true, percent := 0, sec := m.sec, op := some op, result := some (.success, 0, out) }

/-- The output outFits the issuer's response limit (14 R377). -/
def outFits (s : State) (m : Mb) (out : List Byte) : Bool := decide (out.length ≤ limitOf s m.src)

/-- SET_MANAGING_HEAD's checks (14 R379). -/
def managingSpec : CmdSpec :=
  { outingSpec with opcode := 0xC002, resv := [(1, 0xFFFFFF)]
                    checks := fun p _ => [⟨0, decide (byteAt p 0 ≤ 7), 0x0007⟩] }

/-- A step of the device that ends in a next state with a property. -/
def Answers (o : Out) (P : State → Prop) : Prop := ∃ t, o = .next t ∧ P t

/-- Commands after which a byte of memory may read otherwise: those that store a line or clear a page, at once or because they
let a waiting write start; those after which a page of the map may be lost with a unit, so that it starts again as a zero page; and
the resets that lose all of it. -/
def mayChangeMemory : Instr → Bool
  | .biEnableWrite _ _ _ | .functionLevelReset _ | .cxlReset _ | .hpPerstAssert _ | .hotReset _ | .linkDisable _
  | .headLinkDown _ _ | .ideIntegrityFailure _ _ _ | .biRsp _ _ _ | .schedulerDispatch | .pendingQueueGrant _
  | .setWaitRetry _ | .mapWalkComplete _ | .dramReadReturn _ _ | .degradedFetchReturn _ _ | .dramWriteAccepted _
  | .waitingWriteResume _ | .codecItemComplete _ _ | .codecWatchdogExpire _ | .jobSegmentDispatch _ _
  | .jobSegmentDone _ _ | .berthBoundary _ | .berthCycleBoundary _ | .moverCommit _ _ | .bargeWriteCommit _ _ _
  | .unitRecordLost _ | .graceExpire _ | .beginReplace _ _ | .clearLossEntry _ _ | .snoopTimeout _ _
  | .chainSnoopTimeout _ _ | .sackNone _ _ | .sackS _ _ | .sackD _ _ | .probe _ _ | .probeEnd _ _ | .topo _ _
  | .neighbour _ _ _ _ _ | .routeCut _ _ _ | .routeJoin _ _ _ | .chainDiscover _ _ | .laneAlignDone _ _
  | .deskewDone _ _ _ | .trainHello _ _ _ _ _ | .trainEchoReq _ _ _ _ | .trainEchoRsp _ _ _ _ _
  | .trainAccepted _ _ _ | .trainCreditAbs _ _ _ _ _ | .trainReady _ | .trainLoopback _ _ | .linkNak _ _
  | .controlFrameDrop _ | .replayTimerExpire _ | .laneErrorBurst _ _ _ | .markerMisalign _ | .retrainTimeout _
  | .allLanesSignalLoss _ | .retrainLink _ _ | .dramAlert _ _ | .tempPoll _ _ _ _ _ | .pmicIbi _ _ _
  | .dimmTrainingDone _ _ _ | .nvmeCompletion _ _ _ _ | .nvmeCommandTimeout _ _ | .nvmeAbortTimeout _ _
  | .hedgeDelayExpire _ _ | .drivePresenceLost _ | .driveFatalStatus _ _ | .driveBringupStepDone _ _
  | .sanitizeDriveDone _ _ | .domainDrainDone _ | .domainWakeFail _ _ | .brownout _ _ | .slotPower _ _
  | .slotStartFailure _ | .slotTimerTrip _ _ | .slotFastTrip _ _ | .slotFetShort _ _ | .pldmFwUpdate _
  | .deviceResetRequest _ _ | .clusterRollDone _ _ | .injectPoison _ _ | .clearPoison _ _ | .sanitize _ _
  | .backgroundStartPhaseEnd _ | .auxPowerOn _ _ | .driveBringupTimeout _ | .skrefLost | .auxPowerLoss => true
  | _ => false

end Sys2Proof.Machine
end

