-- ==== Sys2Proof/Certificates/Slice0/Obligations.lean ====
section
/-! DEFINITION. The statements for the provers. Each clause is about one command: where it completes, and its next state. -/

open Sys2Proof Sys2Proof.Machine

/-- With a command at the front of the queue, step is exec of it on the state with the queue's rest. On an empty queue the
block idles: nothing changes unless a mailbox command that had to wait may start now, and that one is run (the model's
choice, log 21). (00_scope.md R1) -/
def Obligations.StepRunsFront : Prop :=
  (∀ (c : Instr) (rest : List Instr) (s : State), step { s with pending := c :: rest } = exec c { s with pending := rest })
  ∧ (∀ s : State, s.pending = [] → s.held = [] → step s = .next s)
  ∧ (∀ s : State, s.pending = [] → mustWait s = true → step s = .next s)
  ∧ (∀ (w : HeldCmd) (rest : List HeldCmd) (s : State), s.pending = [] → mustWait s = false → s.held = w :: rest →
      ∀ t, runHeld w { s with held := rest, crity := { s.crity with releasing := true } } = .next t →
        step s = .next { t with crity := { t.crity with releasing := false } })

/-- The table of commands gives no row any bits, so decodeTableWord answers none for every word and withFetchWord leaves
the state as it is (the table's own reading, log 1). (00_scope.md R1) -/
def Obligations.NoWordSpells : Prop :=
  ∀ (nbits w : Nat) (s : State), decodeTableWord nbits w = none ∧ s.withFetchWord nbits w = s

/-- Reset leaves the device before its cold reset: no command waits, no main power, no head, no outing, no job, no entry
of the loss list; ESEQ is 0, nothing is halted, the chain ID is 0xFFF and the hop limit 16, HEADROOM is 32 KiB, no
capacity is offered and every page reads zeros. That the block starts before AUX_POWER_ON is the model's choice (log
2), and so is every value the spec does not give (log 1). (13_chains_and_rings.md R346; 13_chains_and_rings.md R353;
15_power_domains.md R392; 18_faults.md R453; 20_power_up_and_reset.md R494; 20_power_up_and_reset.md R496;
12_stechaisk_link.md R341) -/
def Obligations.ResetState : Prop :=
  State.reset.pending = [] ∧ State.reset.mem = [] ∧ State.reset.boot.phase = .auxOff ∧ State.reset.boot.pwrOk = false
  ∧ State.reset.flt.halted = false ∧ State.reset.flt.eseq = 0 ∧ State.reset.crity.outings = [] ∧ State.reset.codec.jobs = []
  ∧ State.reset.dur.loss = [] ∧ State.reset.map.geo.offeredGib = 0 ∧ State.reset.chain.id = 0xFFF
  ∧ State.reset.chain.hopLimit = 16 ∧ (∀ p, p < 2 → (State.reset.port p).headroom = 32 ∧ (State.reset.port p).st = .off)
  ∧ (∀ h, h < 8 → headUp State.reset h = false) ∧ (∀ a, Memory.read State.reset.mem a = 0)

/-- The memory of the reset state has the canonical form: addresses rise strictly and no listed byte is 0. (00_scope.md
R1) -/
def Obligations.ResetMemoryCanonical : Prop :=
  Memory.wf State.reset.mem = true

/-- From every state whose memory has the canonical form, a step that answers a next state answers one whose memory has
it: a stored line, a cleared page, a lost device and a reset alike, whatever command runs and whatever it sets in
motion. (01_request_path.md R20; 01_request_path.md R27; 03_tiers_and_placement.md R93; 04_durability.md R118) -/
def Obligations.MemoryStaysCanonical : Prop :=
  ∀ s t : State, Memory.wf s.mem = true → step s = .next t → Memory.wf t.mem = true

/-- Every well-formed command answers a next state in every state, one that names a unit the device does not have stops
with noSuchUnit, nothing else stops, and no command is refused. (00_scope.md R1; 09_host_ports.md R245;
15_power_domains.md R390; 16_hot_plug_slots.md R410) -/
def Obligations.CommandsStopOnUnitsAlone : Prop :=
  ∀ (c : Instr) (s : State), (c.wf = true → ∃ t, exec c s = .next t)
    ∧ (∀ k n, c.target = .unit k n → c.wf = false → exec c s = .fault .noSuchUnit)
    ∧ (∀ r, exec c s ≠ .refused r)
    ∧ (∀ f, exec c s = .fault f → f = .noSuchUnit ∧ c.wf = false)

/-- Whatever a command does, the commands behind it still wait, all of them in their order. (14_crity_commands.md R373) -/
def Obligations.QueueUntouched : Prop :=
  ∀ (c : Instr) (s t : State), exec c s = .next t → t.pending = s.pending

/-- Every command that mayChangeMemory does not name leaves every byte of memory reading as before: requests that arrive,
reads, the completions of reads, codec and drive work, moves under way, management commands, power, slots, faults,
counters and the lengthsman's work. The list is the model's own reading of where a line is stored, cleared or lost,
the lines of a lost page of the page map among them. (01_request_path.md R26; 01_request_path.md R27; 06_encryption.md
R174; 15_power_domains.md R391) -/
def Obligations.MemoryFrame : Prop :=
  ∀ (c : Instr) (s t : State), mayChangeMemory c = false → exec c s = .next t →
    ∀ a, Memory.read t.mem a = Memory.read s.mem a

/-- When the channels accept a write, the 64 bytes of its line at address 64 × line take the written bytes, under the byte
mask of a partial write; every other byte of memory reads as before. A write that passed decode before a crypto-erase
of its range changes nothing: what it would store is erased with the rest. (01_request_path.md R20; 01_request_path.md
R26; 06_encryption.md R187; 09_host_ports.md R250) -/
def Obligations.StoredLine : Prop :=
  ∀ (r : Req) (ovl : Bool) (minor f : Nat) (s : State), Memory.wf s.mem = true →
    (r.erased = true → acceptWrite r ovl minor f s = s)
    ∧ (r.erased = false → ∀ i, i < 64 → Memory.read (acceptWrite r ovl minor f s).mem (64 * r.line + i)
      = if r.kind = .wr ∨ r.mask.getLsbD i = true then lineByte r.data i else Memory.read s.mem (64 * r.line + i))
    ∧ (∀ a, (a < 64 * r.line ∨ 64 * r.line + 64 ≤ a) → Memory.read (acceptWrite r ovl minor f s).mem a = Memory.read s.mem a)

/-- Every event takes the next ESEQ. While the device is not halted, an event of the same source and kind as its group's
newest entry in the same window is merged into it, any other becomes the newest entry, and a group keeps eight; an
event of class NONE leaves the collectors alone, one of class CE or above puts its collector in FAULT. While it is
halted, histories' entries and collectors stay. An event of class FT halts the device and names the source. Raising an
event changes no byte of memory. (18_faults.md R453; 18_faults.md R456; 18_faults.md R457; 18_faults.md R460;
18_faults.md R467) -/
def Obligations.EventRecording : Prop :=
  (∀ (inj : Bool) (src kind hd : Nat) (sc : Scope) (body : List Byte) (s : State),
    (report inj src kind hd sc body s).flt.eseq = wrap 32 (s.flt.eseq + 1)
    ∧ (report inj src kind hd sc body s).mem = s.mem
    ∧ (s.flt.halted = true → (report inj src kind hd sc body s).flt.colls = s.flt.colls)
    ∧ (s.flt.halted = true →
        (report inj src kind hd sc body s).flt.groups.map (·.entries) = s.flt.groups.map (·.entries))
    ∧ (classOf s src = 0 → (report inj src kind hd sc body s).flt.colls = s.flt.colls)
    ∧ (s.flt.halted = false → classOf s src ≠ 0 → src / 32 < s.flt.colls.length →
        ((report inj src kind hd sc body s).coll (src / 32)).fault = true
        ∧ ((report inj src kind hd sc body s).coll (src / 32)).pend.getLsbD (src % 32) = true))
  ∧ (∀ (r : EventRec) (window : Nat) (g : Group) (e : HistEntry) (rest : List HistEntry), g.entries = e :: rest →
      (e.source = r.source → e.kind = r.kind → e.window = window →
        (histEnter r window g).entries = { e with count := addSat 24 e.count 1 } :: rest)
      ∧ (¬ (e.source = r.source ∧ e.kind = r.kind ∧ e.window = window) → g.entries.length ≤ 8 →
        (histEnter r window g).entries.length ≤ 8 ∧ ((histEnter r window g).entries.head?.map (·.eseq)) = some r.eseq
        ∧ (histEnter r window g).entries.tail = (e :: rest).take 7))
  ∧ (∀ (src kind hd : Nat) (sc : Scope) (body : List Byte) (s : State), classOf s src = 4 → s.flt.halted = false →
      (raise src kind hd sc body s).flt.halted = true ∧ (raise src kind hd sc body s).flt.haltSource = src)

/-- On a head whose link is up, while the device is not halted, each of the seven requests at an address that a decoder
maps into the offered capacity, into a range that admits the head, arrives at the sluice of its head and of the class
the decoder gives, charged 128 bytes if it carries data and 64 if not. A request of any kind at an address that no
decoder maps, or whose mapped address is refused, is completed at once and raises ACCESS_VIOLATION with the address,
the decoder and the reason. A speculative read changes nothing. A conflict message for a line on which the directory
has ordered no read or invalidation of the head is acknowledged at once. (01_request_path.md R11; 01_request_path.md
R12; 07_coherence.md R192; 08_sluices.md R225; 09_host_ports.md R252; 18_faults.md R468) -/
def Obligations.HostRequests : Prop :=
  (∀ (head : Nat) (mv : MetaVal) (addr dec cls dpa : Nat) (s : State),
      head < 8 →
      headUp s head = true →
      s.flt.halted = false →
      decodeHost (s.head head).decoders (s.slu.cfg.defClass.getD head 0) addr = some (dec, cls, dpa) →
      violation s head dpa = none →
      exec (.memRd head mv addr) s = .next (arrive (8 * head + cls) ⟨s.req.next, 64, dpa / 64⟩ (addReq {
        id := s.req.next, kind := .rd, mv := mv, head := head, cls := cls, line := dpa / 64, data := 0, mask := BitVec.allOnes 64, poison := false, db := (s.head head).biActive, since := s.time.elapsed } s)))
  ∧ (∀ (head addr dec cls dpa : Nat) (s : State),
      head < 8 →
      headUp s head = true →
      s.flt.halted = false →
      decodeHost (s.head head).decoders (s.slu.cfg.defClass.getD head 0) addr = some (dec, cls, dpa) →
      violation s head dpa = none →
      exec (.memRdData head addr) s = .next (arrive (8 * head + cls) ⟨s.req.next, 64, dpa / 64⟩ (addReq {
        id := s.req.next, kind := .rdData, mv := .any, head := head, cls := cls, line := dpa / 64, data := 0, mask := BitVec.allOnes 64, poison := false, db := (s.head head).biActive, since := s.time.elapsed } s)))
  ∧ (∀ (head : Nat) (mv : MetaVal) (addr dec cls dpa : Nat) (s : State),
      head < 8 →
      headUp s head = true →
      s.flt.halted = false →
      decodeHost (s.head head).decoders (s.slu.cfg.defClass.getD head 0) addr = some (dec, cls, dpa) →
      violation s head dpa = none →
      exec (.memInv head mv addr) s = .next (arrive (8 * head + cls) ⟨s.req.next, 64, dpa / 64⟩ (addReq {
        id := s.req.next, kind := .inv, mv := mv, head := head, cls := cls, line := dpa / 64, data := 0, mask := BitVec.allOnes 64, poison := false, db := (s.head head).biActive, since := s.time.elapsed } s)))
  ∧ (∀ (head addr dec cls dpa : Nat) (s : State),
      head < 8 →
      headUp s head = true →
      s.flt.halted = false →
      decodeHost (s.head head).decoders (s.slu.cfg.defClass.getD head 0) addr = some (dec, cls, dpa) →
      violation s head dpa = none →
      exec (.memInvNt head addr) s = .next (arrive (8 * head + cls) ⟨s.req.next, 64, dpa / 64⟩ (addReq {
        id := s.req.next, kind := .invNt, mv := .invalid, head := head, cls := cls, line := dpa / 64, data := 0, mask := BitVec.allOnes 64, poison := false, db := (s.head head).biActive, since := s.time.elapsed } s)))
  ∧ (∀ (head addr dec cls dpa : Nat) (s : State),
      head < 8 →
      headUp s head = true →
      s.flt.halted = false →
      decodeHost (s.head head).decoders (s.slu.cfg.defClass.getD head 0) addr = some (dec, cls, dpa) →
      violation s head dpa = none →
      exec (.memClnEvct head addr) s = .next (arrive (8 * head + cls) ⟨s.req.next, 64, dpa / 64⟩ (addReq {
        id := s.req.next, kind := .clnEvct, mv := .invalid, head := head, cls := cls, line := dpa / 64, data := 0, mask := BitVec.allOnes 64, poison := false, db := (s.head head).biActive, since := s.time.elapsed } s)))
  ∧ (∀ (head : Nat) (mv : MetaVal) (addr : Nat) (data : Line) (poison : Bool) (dec cls dpa : Nat) (s : State),
      head < 8 →
      headUp s head = true →
      s.flt.halted = false →
      decodeHost (s.head head).decoders (s.slu.cfg.defClass.getD head 0) addr = some (dec, cls, dpa) →
      violation s head dpa = none →
      exec (.memWr head mv addr data poison) s = .next (arrive (8 * head + cls) ⟨s.req.next, 128, dpa / 64⟩ (addReq {
        id := s.req.next, kind := .wr, mv := mv, head := head, cls := cls, line := dpa / 64, data := data, mask := BitVec.allOnes 64, poison := poison, db := (s.head head).biActive, since := s.time.elapsed } s)))
  ∧ (∀ (head : Nat) (mv : MetaVal) (addr : Nat) (data : Line) (mask : BitVec 64) (dec cls dpa : Nat) (s : State),
      head < 8 →
      headUp s head = true →
      s.flt.halted = false →
      decodeHost (s.head head).decoders (s.slu.cfg.defClass.getD head 0) addr = some (dec, cls, dpa) →
      violation s head dpa = none →
      exec (.memWrPtl head mv addr data mask) s = .next (arrive (8 * head + cls) ⟨s.req.next, 128, dpa / 64⟩ (addReq {
        id := s.req.next, kind := .wrPtl, mv := mv, head := head, cls := cls, line := dpa / 64, data := data, mask := mask, poison := false, db := (s.head head).biActive, since := s.time.elapsed } s)))
  ∧ (∀ (head : Nat) (kind : ReqKind) (mv : MetaVal) (addr : Nat) (d : Line) (mask : BitVec 64) (poison : Bool) (dec cls dpa why : Nat) (s : State),
      headUp s head = true →
      s.flt.halted = false →
      decodeHost (s.head head).decoders (s.slu.cfg.defClass.getD head 0) addr = some (dec, cls, dpa) →
      violation s head dpa = some why →
      memRequest head kind mv addr d mask poison s = raiseHead head 0 (le 8 addr ++ le 1 dec ++ le 1 why) (refuseReq {
        id := s.req.next, kind := kind, mv := mv, head := head, cls := cls, line := dpa / 64, data := d, mask := mask, poison := poison
        db := (s.head head).biActive, since := s.time.elapsed } s))
  ∧ (∀ (head : Nat) (kind : ReqKind) (mv : MetaVal) (addr : Nat) (d : Line) (mask : BitVec 64) (poison : Bool) (s : State),
      headUp s head = true →
      s.flt.halted = false →
      decodeHost (s.head head).decoders (s.slu.cfg.defClass.getD head 0) addr = none →
      memRequest head kind mv addr d mask poison s = raiseHead head 0 (le 8 addr ++ le 1 0xFF ++ le 1 0) (refuseReq {
        id := s.req.next, kind := kind, mv := mv, head := head, cls := 0, line := addr / 64, data := d, mask := mask, poison := poison
        db := (s.head head).biActive, since := s.time.elapsed } s))
  ∧ (∀ (head addr : Nat) (s : State),
      head < 8 →
      exec (.memSpecRd head addr) s = .next s)
  ∧ (∀ (head addr dec cls dpa : Nat) (s : State),
      head < 8 →
      headUp s head = true →
      decodeHost (s.head head).decoders (s.slu.cfg.defClass.getD head 0) addr = some (dec, cls, dpa) →
      ((s.req.reqs.any fun r => r.head == head && r.line == dpa / 64 && !r.kind.isWrite && orderedReq s r) = false) →
      exec (.biConflict head addr) s = .next (sendHead head (.ndr head (dpa / 64) .biConflictAck (devLoad s head)) s))

/-- Where no other request could share its cycle, the scheduler takes the request at the front of the sluice it chooses
and sends it on its path, whatever number of requests a cycle has room for (a free value, log entry 66). The oldest
waiter of a line that is neither busy nor reserved is granted, and so is the oldest waiter of a set that has a free
way or a victim. When the walker has what it read, the page's entry is loaded and each request that waited for it goes
on. A line's first read, and a later step of its ladder, goes on as its outcome says. A write that its channels have
room for changes memory and is completed. The oldest command of a retry buffer leaves it, with a line's copy also its
channel in the in-flight write table, with a warm chunk its wait, and the channel issues what it has room for. Writes
that waited at a page are tried again. A head's answer to a snoop is taken, and a snoop that is late raises its event
and takes the head's link down. (01_request_path.md R14; 01_request_path.md R15; 01_request_path.md R20;
01_request_path.md R21; 07_coherence.md R201; 07_coherence.md R204; 07_coherence.md R206; 07_coherence.md R207;
07_coherence.md R208; 04_durability.md R104) -/
def Obligations.RequestPath : Prop :=
  (∀ (i t : Nat) (q : QEnt) (rest : List QEnt) (r : Req) (s u : State),
      s.flt.halted = false →
      s.boot.devReset = none →
      u = { s with free := s.free + 1 } →
      choose u = some (i, t) →
      (u.sluice i).queue = q :: rest →
      u.req? q.rid = some r →
      u.slu.waiting = [] →
      pendingOpen u 0 r = true →
      (r.kind.isWrite = true → u.req.ifwt.length + writesInside u < 4096) →
      choose (takeFront i t u) = none →
      exec .schedulerDispatch s = .next (enterPath r (takeFront i t u)))
  ∧ (∀ (l : Nat) (q : PqEnt) (r : Req) (s : State),
      ((s.dir.pq.find? fun q => q.line == l) = some q) →
      q.setWait = false →
      s.req? q.rid = some r →
      lineBusy s l = false →
      reservedOther s r = false →
      exec (.pendingQueueGrant l) s = .next (grantWithWay r (dequeue q.rid s)))
  ∧ (∀ (set : Nat) (q : PqEnt) (r : Req) (s : State),
      ((s.dir.pq.find? fun q => q.setWait && dirSet q.line == set) = some q) →
      ((wayEnts s set).length < 16 ∨ ((victim s set).isSome = true ∧ s.dir.evict.length < 512)) →
      s.req? q.rid = some r →
      lineBusy s q.line = false →
      reservedOther s r = false →
      exec (.setWaitRetry set) s = .next (grantWithWay r (dequeue q.rid s)))
  ∧ (∀ (page : Nat) (s : State),
      ((s.req.reqs.any fun r => r.st == .walk && r.line / 64 == page) = true) →
      walking s page = false →
      cached (loadEntry page s) page = true →
      exec (.mapWalkComplete page) s = .next ((s.req.reqs.filter fun r => r.st == .walk && r.line / 64 == page).foldl
        (fun t r => match t.req? r.id with | some r => accessPage r t | none => t) (loadEntry page s)))
  ∧ (∀ (rid c : Nat) (r : Req) (bad : List Nat) (missing : Bool) (out : ReadOutcome) (s : State),
      s.pmc.armed = [] →
      s.req? rid = some r →
      readWaits s rid = false →
      r.st = .line c 1 bad missing →
      exec (.dramReadReturn rid out) s = .next (lineReturn r c 1 bad missing out s))
  ∧ (∀ (rid c n : Nat) (r : Req) (bad : List Nat) (missing : Bool) (out : ReadOutcome) (s : State),
      s.req? rid = some r →
      r.st = .line c n bad missing →
      readWaits s rid = false →
      2 ≤ n →
      exec (.degradedFetchReturn rid out) s = .next (lineReturn r c n bad missing out s))
  ∧ (∀ (rid minor f : Nat) (ovl : Bool) (r : Req) (s : State),
      s.pmc.armed = [] →
      s.req? rid = some r →
      r.st = .write ovl minor f →
      acceptOpen s f = true →
      r.isChain = false →
      exec (.dramWriteAccepted rid) s = .next (wakeOrdered r.line (finishWrite r (acceptWrite r ovl minor f s))))
  ∧ (∀ (c : Nat) (k : DramCmd) (rest : List DramCmd) (s : State),
      c < 16 →
      (s.chan c).replaying = false →
      (s.chan c).retry = k :: rest →
      k.read = false →
      k.key < 2 ^ 60 →
      exec (.retryBufferRetire c) s = .next (drainFixes (issueAll c (releaseEntry c k.key (s.modChan c fun x => { x with retry := rest })))))
  ∧ (∀ (c : Nat) (k : DramCmd) (rest : List DramCmd) (s : State),
      c < 16 →
      (s.chan c).replaying = false →
      (s.chan c).retry = k :: rest →
      k.read = true →
      exec (.retryBufferRetire c) s = .next (drainFixes (issueAll c (s.modChan c fun x => { x with retry := rest }))))
  ∧ (∀ (c : Nat) (k : DramCmd) (rest : List DramCmd) (s : State),
      c < 16 →
      (s.chan c).replaying = false →
      (s.chan c).retry = k :: rest →
      k.read = false →
      2 ^ 60 ≤ k.key →
      exec (.retryBufferRetire c) s = .next (drainFixes (issueAll c (chunkArrived c (k.key - 2 ^ 60) (s.modChan c fun x => { x with retry := rest })))))
  ∧ (∀ (page : Nat) (s : State),
      overlayCount s < ovlHardLimit s →
      exec (.waitingWriteResume page) s = .next (wakeWaiting page { s with map := { s.map with ovlFull := false } }))
  ∧ (∀ (head line : Nat) (rsp : BiRspKind) (x : SnoopOut) (s : State),
      head < 8 →
      ((s.dir.snoops.find? fun x => x.head == head && x.line == line) = some x) →
      remoteLine s line = false →
      exec (.biRsp head line rsp) s = .next (biRsp head line rsp s))
  ∧ (∀ (head line : Nat) (x : SnoopOut) (s : State),
      head < 8 →
      ((s.dir.snoops.find? fun x => x.head == head && x.line == line) = some x) →
      x.since + 2 ^ s.slu.cfg.snoopLimit.getD head 17 ≤ s.time.elapsed →
      exec (.snoopTimeout head line) s = .next (headDown head 5 (raise 130 0 (concerned head) (.addr (64 * line)) (le 1 head ++ le 8 line) s)))

/-- A tick advances local time by one and chain time by one more than its slew step, refills the sluices, counts event
0x30 and lets delayed responses leave. A read of a low word answers it and latches the high word for its head. A valid
TREF edge holds TREF and removes the offset to the nearest second, an edge outside the window is counted; after three
expected edges without a valid one TREF is lost and holdover is timed from then, to end after 2^30 ticks. At a
multiple of 2^14 ticks a device of rank above 0 that follows nobody sends TIME frames on both ports. A frame to follow
makes its sender the upstream and removes the offset to it; a damaged frame, and one in the tick of a valid edge,
changes nothing. 2^16 ticks without a frame end following. A window boundary is worked once at its multiple. How the
delay of a frame is rounded and when edges count as missed is the model's choice (log 63). (02_chain_time.md R36;
02_chain_time.md R37; 02_chain_time.md R38; 02_chain_time.md R41; 02_chain_time.md R43; 02_chain_time.md R44;
02_chain_time.md R45; 02_chain_time.md R46; 02_chain_time.md R58; 08_sluices.md R240) -/
def Obligations.ChainTime : Prop :=
  (∀ (s : State),
      s.boot.phase ≠ .auxOff →
      exec .localTick s = .next (admitWaiting (sendLate (pmcCount (evOf 0x30 0 0) (refillAll { s with time := tickTime s.time }))))
        ∧ (tickTime s.time).elapsed = wrap64 (s.time.elapsed + 1)
        ∧ (s.time.slewLeft = 0 → (tickTime s.time).chain = moved s.time.chain 1)
        ∧ (s.time.slewLeft ≠ 0 → (tickTime s.time).chain = moved s.time.chain (1 + slewStep s.time.slew s.time.slewLeft)))
  ∧ (∀ (head : Nat) (s : State),
      head < 8 →
      canRead s head = true →
      exec (.ctbNowLoRead head) s = .next ({ s with time := { s.time with
        nowHi := s.time.nowHi.set head (s.time.chain / 2 ^ 32) } }.emit (.reg head 0x10000 (s.time.chain % 2 ^ 32))))
  ∧ (∀ (head : Nat) (s : State),
      head < 8 →
      canRead s head = true →
      exec (.ctbLocalLoRead head) s = .next ({ s with time := { s.time with
        localHi := s.time.localHi.set head (s.time.elapsed / 2 ^ 32) } }.emit (.reg head 0x10018 (s.time.elapsed % 2 ^ 32))))
  ∧ (∀ (s : State),
      s.boot.phase ≠ .auxOff →
      s.time.enTref = true →
      edgeValid s.time = true →
      exec .trefEdge s = .next (retime (correct (edgeOffset s.time.chain) { s with time := { s.time with
        trefHeld := true, lostAt := none, missed := 0, firstEdge := false, lastEdge := s.time.elapsed
        edgeAt := some s.time.elapsed } })))
  ∧ (∀ (s : State),
      s.boot.phase ≠ .auxOff →
      s.time.enTref = true →
      s.time.firstEdge = false →
      256 < (edgeOffset s.time.chain).natAbs →
      exec .trefEdge s = .next (edgeOutside s))
  ∧ (∀ (s : State),
      s.time.trefHeld = true →
      s.time.enTref = true →
      3 ≤ missedEdges s.time →
      Answers (exec .trefLost s) fun t => ∃ u, u = { s with time := { s.time with
          trefHeld := false, lostAt := some s.time.elapsed, missed := 3 } }
        ∧ t = retime (raiseAll 1478 0 (le 1 3 ++ le 1 u.time.rank) u))
  ∧ (∀ (l : Nat) (s : State),
      s.time.lostAt = some l →
      l + 1073741824 ≤ s.time.elapsed →
      exec .holdoverExpire s = .next (retime { s with time := { s.time with lostAt := none } }))
  ∧ (∀ (s : State),
      s.boot.phase ≠ .auxOff →
      s.flt.halted = false →
      atMultiple s.time 14 = true →
      s.time.following = false →
      s.time.rank ≠ 0 →
      Answers (exec .timeFrameSend s) fun t => ∃ u, u = retime { s with time := { s.time with
          following := false, forward := false, master := true } }
        ∧ t = sendTime 1 u.time.rank u.chain.id 0 (sendTime 0 u.time.rank u.chain.id 0 u))
  ∧ (∀ (port sec frac w rank master hops : Nat) (s : State),
      port < 2 →
      (s.port port).st = .up →
      s.time.enChain = true →
      s.flt.halted = false →
      w = s.time.w →
      frameYields s.time = false →
      follows s port rank master hops = true →
      exec (.timeFrameReceive port sec frac w rank master hops true) s = .next (retime (correct (frameOffset s port sec frac)
        { s with time := { s.time with
          following := true, master := false, upstream := port, hops := hops + 1, masterId := master, masterRank := rank
          lastFrame := s.time.elapsed, forward := true, offset := satSigned 24 (frameOffset s port sec frac)
          yieldAt := if (s.time.master && s.time.rank == 1) = true then some s.time.elapsed else s.time.yieldAt } })))
  ∧ (∀ (port sec frac w rank master hops : Nat) (s : State),
      port < 2 →
      exec (.timeFrameReceive port sec frac w rank master hops false) s = .next s)
  ∧ (∀ (port sec frac w rank master hops : Nat) (s : State),
      port < 2 →
      w = s.time.w →
      s.time.edgeAt = some s.time.elapsed →
      exec (.timeFrameReceive port sec frac w rank master hops true) s = .next s)
  ∧ (∀ (s : State),
      s.time.following = true →
      s.time.lastFrame + 65536 ≤ s.time.elapsed →
      exec .upstreamLoss s = .next (retime { s with time := { s.time with following := false, forward := false } }))
  ∧ (∀ (s : State),
      s.boot.phase.keeper = true →
      atMultiple s.time s.time.w = true →
      s.time.lastWindow ≠ s.time.chain →
      s.flt.halted = false →
      exec .regulationWindowBoundary s = .next (windowBoundary s))

/-- SET_CHAIN_TIME sets chain time where the host may set it, SET_TIME_SOURCE enables the sources, and SET_TIMESTAMP from
a head that does not manage the device changes only the host offset. SET_SLUICE, SET_GUARANTEE and SET_MASTER_ATTR put
the configuration they ask for where the next window boundary finds it, when its parameters are lawful and its
guarantees are admissible; an empty heat decay berth map is refused. GET_CHAIN_TIME, GET_TIMESTAMP, GET_SLUICE,
GET_BW_COUNTERS and GET_DELIVERABLE_FLOOR answer from the state and change nothing but the mailbox. (02_chain_time.md
R40; 02_chain_time.md R41; 02_chain_time.md R51; 08_sluices.md R233; 08_sluices.md R235; 08_sluices.md R236;
08_sluices.md R243; 08_sluices.md R244; 09_host_ports.md R257) -/
def Obligations.TimeAndBandwidthCommands : Prop :=
  (∀ (m : Mb) (p : List Byte) (s : State),
      accepts setChainTimeSpec s m p = true →
      settable s.time = true →
      exec (.setChainTime m p) s = .next (finished 0xC011 m [] s (hostSetTime (ofLe p 0 8) s)))
  ∧ (∀ (m : Mb) (p : List Byte) (s : State),
      accepts setTimeSourceSpec s m p = true →
      exec (.setTimeSource m p) s = .next (finished 0xC012 m [] s (setTimeSource (byteAt p 0) s)))
  ∧ (∀ (m : Mb) (p : List Byte) (s : State),
      accepts getChainTimeSpec s m p = true →
      24 ≤ limitOf s m.src →
      exec (.getChainTime m p) s = .next (reply m 0xC010 .success 0
        (le 8 s.time.chain ++ le 8 s.time.elapsed ++ le 4 (ctbStatus s) ++ le 4 (twos 24 s.time.offset)) s))
  ∧ (∀ (m : Mb) (p : List Byte) (s : State),
      acceptsStd { opcode := 0x0301 } s m = true →
      p.length = 8 →
      m.src < 8 →
      isManaging s m.src = false →
      exec (.setTimestamp m p) s = .next (reply m 0x0301 .success 0 [] { s with time := { s.time with
        hostOfs := satSigned 24 ((ofNanos (ofLe p 0 8) : Int) - s.time.chain) } }))
  ∧ (∀ (m : Mb) (p : List Byte) (s : State),
      acceptsStd { opcode := 0x0300 } s m = true →
      8 ≤ limitOf s m.src →
      exec (.getTimestamp m p) s = .next (reply m 0x0300 .success 0 (le 8 (seconds s.time.chain * 10 ^ 9
        + fraction s.time.chain * 10 ^ 9 / 2 ^ 24)) s))
  ∧ (∀ (m : Mb) (p : List Byte) (c : SlConfig) (s : State),
      accepts setSluiceSpec s m p = true →
      c = setSluiceCfg p s.slu.next →
      parsOk c (byteAt p 0) = true →
      admissible s c = true →
      exec (.setSluice m p) s = .next (finished 0xC300 m [] s { s with
        slu := { s.slu with next := c }, time := if bitAt p 2 3 then { s.time with wNext := byteAt p 3 } else s.time }))
  ∧ (∀ (m : Mb) (p : List Byte) (s : State),
      accepts setGuaranteeSpec s m p = true →
      parsOk (setGuaranteeCfg p s.slu.next) (byteAt p 0) = true →
      admissible s (setGuaranteeCfg p s.slu.next) = true →
      exec (.setGuarantee m p) s = .next (finished 0xC302 m [] s { s with slu := { s.slu with next := setGuaranteeCfg p s.slu.next } }))
  ∧ (∀ (m : Mb) (p : List Byte) (c : SlConfig) (s : State),
      accepts setMasterAttrSpec s m p = true →
      c = setAttrCfg (byteAt p 0) (byteAt p 1) (ofLe p 8 8) s.slu.next →
      (¬ (byteAt p 1 = 3 ∧ byteAt p 0 = 17 ∧ ofLe p 8 8 = 0)) →
      parsOk c (byteAt p 0) = true →
      anyRekeyTooSlow s c = false →
      admissible s c = true →
      exec (.setMasterAttr m p) s = .next (finished 0xC305 m [] s { s with slu := { s.slu with next := c } }))
  ∧ (∀ (m : Mb) (p : List Byte) (s : State),
      accepts setMasterAttrSpec s m p = true →
      byteAt p 1 = 3 ∧ byteAt p 0 = 17 ∧ ofLe p 8 8 = 0 →
      exec (.setMasterAttr m p) s = .next (failCmd setMasterAttrSpec m 0x0301 8 s))
  ∧ (∀ (m : Mb) (p : List Byte) (s : State),
      accepts getSluiceSpec s m p = true →
      outFits s m (sluiceBytes s (byteAt p 0) (byteAt p 1)) = true →
      exec (.getSluice m p) s = .next (reply m 0xC301 .success 0 (sluiceBytes s (byteAt p 0) (byteAt p 1)) s))
  ∧ (∀ (m : Mb) (p out : List Byte) (s : State),
      accepts getBwCountersSpec s m p = true →
      (out = le 4 s.slu.snap.seq ++ le 8 s.slu.snap.start ++ le 4 (bwcFactor s.slu.snap) ++ le 4 s.slu.snap.floor
      ++ le 4 s.slu.snap.budget ++ le 4 s.slu.snap.hp ++ (s.slu.snap.dramp.map (le 4)).flatten ++ le 4 s.slu.snap.status
      ++ ((List.range (byteAt p 1)).map fun i => bwcCounts s.slu.snap (byteAt p 0 + i)).flatten) →
      outFits s m out = true →
      exec (.getBwCounters m p) s = .next (reply m 0xC303 .success 0 out s))
  ∧ (∀ (m : Mb) (p : List Byte) (s : State),
      accepts getFloorSpec s m p = true →
      outFits s m (floorBytes s) = true →
      exec (.getDeliverableFloor m p) s = .next (reply m 0xC304 .success 0 (floorBytes s) s))

/-- A commit of a move whose result is all zeros makes the page a zero page, one whose block stands ready in a live barge
of the target tier puts the block into the page's entry, and a dredging commit puts the copied block there; each
releases the lock as every commit does. A barge commits its blocks when no chunk of it is awaited, and nothing if it
was abandoned. A berth boundary is worked once and a cycle boundary once a second. Keeper firmware records what its
open outings have done and then starts what it may. A fenced DIMM that is recorded LOST raises UNIT_LOST with the slot
and the cause. (03_tiers_and_placement.md R74; 03_tiers_and_placement.md R89; 03_tiers_and_placement.md R92;
02_chain_time.md R52; 04_durability.md R110; 04_durability.md R113; 11_drive_ports.md R308) -/
def Obligations.MoversAndBerths : Prop :=
  (∀ (page : Nat) (d : MoveDest) (l : Lock) (s : State),
      s.flt.halted = false →
      lockOf s page = some l →
      l.reading = true →
      (keyRangeOf s (4096 * l.page)).isSome = true →
      l.kind ≠ .dredge →
      l.kind ≠ .rebuild →
      overlayWrites s l.page = false →
      zeroResult s l = true →
      exec (.moverCommit page d) s = .next (afterCommit l (s.page l.page) (commitZero l (if l.tier = 0 then 0 else l.wm) s)))
  ∧ (∀ (page : Nat) (d : MoveDest) (l : Lock) (s : State),
      s.flt.halted = false →
      lockOf s page = some l →
      l.reading = true →
      (keyRangeOf s (4096 * l.page)).isSome = true →
      l.kind ≠ .dredge →
      l.kind ≠ .rebuild →
      overlayWrites s l.page = false →
      zeroResult s l = false →
      blockReady s l d = true →
      exec (.moverCommit page d) s = .next (afterCommit l (s.page l.page) (commitBlock l d s)))
  ∧ (∀ (page : Nat) (d : MoveDest) (l : Lock) (s : State),
      s.flt.halted = false →
      lockOf s page = some l →
      l.reading = true →
      (keyRangeOf s (4096 * l.page)).isSome = true →
      l.kind = .dredge →
      blockReady s l d = true →
      exec (.moverCommit page d) s = .next (afterCommit l (s.page l.page) (commitCopy l d s)))
  ∧ (∀ (t b : Nat) (blocks : List BlockPut) (w : BargeWrite) (s : State),
      s.flt.halted = false →
      ((s.drives.writes.find? fun w => w.tier == t && w.barge == b) = some w) →
      w.waiting = [] →
      w.abandoned = false →
      exec (.bargeWriteCommit t b blocks) s = .next (commitBarge t b blocks { s with
        drives := { s.drives with writes := s.drives.writes.filter (· != w) } }))
  ∧ (∀ (t b : Nat) (blocks : List BlockPut) (w : BargeWrite) (s : State),
      s.flt.halted = false →
      ((s.drives.writes.find? fun w => w.tier == t && w.barge == b) = some w) →
      w.waiting = [] →
      w.abandoned = true →
      exec (.bargeWriteCommit t b blocks) s = .next { s with drives := { s.drives with
        writes := s.drives.writes.filter (· != w) } })
  ∧ (∀ (plan : BerthPlan) (s : State),
      s.boot.phase = .ready →
      s.flt.halted = false →
      s.time.chain / 262144 ≠ s.time.lastBerth / 262144 →
      exec (.berthBoundary plan) s = .next (berthWork plan { s with time := { s.time with lastBerth := s.time.chain } }))
  ∧ (∀ (plan : BerthPlan) (s : State),
      s.time.chain / 262144 = s.time.lastBerth / 262144 →
      exec (.berthBoundary plan) s = .next s)
  ∧ (∀ (polls : List DrivePoll) (s : State),
      s.boot.phase = .ready →
      s.flt.halted = false →
      seconds s.time.chain ≠ seconds s.time.lastCycle →
      exec (.berthCycleBoundary polls) s = .next (cycleWork polls { s with time := { s.time with lastCycle := s.time.chain } }))
  ∧ (∀ (s : State),
      keeperOff s = false →
      keeperPaused s = false →
      exec .keeperStep s = .next (refreshHolds (startRefills (resumeTandem (keepVotes (resumeCodec (resumeRekey
        ((s.crity.outings.filter (·.open_)).foldl (fun u o => match findOuting u o.id with
          | some x => if x.open_ then recordUnits u x else u
          | none => u) s))))))))
  ∧ (∀ (slot : Nat) (s : State),
      slot < 32 →
      keeperOff s = false ∧ keeperPaused s = false →
      (s.unit slot).fenced = true →
      (s.unit slot).health = .healthy →
      (s.slot slot).st ≠ .fetShort →
      Answers (exec (.unitRecordLost slot) s) fun t => ∃ u, t = (if deferred u slot then refreshHolds u else reprotect slot u)
        ∧ u = failUnitOutings slot (raise 322 0 0xFF .all (le 1 slot ++ le 1 (s.unit slot).cause) (s.modUnit slot fun u => { u with
          health := .lost, catchUp := [], hotMark := 0, warmMark := 0 })))

/-- SET_TIER_GEOMETRY with a policy alone, while no capacity is offered, stages the policy; with a geometry alone, while
every page reads zeros and the drives and the reserve suffice, it commits the geometry. PLACE_HINT and PIN_PAGES set
the PIN of the span's pages where the pins fit, UNPIN_PAGES clears it, and pages in a tier that the PIN forbids are
queued. STAGE_PAGES opens a stage outing over the span's pages outside the tier whose PIN allows it and answers its
number. GET_CAPACITY and GET_HEAT answer from the map and change nothing but the mailbox. (03_tiers_and_placement.md
R75; 03_tiers_and_placement.md R77; 03_tiers_and_placement.md R93; 03_tiers_and_placement.md R95;
03_tiers_and_placement.md R96; 03_tiers_and_placement.md R97) -/
def Obligations.PlacementCommands : Prop :=
  (∀ (m : Mb) (p : List Byte) (s : State),
      accepts setTierGeometrySpec s m p = true →
      bitAt p 3 0 = false →
      bitAt p 3 1 = true →
      s.map.geo.offeredGib = 0 →
      exec (.setTierGeometry m p) s = .next (finished 0xC200 m [] s { s with map := { s.map with polNext := some (policyOf p) } }))
  ∧ (∀ (m : Mb) (p : List Byte) (g : Geometry) (s : State),
      accepts setTierGeometrySpec s m p = true →
      bitAt p 3 0 = true →
      bitAt p 3 1 = false →
      g = geometryOf s (byteAt p 0) (byteAt p 1) (byteAt p 2) →
      allZero s = true →
      byteAt p 1 + byteAt p 2 ≤ (healthyDrives s).length →
      populationOk s = true →
      reserveOk s g (s.map.polNext.getD s.map.pol).ovlSoft = true →
      exec (.setTierGeometry m p) s = .next (finished 0xC200 m [] s (commitGeometry g s)))
  ∧ (∀ (m : Mb) (p : List Byte) (s : State),
      accepts getCapacitySpec s m p = true →
      outFits s m (capacityBytes s) = true →
      exec (.getCapacity m p) s = .next (reply m 0xC201 .success 0 (capacityBytes s) s))
  ∧ (∀ (m : Mb) (p : List Byte) (s : State),
      (accepts (pageSpec 0xC202 fun v => decide (3 ≤ v ∧ v ≤ 6)) s m p = true) →
      pinsFit s (setPin (ofLe p 0 8) (ofLe p 8 8) (byteAt p 16) s.map.pins) = true →
      exec (.placeHint m p) s = .next (finished 0xC202 m [] s (repin (ofLe p 0 8) (ofLe p 8 8) { s with map := { s.map with
        pins := setPin (ofLe p 0 8) (ofLe p 8 8) (byteAt p 16) s.map.pins } })))
  ∧ (∀ (m : Mb) (p : List Byte) (s : State),
      (accepts (pageSpec 0xC203 fun v => v == 1 || v == 2 || v == 7) s m p = true) →
      pinsFit s (setPin (ofLe p 0 8) (ofLe p 8 8) (byteAt p 16) s.map.pins) = true →
      exec (.pinPages m p) s = .next (finished 0xC203 m [] s (repin (ofLe p 0 8) (ofLe p 8 8) { s with map := { s.map with
        pins := setPin (ofLe p 0 8) (ofLe p 8 8) (byteAt p 16) s.map.pins } })))
  ∧ (∀ (m : Mb) (p : List Byte) (s : State),
      (accepts (pageSpec 0xC204 fun _ => true) s m p = true) →
      exec (.unpinPages m p) s = .next (finished 0xC204 m [] s (repin (ofLe p 0 8) (ofLe p 8 8) { s with map := { s.map with
        pins := setPin (ofLe p 0 8) (ofLe p 8 8) 0 s.map.pins } })))
  ∧ (∀ (m : Mb) (p : List Byte) (work : List Nat) (s : State),
      (accepts (pageSpec 0xC205 fun v => decide (v ≤ 2)) s m p = true) →
      ((s.crity.outings.countP fun o => o.open_ && o.kind == 0x0A) < 64) →
      4 ≤ limitOf s m.src →
      (work = (s.map.pages.filter fun x => decide ((spanOf p).1 ≤ x.1) && decide (x.1 < (spanOf p).1 + (spanOf p).2) && x.2.outside (byteAt p 16)
        && pinAllows (pinOf s x.1) (byteAt p 16)).map (·.1)) →
      exec (.stagePages m p) s = .next (finished 0xC205 m (le 4 s.crity.nextOuting) s (refreshHolds
        ((openOuting 0x0A m.src 0xFFFFFFFF (spanOf p).2 work
          (countOverrides 0 (forbidden s.map.pins (spanOf p).1 (spanOf p).2 (byteAt p 16)) s)).modOuting s.crity.nextOuting fun o =>
            { o with tier := byteAt p 16, done := (spanOf p).2 - work.length, percent := openPercent ((spanOf p).2 - work.length) (spanOf p).2 }))))
  ∧ (∀ (m : Mb) (p : List Byte) (s : State),
      accepts getHeatSpec s m p = true →
      outFits s m (getHeatBytes p s) = true →
      exec (.getHeat m p) s = .next (reply m 0xC206 .success 0 (getHeatBytes p s) s))

/-- BEGIN_REPLACE of a drive by force fences and records the unit and takes its slot down. END_REPLACE of a slot that is
off powers it and goes on in the background. When the grace of a DIMM's replacement ends, it is marked as over, and
re-protection starts unless the replacement has let it start before. A held DIMM whose channel is up is restored
through a catch-up outing. GET_LOSS_LIST answers the entries its issuer may see and changes nothing but the mailbox.
CLEAR_LOSS_ENTRY zeroes the lines of an entry that is not a remote line's and removes it. (04_durability.md R113;
04_durability.md R118; 04_durability.md R119; 04_durability.md R123; 04_durability.md R124; 04_durability.md R125;
04_durability.md R126) -/
def Obligations.Replacements : Prop :=
  (∀ (m : Mb) (p : List Byte) (s : State),
      accepts beginReplaceSpec s m p = true →
      32 ≤ byteAt p 0 →
      bitAt p 1 0 = true →
      Answers (exec (.beginReplace m p) s) fun t => ∃ v u, t = finished 0xCA04 m [] s (refreshHolds (slotOff (byteAt p 0) 1 3 u))
        ∧ v = recordLost (byteAt p 0) (fenceUnit (byteAt p 0) 3 s)
        ∧ (u = v ∨ ∃ r, u = { v with dur := { v.dur with repl := v.dur.repl ++ [r] } } ∧ r.slot = byteAt p 0 ∧ r.expired = true))
  ∧ (∀ (m : Mb) (p : List Byte) (r : Replacement) (s : State),
      (accepts { beginReplaceSpec with
      opcode := 0xCA05, checks := fun p _ => [⟨0, decide (byteAt p 0 ≤ 47), 0x0007⟩] } s m p = true) →
      replOf s (byteAt p 0) = some r →
      r.ending = false →
      (s.slot (byteAt p 0)).present = true →
      (s.slot (byteAt p 0)).st = .off →
      (bgOf s m.src).busy = false →
      exec (.endReplace m p) s = .next (started 0xCA05 m (.endReplace (byteAt p 0)) (powerUp (byteAt p 0)
        (s.modRepl (byteAt p 0) fun r => { r with ending := true, trained := false }))))
  ∧ (∀ (slot : Nat) (r : Replacement) (s : State),
      slot < 32 →
      s.flt.halted = false ∧ s.boot.phase.keeper = true →
      replOf s slot = some r →
      r.expired = false →
      r.reprotect = true →
      r.grace ≤ s.time.elapsed →
      (s.unit (otherSlot slot)).health = .healthy →
      exec (.graceExpire slot) s = .next (s.modRepl slot fun r => { r with expired := true }))
  ∧ (∀ (slot : Nat) (r : Replacement) (s : State),
      slot < 32 →
      s.flt.halted = false ∧ s.boot.phase.keeper = true →
      replOf s slot = some r →
      r.expired = false →
      r.reprotect = false →
      r.grace ≤ s.time.elapsed →
      (s.unit (otherSlot slot)).health = .healthy →
      (s.unit slot).health = .lost →
      exec (.graceExpire slot) s = .next (reprotect slot (s.modRepl slot fun r => { r with expired := true })))
  ∧ (∀ (slot : Nat) (s : State),
      slot < 32 →
      s.flt.halted = false →
      keeperPaused s = false →
      (s.unit slot).health = .held ∧ (s.unit slot).fenced = false →
      (s.dom (domDC (slotChannel slot))).st = .on ∧ (s.dom (domDC (slotChannel slot))).padsHeld = false →
      s.dur.repl = [] →
      s.crity.outings = [] →
      exec (.heldDimmRestore slot) s = .next (startRefills (startOuting 5 0xFF slot (s.unit slot).catchUp.length
        (s.unit slot).catchUp s)))
  ∧ (∀ (m : Mb) (p : List Byte) (s : State),
      accepts getLossListSpec s m p = true →
      outFits s m (lossList m.src p s) = true →
      exec (.getLossList m p) s = .next (reply m 0xC207 .success 0 (lossList m.src p s) s))
  ∧ (∀ (m : Mb) (p : List Byte) (e : LossEntry) (s : State),
      accepts clearLossEntrySpec s m p = true →
      s.dur.loss.find? (·.seq == ofLe p 0 4) = some e →
      isManaging s m.src = true →
      e.cause ≠ 5 →
      exec (.clearLossEntry m p) s = .next (finished 0xC208 m [] s (zeroEntry e s)))

/-- When an engine's item under way ends and no stall holds it, the engine starts its next item; a compression keeps its
block with the move, as a raw block after an injected or a real verification mismatch, a decompression is answered,
and one whose stream does not decode counts as a decode failure. A raw block has SIZE 16, and a stream of n bytes the
sectors that it and its header fill, or 16 beyond 3,808 bytes. A watchdog makes an engine in service suspect with the
kind and the page or job of its work, and does nothing on an idle one. A suspect engine's test is started by Keeper
firmware; a pass returns it to service with its counts cleared, a failure makes it FAILED. (05_compression.md R130;
05_compression.md R132; 05_compression.md R133; 05_compression.md R134; 05_compression.md R137; 05_compression.md
R138; 05_compression.md R142; 05_compression.md R145) -/
def Obligations.CodecEngines : Prop :=
  (∀ (e : Nat) (i : Item) (s : State),
      e < 32 →
      stalled s e = false →
      (s.engine e).now = some i →
      i.dec = false →
      armedFor 0x0B e i.page (freeEngine e s) = none →
      exec (.codecItemComplete e .compressed) s = .next (compressed e i.page (freeEngine e s)))
  ∧ (∀ (e : Nat) (i : Item) (a : Armed) (s : State),
      e < 32 →
      stalled s e = false →
      (s.engine e).now = some i →
      i.dec = false →
      armedFor 0x0B e i.page (freeEngine e s) = some a →
      exec (.codecItemComplete e .compressed) s = .next (mismatch e i.page (useArmed a (freeEngine e s))))
  ∧ (∀ (e : Nat) (i : Item) (s : State),
      e < 32 →
      stalled s e = false →
      (s.engine e).now = some i →
      i.dec = false →
      exec (.codecItemComplete e .verifyMismatch) s = .next (mismatch e i.page (freeEngine e s)))
  ∧ (∀ (e : Nat) (i : Item) (s : State),
      e < 32 →
      stalled s e = false →
      (s.engine e).now = some i →
      i.dec = true →
      exec (.codecItemComplete e .decoded) s = .next (if streamDecodes s i.page then decoded e i (freeEngine e s)
          else decodeFail e i (freeEngine e s))
        ∧ exec (.codecItemComplete e .decodeFail) s = .next (decodeFail e i (freeEngine e s)))
  ∧ (∀ (e page : Nat) (s : State),
      (rawBlock s e page).size = 16
        ∧ (∀ n, n ≤ 3808 → blockSize n = (n + 32 + 255) / 256) ∧ (∀ n, 3808 < n → blockSize n = 16))
  ∧ (∀ (e : Nat) (i : Item) (s : State),
      e < 32 →
      (s.engine e).st = .inService →
      (s.engine e).now = some i →
      exec (.codecWatchdogExpire e) s = .next (makeSuspect e (raise (srcCodec e 1) 0 0xFF (.addr (4096 * i.page)) (le 1 (if i.dec then 0 else 1) ++ le 8 i.page) s)))
  ∧ (∀ (e j : Nat) (s : State),
      e < 32 →
      (s.engine e).st = .inService →
      (s.engine e).now = none →
      (s.engine e).seg = some j →
      exec (.codecWatchdogExpire e) s = .next (makeSuspect e (raiseAll (srcCodec e 1) 0 (le 1 2 ++ le 8 j) s)))
  ∧ (∀ (e : Nat) (s : State),
      e < 32 →
      (s.engine e).now = none →
      (s.engine e).seg = none →
      exec (.codecWatchdogExpire e) s = .next s)
  ∧ (∀ (e : Nat) (s : State),
      e < 32 →
      (s.engine e).st = .suspect →
      keeperOff s = false →
      exec (.codecSelfTestStart e) s = .next (raiseAll (srcCodec e 2) 2 (le 1 1 ++ le 1 2)
        (s.modEngine e fun x => { x with st := .testing })))
  ∧ (∀ (e : Nat) (s : State),
      e < 32 →
      (s.engine e).st = .testing →
      exec (.codecSelfTestDone e true) s = .next (resumeCodec ((setEngine e .inService s).modEngine e fun x => { x with fails := 0 }))
        ∧ exec (.codecSelfTestDone e false) s = .next (codecUnavailable (setEngine e .failed s)))

/-- An accepted hamper takes the next job number and waits in its queue. A job's next segment takes an engine that may run
bulk work, once the sluice passes its source, no line of it is held and the lines of imports have been fetched. A
segment that ends frees its engine, writes its bytes and moves the job on; a poisoned source line fails the job; a CRC
segment continues the result over its bytes. GET_JOB answers the record. A resumable job is queued again with its new
destination, an open job that no engine works on is cancelled at once, and a stopped job's record goes 2^26 ticks
after it stopped. (05_compression.md R149; 05_compression.md R150; 05_compression.md R151; 05_compression.md R152;
05_compression.md R153; 05_compression.md R154; 05_compression.md R156) -/
def Obligations.BulkJobs : Prop :=
  (∀ (m : Mb) (p : List Byte) (s : State),
      accepts submitJobSpec s m p = true →
      hamperBad s m.src (hamperOf p s.codec.nextJob s.time.chain) = none →
      s.codec.nextJob ≠ 0xFFFFFFFF →
      4 ≤ limitOf s m.src →
      exec (.submitJob m p) s = .next (finished 0xC600 m (le 4 s.codec.nextJob) s (keepVotes { s with codec := { s.codec with
        jobs := s.codec.jobs ++ [hamperOf p s.codec.nextJob s.time.chain], nextJob := wrap 32 (s.codec.nextJob + 1) } })))
  ∧ (∀ (e id : Nat) (j : Job) (u s : State),
      e < 32 →
      s.job? id = some j →
      (j.st = .running ∨ j.st = .queued) →
      j.cancel = none →
      j.denied = false →
      jobOnEngine s id = false →
      s.flt.halted = false →
      jobStop j = none →
      mayRunBulk s e = true →
      sluicePassesAt s j.sluice (spanSum j.srcSpans) = true →
      ((linesOf j.srcSpans).filter (fun l => !(importOf s l).isSome && jobHeld s false l) = []) →
      ((linesOf j.srcSpans).filter (fun l => (importOf s l).isSome && (aget s.codec.fetched l).isNone) = []) →
      (u = (beginWork e ((chargeSluiceAt j.sluice (spanSum j.srcSpans) s).modEngine e fun x => { x with seg := some id })).modJob id fun j =>
        { j with engine := e }) →
      exec (.jobSegmentDispatch e id) s = .next (if j.st = .running then u else moveJob id .running u))
  ∧ (∀ (e id : Nat) (j x : Job) (ws : List (Nat × List Byte)) (s : State),
      e < 32 →
      stalled s e = false →
      (s.engine e).seg = some id →
      s.job? id = some j →
      (linesOf j.srcSpans).any (jobPoison s) = false →
      segAdvance s j = some (x, ws) →
      ((linesOf (ws.map fun y => (y.1, y.2.length))).filter (fun l => (importOf s l).isNone && jobHeld s true l) = []) →
      (sluicePassesAt s j.sluice (spanSum (ws.map fun y => (y.1, y.2.length))) = true) →
      exec (.jobSegmentDone e id) s = .next (afterSegment e id (endJob id ((ws.foldl (fun t y => jobWrite j y t)
        (chargeSluiceAt j.sluice (spanSum (ws.map fun y => (y.1, y.2.length)))
          (dropFetched (linesOf j.srcSpans) (startItem e (s.modEngine e fun x => { x with seg := none }))))).modJob id fun _ => x))))
  ∧ (∀ (j : Job) (s : State),
      j.isStream = false ∧ j.isRs = false →
      segAdvance s j = some ({ j with
          result := crcNext j (j.srcSpans.map (spanBytes s)).flatten
          used := j.used + ((j.srcSpans.map (spanBytes s)).flatten).length }, []))
  ∧ (∀ (e id : Nat) (j : Job) (s : State),
      e < 32 →
      stalled s e = false →
      (s.engine e).seg = some id →
      s.job? id = some j →
      (linesOf j.srcSpans).any (jobPoison s) = true →
      exec (.jobSegmentDone e id) s = .next (stopJob id .failed 0x0704 (dropFetched (linesOf j.srcSpans)
        (startItem e (s.modEngine e fun x => { x with seg := none })))))
  ∧ (∀ (id : Nat) (j : Job) (s : State),
      s.job? id = some j →
      j.open_ = false →
      j.stopped + 67108864 ≤ s.time.elapsed →
      exec (.jobRecordExpire id) s = .next { s with codec := { s.codec with jobs := s.codec.jobs.filter (·.id != id) } })
  ∧ (∀ (m : Mb) (p : List Byte) (j : Job) (s : State),
      accepts getJobSpec s m p = true →
      64 ≤ limitOf s m.src →
      s.job? (ofLe p 0 4) = some j →
      ofLe p 0 4 ≠ 0xFFFFFFFF →
      exec (.getJob m p) s = .next (reply m 0xC601 .success 0 (jobBytes j (m.src == 8)) s))
  ∧ (∀ (m : Mb) (p : List Byte) (j : Job) (s : State),
      accepts resumeJobSpec s m p = true →
      s.job? (ofLe p 0 4) = some j →
      j.st = .resumable →
      dstBad s { j with dstAddr := ofLe p 8 8, dstLen := ofLe p 16 8, outSeg := 0 } 8 = none →
      exec (.resumeJob m p) s = .next (finished 0xC602 m [] s (moveJob (ofLe p 0 4) .queued (s.modJob (ofLe p 0 4) fun _ =>
        { j with dstAddr := ofLe p 8 8, dstLen := ofLe p 16 8, outSeg := 0 }))))
  ∧ (∀ (m : Mb) (p : List Byte) (j : Job) (s : State),
      (accepts { resumeJobSpec with
      opcode := 0xC603, len := fun n => n == 8, resv := [(4, 0xFFFFFFFF)], checks := fun _ _ => [] } s m p = true) →
      s.job? (ofLe p 0 4) = some j →
      j.open_ = true →
      jobOnEngine s (ofLe p 0 4) = false →
      exec (.cancelJob m p) s = .next (finished 0xC603 m [] s (stopJob (ofLe p 0 4) .cancelled 0 s)))

/-- SET_KEY_RANGE makes an unused range valid with its attributes and a fresh root key, the host's or one that the device
generates; on a valid range a change of mask or codec mode alone takes the attributes and restarts the codec history;
with VALID 0 and ERASE it deletes the range under a crypto-erase; the range's jobs are denied. REKEY_RANGE of a range
with one live epoch opens the next and CRYPTO_ERASE erases the range under a new root key, both in the background with
the number of their outing. GET_KEY_RANGE answers the 64 bytes of the range and changes nothing but the mailbox.
Secure Erase does what secureErase does, to every valid range and the device range; Sanitize starts in the background
and leaves no byte of memory but 0. (06_encryption.md R161; 06_encryption.md R162; 06_encryption.md R163;
06_encryption.md R185; 06_encryption.md R187; 06_encryption.md R188; 06_encryption.md R191; 06_encryption.md R516) -/
def Obligations.KeyRangeCommands : Prop :=
  (∀ (m : Mb) (p : List Byte) (s : State),
      accepts setKeyRangeSpec s m p = true →
      (s.range (byteAt p 0 % 16)).valid = false →
      (s.range (byteAt p 0 % 16)).deleted = false →
      (s.range (byteAt p 0 % 16)).rekey = none →
      bitAt p 1 0 = true →
      ofLe p 4 4 + ofLe p 8 4 ≤ s.map.geo.offeredGib →
      (bitAt p 1 2 = true → oneBit (byteAt p 2) = true) →
      (bitAt p 1 5 = true → bitAt p 1 1 = false) →
      (((List.range 16).any fun j => j != byteAt p 0 % 16 && (s.range j).valid
      && decide (ofLe p 4 4 < (s.range j).baseGib + (s.range j).sizeGib) && decide ((s.range j).baseGib < ofLe p 4 4 + ofLe p 8 4)) = false) →
      heldOut s (ofLe p 4 4) (ofLe p 8 4) = false →
      transportOk s m.src p = true →
      rekeyTooSlow s s.slu.next (ofLe p 8 4 * gib) = false →
      exec (.setKeyRange m p) s = .next (finished 0xC100 m [] s ((denyJobs (4096 * (s.range (byteAt p 0 % 16)).span.1)
        (4096 * ((s.range (byteAt p 0 % 16)).span.2 - (s.range (byteAt p 0 % 16)).span.1)) (newRoot (hostKey p) s).2).modRange
          (byteAt p 0 % 16) fun k => { freshKey (newRoot (hostKey p) s).1 true (withAttrs p k) with eraseFresh := [] })))
  ∧ (∀ (m : Mb) (p : List Byte) (s : State),
      accepts setKeyRangeSpec s m p = true →
      (s.range (byteAt p 0 % 16)).valid = true →
      (s.range (byteAt p 0 % 16)).deleted = false →
      bitAt p 1 0 = true ∧ bitAt p 1 4 = false ∧ bitAt p 1 5 = false →
      structural p (s.range (byteAt p 0 % 16)) = false →
      withAttrs p (s.range (byteAt p 0 % 16)) ≠ s.range (byteAt p 0 % 16) →
      ofLe p 4 4 + ofLe p 8 4 ≤ s.map.geo.offeredGib →
      (bitAt p 1 2 = true → oneBit (byteAt p 2) = true) →
      (((List.range 16).any fun j => j != byteAt p 0 % 16 && (s.range j).valid
      && decide (ofLe p 4 4 < (s.range j).baseGib + (s.range j).sizeGib) && decide ((s.range j).baseGib < ofLe p 4 4 + ofLe p 8 4)) = false) →
      rekeyTooSlow s s.slu.next (ofLe p 8 4 * gib) = false →
      exec (.setKeyRange m p) s = .next (finished 0xC100 m [] s ((denyJobs (4096 * (s.range (byteAt p 0 % 16)).span.1)
        (4096 * ((s.range (byteAt p 0 % 16)).span.2 - (s.range (byteAt p 0 % 16)).span.1)) (s.modRange
          (byteAt p 0 % 16) fun k => { withAttrs p k with histP := 0, histG := 0 })))))
  ∧ (∀ (m : Mb) (p : List Byte) (s : State),
      accepts setKeyRangeSpec s m p = true →
      (s.range (byteAt p 0 % 16)).valid = true →
      (s.range (byteAt p 0 % 16)).deleted = false →
      bitAt p 1 0 = false ∧ bitAt p 1 4 = true ∧ bitAt p 1 5 = false →
      exec (.setKeyRange m p) s = .next (finished 0xC100 m [] s (cryptoErase (byteAt p 0 % 16) m.src none
        [(s.range (byteAt p 0 % 16)).span] (s.modRange (byteAt p 0 % 16) fun k => { k with valid := false, deleted := true }))))
  ∧ (∀ (m : Mb) (p : List Byte) (s : State),
      (accepts { setKeyRangeSpec with
      opcode := 0xC102, len := fun n => n == 4
      resv := [(0, 0xF0), (1, 0xFFFFFF)], checks := fun _ _ => [] } s m p = true) →
      (s.range (byteAt p 0)).valid = true →
      (s.range (byteAt p 0)).live = 1 →
      (s.range (byteAt p 0)).erase = none →
      (s.range (byteAt p 0)).epoch < 0xF00000 →
      (bgOf s m.src).busy = false →
      exec (.rekeyRange m p) s = .next (startedDone 0xC102 m (.rekey (byteAt p 0) s.crity.nextOuting) (le 4 s.crity.nextOuting)
        (refreshHolds (openEpoch (byteAt p 0) m.src s))))
  ∧ (∀ (m : Mb) (p : List Byte) (s : State),
      (accepts { setKeyRangeSpec with
      opcode := 0xC103, resv := [(0, 0xF0), (1, 0xDF), (2, 0xFF), (3, 0xFF), (4, 0xFFFFFFFF), (8, 0xFFFFFFFF), (12, 2 ^ 160 - 1)]
      checks := fun p _ => [⟨32, rootKeyZero p, 0x0003⟩] } s m p = true) →
      (s.range (byteAt p 0)).valid = true →
      (bitAt p 1 5 = true → (s.range (byteAt p 0)).bypass = false) →
      transportOk s m.src p = true →
      (bgOf s m.src).busy = false →
      exec (.cryptoErase m p) s = .next (startedDone 0xC103 m (.erase (byteAt p 0) s.crity.nextOuting) (le 4 s.crity.nextOuting)
        (cryptoErase (byteAt p 0) m.src (some (newRoot (hostKey p) s).1) [(s.range (byteAt p 0)).span] (newRoot (hostKey p) s).2)))
  ∧ (∀ (m : Mb) (p : List Byte) (s : State),
      accepts getKeyRangeSpec s m p = true →
      outFits s m (keyRangeBytes (byteAt p 0) s) = true →
      exec (.getKeyRange m p) s = .next (reply m 0xC101 .success 0 (keyRangeBytes (byteAt p 0) s) s))
  ∧ (∀ (m : Mb) (s : State),
      acceptsStd { opcode := 0x4401, managing := true } s m = true →
      s.flt.halted = false →
      exec (.secureErase m []) s = .next (reply m 0x4401 .success 0 [] (secureErase m.src s)))
  ∧ (∀ (m : Mb) (s : State),
      acceptsStd { opcode := 0x4400, managing := true } s m = true →
      s.flt.halted = false →
      s.keys.sanitize = none →
      (bgOf s m.src).busy = false →
      Answers (exec (.sanitize m []) s) fun t => ∃ op u, sanitize m.src s = .bg op u ∧ t = started 0x4400 m op u
        ∧ u.mem = [])

/-- At the soft limit of a valid range's, or the device range's, only live epoch the device opens a re-key of its own; at
the hard limit with both epochs live KEY_LIMIT names the range, its epoch and the count; a re-key that has fallen
behind is raised once and resumed. (06_encryption.md R181; 06_encryption.md R184; 06_encryption.md R185;
14_crity_commands.md R387) -/
def Obligations.KeyUseLimits : Prop :=
  (∀ (r : Nat) (s : State),
      r < 17 →
      s.flt.halted = false →
      ((s.range r).valid = true ∨ r = 16) →
      (s.range r).live = 1 →
      2 ^ 55 ≤ (s.range r).useNew →
      exec (.keySoftLimit r) s = .next (refreshHolds (openEpoch r 0xFF s)))
  ∧ (∀ (r : Nat) (s : State),
      r < 17 →
      s.flt.halted = false →
      ((s.range r).valid = true ∨ r = 16) →
      (s.range r).live = 2 →
      (2 ^ 56 ≤ (s.range r).useNew ∨ 2 ^ 56 ≤ (s.range r).useOld) →
      exec (.keyHardLimit r) s = .next (raiseAll 577 0
        (le 1 r ++ le 4 (s.range r).epoch ++ le 8 (max (s.range r).useNew (s.range r).useOld)) s))
  ∧ (∀ (r : Nat) (s : State),
      r < 17 →
      s.flt.halted = false →
      ((s.range r).valid = true ∨ r = 16) →
      (s.range r).live = 2 →
      (s.range r).lateRaised = false →
      2 ^ 54 ≤ (s.range r).useNew →
      exec (.rekeyLate r) s = .next (resumeRekey ((raiseAll 578 0 (le 1 r ++ le 8 (s.range r).useNew) s).modRange r fun k =>
        { k with lateRaised := true })))

/-- While the head's BAR0 answers, an uncommitted decoder commits with the fields written where no commit check fails, and
is marked Error Not Committed with DECODER_COMMIT_FAIL where one does; a committed decoder that is not locked is
uncommitted and keeps its alias bits; the alias of an uncommitted decoder is written and that of a committed one is
not. Back-invalidate enable and ID are written, and a head that was served with them and no longer is loses its
presence. A write by the managing head to a counter's selection or reload register writes it, one outside the counter
registers writes nothing, and a BAR2 write of another head raises BAR2_WRITE_DENIED and does nothing else. A write to
the control word of an MSI-X vector writes its mask bit. (09_host_ports.md R249; 09_host_ports.md R251;
09_host_ports.md R252; 09_host_ports.md R253; 09_host_ports.md R254; 18_faults.md R466) -/
def Obligations.HeadRegisters : Prop :=
  (∀ (head i : Nat) (c : HdmCfg) (s : State),
      head < 8 →
      i < 8 →
      bar0On s head = true →
      ((s.head head).decoders.getD i {}).committed = false →
      commitFails s head i { ((s.head head).decoders.getD i {}) with
      base := c.base, size := c.size, iw := c.iw, ig := c.ig, pos := c.pos, skip := c.skip, lock := c.lock, committed := true, notCommitted := false } c.cxlOk = none →
      exec (.hdmDecoderCommit head i c) s = .next (s.modHead head fun x => { x with decoders := x.decoders.set i {
        ((s.head head).decoders.getD i {}) with
        base := c.base, size := c.size, iw := c.iw, ig := c.ig, pos := c.pos, skip := c.skip, lock := c.lock, committed := true, notCommitted := false } }))
  ∧ (∀ (head i k : Nat) (c : HdmCfg) (s : State),
      head < 8 →
      i < 8 →
      bar0On s head = true →
      ((s.head head).decoders.getD i {}).committed = false →
      commitFails s head i { ((s.head head).decoders.getD i {}) with
      base := c.base, size := c.size, iw := c.iw, ig := c.ig, pos := c.pos, skip := c.skip, lock := c.lock, committed := true, notCommitted := false } c.cxlOk = some k →
      exec (.hdmDecoderCommit head i c) s = .next (raiseHead head 8 (le 1 i ++ le 1 k) (s.modHead head fun x => { x with
        decoders := x.decoders.set i { ((s.head head).decoders.getD i {}) with notCommitted := true } })))
  ∧ (∀ (head i : Nat) (s : State),
      head < 8 →
      i < 8 →
      bar0On s head = true →
      ((s.head head).decoders.getD i {}).committed = true →
      ((s.head head).decoders.getD i {}).lock = false →
      exec (.hdmDecoderUncommit head i) s = .next (s.modHead head fun x => { x with decoders := x.decoders.set i {
        alias2 := ((s.head head).decoders.getD i {}).alias2 } }))
  ∧ (∀ (head i : Nat) (value : BitVec 32) (s : State),
      head < 8 →
      i < 8 →
      headUp s head = true →
      (s.head head).resetting = false →
      ((s.head head).decoders.getD i {}).committed = false →
      exec (.whdAliasWrite head i value) s = .next (s.modHead head fun x => { x with decoders := x.decoders.set i {
        ((s.head head).decoders.getD i {}) with alias2 := value.toNat % 4 } }))
  ∧ (∀ (head i : Nat) (value : BitVec 32) (s : State),
      head < 8 →
      ((s.head head).decoders.getD i {}).committed = true →
      exec (.whdAliasWrite head i value) s = .next s)
  ∧ (∀ (head : Nat) (biId : Bool) (s : State),
      head < 8 →
      bar0On s head = true →
      (s.head head).biActive = false →
      exec (.biEnableWrite head true biId) s = .next (s.modHead head fun x => { x with biEnable := true, biId := biId }))
  ∧ (∀ (head : Nat) (enable biId : Bool) (u s : State),
      head < 8 →
      bar0On s head = true →
      (s.head head).biActive = true →
      (u = s.modHead head fun x => { x with biEnable := enable, biId := biId }) →
      exec (.biEnableWrite head enable biId) s = .next (if (u.head head).biActive then u else dropPresence head u))
  ∧ (∀ (head n : Nat) (value : BitVec 32) (s : State),
      head < 8 →
      n < 192 →
      headUp s head = true →
      (s.head head).d3 = false →
      (s.head head).resetting = false →
      isManaging s head = true →
      exec (.registerWrite head 2 (0x81000 + 16 * n + 4) value) s = .next { s with pmc := { s.pmc with
        sel := s.pmc.sel.set n (if n % 16 = 15 then value.toNat % 2 ^ 26 + value.toNat / 2 ^ 27 % 2 * 2 ^ 27 else value.toNat % 2 ^ 28) } })
  ∧ (∀ (head n : Nat) (value : BitVec 32) (s : State),
      head < 8 →
      n < 192 →
      headUp s head = true →
      (s.head head).d3 = false →
      (s.head head).resetting = false →
      isManaging s head = true →
      exec (.registerWrite head 2 (0x81000 + 16 * n + 8) value) s = .next { s with pmc := { s.pmc with
        rld := s.pmc.rld.set n (value.toNat % 2 ^ 24) } })
  ∧ (∀ (head v : Nat) (value : BitVec 32) (s : State),
      head < 8 →
      v < 64 →
      bar0On s head = true →
      exec (.registerWrite head 0 (0x60000 + 16 * v + 12) value) s = .next (maskVector head v (value.toNat.testBit 0) s))
  ∧ (∀ (head addr : Nat) (value : BitVec 32) (s : State),
      head < 8 →
      isManaging s head = true →
      (addr < 0x81000 ∨ 0x81C00 ≤ addr) →
      exec (.registerWrite head 2 addr value) s = .next s)
  ∧ (∀ (head addr : Nat) (value : BitVec 32) (s : State),
      head < 8 →
      headUp s head = true →
      (s.head head).d3 = false →
      (s.head head).resetting = false →
      isManaging s head = false →
      exec (.registerWrite head 2 addr value) s = .next (raiseHead head 6 (le 4 addr) s))

/-- A function-level reset and a CXL reset of a head whose link is up reset the head as resetHead says without its
conventional part. A hot reset and a link disable reset it conventionally, and raise LINK_DOWN with their cause where
the link was up. PERST of a host port resets both its heads and withdraws the standing vote of the port's domain; its
release samples the lane split, sets which heads are present and votes for the domain. A link that may train comes up
at a lawful width and rate with LINK_UP, and below the full width or 64 GT/s with LINK_DEGRADED too. A link that goes
down takes the head's requests, jobs and IDE keys with it and raises LINK_DOWN, with cause 7 after PME_Turn_Off.
D3hot, D0, PME_Turn_Off, viral and an IDE integrity failure do what their clauses say. (09_host_ports.md R245;
09_host_ports.md R246; 09_host_ports.md R264; 09_host_ports.md R265; 09_host_ports.md R266; 09_host_ports.md R267;
20_power_up_and_reset.md R488) -/
def Obligations.HeadLinks : Prop :=
  (∀ (head : Nat) (s : State),
      head < 8 →
      headUp s head = true →
      exec (.functionLevelReset head) s = .next (resetHead false head s))
  ∧ (∀ (head : Nat) (s : State),
      head < 8 →
      headUp s head = true →
      exec (.cxlReset head) s = .next (resetHead false head s))
  ∧ (∀ (head : Nat) (s : State),
      head < 8 →
      (s.head head).present = true →
      (s.head head).up = true →
      exec (.hotReset head) s = .next (raiseHead head 1 (le 1 2) (resetHead true head s)))
  ∧ (∀ (head : Nat) (s : State),
      head < 8 →
      (s.head head).present = true →
      (s.head head).up = true →
      exec (.linkDisable head) s = .next (raiseHead head 1 (le 1 3) (resetHead true head s)))
  ∧ (∀ (head : Nat) (s : State),
      head < 8 →
      (s.head head).present = true →
      (s.head head).up = false →
      exec (.hotReset head) s = .next (resetHead true head s))
  ∧ (∀ (port : Nat) (s : State),
      port < 4 →
      Answers (exec (.hpPerstAssert port) s) fun t => ∃ u, u = convReset (2 * port + 1) 1 (convReset (2 * port) 1 s)
        ∧ t = setVote (domHP port) 11 false { u with host := { u.host with perst := u.host.perst.set port true } })
  ∧ (∀ (port : Nat) (bifur : Bool) (s : State),
      port < 4 →
      s.host.perst.getD port true = true →
      Answers (exec (.hpPerstDeassert port bifur) s) fun t => ∃ u, u = { s with host := { s.host with
          perst := s.host.perst.set port false, bifur := s.host.bifur.set port bifur } }
        ∧ t = setVote (domHP port) 11 true ((u.modHead (2 * port) fun x => { x with present := true }).modHead (2 * port + 1)
          fun x => { x with present := bifur }))
  ∧ (∀ (head width rate full : Nat) (u s : State),
      head < 8 →
      mayTrain s head = true →
      (s.head head).up = false →
      (full = (if s.host.bifur.getD (portOf head) false then 8 else 16)) →
      linkShape full width rate = true →
      (u = raiseHead head 2 (le 1 width ++ le 1 rate ++ le 1 (b2n (rate == 64)))
        ((s.modHead head fun x => { x with
          up := true, width := width, rate := rate, pme := false, memActive := s.boot.mediaReady && s.boot.devReset.isNone }).emit (.credits head))) →
      head < s.host.heads.length →
      exec (.headLinkUp head width rate) s = .next (if width < full ∨ rate < 64 then
        raiseHead head 3 (le 1 width ++ le 1 full ++ le 1 rate ++ le 1 64) u else u))
  ∧ (∀ (head cause : Nat) (s : State),
      head < 8 →
      (s.head head).up = true →
      exec (.headLinkDown head cause) s = .next (raiseHead head 1 (le 1 (if (s.head head).pme then 7 else cause))
        ((dropJobs head (dropHead head s)).modHead head fun x => { x with
          up := false, width := 0, rate := 0, pme := false, ide := x.ide.map fun i => { i with keyed := false, secure := false } })))
  ∧ (∀ (head : Nat) (s : State),
      head < 8 →
      headUp s head = true →
      exec (.d3hotEntry head) s = .next (s.modHead head fun x => { x with d3 := true }))
  ∧ (∀ (head : Nat) (s : State),
      head < 8 →
      headUp s head = true →
      exec (.d0Entry head) s = .next (flushMsi head (s.modHead head fun x => { x with d3 := false })))
  ∧ (∀ (head : Nat) (s : State),
      head < 8 →
      headUp s head = true →
      exec (.pmeTurnOff head) s = .next ((s.modHead head fun x => { x with pme := true }).emit (.pmeToAck head)))
  ∧ (∀ (head : Nat) (s : State),
      head < 8 →
      headUp s head = true →
      exec (.viralReceived head) s = .next (raiseHead head 7 [] s))
  ∧ (∀ (head stream sub : Nat) (s : State),
      head < 8 →
      headUp s head = true →
      exec (.ideIntegrityFailure head stream sub) s = .next (headDown head 4 (raiseHead head 5 (le 1 stream ++ le 1 sub) s)))

/-- Each standard read command that its issuer may send answers Success with the bytes named here and changes nothing but
the mailbox: Identify, Background Operation Status, Get Response Message Limit, Get Event Records, Get Event Interrupt
Policy, Get FW Info, Get Supported Logs, Get Log over a span inside the log, Get Supported Features, Identify Memory
Device with the capacity in both its fields, Get Health Info, Get Alert Configuration and Get Poison List. The layouts
are the family's (log 8), and bytes that no source gives are open (log 57). (09_host_ports.md R257; 09_host_ports.md
R258; 09_host_ports.md R259; 18_faults.md R465; 14_crity_commands.md R377) -/
def Obligations.StandardReads : Prop :=
  (∀ (m : Mb) (s : State),
      acceptsStd { opcode := 0x0001 } s m = true →
      outFits s m (le 2 0x1D9A ++ le 2 0x9720 ++ openBytes 0x0001 4 4 ++ le 8 s.boot.serial ++ le 1 16 ++ le 1 3) = true →
      exec (.identify m []) s = .next (reply m 0x0001 .success 0
        (le 2 0x1D9A ++ le 2 0x9720 ++ openBytes 0x0001 4 4 ++ le 8 s.boot.serial ++ le 1 16 ++ le 1 3) s))
  ∧ (∀ (m : Mb) (s : State),
      acceptsStd { opcode := 0x0002 } s m = true →
      8 ≤ limitOf s m.src →
      exec (.backgroundOperationStatus m []) s = .next (reply m 0x0002 .success 0
        (le 1 (b2n (bgOf s m.src).busy + 2 * bgPercent s (bgOf s m.src)) ++ le 1 0 ++ le 2 (bgOf s m.src).opcode
          ++ le 2 (if (bgOf s m.src).busy then 0 else (bgOf s m.src).rc.code) ++ le 2 (if (bgOf s m.src).busy then 0 else (bgOf s m.src).wsc)) s))
  ∧ (∀ (m : Mb) (s : State),
      acceptsStd { opcode := 0x0003 } s m = true →
      1 ≤ limitOf s m.src →
      exec (.getResponseMessageLimit m []) s = .next (reply m 0x0003 .success 0 (le 1 (Nat.log2 (limitOf s m.src))) s))
  ∧ (∀ (m : Mb) (p : List Byte) (s : State),
      acceptsStd { opcode := 0x0100, sb := false } s m = true →
      outFits s m (eventLogBytes s m.src (byteAt p 0)) = true →
      p.length = 1 →
      byteAt p 0 ≤ 3 →
      exec (.getEventRecords m p) s = .next (reply m 0x0100 .success 0 (eventLogBytes s m.src (byteAt p 0)) s))
  ∧ (∀ (m : Mb) (s : State),
      acceptsStd { opcode := 0x0102, sb := false } s m = true →
      4 ≤ limitOf s m.src →
      exec (.getEventInterruptPolicy m []) s = .next (reply m 0x0102 .success 0
        (((List.range 4).map fun i => le 1 (b2n ((s.head m.src).policy.getD i false) + 16 * (i + 1))).flatten) s))
  ∧ (∀ (m : Mb) (p : List Byte) (s : State),
      acceptsStd { opcode := 0x0200, lmOwn := true } s m = true →
      80 ≤ limitOf s m.src →
      exec (.getFwInfo m p) s = .next (reply m 0x0200 .success 0 (le 1 2 ++ le 1 ((if s.lm.runB then 2 else 1)
          + 8 * (if s.lm.activeB = s.lm.runB then 0 else if s.lm.activeB then 2 else 1)) ++ le 1 1 ++ zeros 13
        ++ ((le 4 s.lm.imgA.keeperVer ++ le 4 s.lm.imgA.lmVer ++ le 4 s.lm.imgA.codecVer) ++ zeros 16).take 16
        ++ ((le 4 s.lm.imgB.keeperVer ++ le 4 s.lm.imgB.lmVer ++ le 4 s.lm.imgB.codecVer) ++ zeros 16).take 16 ++ zeros 32) s))
  ∧ (∀ (m : Mb) (s : State),
      acceptsStd { opcode := 0x0400 } s m = true →
      68 ≤ limitOf s m.src →
      exec (.getSupportedLogs m []) s = .next (reply m 0x0400 .success 0 (le 2 3 ++ zeros 6 ++ be 16 uuidEffects
        ++ le 4 effectsLog.length ++ be 16 uuidOutings ++ le 4 16384 ++ be 16 uuidCommands ++ le 4 32768) s))
  ∧ (∀ (m : Mb) (p l : List Byte) (s : State),
      acceptsStd { opcode := 0x0401 } s m = true →
      outFits s m ((l.drop (ofLe p 16 4)).take (ofLe p 20 4)) = true →
      p.length = 24 →
      logByUuid s (p.take 16) = some l →
      ofLe p 16 4 + ofLe p 20 4 ≤ l.length →
      exec (.getLog m p) s = .next (reply m 0x0401 .success 0 ((l.drop (ofLe p 16 4)).take (ofLe p 20 4)) s))
  ∧ (∀ (m : Mb) (p : List Byte) (s : State),
      acceptsStd { opcode := 0x0500 } s m = true →
      8 ≤ limitOf s m.src →
      p.length = 8 →
      exec (.getSupportedFeatures m p) s = .next (reply m 0x0500 .success 0 (zeros 8) s))
  ∧ (∀ (m : Mb) (s : State),
      acceptsStd { opcode := 0x4000 } s m = true →
      69 ≤ limitOf s m.src →
      Answers (exec (.identifyMemoryDevice m []) s) fun t => ∃ out, t = reply m 0x4000 .success 0 out s ∧ out.length = 69
        ∧ (out.drop 16).take 16 = le 8 (4 * s.map.geo.offeredGib) ++ le 8 (4 * s.map.geo.offeredGib))
  ∧ (∀ (m : Mb) (s : State),
      acceptsStd { opcode := 0x4200 } s m = true →
      outFits s m (healthInfo s) = true →
      exec (.getHealthInfo m []) s = .next (reply m 0x4200 .success 0 (healthInfo s) s))
  ∧ (∀ (m : Mb) (s : State),
      acceptsStd { opcode := 0x4201 } s m = true →
      16 ≤ limitOf s m.src →
      exec (.getAlertConfig m []) s = .next (reply m 0x4201 .success 0 (le 1 s.crity.alerts.valid ++ le 1 0x1F
        ++ openBytes 0x4201 2 1 ++ le 1 s.crity.alerts.lifeUsed ++ openBytes 0x4201 4 4 ++ le 2 s.crity.alerts.overTemp
        ++ le 2 s.crity.alerts.underTemp ++ le 2 s.crity.alerts.volErr ++ le 2 s.crity.alerts.persErr) s))
  ∧ (∀ (m : Mb) (p : List Byte) (s : State),
      acceptsStd { opcode := 0x4300 } s m = true →
      outFits s m (poisonList m.src p s) = true →
      p.length = 16 →
      exec (.getPoisonList m p) s = .next (reply m 0x4300 .success 0 (poisonList m.src p s) s))

/-- Setting a response limit, alerts or an interrupt policy sets just that. Clear Event Records removes all records of a
log of the issuer, or those whose handles it names. An injected poison poisons the line, enters it in the loss list
with cause 6 and ends a move of the page; a cleared one writes the line. The first part of a firmware transfer opens
it and marks its slot invalid, and any part is answered as transferPart says. Activate FW at the next cold reset makes
the slot active. An opcode not in the tables answers Unsupported. (09_host_ports.md R257; 09_host_ports.md R260;
14_crity_commands.md R374; 14_crity_commands.md R377; 18_faults.md R465; 18_faults.md R466; 17_lengthsman.md R443;
17_lengthsman.md R444) -/
def Obligations.StandardWrites : Prop :=
  (∀ (m : Mb) (p : List Byte) (s : State),
      acceptsStd { opcode := 0x0004 } s m = true →
      p.length = 1 →
      8 ≤ byteAt p 0 ∧ byteAt p 0 ≤ 16 →
      m.src < 8 →
      1 ≤ limitOf s m.src →
      exec (.setResponseMessageLimit m p) s = .next (reply m 0x0004 .success 0 (le 1 (byteAt p 0))
        (s.modHead m.src fun h => { h with limit := 2 ^ byteAt p 0 })))
  ∧ (∀ (m : Mb) (p : List Byte) (s : State),
      acceptsStd { opcode := 0x4202, managing := true } s m = true →
      p.length = 12 →
      byteAt p 0 ≤ 31 →
      exec (.setAlertConfig m p) s = .next (reply m 0x4202 .success 0 [] { s with crity := { s.crity with
        alerts := setAlerts p s.crity.alerts } }))
  ∧ (∀ (m : Mb) (p : List Byte) (s : State),
      acceptsStd { opcode := 0x0101, sb := false } s m = true →
      p.length = 6 →
      byteAt p 2 = 0 →
      byteAt p 0 ≤ 3 →
      bitAt p 1 0 = true →
      exec (.clearEventRecords m p) s = .next (reply m 0x0101 .success 0 [] (s.modHead m.src fun x => { x with
        logs := x.logs.modify (byteAt p 0) fun l => l.keep fun _ => false })))
  ∧ (∀ (m : Mb) (p : List Byte) (s : State),
      acceptsStd { opcode := 0x0101, sb := false } s m = true →
      p.length = 6 + 2 * byteAt p 2 →
      byteAt p 0 ≤ 3 →
      bitAt p 1 0 = false →
      ((((List.range (byteAt p 2)).map fun k => ofLe p (6 + 2 * k) 2).any fun x =>
      !(((s.head m.src).logs.getD (byteAt p 0) {}).records.any fun r => eventHandle r == x)) = false) →
      exec (.clearEventRecords m p) s = .next (reply m 0x0101 .success 0 [] (s.modHead m.src fun x => { x with
        logs := x.logs.modify (byteAt p 0) fun l => l.keep fun r =>
          !((List.range (byteAt p 2)).map fun k => ofLe p (6 + 2 * k) 2).contains (eventHandle r) })))
  ∧ (∀ (m : Mb) (p : List Byte) (s : State),
      acceptsStd { opcode := 0x0103, sb := false } s m = true →
      (p.length = 4 ∨ p.length = 5) →
      (((List.range 4).any fun i => decide (2 ≤ byteAt p i % 4)) = false) →
      exec (.setEventInterruptPolicy m p) s = .next (reply m 0x0103 .success 0 [] (s.modHead m.src fun h => { h with
        policy := (List.range 4).map fun i => byteAt p i % 4 == 1 })))
  ∧ (∀ (m : Mb) (part : FwPart) (s : State),
      acceptsStd { opcode := 0x0201, managing := true, lmOwn := true } s m = true →
      mustWait s = false →
      part.first = true ∧ part.last = false ∧ part.abort = false →
      s.lm.transfer = none →
      ((part.slot == 1) == s.lm.activeB && !(s.boot.phase == .recovery)) = false →
      exec (.transferFw m part) s = .next (reply m 0x0201 .success 0 [] { s with lm := {
        (s.lm.setImage (part.slot == 1) { (s.lm.image (part.slot == 1)) with valid := false, romOk := false, lmOk := false }) with
        transfer := some ⟨0, part.slot == 1⟩ } }))
  ∧ (∀ (m : Mb) (part : FwPart) (s : State),
      acceptsStd { opcode := 0x0201, managing := true, lmOwn := true } s m = true →
      mustWait s = false →
      exec (.transferFw m part) s = .next (reply m 0x0201 (transferPart 0 part s).1 0 [] (transferPart 0 part s).2))
  ∧ (∀ (m : Mb) (p : List Byte) (s : State),
      acceptsStd { opcode := 0x0202, managing := true } s m = true →
      p.length = 2 →
      byteAt p 0 = 1 →
      (byteAt p 1 = 1 ∨ byteAt p 1 = 2) →
      (s.lm.image (byteAt p 1 == 2)).valid = true →
      s.lm.activation = none →
      exec (.activateFw m p) s = .next (reply m 0x0202 .success 0 [] (activateNext (byteAt p 1 == 2) s)))
  ∧ (∀ (m : Mb) (p : List Byte) (s : State),
      acceptsStd { opcode := 0x4301, sb := false } s m = true →
      p.length = 8 →
      s.flt.halted = false →
      ofLe p 0 8 < s.map.geo.offeredGib * gib →
      (rangeAt s (ofLe p 0 8)).isSome = true →
      (isManaging s m.src || admits s m.src (ofLe p 0 8)) = true →
      s.dur.loss.countP (·.cause == 6) < 1024 →
      exec (.injectPoison m p) s = .next (reply m 0x4301 .success 0 [] (abortMove (ofLe p 0 8 / 64 / 64) false
        ((lose 6 0 false 0xFF (ofLe p 0 8 / 64 / 64) (BitVec.ofNat 64 (2 ^ (ofLe p 0 8 / 64 % 64)))
          (writeLineNow (ofLe p 0 8 / 64) (zeros 64) true s)).modPage (ofLe p 0 8 / 64 / 64) fun e => { e with loss := true }))))
  ∧ (∀ (m : Mb) (p : List Byte) (s : State),
      acceptsStd { opcode := 0x4302, sb := false } s m = true →
      p.length = 72 →
      s.flt.halted = false →
      ofLe p 0 8 < s.map.geo.offeredGib * gib →
      (rangeAt s (ofLe p 0 8)).isSome = true →
      (isManaging s m.src || admits s m.src (ofLe p 0 8)) = true →
      exec (.clearPoison m p) s = .next (reply m 0x4302 .success 0 [] (writeLineNow (ofLe p 0 8 / 64) (p.drop 8) false s)))
  ∧ (∀ (m : Mb) (opcode : Nat) (p : List Byte) (s : State),
      listed opcode = false →
      acceptsStd { opcode := opcode } s m = true →
      exec (.unsupportedCommand m opcode p) s = .next (reply m opcode .unsupported 0 [] s))

/-- A DRAM alert is counted and raised with the replays so far, and the channel replays; the alert that follows the third
replay fences the channel. A completed replay clears the count, issues what waited and commits delays that waited. A
blocked refresh is put off, at most four times; another is issued with those put off. An idle channel enters self-
refresh, and one that a vote keeps active counts an override of loop 3 and starts its idle time again. DELAY_COMMIT
does what commitDelays does to the sub-channel. (10_ddr5_channels.md R284; 10_ddr5_channels.md R286;
10_ddr5_channels.md R291; 10_ddr5_channels.md R292; 10_ddr5_channels.md R293; 10_ddr5_channels.md R289) -/
def Obligations.DramChannels : Prop :=
  (∀ (c : Nat) (wcrc : Bool) (s : State),
      c < 16 →
      chanRuns s c = true →
      0 < (s.chan c).replays ∧ (s.chan c).replays < 3 →
      c < s.ddr.chans.length →
      Answers (exec (.dramAlert c wcrc) s) fun t => ∃ u, t = startReplay c u
        ∧ u = raiseAll (srcChannel c (b2n wcrc)) 0 (le 1 (s.chan c).replays ++ le 1 (s.chan c).retry.length)
          (s.modChan c fun x => if wcrc then { x with wcrc := addSat 24 x.wcrc 1 } else { x with capar := addSat 24 x.capar 1 }))
  ∧ (∀ (c : Nat) (wcrc : Bool) (s : State),
      c < 16 →
      chanRuns s c = true →
      3 ≤ (s.chan c).replays →
      c < s.ddr.chans.length →
      exec (.dramAlert c wcrc) s = .next (fenceChannel c (s.chan c).replays
        (raiseAll (srcChannel c (b2n wcrc)) 0 (le 1 (s.chan c).replays ++ le 1 (s.chan c).retry.length)
          (s.modChan c fun x => if wcrc then { x with wcrc := addSat 24 x.wcrc 1 } else { x with capar := addSat 24 x.capar 1 }))))
  ∧ (∀ (c : Nat) (wcrc : Bool) (u s : State),
      c < 16 →
      chanRuns s c = true →
      (s.chan c).replays = 0 →
      (u = (useChanInject c wcrc s).modChan c fun x => if wcrc then { x with wcrc := addSat 24 x.wcrc 1 } else { x with capar := addSat 24 x.capar 1 }) →
      exec (.dramAlert c wcrc) s = .next (startReplay c (raiseAll (srcChannel c (b2n wcrc)) 0 (le 1 0 ++ le 1 (u.chan c).retry.length) u)))
  ∧ (∀ (c : Nat) (u s : State),
      c < 16 →
      (s.chan c).replaying = true →
      (u = issueAll c (s.modChan c fun x => { x with replaying := false, replays := 0 })) →
      exec (.replayComplete c) s = .next ((u.chan c).commits.foldl (fun u k => commitDelays c k u)
        (u.modChan c fun x => { x with commits := [] })))
  ∧ (∀ (c k : Nat) (s : State),
      c < 16 →
      chanRuns s c = true →
      (s.chan c).sr = false →
      (s.chan c).postponed.getD k 0 < 4 →
      exec (.refreshDue c k true) s = .next (s.modChan c fun x => { x with
          postponed := x.postponed.set k ((s.chan c).postponed.getD k 0 + 1) })
        ∧ exec (.refreshDue c k false) s = .next (s.modChan c fun x => { x with
          postponed := x.postponed.set k 0
          refreshes := x.refreshes.set k (x.refreshes.getD k 0 + (s.chan c).postponed.getD k 0 + 1) }))
  ∧ (∀ (c : Nat) (s : State),
      c < 16 →
      chanRuns s c = true →
      s.power.srIdle ≠ 0 →
      (s.chan c).sr = false ∧ (s.chan c).training = false ∧ (s.chan c).replaying = false →
      chanItems s c = 0 →
      (s.chan c).idleAt + 2 ^ s.power.srIdle ≤ s.time.elapsed →
      (s.chan c).postponed.any (4 ≤ ·) = false →
      (s.dom (domDC c)).votes &&& ~~~ (BitVec.ofNat 12 1024) = 0 →
      exec (.srIdleExpire c) s = .next (s.modChan c fun x => { x with sr := true, srCount := addSat 24 x.srCount 1 }))
  ∧ (∀ (c : Nat) (s : State),
      c < 16 →
      chanRuns s c = true →
      s.power.srIdle ≠ 0 →
      (s.chan c).sr = false ∧ (s.chan c).training = false ∧ (s.chan c).replaying = false →
      chanItems s c = 0 →
      (s.chan c).idleAt + 2 ^ s.power.srIdle ≤ s.time.elapsed →
      (s.chan c).postponed.any (4 ≤ ·) = false →
      (s.dom (domDC c)).votes &&& ~~~ (BitVec.ofNat 12 1024) ≠ 0 →
      exec (.srIdleExpire c) s = .next (countOverride 3 (s.modChan c fun x => { x with idleAt := s.time.elapsed })))
  ∧ (∀ (c k : Nat) (s : State),
      c < 16 →
      k < 2 →
      chanRuns s c = true →
      exec (.delayCommit c k) s = .next (commitDelays c k s))

/-- A temperature poll that is due polls both positions; a first missed read of a powered position counts as missed. A
PMIC fault of a powered DIMM raises DIMM_PMIC_FAULT and fences it. At power-up a channel trained anew stores its set
and enters service, one whose stored set verifies enters service with that set, and a DIMM that fails its training is
recorded LOST with TRAIN_FAIL. (10_ddr5_channels.md R273; 10_ddr5_channels.md R274; 10_ddr5_channels.md R285;
20_power_up_and_reset.md R491; 20_power_up_and_reset.md R492; 20_power_up_and_reset.md R493) -/
def Obligations.DimmsAndTraining : Prop :=
  (∀ (c : Nat) (t0 t1 : Option Nat) (s : State),
      c < 16 →
      chanRuns s c = true →
      (s.chan c).lastPoll + 16384 ≤ s.time.elapsed →
      exec (.tempPoll c t0 t1 none none) s = .next (refreshHolds (pollPos c 1 t1 (pollPos c 0 t0
        (s.modChan c fun x => { x with lastPoll := s.time.elapsed })))))
  ∧ (∀ (c pos : Nat) (s : State),
      (s.slot (2 * c + pos)).pgood = true →
      (s.chan c).missed.getD pos 0 = 0 →
      pollPos c pos none s = s.modChan c fun x => { x with missed := x.missed.set pos 1 })
  ∧ (∀ (c pos st : Nat) (s : State),
      c < 16 →
      pos < 2 →
      chanRuns s c = true →
      (s.slot (2 * c + pos)).pgood = true →
      exec (.pmicIbi c pos st) s = .next (fenceUnit (2 * c + pos) 4 (raiseAll (srcChannel c 8) 0 (le 1 pos ++ le 1 st) s)))
  ∧ (∀ (c : Nat) (d : List (Nat × Nat)) (s : State),
      c < 16 →
      chanRuns s c = true →
      keeperPaused s = false →
      s.boot.phase = .bringup →
      (s.chan c).training = true →
      exec (.dimmTrainingDone c (.trained d) none) s = .next (channelUp c (storeSet c (loadDelays c d s))))
  ∧ (∀ (c : Nat) (t : TrainingSet) (s : State),
      c < 16 →
      chanRuns s c = true →
      keeperPaused s = false →
      s.boot.phase = .bringup →
      (s.chan c).training = true →
      s.lm.training.find? (setMatches s c) = some t →
      exec (.dimmTrainingDone c .verified none) s = .next (channelUp c (loadDelays c t.delays s)))
  ∧ (∀ (c pos k stage : Nat) (s : State),
      c < 16 →
      chanRuns s c = true →
      keeperPaused s = false →
      s.boot.phase = .bringup →
      (s.chan c).training = true →
      pos < 2 →
      (s.unit (2 * c + pos)).spd.occupied = true →
      (s.unit (2 * c + pos)).health ≠ .lost →
      exec (.dimmTrainingDone c (.fullFailed pos k stage) none) s = .next (trainLost c pos
        (raiseAll (srcChannel c 12) 0 (le 1 pos ++ le 1 k ++ le 1 stage) s)))

/-- A completion with status 0 enters the drive's latencies, ends the command, clears the drive's run of errors, and hands
its data, its chunk or its tag on; one with another status raises DRIVE_ERROR with opcode, status and LBA, counts as
an error and hands on a media error; that of an aborted command ends the command and nothing else. A command that has
run 100 ms is aborted, DRIVE_TIMEOUT is raised and it counts as an error; an abort that has run 100 ms fences the
drive. A read that has not completed within its hedge delay is hedged once, and its request's degraded read begins.
(11_drive_ports.md R306; 11_drive_ports.md R307; 11_drive_ports.md R310; 11_drive_ports.md R313; 11_drive_ports.md
R314) -/
def Obligations.DriveCommands : Prop :=
  (∀ (d cid : Nat) (out : ReadOutcome) (c : NvmeCmd) (u s : State),
      d < 16 →
      cmdOf s d cid = some c →
      c.waiting = false →
      c.abort = none →
      (u = (noteLatency d c (latencyUs s c) (endCmd d cid s)).modDrive d fun x => { x with errors := 0 }) →
      exec (.nvmeCompletion d cid 0 out) s = .next (match c.why with
        | .read rid _ => originalEnds rid out u
        | .tag rid => tagEnds rid out u
        | .chunk b again => chunkEnds d b c.lba again true u
        | .hedge _ | .mover _ | .dealloc => u))
  ∧ (∀ (d cid st : Nat) (out : ReadOutcome) (c : NvmeCmd) (u s : State),
      d < 16 →
      cmdOf s d cid = some c →
      c.waiting = false →
      c.abort = none →
      st ≠ 0 →
      u = raiseAll (srcDrive d 1) 0 (le 1 (nvmeOpcode c.why) ++ le 2 st ++ le 8 c.lba)
      (noteLatency d c (latencyUs s c) (endCmd d cid s)) →
      exec (.nvmeCompletion d cid st out) s = .next (driveError d (match c.why with
        | .read rid _ => originalEnds rid .mediaError (dredgeFailed d c.lba u)
        | .tag rid => tagEnds rid .mediaError (dredgeFailed d c.lba u)
        | .hedge _ => dredgeFailed d c.lba u
        | .mover p => moverFailed d p (dredgeFailed d c.lba u)
        | .chunk b again => chunkEnds d b c.lba again false u
        | .dealloc => u)))
  ∧ (∀ (d cid st at_ : Nat) (out : ReadOutcome) (c : NvmeCmd) (s : State),
      d < 16 →
      cmdOf s d cid = some c →
      c.waiting = false →
      c.abort = some at_ →
      exec (.nvmeCompletion d cid st out) s = .next (endCmd d cid s))
  ∧ (∀ (d cid : Nat) (c : NvmeCmd) (u s : State),
      d < 16 →
      cmdOf s d cid = some c →
      c.waiting = false →
      c.abort = none →
      c.since + 1677721 ≤ s.time.elapsed →
      (u = raiseAll (srcDrive d 2) 0 (le 1 (nvmeOpcode c.why) ++ le 1 c.qp ++ le 8 c.lba)
      ((noteLatency d c 100000 (s.modCmd d cid fun c => { c with abort := some s.time.elapsed })).emit (.nvme d cid 0x08 0 0))) →
      exec (.nvmeCommandTimeout d cid) s = .next (driveError d (match c.why with
        | .read rid _ => originalEnds rid .mediaError u
        | .tag rid => tagEnds rid .mediaError u
        | .chunk b again => chunkEnds d b c.lba again false u
        | .mover p => moverFailed d p u
        | .hedge _ | .dealloc => u)))
  ∧ (∀ (d cid at_ : Nat) (c : NvmeCmd) (s : State),
      d < 16 →
      cmdOf s d cid = some c →
      c.abort = some at_ →
      at_ + 1677721 ≤ s.time.elapsed →
      exec (.nvmeAbortTimeout d cid) s = .next (fenceUnit (32 + d) 0x0A s))
  ∧ (∀ (d cid rid : Nat) (probe : Bool) (c : NvmeCmd) (u s : State),
      d < 16 →
      cmdOf s d cid = some c →
      c.why = .read rid probe →
      c.waiting = false →
      c.hedged = false →
      c.abort = none →
      c.since + hedgeDelay (s.drive d) ≤ s.time.elapsed →
      (u = (s.modCmd d cid fun c => { c with hedged := true }).modDrive d fun x =>
      if probe then { x with probeHedges := x.probeHedges + 1 } else { x with hedges := x.hedges + 1 }) →
      exec (.hedgeDelayExpire d cid) s = .next (match s.req? rid with
        | some r => (match r.st with
          | .block 0 missing checked _ => advanceBlock r 1 missing checked true u
          | _ => u)
        | none => u))

/-- A drive whose presence is lost is fenced and its slot goes down; presence that is stable is recorded, during the
bring-up without an event; fatal status fences a drive that is not in its bring-up. In its bring-up a drive goes on
from a step that ends, to the format where it needs one and from the last step into service; a failed step, or one
that ends past its limit, makes it unsuitable. A drive that was sanitized is recorded and deallocated, one whose
sanitize failed is fenced. (11_drive_ports.md R300; 11_drive_ports.md R302; 11_drive_ports.md R303; 11_drive_ports.md
R305; 11_drive_ports.md R315; 06_encryption.md R179) -/
def Obligations.DriveBringUp : Prop :=
  (∀ (d : Nat) (s : State),
      d < 16 →
      exec (.drivePresenceLost d) s = .next (slotOff (32 + d) 6 9 (fenceUnit (32 + d) 9
        ((s.modSlot (32 + d) fun x => { x with present := false }).modDrive d fun x => { x with since := 0, inserted := false }))))
  ∧ (∀ (d : Nat) (s : State),
      d < 16 →
      (s.slot (32 + d)).present = false →
      s.boot.phase = .bringup →
      s.boot.driveBatch = 0 →
      exec (.drivePresenceStable d) s = .next ((s.modSlot (32 + d) fun x => { x with present := true }).modDrive d fun x =>
        { x with since := s.time.elapsed, inserted := false }))
  ∧ (∀ (d st : Nat) (s : State),
      d < 16 →
      (s.drive d).step = 0 →
      exec (.driveFatalStatus d st) s = .next (fenceUnit (32 + d) 0x0A s))
  ∧ (∀ (d lbas queues entries : Nat) (format needs dealloc sanitize version crypto : Bool) (s : State),
      d < 16 →
      keeperOff s = false →
      keeperPaused s = false →
      (s.drive d).step = 6 →
      requirementMissed s d lbas queues entries format dealloc sanitize version = none →
      exec (.driveBringupStepDone d (.identified lbas queues entries format needs dealloc sanitize version crypto)) s
        = .next ((s.modDrive d fun y => { y with lbas := lbas, cryptoErase := crypto }).modDrive d fun y =>
          { y with step := if needs then 7 else 8, stepAt := s.time.elapsed }))
  ∧ (∀ (d : Nat) (s : State),
      d < 16 →
      keeperOff s = false →
      keeperPaused s = false →
      ((s.drive d).step = 4 ∨ (s.drive d).step = 8) →
      exec (.driveBringupStepDone d .ok) s = .next (s.modDrive d fun y => { y with step := (s.drive d).step + 1, stepAt := s.time.elapsed }))
  ∧ (∀ (d : Nat) (s : State),
      d < 16 →
      keeperOff s = false →
      keeperPaused s = false →
      (s.drive d).step = 9 →
      stepLate s (s.drive d) = false →
      exec (.driveBringupStepDone d .ok) s = .next (driveReady d s))
  ∧ (∀ (d k : Nat) (s : State),
      d < 16 →
      keeperOff s = false →
      keeperPaused s = false →
      (s.drive d).step ≠ 0 →
      stepLate s (s.drive d) = false →
      exec (.driveBringupStepDone d (.failed k)) s = .next (driveUnsuitable d (s.drive d).step k s))
  ∧ (∀ (d : Nat) (res : DriveStep) (s : State),
      d < 16 →
      keeperOff s = false →
      keeperPaused s = false →
      (s.drive d).step ≠ 0 →
      stepLate s (s.drive d) = true →
      exec (.driveBringupStepDone d res) s = .next (driveUnsuitable d (s.drive d).step (if (s.drive d).step = 5 then 9 else 0) s))
  ∧ (∀ (d : Nat) (s : State),
      d < 16 →
      (s.drive d).sanitizing = true →
      s.flt.halted = false →
      exec (.sanitizeDriveDone d true) s = .next ((sanitizeUnit d s).emit (.nvme d 0 0x09 0 (s.drive d).lbas)))
  ∧ (∀ (d : Nat) (s : State),
      d < 16 →
      (s.drive d).sanitizing = true →
      s.flt.halted = false →
      exec (.sanitizeDriveDone d false) s = .next (fenceUnit (32 + d) 0x0C s))

/-- Signal on every lane of an ABSENT port of a device not halted starts a training (ALIGN). LANE_ALIGN_DONE with no
failed lane leads to DESKEW; the first failed lane takes the port DOWN with cause 2 after its event. DESKEW_DONE with
every depth at most 32 leads to HANDSHAKE and sends HELLO, which HELLO_RESEND sends again 33 ticks later. The
partner's first HELLO of version 1 with RX_READY starts eight echo requests; a TRAIN_HELLO at a port that is UP starts
a retrain. An echo request is answered at once. Each new answer adds its round trip; the eighth sets the delay to the
sum's mean, at most 2^24 - 1, and sends ACCEPTED and CREDIT_ABS. TRAIN_ACCEPTED and TRAIN_CREDIT_ABS are kept and
READY follows when both are there; TRAIN_READY after the port's own READY brings the port UP. TRAIN_LOOPBACK at UP or
HANDSHAKE makes the port serve a far loop; LOOPBACK_QUIET_END ends a loop whose quiet time is over.
(12_stechaisk_link.md R322; 12_stechaisk_link.md R323; 12_stechaisk_link.md R324; 12_stechaisk_link.md R330;
12_stechaisk_link.md R331; 12_stechaisk_link.md R332; 12_stechaisk_link.md R335) -/
def Obligations.LinkTraining : Prop :=
  (∀ (port : Nat) (s : State),
      port < 2 →
      (s.port port).st = .absent →
      s.flt.halted = false →
      exec (.laneSignalDetect port) s = .next (s.modPort port fun x => { x.beginTraining s.time.elapsed true with
        lanes := x.lanes.map fun l => { l with signal := true } }))
  ∧ (∀ (port : Nat) (res : List LaneResult) (s : State),
      port < 2 →
      (s.port port).st = .align →
      (((List.range 16).find? fun i => (res.getD i ⟨0, false, 0⟩).fail != 0) = none) →
      exec (.laneAlignDone port res) s = .next ((s.modPort port fun x => { x with lanes := x.lanes.mapIdx fun i l => { l with
        slips := (res.getD i ⟨0, false, 0⟩).slips, invert := (res.getD i ⟨0, false, 0⟩).invert
        failed := (res.getD i ⟨0, false, 0⟩).fail != 0 } }).modPort port fun x => { x with st := .deskew }))
  ∧ (∀ (port i : Nat) (res : List LaneResult) (s : State),
      port < 2 →
      (s.port port).st = .align →
      (((List.range 16).find? fun i => (res.getD i ⟨0, false, 0⟩).fail != 0) = some i) →
      exec (.laneAlignDone port res) s = .next (enterDown port 2 (portEvent port 4 (le 1 i ++ le 1 (res.getD i ⟨0, false, 0⟩).fail)
        (s.modPort port fun x => { x with lanes := x.lanes.mapIdx fun i l => { l with
          slips := (res.getD i ⟨0, false, 0⟩).slips, invert := (res.getD i ⟨0, false, 0⟩).invert
          failed := (res.getD i ⟨0, false, 0⟩).fail != 0 } }))))
  ∧ (∀ (port : Nat) (depths : List Nat) (s : State),
      port < 2 →
      (s.port port).st = .deskew →
      depths.all (· ≤ 32) = true →
      exec (.deskewDone port depths true) s = .next (sendHello port (s.modPort port fun x => { x with
        st := .handshake, lanes := x.lanes.mapIdx fun i l => { l with depth := depths.getD i 0 } })))
  ∧ (∀ (port : Nat) (s : State),
      port < 2 →
      (s.port port).st = .handshake →
      (s.port port).helloAt + 33 ≤ s.time.elapsed →
      exec (.helloResend port) s = .next ((s.modPort port fun x => { x with helloSent := true, helloAt := s.time.elapsed }).emit
        (.ctl port (.hello 1 (s.port port).headroom port true))))
  ∧ (∀ (port peer headroom : Nat) (s : State),
      port < 2 →
      (s.port port).st = .handshake →
      (s.port port).helloRx = false →
      exec (.trainHello port true 1 peer headroom) s = .next ((List.range 8).foldl (fun t i => t.emit
        (.ctl port (.echoReq (symbolClock (s.modPort port fun x => { x with helloRx := true })) i)))
        (s.modPort port fun x => { x with helloRx := true })))
  ∧ (∀ (port version peer headroom : Nat) (ready : Bool) (s : State),
      port < 2 →
      (s.port port).st = .up →
      exec (.trainHello port ready version peer headroom) s = .next (startRetrain port 1 s))
  ∧ (∀ (port sendTime round turnaround : Nat) (s : State),
      port < 2 →
      (s.port port).st = .handshake →
      exec (.trainEchoReq port sendTime round turnaround) s = .next (s.emit (.ctl port (.echoRsp sendTime round turnaround))))
  ∧ (∀ (port sendTime round turnaround now : Nat) (s : State),
      port < 2 →
      (s.port port).st = .handshake →
      round < 8 ∧ (s.port port).rounds.contains round = false →
      (s.port port).rounds.length < 7 →
      exec (.trainEchoRsp port sendTime round turnaround now) s = .next (s.modPort port fun x => { x with
        rounds := round :: x.rounds, roundSum := x.roundSum + ((now + 2 ^ 32 - sendTime % 2 ^ 32) % 2 ^ 32 - turnaround) }))
  ∧ (∀ (port sendTime round turnaround now : Nat) (s : State),
      port < 2 →
      port < s.skl.ports.length →
      (s.port port).st = .handshake →
      round < 8 ∧ (s.port port).rounds.contains round = false →
      (s.port port).rounds.length = 7 →
      exec (.trainEchoRsp port sendTime round turnaround now) s = .next (sendAccepted port ((s.modPort port fun x => { x with
        rounds := round :: x.rounds, roundSum := x.roundSum + ((now + 2 ^ 32 - sendTime % 2 ^ 32) % 2 ^ 32 - turnaround) }).modPort port
        fun x => { x with delay := min (delayOf x.roundSum) (2 ^ 24 - 1) })))
  ∧ (∀ (port seq : Nat) (valid : Bool) (s : State),
      port < 2 →
      (s.port port).st = .handshake →
      exec (.trainAccepted port seq valid) s = .next (tryReady port (s.modPort port fun x => { x with accepted := some (seq, valid) })))
  ∧ (∀ (port c0 c1 c2 c3 : Nat) (s : State),
      port < 2 →
      (s.port port).st = .handshake →
      exec (.trainCreditAbs port c0 c1 c2 c3) s = .next (tryReady port (s.modPort port fun x => { x with
        granted := [c0, c1, c2, c3], credits := true })))
  ∧ (∀ (port : Nat) (s : State),
      port < 2 →
      port < s.skl.ports.length →
      (s.port port).st = .handshake →
      (s.port port).readySent = true →
      exec (.trainReady port) s = .next (enterUp port (s.modPort port fun x => { x with readyRx := true })))
  ∧ (∀ (port : Nat) (s : State),
      port < 2 →
      ((s.port port).st = .up ∨ (s.port port).st = .handshake) →
      exec (.trainLoopback port true) s = .next (enterLoop port .loopFarRemote s))
  ∧ (∀ (port e : Nat) (errors : List Nat) (s : State),
      port < 2 →
      (s.port port).quiet = some e →
      e ≤ s.time.elapsed →
      exec (.loopbackQuietEnd port errors) s = .next (leaveLoop port errors s))

/-- At a port that is UP, DATA_FRAME_SEND sends the oldest frame not yet sent with SEQ txNext and advances txNext by its
span modulo 4,096, when the outstanding span with it is at most 2,047, XOFF is not held and, for a frame to the
partner, its credit is there; such a frame takes the credit, the timer starts when nothing was outstanding, a frame
beyond the first 1,024 costs 128 bytes of port P1, and an armed injection of checker 0x08 may damage it. Without its
credit nothing is sent. A frame with a bad CRC counts and is answered NAK; the expected one with space is accepted,
without space it is answered NAK, with the overflow event the first time; one 1 to 2,048 ahead is answered NAK, any
other ACK. ACK acknowledges the frames up to its SEQ and is ignored when that SEQ is not outstanding; NAK acknowledges
up to its SEQ and replays; the replay timer replays after 34 ticks. XON and XOFF set the hold, CREDIT adds its
increments; the ACK and the credit timers send after 2 ticks; FLOW_STATE_REPEAT sends the flow state. A control frame
whose bytes do not match its CRC-16 is dropped and counted, and at LEAK_LIMIT the event and, if LEAK_RETRAIN is set, a
retrain follow. (12_stechaisk_link.md R334; 12_stechaisk_link.md R335; 12_stechaisk_link.md R336; 12_stechaisk_link.md
R337; 12_stechaisk_link.md R340; 12_stechaisk_link.md R342; 12_stechaisk_link.md R343; 12_stechaisk_link.md R344) -/
def Obligations.LinkFrames : Prop :=
  (∀ (port i : Nat) (s : State),
      port < 2 →
      (s.port port).st = .up ∧ (s.port port).xoffHeld = false →
      (s.port port).nextUnsent = some i →
      (needsCredit s port (((s.port port).held.getD i { frame := {} }).frame) = true → (s.port port).avail.getD (((s.port port).held.getD i { frame := {} }).frame.vc) 0 ≠ 0) →
      (s.port port).seqs + seqSpan (((s.port port).held.getD i { frame := {} }).frame) ≤ 2047 →
      exec (.dataFrameSend port) s = .next (damageSent 0x08 port (((if i + 1024 < (s.port port).held.length then countDram 1 128 s else s).modPort port fun x => { x with
        held := x.held.set i { frame := { ((s.port port).held.getD i { frame := {} }).frame with seq := (s.port port).txNext }
                               sent := true, credit := needsCredit s port (((s.port port).held.getD i { frame := {} }).frame) }
        txNext := (x.txNext + seqSpan (((s.port port).held.getD i { frame := {} }).frame)) % 4096
        avail := if needsCredit s port (((s.port port).held.getD i { frame := {} }).frame)
          then x.avail.modify (((s.port port).held.getD i { frame := {} }).frame.vc) (· - 1) else x.avail
        timerAt := if (s.port port).outstanding.isEmpty then s.time.elapsed else x.timerAt }).emit (.frame port
          { ((s.port port).held.getD i { frame := {} }).frame with seq := (s.port port).txNext }))))
  ∧ (∀ (port i : Nat) (s : State),
      port < 2 →
      (s.port port).nextUnsent = some i →
      needsCredit s port (((s.port port).held.getD i { frame := {} }).frame) = true →
      (s.port port).avail.getD (((s.port port).held.getD i { frame := {} }).frame.vc) 0 = 0 →
      exec (.dataFrameSend port) s = .next s)
  ∧ (∀ (port : Nat) (f : Frame) (crc : FrameCrc) (s : State),
      port < 2 →
      (s.port port).st = .up →
      frameCrcOk f crc = true →
      seqDiff f.seq (s.port port).rxExpected = 0 →
      frameBytes f ≤ (s.port port).free →
      exec (.dataFrameReceive port f crc) s = .next (acceptFrame port f s))
  ∧ (∀ (port : Nat) (f : Frame) (crc : FrameCrc) (s : State),
      port < 2 →
      (s.port port).st = .up →
      frameCrcOk f crc = false →
      exec (.dataFrameReceive port f crc) s = .next (sendNak port (s.modPort port fun x => { x with crcErr := addSat 24 x.crcErr 1 })))
  ∧ (∀ (port : Nat) (f : Frame) (crc : FrameCrc) (s : State),
      port < 2 →
      (s.port port).st = .up →
      frameCrcOk f crc = true →
      2048 < seqDiff f.seq (s.port port).rxExpected →
      exec (.dataFrameReceive port f crc) s = .next (sendAck port s))
  ∧ (∀ (port : Nat) (f : Frame) (crc : FrameCrc) (s : State),
      port < 2 →
      (s.port port).st = .up →
      frameCrcOk f crc = true →
      0 < seqDiff f.seq (s.port port).rxExpected ∧ seqDiff f.seq (s.port port).rxExpected ≤ 2048 →
      exec (.dataFrameReceive port f crc) s = .next (sendNak port s))
  ∧ (∀ (port : Nat) (f : Frame) (crc : FrameCrc) (s : State),
      port < 2 →
      (s.port port).st = .up →
      frameCrcOk f crc = true →
      seqDiff f.seq (s.port port).rxExpected = 0 →
      (s.port port).free < frameBytes f →
      exec (.dataFrameReceive port f crc) s = .next (sendNak port (if (s.port port).overflow then s else
        portEvent port 8 (le 4 (s.port port).free ++ le 1 (s.port port).headroom) (s.modPort port fun x => { x with overflow := true }))))
  ∧ (∀ (port seq i : Nat) (s : State),
      port < 2 →
      (s.port port).st = .up →
      (s.port port).find seq = some i →
      exec (.ack port seq) s = .next (ackFrames port (if lastSeq (((s.port port).held.getD i { frame := {} }).frame) = seq then i + 1 else i) s))
  ∧ (∀ (port seq : Nat) (s : State),
      port < 2 →
      (s.port port).st = .up →
      (s.port port).find seq = none →
      exec (.ack port seq) s = .next s)
  ∧ (∀ (port seq i : Nat) (s : State),
      port < 2 →
      (s.port port).st = .up →
      (s.port port).find seq = some i →
      exec (.linkNak port seq) s = .next (replayFrames port (ackFrames port i s)))
  ∧ (∀ (port : Nat) (s : State),
      port < 2 →
      (s.port port).st = .up →
      (s.port port).outstanding ≠ [] →
      (s.port port).timerAt + 34 ≤ s.time.elapsed →
      exec (.replayTimerExpire port) s = .next (replayFrames port s))
  ∧ (∀ (port : Nat) (s : State),
      port < 2 →
      (s.port port).st = .up →
      exec (.xon port) s = .next (s.modPort port fun x => { x with xoffHeld := false }))
  ∧ (∀ (port : Nat) (s : State),
      port < 2 →
      (s.port port).st = .up →
      exec (.xoff port) s = .next (s.modPort port fun x => { x with xoffHeld := true }))
  ∧ (∀ (port c0 c1 c2 c3 : Nat) (s : State),
      port < 2 →
      (s.port port).st = .up →
      exec (.credit port c0 c1 c2 c3) s = .next (s.modPort port fun x => { x with
        avail := List.zipWith (· + ·) x.avail [c0, c1, c2, c3] }))
  ∧ (∀ (port : Nat) (s : State),
      port < 2 →
      (s.port port).st = .up →
      0 < (s.port port).unacked →
      (s.port port).unackedAt + 2 ≤ s.time.elapsed →
      exec (.ackTimer port) s = .next (sendAck port s))
  ∧ (∀ (port e : Nat) (s : State),
      port < 2 →
      (s.port port).st = .up →
      (s.port port).returnAt = some e →
      e + 2 ≤ s.time.elapsed →
      exec (.creditReturnTimer port) s = .next (damageSent 0x09 port (sendCredits port s)))
  ∧ (∀ (port : Nat) (s : State),
      port < 2 →
      (s.port port).st = .up →
      exec (.flowStateRepeat port) s = .next ((s.modPort port fun x => { x with flowAt := s.time.elapsed }).emit
        (.ctl port (if (s.port port).xoffSent then .xoff else .xon))))
  ∧ (∀ (port crc : Nat) (bytes : List Byte) (s : State),
      port < 2 →
      ((s.port port).st = .up ∨ (s.port port).st = .handshake) →
      crc16 bytes ≠ crc →
      exec (.controlFrameDrop ⟨port, bytes, crc⟩) s = .next (controlDrop port s))
  ∧ (∀ (port crc : Nat) (bytes : List Byte) (s : State),
      port < 2 →
      ((s.port port).st = .up ∨ (s.port port).st = .handshake) →
      crc16 bytes ≠ crc →
      (((s.modPort port fun x => { x with leak := addSat 24 x.leak 1, ctrlDrop := addSat 24 x.ctrlDrop 1 }).port port).leak
        ≠ ((s.modPort port fun x => { x with leak := addSat 24 x.leak 1, ctrlDrop := addSat 24 x.ctrlDrop 1 }).port port).leakLimit) →
      exec (.controlFrameDrop ⟨port, bytes, crc⟩) s = .next (s.modPort port fun x => { x with
        leak := addSat 24 x.leak 1, ctrlDrop := addSat 24 x.ctrlDrop 1 }))
  ∧ (∀ (port crc : Nat) (bytes : List Byte) (s : State),
      port < 2 →
      port < s.skl.ports.length →
      (s.port port).st = .up →
      crc16 bytes ≠ crc →
      (s.port port).leakRetrain = true →
      addSat 24 (s.port port).leak 1 = (s.port port).leakLimit →
      exec (.controlFrameDrop ⟨port, bytes, crc⟩) s = .next (startRetrain port 4 (portEvent port 7 (le 4 (s.port port).leakLimit
        ++ ((s.port port).avail.map fun n => le 2 n).flatten) (s.modPort port fun x => { x with
        leak := addSat 24 x.leak 1, ctrlDrop := addSat 24 x.ctrlDrop 1 }))))

/-- LANE_ERROR_BURST (a lane that lost signal is marked so, else 33 more errors count) and MARKER_MISALIGN start a
retrain, which startRetrain does at UP only. RETRAIN_TIMEOUT 167,772 ticks after a retrain began fails its handshake.
ALL_LANES_SIGNAL_LOSS at UP takes the port DOWN with cause 5. DOWN_HOLD_EXPIRE 2^24 ticks after DOWN makes a port
neither disabled nor of a halted device ABSENT. GET_LINK_STATUS answers the port's 16 registers and its 32 lane
registers. RETRAIN_LINK keeps HEADROOM, LEAK_LIMIT and LEAK_RETRAIN where given and does its action where the state
allows it; else it is refused at byte 1 with 0x0501, or with 0x0502 while the port trains. (12_stechaisk_link.md R330;
12_stechaisk_link.md R331; 12_stechaisk_link.md R333; 12_stechaisk_link.md R345) -/
def Obligations.LinkLimitsAndCommands : Prop :=
  (∀ (port lane : Nat) (lost : Bool) (s : State),
      port < 2 →
      lane < 16 →
      exec (.laneErrorBurst port lane lost) s = .next (startRetrain port 2 (s.modPort port fun x => { x with
          lanes := x.lanes.modify lane fun l => if lost then { l with signal := false } else { l with errors := addSat 24 l.errors 33 } })))
  ∧ (∀ (port : Nat) (s : State),
      port < 2 →
      exec (.markerMisalign port) s = .next (startRetrain port 3 s))
  ∧ (∀ (port : Nat) (s : State),
      port < 2 →
      (s.port port).retraining = true →
      (s.port port).trainAt + 167772 ≤ s.time.elapsed →
      exec (.retrainTimeout port) s = .next (handshakeFail port 1 s))
  ∧ (∀ (port : Nat) (s : State),
      port < 2 →
      (s.port port).st = .up →
      exec (.allLanesSignalLoss port) s = .next (enterDown port 5 (s.modPort port fun x => { x with
        lanes := x.lanes.map fun l => { l with signal := false } })))
  ∧ (∀ (port : Nat) (s : State),
      port < 2 →
      (s.port port).st = .down →
      (s.port port).disabled = false →
      s.flt.halted = false →
      (s.port port).downAt + 2 ^ 24 ≤ s.time.elapsed →
      exec (.downHoldExpire port) s = .next (s.modPort port fun x => { x with
        st := .absent, retraining := false, quiet := none, fromAbsent := true }))
  ∧ (∀ (m : Mb) (p : List Byte) (s : State),
      accepts getLinkStatusSpec s m p = true →
      (outFits s m (((List.range 16).map fun i => le 4 (sklReg (s.port (byteAt p 0)) (4 * i))).flatten
        ++ ((List.range 32).map fun i => le 4 (sklReg (s.port (byteAt p 0)) (0x100 + 4 * i))).flatten) = true) →
      exec (.getLinkStatus m p) s = .next (reply m 0xC403 .success 0 (((List.range 16).map fun i => le 4 (sklReg (s.port (byteAt p 0)) (4 * i))).flatten
        ++ ((List.range 32).map fun i => le 4 (sklReg (s.port (byteAt p 0)) (0x100 + 4 * i))).flatten) s))
  ∧ (∀ (m : Mb) (p : List Byte) (s : State),
      accepts retrainLinkSpec s m p = true →
      actionAllowed (s.port (byteAt p 0)).st (byteAt p 1) = 2 →
      exec (.retrainLink m p) s = .next (finished 0xC404 m [] s (linkAction (byteAt p 0) (byteAt p 1) (flowState (byteAt p 0)
        (s.modPort (byteAt p 0) fun x => { x with
          headroom := if byteAt p 2 = 0 then x.headroom else byteAt p 2
          leakLimit := if byteAt p 3 = 0 then x.leakLimit else byteAt p 3
          leakRetrain := if bitAt p 4 1 then bitAt p 4 0 else x.leakRetrain })))))
  ∧ (∀ (m : Mb) (p : List Byte) (s : State),
      accepts retrainLinkSpec s m p = true →
      actionAllowed (s.port (byteAt p 0)).st (byteAt p 1) = 1 →
      exec (.retrainLink m p) s = .next (failCmd retrainLinkSpec m 0x0502 1 s))
  ∧ (∀ (m : Mb) (p : List Byte) (s : State),
      accepts retrainLinkSpec s m p = true →
      actionAllowed (s.port (byteAt p 0)).st (byteAt p 1) = 0 →
      exec (.retrainLink m p) s = .next (failCmd retrainLinkSpec m 0x0501 1 s))

/-- At a device not halted and assigned, for a frame addressed to it: RDS, RDA, RDCUR and EVICT of an exported line enter
the sluice of the port and the class with 64 bytes, WR and WRPTL (all bytes, or those of the mask) with 128; an RDS of
a line no export admits is refused with event 307, and a WR already in the duplicate table is answered WACK again.
SINV, SDOWN, SCUR and SFWD are served as the visitor's snoop of that opcode; SINV of a line with a read under way is
held at it. DATA and FWD_DATA deliver to the read of their tag and line, WACK to the write of its write tag; DATA
without such a read is discarded. A chain NAK sets the retry after the back-off, whose random part is free (log 4);
with REASON 3 the device also drops what it holds of that home and sends REJOIN. SACK answers end the snoop at the
home. REJOIN lifts the sender's fence. A halted or unassigned device, or one not addressed, does nothing on any of the
eighteen messages. (01_request_path.md R28; 07_coherence.md R211; 07_coherence.md R215; 07_coherence.md R217;
07_coherence.md R221; 13_chains_and_rings.md R357; 13_chains_and_rings.md R359; 13_chains_and_rings.md R361;
13_chains_and_rings.md R362) -/
def Obligations.ChainMessages : Prop :=
  (∀ (port : Nat) (f : Frame) (s : State),
      port < 2 →
      s.flt.halted = false ∧ assigned s = true ∧ f.dst = s.chain.id →
      exportAdmits s f.src f.line = true →
      exec (.rds port f) s = .next (arrive (8 * (8 + port) + f.cls % 8) ⟨s.req.next, 64, f.line⟩ (addReq {
          id := 0, kind := .rds, mv := .invalid, head := 8 + port, cls := f.cls, line := f.line, data := f.payload
          mask := BitVec.allOnes 64, poison := false, src := f.src, tag := f.tag, wtag := f.wtag, priority := f.priority, since := s.time.elapsed }
          (consume port f s))))
  ∧ (∀ (port : Nat) (f : Frame) (s : State),
      port < 2 →
      s.flt.halted = false ∧ assigned s = true ∧ f.dst = s.chain.id →
      exportAdmits s f.src f.line = true →
      exec (.rda port f) s = .next (arrive (8 * (8 + port) + f.cls % 8) ⟨s.req.next, 64, f.line⟩ (addReq {
          id := 0, kind := .rda, mv := .invalid, head := 8 + port, cls := f.cls, line := f.line, data := f.payload
          mask := BitVec.allOnes 64, poison := false, src := f.src, tag := f.tag, wtag := f.wtag, priority := f.priority, since := s.time.elapsed }
          (consume port f s))))
  ∧ (∀ (port : Nat) (f : Frame) (s : State),
      port < 2 →
      s.flt.halted = false ∧ assigned s = true ∧ f.dst = s.chain.id →
      exportAdmits s f.src f.line = true →
      exec (.rdcur port f) s = .next (arrive (8 * (8 + port) + f.cls % 8) ⟨s.req.next, 64, f.line⟩ (addReq {
          id := 0, kind := .rdcur, mv := .invalid, head := 8 + port, cls := f.cls, line := f.line, data := f.payload
          mask := BitVec.allOnes 64, poison := false, src := f.src, tag := f.tag, wtag := f.wtag, priority := f.priority, since := s.time.elapsed }
          (consume port f s))))
  ∧ (∀ (port : Nat) (f : Frame) (s : State),
      port < 2 →
      s.flt.halted = false ∧ assigned s = true ∧ f.dst = s.chain.id →
      exportAdmits s f.src f.line = true →
      exec (.evict port f) s = .next (arrive (8 * (8 + port) + f.cls % 8) ⟨s.req.next, 64, f.line⟩ (addReq {
          id := 0, kind := .evict, mv := .invalid, head := 8 + port, cls := f.cls, line := f.line, data := f.payload
          mask := BitVec.allOnes 64, poison := false, src := f.src, tag := f.tag, wtag := f.wtag, priority := f.priority, since := s.time.elapsed }
          (consume port f s))))
  ∧ (∀ (port : Nat) (f : Frame) (s : State),
      port < 2 →
      s.flt.halted = false ∧ assigned s = true ∧ f.dst = s.chain.id →
      ((s.chain.dups.any fun d => d.1 == f.src && d.2.1 == f.wtag) = false) →
      exportAdmits s f.src f.line = true →
      exec (.wr port f) s = .next (arrive (8 * (8 + port) + f.cls % 8) ⟨s.req.next, 128, f.line⟩ (addReq {
          id := 0, kind := .wr, mv := .invalid, head := 8 + port, cls := f.cls, line := f.line, data := f.payload
          mask := BitVec.allOnes 64, poison := f.poison, src := f.src, tag := f.tag, wtag := f.wtag, priority := f.priority, since := s.time.elapsed }
          (consume port f s))))
  ∧ (∀ (port : Nat) (f : Frame) (s : State),
      port < 2 →
      s.flt.halted = false ∧ assigned s = true ∧ f.dst = s.chain.id →
      ((s.chain.dups.any fun d => d.1 == f.src && d.2.1 == f.wtag) = false) →
      exportAdmits s f.src f.line = true →
      exec (.wrptl port f) s = .next (arrive (8 * (8 + port) + f.cls % 8) ⟨s.req.next, 128, f.line⟩ (addReq {
          id := 0, kind := .wrPtl, mv := .invalid, head := 8 + port, cls := f.cls, line := f.line, data := f.payload
          mask := f.mask, poison := f.poison, src := f.src, tag := f.tag, wtag := f.wtag, priority := f.priority, since := s.time.elapsed }
          (consume port f s))))
  ∧ (∀ (port : Nat) (f : Frame) (s : State),
      port < 2 →
      s.flt.halted = false ∧ assigned s = true ∧ f.dst = s.chain.id →
      exportAdmits s f.src f.line = false →
      exec (.rds port f) s = .next (raiseAddr 307 (64 * f.line) (le 2 f.src ++ le 8 f.line) (refuseReq {
          id := 0, kind := .rds, mv := .invalid, head := 8 + port, cls := f.cls, line := f.line, data := f.payload
          mask := BitVec.allOnes 64, poison := false, src := f.src, tag := f.tag, wtag := f.wtag, priority := f.priority, since := s.time.elapsed } (consume port f s))))
  ∧ (∀ (port : Nat) (f : Frame) (s : State),
      port < 2 →
      s.flt.halted = false ∧ assigned s = true ∧ f.dst = s.chain.id →
      ((s.chain.dups.any fun d => d.1 == f.src && d.2.1 == f.wtag) = true) →
      exec (.wr port f) s = .next (respondWack {
          id := 0, kind := .wr, mv := .invalid, head := 8 + port, cls := f.cls, line := f.line, data := f.payload
          mask := BitVec.allOnes 64, poison := f.poison, src := f.src, tag := f.tag, wtag := f.wtag, priority := f.priority, since := s.time.elapsed } (consume port f s)))
  ∧ (∀ (port : Nat) (f : Frame) (s : State),
      port < 2 →
      s.flt.halted = false ∧ assigned s = true ∧ f.dst = s.chain.id →
      exec (.sinv port f) s = .next (visitorSnoop { f with opcode := 0x10 } (consume port f s)))
  ∧ (∀ (port : Nat) (f : Frame) (s : State),
      port < 2 →
      s.flt.halted = false ∧ assigned s = true ∧ f.dst = s.chain.id →
      exec (.sdown port f) s = .next (visitorSnoop { f with opcode := 0x11 } (consume port f s)))
  ∧ (∀ (port : Nat) (f : Frame) (s : State),
      port < 2 →
      s.flt.halted = false ∧ assigned s = true ∧ f.dst = s.chain.id →
      exec (.scur port f) s = .next (visitorSnoop { f with opcode := 0x12 } (consume port f s)))
  ∧ (∀ (port : Nat) (f : Frame) (s : State),
      port < 2 →
      s.flt.halted = false ∧ assigned s = true ∧ f.dst = s.chain.id →
      exec (.sfwd port f) s = .next (visitorSnoop { f with opcode := 0x13 } (consume port f s)))
  ∧ (∀ (port : Nat) (f : Frame) (x : Remote) (s : State),
      port < 2 →
      s.flt.halted = false ∧ assigned s = true ∧ f.dst = s.chain.id →
      ((s.chain.remotes.find? fun x => !x.isWrite && x.home == f.src && x.line == f.line) = some x) →
      exec (.sinv port f) s = .next ((consume port f s).modRemote x.tag fun y => { y with held := some { f with opcode := 0x10 } }))
  ∧ (∀ (port : Nat) (f : Frame) (x : Remote) (s : State),
      port < 2 →
      s.flt.halted = false ∧ assigned s = true ∧ f.dst = s.chain.id →
      ((s.chain.remotes.find? fun x => !x.isWrite && x.tag == f.tag && x.home == f.src && x.line == f.line) = some x) →
      exec (.data port f) s = .next (deliverData x f (consume port f s)))
  ∧ (∀ (port : Nat) (f : Frame) (s : State),
      port < 2 →
      s.flt.halted = false ∧ assigned s = true ∧ f.dst = s.chain.id →
      ((s.chain.remotes.find? fun x => !x.isWrite && x.tag == f.tag && x.home == f.src && x.line == f.line) = none) →
      exec (.data port f) s = .next (consume port f s))
  ∧ (∀ (port : Nat) (f : Frame) (x : Remote) (s : State),
      port < 2 →
      s.flt.halted = false ∧ assigned s = true ∧ f.dst = s.chain.id →
      ((s.chain.remotes.find? fun x => !x.isWrite && x.tag == f.tag && x.line == f.line) = some x) →
      exec (.fwdData port f) s = .next (deliverData x f (consume port f s)))
  ∧ (∀ (port : Nat) (f : Frame) (x : Remote) (s : State),
      port < 2 →
      s.flt.halted = false ∧ assigned s = true ∧ f.dst = s.chain.id →
      ((s.chain.remotes.find? fun x => x.isWrite && x.wtag == f.wtag && x.home == f.src) = some x) →
      exec (.wack port f) s = .next (deliverWack x (consume port f s)))
  ∧ (∀ (port : Nat) (f : Frame) (x : Remote) (s : State),
      port < 2 →
      s.flt.halted = false ∧ assigned s = true ∧ f.dst = s.chain.id →
      ((s.chain.remotes.find? fun x => x.headerTag == f.tag && x.home == f.src && x.line == f.line) = some x) →
      f.code ≠ 3 →
      exec (.chainNak port f) s = .next ({ consume port f s with free := s.free + 1 }.modRemote x.tag fun y => { y with
        naks := y.naks + 1, retryAt := some (s.time.elapsed + backoff (x.naks + 1) (Config.backoffDraw s.free).toNat) }))
  ∧ (∀ (port : Nat) (f : Frame) (x : Remote) (s : State),
      port < 2 →
      s.flt.halted = false ∧ assigned s = true ∧ f.dst = s.chain.id →
      ((s.chain.remotes.find? fun x => x.headerTag == f.tag && x.home == f.src && x.line == f.line) = some x) →
      f.code = 3 →
      exec (.chainNak port f) s = .next (sendTo f.src { vc := 3, opcode := 0x38, pl := true, payload := BitVec.ofNat 512 (s.chain.id + s.boot.bootId.toNat * 2 ^ 32) } (visitorLose f.src
        ({ consume port f s with free := s.free + 1 }.modRemote x.tag fun y => { y with
          naks := y.naks + 1, retryAt := some (s.time.elapsed + backoff (x.naks + 1) (Config.backoffDraw s.free).toNat) }))))
  ∧ (∀ (port : Nat) (f : Frame) (s : State),
      port < 2 →
      s.flt.halted = false ∧ assigned s = true ∧ f.dst = s.chain.id →
      exec (.sackNone port f) s = .next (chainAnswer f.src f.line false none (consume port f s)))
  ∧ (∀ (port : Nat) (f : Frame) (s : State),
      port < 2 →
      s.flt.halted = false ∧ assigned s = true ∧ f.dst = s.chain.id →
      exec (.sackS port f) s = .next (chainAnswer f.src f.line true none (consume port f s)))
  ∧ (∀ (port : Nat) (f : Frame) (s : State),
      port < 2 →
      s.flt.halted = false ∧ assigned s = true ∧ f.dst = s.chain.id →
      exec (.sackD port f) s = .next (chainAnswer f.src f.line (f.code == 1) (some f.payload) (consume port f s)))
  ∧ (∀ (port : Nat) (f : Frame) (s : State),
      port < 2 →
      s.flt.halted = false ∧ assigned s = true ∧ f.dst = s.chain.id →
      exec (.rejoin port f) s = .next ((consume port f s).modChain fun c => { c with
        fenced := c.fenced.filter (· != f.payload.toNat % 2 ^ 12) }))
  ∧ (∀ (port : Nat) (f : Frame) (s : State),
      port < 2 →
      (s.flt.halted = true ∨ assigned s = false ∨ f.dst ≠ s.chain.id) →
      exec (.rds port f) s = .next s ∧ exec (.rda port f) s = .next s ∧ exec (.rdcur port f) s = .next s ∧ exec (.wr port f) s = .next s
        ∧ exec (.wrptl port f) s = .next s ∧ exec (.evict port f) s = .next s ∧ exec (.sinv port f) s = .next s ∧ exec (.sdown port f) s = .next s
        ∧ exec (.scur port f) s = .next s ∧ exec (.sfwd port f) s = .next s ∧ exec (.sackNone port f) s = .next s ∧ exec (.sackS port f) s = .next s
        ∧ exec (.sackD port f) s = .next s ∧ exec (.data port f) s = .next s ∧ exec (.fwdData port f) s = .next s ∧ exec (.wack port f) s = .next s
        ∧ exec (.chainNak port f) s = .next s ∧ exec (.rejoin port f) s = .next s)

/-- NAK_BACKOFF_RETRY after the back-off sends an operation that may be resent again, at a device not halted;
REMOTE_RESEND_WINDOW_END takes the retry from one that may not. DUP_WRITE_EXPIRE removes an entry 2^14 ticks old. A
host's remote write 2^15 ticks after its acceptance is undelivered. A tandem write that old takes its range solo, one
of a resync marks its page. CLEAR_LOSS_ENTRY waiting 2^15 ticks ends with 0x0508. A reachable device with a snoop 2^23
ticks old raises event 133, is fenced and its lines dropped. RESERVATION_EXPIRE removes a reservation whose end has
come. (07_coherence.md R219; 07_coherence.md R221; 13_chains_and_rings.md R362; 13_chains_and_rings.md R364;
13_chains_and_rings.md R365; 13_chains_and_rings.md R368) -/
def Obligations.ChainLimits : Prop :=
  (∀ (rid e : Nat) (x : Remote) (s : State),
      s.remote? rid = some x →
      x.retryAt = some e →
      e ≤ s.time.elapsed →
      mayResend s x = true →
      s.flt.halted = false →
      exec (.nakBackoffRetry rid) s = .next (sendRemote rid (s.modRemote rid fun y => { y with retryAt := none })))
  ∧ (∀ (rid : Nat) (x : Remote) (s : State),
      s.remote? rid = some x →
      mayResend s x = false →
      exec (.remoteResendWindowEnd rid) s = .next (s.modRemote rid fun y => { y with retryAt := none }))
  ∧ (∀ (src wtag : Nat) (s : State),
      exec (.dupWriteExpire src wtag) s = .next (s.modChain fun c => { c with dups := c.dups.filter fun d =>
        !(d.1 == src && d.2.1 == wtag && decide (d.2.2 + 2 ^ 14 ≤ s.time.elapsed)) }))
  ∧ (∀ (rid : Nat) (x : Remote) (r : Req) (s : State),
      s.remote? rid = some x →
      x.why = .req r →
      x.isWrite = true →
      x.since + 2 ^ 15 ≤ s.time.elapsed →
      s.flt.halted = false →
      exec (.undeliveredWrite rid) s = .next (undeliver x s))
  ∧ (∀ (rid range q : Nat) (x : Remote) (s : State),
      s.remote? rid = some x →
      x.why = .tandem range q →
      x.since + 2 ^ 15 ≤ s.time.elapsed →
      s.flt.halted = false →
      exec (.tandemAckTimeout rid) s = .next (goSolo range 1 s))
  ∧ (∀ (rid range page : Nat) (x : Remote) (s : State),
      s.remote? rid = some x →
      x.why = .resync range page →
      x.since + 2 ^ 15 ≤ s.time.elapsed →
      s.flt.halted = false →
      exec (.tandemAckTimeout rid) s = .next (markPage range page (s.modChain fun c => { c with
        remotes := c.remotes.filter fun y => y.why != .resync range page })))
  ∧ (∀ (m : Mb) (p : List Byte) (since : Nat) (s : State),
      s.crity.waiting = some (m, 0xC208, p, since) →
      since + 2 ^ 15 ≤ s.time.elapsed →
      exec .clearLossWackTimeout s = .next (endClear (ofLe p 0 4) 0x0508 s))
  ∧ (∀ (dev line : Nat) (x : ChainSnoop) (s : State),
      ((s.dir.chSnoops.find? fun x => x.dev == dev && x.line == line) = some x) →
      x.since + 2 ^ 23 ≤ s.time.elapsed →
      (direction s dev).isSome = true →
      let t := raiseAddr 133 (64 * line) (le 2 dev ++ le 8 line ++ le 1 x.opcode) s;
        exec (.chainSnoopTimeout dev line) s = .next (dropDevice dev (failSnoops dev (t.modChain fun c => { c with
          fenced := if c.fenced.contains dev then c.fenced else dev :: c.fenced }))))
  ∧ (∀ (line : Nat) (s : State),
      exec (.reservationExpire line) s = .next { s with dir := { s.dir with resv := s.dir.resv.filter fun x =>
        !(x.line == line && (match x.ends with | some e => decide (e ≤ s.time.elapsed) | none => false)) } })

/-- At a device not halted: ROUTE_CUT of another device, not known yet, is kept, passed on out of the other port and
reported with event 309; ROUTE_JOIN of a cut that is known ends it, is passed on and reported with event 310 (both of
an assigned device). NEIGHBOUR, from a device whose BOOT_ID is no news to a tandem range, is kept; at an assigned
device whose generation agrees, on a port that is UP, it also ends the port's own cut and starts the tandem resyncs
with that device. PROBE of mode 0 at an unused device takes NEXT_ID and goes on with the next one, or comes back as
PROBE_END where no link goes on; at a device probed by another initiator it comes back busy. PROBE_END of a discovery
that goes well passes a device that started none; a busy one ends the discovery with 0x0506. TOPO at an unassigned
probed device is committed, passed on and reported; one that says nothing new is discarded. CHAIN_DISCOVER with EXTEND
starts a discovery in the background. SET_HOP_LIMIT keeps the limit and sends it. (13_chains_and_rings.md R346;
13_chains_and_rings.md R347; 13_chains_and_rings.md R348; 13_chains_and_rings.md R349; 13_chains_and_rings.md R350;
13_chains_and_rings.md R351; 13_chains_and_rings.md R352; 13_chains_and_rings.md R369) -/
def Obligations.ChainRoutes : Prop :=
  (∀ (port chainId cutPort : Nat) (s : State),
      port < 2 →
      s.flt.halted = false ∧ assigned s = true →
      (chainId ≠ s.chain.id ∧ (s.chain.cuts.any fun c => c.2 == (chainId, cutPort)) = false) →
      let t := consumeOp port 0x34 s;
        exec (.routeCut port chainId cutPort) s = .next (afterRoutes t (raiseAll 309 0 (le 1 port ++ le 2 chainId)
          (maintain (1 - port) 0x34 (le 2 chainId ++ le 1 cutPort) (t.modChain fun c => { c with
            cuts := (port, chainId, cutPort) :: c.cuts })))))
  ∧ (∀ (port chainId cutPort : Nat) (s : State),
      port < 2 →
      s.flt.halted = false ∧ assigned s = true →
      (chainId ≠ s.chain.id ∧ (s.chain.cuts.any fun c => c.2 == (chainId, cutPort)) = true) →
      let t := consumeOp port 0x35 s;
        exec (.routeJoin port chainId cutPort) s = .next (afterRoutes t (raiseAll 310 0 (le 1 port)
          (maintain (1 - port) 0x35 (le 2 chainId ++ le 1 cutPort) (t.modChain fun c => { c with
            cuts := c.cuts.filter fun x => x.2 != (chainId, cutPort) })))))
  ∧ (∀ (port chainId gen bootId partner : Nat) (s : State),
      port < 2 →
      s.flt.halted = false →
      ((s.dur.tandem.filter fun t => t.buddy == chainId && t.bootId != bootId) = []) →
      (assigned s = false ∨ chainId = 0xFFF ∨ gen ≠ s.chain.gen) →
      exec (.neighbour port chainId gen bootId partner) s = .next ((consumeOp port 0x33 s).modChain fun c => {
        c with neighbours := c.neighbours.set port (some ⟨chainId, gen, bootId, partner⟩) }))
  ∧ (∀ (port chainId gen bootId partner : Nat) (s : State),
      port < 2 →
      s.flt.halted = false ∧ assigned s = true →
      ((s.dur.tandem.filter fun t => t.buddy == chainId && t.bootId != bootId) = []) →
      chainId ≠ 0xFFF ∧ gen = s.chain.gen →
      ((consumeOp port 0x33 s).port port).st = .up →
      let t := afterRoutes (consumeOp port 0x33 s) (sendJoin port ((consumeOp port 0x33 s).modChain fun c => {
          c with neighbours := c.neighbours.set port (some ⟨chainId, gen, bootId, partner⟩) }));
        exec (.neighbour port chainId gen bootId partner) s = .next ((t.dur.tandem.filter fun x => x.buddy == chainId).foldl
          (fun u x => startResync x.range u) t))
  ∧ (∀ (port : Nat) (msg : ProbeMsg) (s : State),
      port < 2 →
      s.flt.halted = false →
      (port = (if msg.west then 0 else 1)) →
      s.chain.discovery = none ∧ s.chain.probed = none →
      msg.mode = 0 ∧ chainUsed s = false →
      msg.nextId ≤ 0xFFE →
      ((consumeOp port 0x30 s).port (1 - port)).st = .up →
      exec (.probe port msg) s = .next (maintain (1 - port) 0x30 (probeBytes { msg with nextId := msg.nextId + 1 })
        ((consumeOp port 0x30 s).modChain fun c => { c with probed := some (msg.initiator, msg.nextId) })))
  ∧ (∀ (port : Nat) (msg : ProbeMsg) (s : State),
      port < 2 →
      s.flt.halted = false →
      (port = (if msg.west then 0 else 1)) →
      s.chain.discovery = none ∧ s.chain.probed = none →
      msg.mode = 0 ∧ chainUsed s = false →
      msg.nextId ≤ 0xFFE →
      ((consumeOp port 0x30 s).port (1 - port)).st ≠ .up →
      exec (.probe port msg) s = .next (maintain port 0x31 (probeBytes { msg with nextId := msg.nextId + 1 })
        ((consumeOp port 0x30 s).modChain fun c => { c with probed := some (msg.initiator, msg.nextId) })))
  ∧ (∀ (port : Nat) (msg : ProbeMsg) (q : Nat × Nat) (s : State),
      port < 2 →
      s.flt.halted = false →
      (port = (if msg.west then 0 else 1)) →
      s.chain.discovery = none →
      s.chain.probed = some q →
      q.1 ≠ msg.initiator →
      exec (.probe port msg) s = .next (maintain port 0x31 (probeBytes { msg with busy := true }) (consumeOp port 0x30 s)))
  ∧ (∀ (port : Nat) (msg : ProbeMsg) (s : State),
      port < 2 →
      s.flt.halted = false →
      s.chain.discovery = none →
      msg.busy = false ∧ msg.conflict = false ∧ msg.nextId ≤ 0xFFF →
      exec (.probeEnd port msg) s = .next (maintain (1 - port) 0x31 (probeBytes msg) (consumeOp port 0x31 s)))
  ∧ (∀ (port : Nat) (msg : ProbeMsg) (d : Discovery) (s : State),
      port < 2 →
      s.flt.halted = false →
      s.chain.discovery = some d →
      msg.busy = true →
      exec (.probeEnd port msg) s = .next (discoveryResult d 0x0506 [] (consumeOp port 0x31 s)))
  ∧ (∀ (port : Nat) (msg : TopoMsg) (q : Nat × Nat) (s : State),
      port < 2 →
      s.flt.halted = false →
      assigned s = false →
      s.chain.probed = some q →
      let t := (consumeOp port 0x32 s).modChain fun c => { c with
          id := q.2, gen := msg.gen, n := msg.n, ring := msg.ring, forwarding := msg.forwarding, hopLimit := msg.hopLimit
          lowest := msg.lowest, highest := msg.highest, eastEnd := msg.eastEnd, westEnd := msg.westEnd, probed := none, cuts := [] };
        exec (.topo port msg) s = .next (raiseChanged (maintain (1 - port) 0x32 (topoBytes t.chain) t)))
  ∧ (∀ (port : Nat) (msg : TopoMsg) (s : State),
      port < 2 →
      s.flt.halted = false →
      assigned s = true →
      s.chain.gen = msg.gen ∧ s.chain.hopLimit = msg.hopLimit →
      exec (.topo port msg) s = .next (consumeOp port 0x32 s))
  ∧ (∀ (m : Mb) (p : List Byte) (s : State),
      accepts chainDiscoverSpec s m p = true →
      (bgOf s m.src).busy = false →
      s.chain.discovery = none ∧ s.chain.probed = none →
      byteAt p 0 = 1 →
      (m.src = 8 ∨ m.src < s.host.heads.length) →
      exec (.chainDiscover m p) s = .next (startDiscovery (discoveryOf m p s) (started 0xC400 m .discover s)))
  ∧ (∀ (m : Mb) (p : List Byte) (s : State),
      accepts setHopLimitSpec s m p = true →
      exec (.setHopLimit m p) s = .next (finished 0xC405 m [] s (sendTopo (s.modChain fun c => { c with hopLimit := byteAt p 0 }))))

/-- An export over a good span, in a free place that overlaps nothing and to a peer within reach or to any, is entered at
once; deleting one closes it. An import over a good unused span waits for the answer to its WINDOW_CHECK. SET_TANDEM
of a valid range with a reachable device east waits likewise; clearing one ends it at once. WINDOW_CHECK at the home
is answered with whether one export covers the whole span for that device. WINDOW_RSP 0 enters the import that waits,
1 fails its command with 0x050A; no answer within 2^15 ticks fails it with 0x0508. (13_chains_and_rings.md R354;
13_chains_and_rings.md R355; 13_chains_and_rings.md R356; 13_chains_and_rings.md R357; 13_chains_and_rings.md R358;
13_chains_and_rings.md R366; 13_chains_and_rings.md R367) -/
def Obligations.ChainWindows : Prop :=
  (∀ (m : Mb) (p : List Byte) (s : State),
      accepts setRemoteWindowSpec s m p = true →
      bitAt p 2 0 = true ∧ byteAt p 1 = 1 →
      spanOk s (ofLe p 4 4) (ofLe p 8 4) = true →
      aget s.chain.exports (byteAt p 0) = none →
      (((s.chain.exports ++ s.chain.imports).any fun x => x.2.overlaps (ofLe p 4 4) (ofLe p 8 4)) = false) →
      (ofLe p 12 2 = 0xFFF ∨ peerCheck s (ofLe p 12 2) = 0) →
      exec (.setRemoteWindow m p) s = .next (finished 0xC401 m [] s (s.modChain fun c => { c with
        exports := aset c.exports (byteAt p 0) ⟨ofLe p 4 4, ofLe p 8 4, ofLe p 12 2, 0, false, false⟩ })))
  ∧ (∀ (m : Mb) (p : List Byte) (s : State),
      accepts setRemoteWindowSpec s m p = true →
      bitAt p 2 0 = true ∧ byteAt p 1 = 0 →
      spanOk s (ofLe p 4 4) (ofLe p 8 4) = true →
      spanUsed s (ofLe p 4 4 * 2 ^ 18) (ofLe p 8 4 * 2 ^ 18) = false →
      aget s.chain.imports (byteAt p 0) = none →
      (((s.chain.imports ++ s.chain.exports).any fun x => x.2.overlaps (ofLe p 4 4) (ofLe p 8 4)) = false) →
      peerCheck s (ofLe p 12 2) = 0 →
      let w : Window := ⟨ofLe p 4 4, ofLe p 8 4, ofLe p 12 2, ofLe p 16 4, false, false⟩;
        let t := sendCheck (.window (byteAt p 0) w) (ofLe p 12 2) (ofLe p 16 4) (ofLe p 8 4) s;
        exec (.setRemoteWindow m p) s = .next { t with crity := { t.crity with waiting := some (m, 0xC401, p, t.time.elapsed) } })
  ∧ (∀ (m : Mb) (p : List Byte) (x : Window) (s : State),
      accepts setRemoteWindowSpec s m p = true →
      bitAt p 2 0 = false ∧ byteAt p 1 = 1 →
      aget s.chain.exports (byteAt p 0) = some x →
      exec (.setRemoteWindow m p) s = .next (finished 0xC401 m [] s (closeExport x (s.modChain fun c => { c with
        exports := adel c.exports (byteAt p 0) }))))
  ∧ (∀ (m : Mb) (p : List Byte) (s : State),
      accepts setTandemSpec s m p = true →
      bitAt p 1 0 = false →
      exec (.setTandem m p) s = .next (finished 0xC402 m [] s (clearTandem (byteAt p 0) s)))
  ∧ (∀ (m : Mb) (p : List Byte) (b : Nat) (s : State),
      accepts setTandemSpec s m p = true →
      bitAt p 1 0 = true →
      (s.range (byteAt p 0)).valid = true →
      eastOf s.chain = some b →
      (direction s b).isSome = true →
      let t := sendCheck (.tandem (byteAt p 0) (ofLe p 4 4)) b (ofLe p 4 4) (s.range (byteAt p 0)).sizeGib s;
        exec (.setTandem m p) s = .next { t with crity := { t.crity with waiting := some (m, 0xC402, p, t.time.elapsed) } })
  ∧ (∀ (port src line sizeGib : Nat) (s : State),
      port < 2 →
      s.flt.halted = false ∧ assigned s = true →
      exec (.windowCheck port src line sizeGib) s = .next (sendTo src {
        vc := 3, opcode := 0x37, pl := true, payload := BitVec.ofNat 512 (b2n (!(s.chain.exports.any fun x => x.2.covers line
          && decide (line + sizeGib * gibLines ≤ (x.2.localGib + x.2.sizeGib) * gibLines) && (x.2.peer == src || x.2.peer == 0xFFF)))
          + s.boot.bootId.toNat * 2 ^ 32) } (consumeOp port 0x36 s)))
  ∧ (∀ (port bootId idx since peer at_ : Nat) (x : Window) (m : Mb) (p : List Byte) (s : State),
      port < 2 →
      s.flt.halted = false →
      s.chain.wait = some ⟨.window idx x, peer, since⟩ →
      s.crity.waiting = some (m, 0xC401, p, at_) →
      let t := (consumeOp port 0x37 s).modChain fun c => { c with wait := none };
        exec (.windowRsp port 0 bootId) s = .next (finishWaiting m 0xC401 0 (t.modChain fun c => { c with
            imports := aset c.imports idx x, lost := c.lost.filter (· != idx) })))
  ∧ (∀ (port result bootId idx since peer at_ : Nat) (x : Window) (m : Mb) (p : List Byte) (s : State),
      port < 2 →
      result ≠ 0 →
      s.flt.halted = false →
      s.chain.wait = some ⟨.window idx x, peer, since⟩ →
      s.crity.waiting = some (m, 0xC401, p, at_) →
      let t := (consumeOp port 0x37 s).modChain fun c => { c with wait := none };
        exec (.windowRsp port result bootId) s = .next (finishWaiting m 0xC401 0x050A t))
  ∧ (∀ (v : WindowWait) (m : Mb) (op at_ : Nat) (p : List Byte) (s : State),
      s.chain.wait = some v →
      s.crity.waiting = some (m, op, p, at_) →
      v.since + 2 ^ 15 ≤ s.time.elapsed →
      exec .windowCheckTimeout s = .next (finishWaiting m op 0x0508 (s.modChain fun c => { c with wait := none })))

/-- Of a responder that answers: GET_VERSION starts the connection again, GET_CAPABILITIES and NEGOTIATE_ALGORITHMS take
the next step after it, and GET_DIGESTS before that is answered ERROR 4; GET_DIGESTS, slot 0 of GET_CERTIFICATE and of
CHALLENGE (another slot: ERROR 1) and GET_MEASUREMENTS 1 to 6 are answered. KEY_EXCHANGE of a new session opens a half
session while fewer than four, or two on the sideband, are there, else ERROR 0x0A; FINISH opens it; END_SESSION
removes it and KEY_UPDATE and HEARTBEAT are answered in it; without an open session these three are answered ERROR 2.
IDE_KM in an open session does the operation: PROGRAM adds a new stream while its kind has room (one CXL.cachemem, one
link, four selective), GO makes a keyed stream secure, STOP removes one, and one that cannot be done is answered ERROR
1. DOE discovery answers each of the four protocols, CXL_TABLE_ACCESS each CDAT entry, the last with the offered
capacity. The message codes are those of the standards (PRESUMED, log 8) and what a response carries beyond the bytes
shown is free (log 7). (09_host_ports.md R261; 09_host_ports.md R262; 17_lengthsman.md R449; 06_encryption.md R190) -/
def Obligations.SpdmAndIde : Prop :=
  (∀ (who : Nat) (s : State),
      who < 9 →
      responds s who = true →
      exec (.spdmGetVersion who) s = .next (spdmSay who 0x04 0 [0x12#8] (s.modSpdm who fun _ => { version := true })))
  ∧ (∀ (who : Nat) (s : State),
      who < 9 →
      responds s who = true →
      (spdmOf s who).version = true →
      exec (.spdmGetCapabilities who) s = .next (spdmSay who 0x61 0 [] (s.modSpdm who fun c => { c with caps := true })))
  ∧ (∀ (who : Nat) (s : State),
      who < 9 →
      responds s who = true →
      (spdmOf s who).caps = true →
      exec (.spdmNegotiateAlgorithms who) s = .next (spdmSay who 0x63 0 [] (s.modSpdm who fun c => { c with algs := true })))
  ∧ (∀ (who : Nat) (s : State),
      who < 9 →
      responds s who = true →
      (spdmOf s who).algs = false →
      exec (.spdmGetDigests who) s = .next (s.emit (.doe who 0x7F [0x04#8])))
  ∧ (∀ (who : Nat) (s : State),
      who < 9 →
      responds s who = true →
      (spdmOf s who).algs = true →
      exec (.spdmGetDigests who) s = .next (spdmSay who 0x01 0 [0x01#8] s))
  ∧ (∀ (who slot : Nat) (s : State),
      who < 9 →
      responds s who = true →
      (spdmOf s who).algs = true →
      exec (.spdmGetCertificate who slot) s = .next (if slot = 0 then spdmSay who 0x02 0 [0x00#8] s else s.emit (.doe who 0x7F [0x01#8])))
  ∧ (∀ (who slot nonce : Nat) (s : State),
      who < 9 →
      responds s who = true →
      (spdmOf s who).algs = true →
      exec (.spdmChallenge who slot nonce) s = .next (if slot = 0 then spdmSay who 0x03 nonce [0x00#8] s else s.emit (.doe who 0x7F [0x01#8])))
  ∧ (∀ (who i nonce : Nat) (s : State),
      who < 9 →
      responds s who = true →
      (spdmOf s who).algs = true →
      1 ≤ i ∧ i ≤ 6 →
      exec (.spdmGetMeasurements who i nonce) s = .next (spdmSay who 0x60 nonce (measurement s i) s))
  ∧ (∀ (who session : Nat) (s : State),
      who < 9 →
      responds s who = true →
      (spdmOf s who).algs = true →
      (spdmOf s who).sessions.any (·.id == session) = false →
      ((spdmOf s who).sessions.length < (if who = 8 then 2 else 4)) →
      exec (.spdmKeyExchange who session) s = .next (spdmSay who 0x64 session [] (s.modSpdm who fun c => { c with
        sessions := c.sessions ++ [⟨session, false⟩] })))
  ∧ (∀ (who session : Nat) (s : State),
      who < 9 →
      responds s who = true →
      (spdmOf s who).algs = true →
      (spdmOf s who).sessions.any (·.id == session) = false →
      ((if who = 8 then 2 else 4) ≤ (spdmOf s who).sessions.length) →
      exec (.spdmKeyExchange who session) s = .next (s.emit (.doe who 0x7F [0x0A#8])))
  ∧ (∀ (who session : Nat) (s : State),
      who < 9 →
      responds s who = true →
      (spdmOf s who).algs = true →
      (((spdmOf s who).sessions.any fun x => x.id == session && !x.open_) = true) →
      exec (.spdmFinish who session) s = .next (spdmSay who 0x65 session [] (s.modSpdm who fun c => { c with
        sessions := c.sessions.map fun x => if x.id = session then { x with open_ := true } else x })))
  ∧ (∀ (who session : Nat) (s : State),
      who < 9 →
      responds s who = true →
      sessionOpen s who session = true →
      exec (.spdmEndSession who session) s = .next (spdmSay who 0x6C session [] (s.modSpdm who fun c => { c with
        sessions := c.sessions.filter (·.id != session) })))
  ∧ (∀ (who session : Nat) (s : State),
      who < 9 →
      responds s who = true →
      sessionOpen s who session = true →
      exec (.spdmKeyUpdate who session) s = .next (spdmSay who 0x69 session [] s))
  ∧ (∀ (who session : Nat) (s : State),
      who < 9 →
      responds s who = true →
      sessionOpen s who session = true →
      exec (.spdmHeartbeat who session) s = .next (spdmSay who 0x68 session [] s))
  ∧ (∀ (who session : Nat) (s : State),
      who < 9 →
      responds s who = true →
      sessionOpen s who session = false →
      exec (.spdmEndSession who session) s = .next (s.emit (.doe who 0x7F [0x02#8])) ∧ exec (.spdmKeyUpdate who session) s = .next (s.emit (.doe who 0x7F [0x02#8]))
        ∧ exec (.spdmHeartbeat who session) s = .next (s.emit (.doe who 0x7F [0x02#8])))
  ∧ (∀ (head session : Nat) (op : IdeOp) (x : Head) (s : State),
      head < 8 →
      responds s head = true →
      sessionOpen s head session = true →
      ideStep op (s.head head) = some x →
      exec (.ideKm head session op) s = .next (spdmSay head (ideRsp op) session [] (s.modHead head fun _ => x)))
  ∧ (∀ (head session n : Nat) (kind : IdeKind) (skid : Bool) (s : State),
      head < 8 →
      responds s head = true →
      sessionOpen s head session = true →
      (((s.head head).ide.any fun x => x.stream == n && x.kind == kind) = false) →
      (((s.head head).ide.countP fun x => x.kind == kind) < (if kind = .selective then 4 else 1)) →
      exec (.ideKm head session (.program n kind skid)) s = .next (spdmSay head 0x103 session [] (s.modHead head fun _ =>
        { s.head head with ide := (s.head head).ide ++ [⟨n, kind, skid, true, false⟩] })))
  ∧ (∀ (head session n : Nat) (kind : IdeKind) (s : State),
      head < 8 →
      responds s head = true →
      sessionOpen s head session = true →
      (((s.head head).ide.any fun x => (x.stream == n && x.kind == kind) && x.keyed) = true) →
      exec (.ideKm head session (.go n kind)) s = .next (spdmSay head 0x106 session [] (s.modHead head fun _ =>
        { s.head head with ide := (s.head head).ide.map fun x => if x.stream == n && x.kind == kind then { x with secure := true } else x })))
  ∧ (∀ (head session n : Nat) (kind : IdeKind) (s : State),
      head < 8 →
      responds s head = true →
      sessionOpen s head session = true →
      (((s.head head).ide.any fun x => x.stream == n && x.kind == kind) = true) →
      exec (.ideKm head session (.stop n kind)) s = .next (spdmSay head 0x106 session [] (s.modHead head fun _ =>
        { s.head head with ide := (s.head head).ide.filter fun x => !(x.stream == n && x.kind == kind) })))
  ∧ (∀ (head session : Nat) (op : IdeOp) (s : State),
      head < 8 →
      responds s head = true →
      sessionOpen s head session = true →
      ideStep op (s.head head) = none →
      exec (.ideKm head session op) s = .next (s.emit (.doe head 0x7F [0x01#8])))
  ∧ (∀ (head index v t : Nat) (s : State),
      head < 8 →
      responds s head = true →
      doeProtocols[index]? = some (v, t) →
      exec (.doeDiscovery head index) s = .next (s.emit (.doe head 0x200 (le 2 v ++ le 1 t ++ le 1 (if index = 3 then 0 else index + 1)))))
  ∧ (∀ (head entry : Nat) (b : List Byte) (s : State),
      head < 8 →
      responds s head = true →
      (cdat s head)[entry]? = some b →
      exec (.cxlTableAccess head entry) s = .next (s.emit (.doe head 0x201 (le 2 (if entry = 5 then 0xFFFF else entry + 1) ++ b))))
  ∧ (∀ (head : Nat) (s : State),
      head < 8 →
      responds s head = true →
      Answers (exec (.cxlTableAccess head 5) s) fun t => ∃ b, t = s.emit (.doe head 0x201 (le 2 0xFFFF ++ b)) ∧ b.length = 24
        ∧ b.drop 16 = le 8 (s.map.geo.offeredGib * gib))

/-- IDENTIFY_WALBEN, GET_HEALTH_SUMMARY, LIST_OUTINGS and GET_OUTING of an outing that exists are answered from the state,
with the identity, the health summary, the list and the outing's bytes, and change nothing but the mailbox.
SET_MANAGING_HEAD gives management to a present head whose link is up. PAUSE_OUTING pauses an open pausable running
outing, RESUME_OUTING sets an open paused one to running, ABORT_OUTING ends an open abortable one. When the start
phase of a background re-key ends and its result is known, the result is delivered. (14_crity_commands.md R371;
14_crity_commands.md R372; 14_crity_commands.md R374; 14_crity_commands.md R378; 14_crity_commands.md R379;
14_crity_commands.md R381; 14_crity_commands.md R383; 14_crity_commands.md R385; 14_crity_commands.md R389) -/
def Obligations.CrityCommands : Prop :=
  (∀ (m : Mb) (p : List Byte) (s : State),
      accepts identifyWalbenSpec s m p = true →
      outFits s m (identity m.src s) = true →
      exec (.identifyWalben m p) s = .next (reply m 0xC000 .success 0 (identity m.src s) s))
  ∧ (∀ (m : Mb) (p : List Byte) (s : State),
      accepts { identifyWalbenSpec with opcode := 0xC001 } s m p = true →
      outFits s m (healthSummary s) = true →
      exec (.getHealthSummary m p) s = .next (reply m 0xC001 .success 0 (healthSummary s) s))
  ∧ (∀ (m : Mb) (p : List Byte) (s : State),
      (accepts { outingSpec with
      opcode := 0xC002, resv := [(1, 0xFFFFFF)], checks := fun p _ => [⟨0, decide (byteAt p 0 ≤ 7), 0x0007⟩] } s m p = true) →
      (s.head (byteAt p 0)).present = true →
      headUp s (byteAt p 0) = true →
      exec (.setManagingHead m p) s = .next (finished 0xC002 m [] s { s with crity := { s.crity with
        managing := some (byteAt p 0) } }))
  ∧ (∀ (m : Mb) (p : List Byte) (o : Outing) (s : State),
      accepts getOutingSpec s m p = true →
      outFits s m (outingBytes s o) = true →
      findOuting s (ofLe p 0 4) = some o →
      exec (.getOuting m p) s = .next (reply m 0xC501 .success 0 (outingBytes s o) s))
  ∧ (∀ (m : Mb) (p : List Byte) (s : State),
      (accepts { getOutingSpec with
      opcode := 0xC500, len := fun n => n == 8, resv := [(4, 0xFC), (5, 0xFF)]
      checks := fun p _ => [⟨6, decide (1 ≤ ofLe p 6 2 ∧ ofLe p 6 2 ≤ 1023), 0x0007⟩] } s m p = true) →
      outFits s m (outingList m.src p s) = true →
      exec (.listOutings m p) s = .next (reply m 0xC500 .success 0 (outingList m.src p s) s))
  ∧ (∀ (m : Mb) (p : List Byte) (o : Outing) (s : State),
      accepts outingSpec s m p = true →
      findOuting s (ofLe p 0 4) = some o →
      o.open_ = true →
      pausable s o = true →
      o.state = 0 →
      exec (.pauseOuting m p) s = .next (finished 0xC502 m [] s (outingVector o (s.modOuting o.id fun x => { x with
        state := 1, last := s.time.chain }))))
  ∧ (∀ (m : Mb) (p : List Byte) (o : Outing) (s : State),
      accepts { outingSpec with opcode := 0xC503 } s m p = true →
      findOuting s (ofLe p 0 4) = some o →
      o.open_ = true →
      o.state = 1 →
      exec (.resumeOuting m p) s = .next (finished 0xC503 m [] s (outingVector o (s.modOuting o.id fun x => { x with
        state := 0, last := s.time.chain }))))
  ∧ (∀ (m : Mb) (p : List Byte) (o : Outing) (s : State),
      accepts { outingSpec with opcode := 0xC504 } s m p = true →
      findOuting s (ofLe p 0 4) = some o →
      o.open_ = true →
      abortable o = true →
      exec (.abortOuting m p) s = .next (finished 0xC504 m [] s (endOuting o.id 3 0 s)))
  ∧ (∀ (src : Nat) (rc : Rc) (wsc : Nat) (out : List Byte) (r id : Nat) (s : State),
      src < 9 →
      (bgOf s src).op = some (.rekey r id) →
      (bgOf s src).busy = true →
      (bgOf s src).result = some (rc, wsc, out) →
      exec (.backgroundStartPhaseEnd src) s = .next (endBackground src rc wsc out (bgOuting (bgOf s src) out) s))

/-- DOMAIN_DRAIN_DONE of a draining domain with nothing left takes it Off, pads held, its units reset, a replacement that
waited for it served, a Stechaisk port's route cut, and the arbiter looks again. DOMAIN_DRAIN_TIMEOUT 167,772 ticks
after the drain began leaves it On, to be tried again, with event 1474 naming the domain and what it still holds. In
handshake mode an accepting block without work under way lets the drain begin; a refusal, an acceptance over such
work, and a fourth delay leave the domain On with event 1473; one of the first three delays of 1 to 65,536 ticks is
kept, and HANDSHAKE_DELAY_EXPIRE ends it. A wake ends On with its latency; a failed wake ends Off with event 1472 and
no further try, and fences with cause 8 both units of a channel or the drive of a drive port. PAD_RELEASE of an On
domain makes its units ready and resumes the codec's waiting work. (15_power_domains.md R396; 15_power_domains.md
R397; 15_power_domains.md R399; 15_power_domains.md R402; 15_power_domains.md R403; 15_power_domains.md R404) -/
def Obligations.DomainTransitions : Prop :=
  (∀ (dom : Nat) (s : State),
      dom < 44 →
      (s.dom dom).st = .draining →
      undrained s dom = 0 →
      let t := replaceDown dom (domainReset dom (s.modDom dom fun x => { x with
          st := .off, padsHeld := true, offTime := s.time.chain, offAt := s.time.elapsed, retry := false, delayEnd := none }));
        exec (.domainDrainDone dom) s = .next (settleMode (arbitrate dom (if 42 ≤ dom then afterRoutes s (sendCut (dom - 42) t) else t))))
  ∧ (∀ (dom : Nat) (s : State),
      dom < 44 →
      (s.dom dom).st = .draining →
      (s.dom dom).drainAt + 167772 ≤ s.time.elapsed →
      exec (.domainDrainTimeout dom) s = .next (settleMode (raiseAll 1474 0 (le 1 dom ++ le 4 (undrained s dom))
        (s.modDom dom fun x => { x with st := .on, retry := true }))))
  ∧ (∀ (dom block : Nat) (s : State),
      dom < 44 →
      (s.dom dom).st = .asking →
      (s.dom dom).delayEnd = none →
      blockRefuses s dom = false →
      exec (.handshakeReply dom block .accept) s = .next (s.modDom dom fun x => { x with st := .draining, drainAt := s.time.elapsed }))
  ∧ (∀ (dom block : Nat) (reply : HsReply) (s : State),
      dom < 44 →
      (s.dom dom).st = .asking →
      (s.dom dom).delayEnd = none →
      (reply = .refuse ∨ (reply = .accept ∧ blockRefuses s dom = true)) →
      exec (.handshakeReply dom block reply) s = .next (settleMode (raiseAll 1473 0
          (le 1 dom ++ le 1 block ++ le 1 (s.dom dom).delays)
          (s.modDom dom fun x => { x with st := .on, retry := true, delayEnd := none }))))
  ∧ (∀ (dom block n : Nat) (s : State),
      dom < 44 →
      (s.dom dom).st = .asking →
      (s.dom dom).delayEnd = none →
      (s.dom dom).delays < 3 →
      1 ≤ n ∧ n ≤ 2 ^ 16 →
      exec (.handshakeReply dom block (.delay n)) s = .next (s.modDom dom fun x => { x with
          delays := x.delays + 1, delayEnd := some (s.time.elapsed + n) }))
  ∧ (∀ (dom block n : Nat) (s : State),
      dom < 44 →
      (s.dom dom).st = .asking →
      (s.dom dom).delayEnd = none →
      3 ≤ (s.dom dom).delays →
      1 ≤ n ∧ n ≤ 2 ^ 16 →
      exec (.handshakeReply dom block (.delay n)) s = .next (settleMode (raiseAll 1473 0
          (le 1 dom ++ le 1 block ++ le 1 (s.dom dom).delays)
          (s.modDom dom fun x => { x with st := .on, retry := true, delayEnd := none }))))
  ∧ (∀ (dom block e : Nat) (s : State),
      dom < 44 →
      (s.dom dom).st = .asking →
      (s.dom dom).delayEnd = some e →
      e ≤ s.time.elapsed →
      exec (.handshakeDelayExpire dom block) s = .next (s.modDom dom fun x => { x with delayEnd := none }))
  ∧ (∀ (dom : Nat) (s : State),
      dom < 44 →
      (s.dom dom).st = .waking →
      exec (.domainWakeDone dom) s = .next (settleMode (arbitrate dom (s.modDom dom fun x => { x with
        st := .on, latency := min (s.time.elapsed - x.wakeAt) (2 ^ 24 - 1) }))))
  ∧ (∀ (dom step : Nat) (s : State),
      dom < 44 →
      (dom < 6 ∨ 38 ≤ dom) →
      (s.dom dom).st = .waking →
      exec (.domainWakeFail dom step) s = .next (settleMode (raiseAll 1472 0 (le 1 dom ++ le 1 step)
        (s.modDom dom fun x => { x with st := .off, failed := true, noRetry := true, offAt := s.time.elapsed }))))
  ∧ (∀ (d step : Nat) (s : State),
      d < 16 →
      (s.dom (6 + d)).st = .waking →
      exec (.domainWakeFail (6 + d) step) s = .next (settleMode (fenceUnit (2 * d + 1) 8 (fenceUnit (2 * d) 8
        (raiseAll 1472 0 (le 1 (6 + d) ++ le 1 step) (s.modDom (6 + d) fun x => { x with
          st := .off, failed := true, noRetry := true, offAt := s.time.elapsed }))))))
  ∧ (∀ (d step : Nat) (s : State),
      d < 16 →
      (s.dom (22 + d)).st = .waking →
      exec (.domainWakeFail (22 + d) step) s = .next (settleMode (fenceUnit (32 + d) 8
        (raiseAll 1472 0 (le 1 (22 + d) ++ le 1 step) (s.modDom (22 + d) fun x => { x with
          st := .off, failed := true, noRetry := true, offAt := s.time.elapsed })))))
  ∧ (∀ (dom : Nat) (s : State),
      dom < 44 →
      (s.dom dom).st = .on →
      (s.dom dom).padsHeld = true →
      s.boot.phase.keeper = true →
      exec (.padRelease dom) s = .next (resumeCodec (domainReady dom (s.modDom dom fun x => { x with padsHeld := false }))))

/-- An accepted CAST_VOTE sets the issuer's bit in the domain's vote mask, an accepted WITHDRAW_VOTE clears it, and the
arbiter looks at the domain. An accepted SET_POWER_MODE applies its fields; alone, MODE other than 0xFF is the next
mode, SR_IDLE other than 0xFF is kept, and SK_POWER with bit 7 is kept and sets or clears the two Stechaisk ports'
votes. GET_DOMAIN_STATE and GET_WAKE_RECORD are answered from the domains and change nothing but the mailbox.
(15_power_domains.md R393; 15_power_domains.md R394; 15_power_domains.md R399; 15_power_domains.md R403;
10_ddr5_channels.md R286) -/
def Obligations.VotesAndModes : Prop :=
  (∀ (m : Mb) (p : List Byte) (s : State),
      accepts castVoteSpec s m p = true →
      exec (.castVote m p) s = .next (finished 0xC700 m [] s (arbitrate (byteAt p 0) (s.modDom (byteAt p 0) fun x => { x with
        noRetry := x.noRetry && x.votes != 0, votes := x.votes ||| BitVec.ofNat 12 (2 ^ m.src) }))))
  ∧ (∀ (m : Mb) (p : List Byte) (s : State),
      accepts { castVoteSpec with opcode := 0xC701 } s m p = true →
      exec (.withdrawVote m p) s = .next (finished 0xC701 m [] s (arbitrate (byteAt p 0) (s.modDom (byteAt p 0) fun x => { x with
        votes := x.votes &&& ~~~ (BitVec.ofNat 12 (2 ^ m.src)) }))))
  ∧ (∀ (m : Mb) (p : List Byte) (s : State),
      accepts setPowerModeSpec s m p = true →
      exec (.setPowerMode m p) s = .next (finished 0xC704 m [] s (setPowerMode p s)))
  ∧ (∀ (m : Mb) (p : List Byte) (s : State),
      accepts setPowerModeSpec s m p = true →
      byteAt p 0 ≠ 0xFF ∧ byteAt p 1 = 0xFF ∧ byteAt p 2 = 0xFF →
      exec (.setPowerMode m p) s = .next (finished 0xC704 m [] s (settleMode { s with power := { s.power with modeNext := some (byteAt p 0 == 1) } })))
  ∧ (∀ (m : Mb) (p : List Byte) (s : State),
      accepts setPowerModeSpec s m p = true →
      byteAt p 0 = 0xFF ∧ byteAt p 1 ≠ 0xFF ∧ byteAt p 2 = 0xFF →
      exec (.setPowerMode m p) s = .next (finished 0xC704 m [] s { s with power := { s.power with srIdle := byteAt p 1 } }))
  ∧ (∀ (m : Mb) (p : List Byte) (s : State),
      accepts setPowerModeSpec s m p = true →
      byteAt p 0 = 0xFF ∧ byteAt p 1 = 0xFF ∧ byteAt p 2 ≠ 0xFF ∧ bitAt p 2 7 = true →
      exec (.setPowerMode m p) s = .next (finished 0xC704 m [] s (setVote 43 9 (bitAt p 2 1) (setVote 42 9 (bitAt p 2 0)
        { s with power := { s.power with skPower := BitVec.ofNat 2 (byteAt p 2) } }))))
  ∧ (∀ (m : Mb) (p : List Byte) (s : State),
      accepts getDomainStateSpec s m p = true →
      64 ≤ limitOf s m.src →
      exec (.getDomainState m p) s = .next (reply m 0xC702 .success 0
        ((List.range 44).map (fun d => BitVec.ofNat 8 (domByte s m.src d)) ++ le 1 (b2n s.power.handshake)
          ++ le 1 (braceBits s) ++ zeros 18) s))
  ∧ (∀ (m : Mb) (p : List Byte) (s : State),
      accepts getWakeRecordSpec s m p = true →
      32 ≤ limitOf s m.src →
      exec (.getWakeRecord m p) s = .next (reply m 0xC703 .success 0 (wakeRecord s (byteAt p 0)) s))

/-- SUPPLY_WARNING of a monitored supply below its warning level braces the device, returns bulk jobs between segments to
the queue and, for the monitor's first dip, raises BRACE with the sample; a further one keeps the lowest sample and
raises nothing. SUPPLY_RECOVER of a monitor that is below, above warning plus hysteresis, starts its settle interval.
BRACE_SETTLE_END with every dipped monitor settled ends the brace. BROWNOUT at the reset level leaves memory and page
map empty, no rail on, no brace, chain time 0 and untimed, chain ID 0xFFF, a new BOOT_ID, management at the strap's
head and every domain but DOM_AON Off, with local time running on. BROWNOUT_RECOVERY with good supplies starts the
main sequence again. AUX_WARN below 3.135 V raises event 1466 of monitor 10, stages a log record and commits every
staged one, leaving none. (15_power_domains.md R406; 15_power_domains.md R407; 15_power_domains.md R408;
15_power_domains.md R409; 20_power_up_and_reset.md R485) -/
def Obligations.SupplyMonitors : Prop :=
  (∀ (r sample : Nat) (s : State),
      r < 10 →
      monitored s r = true →
      sample < (monLevels r).1 →
      (s.mon r).dipped = false →
      let t := s.modMon r (fun x => { x with now := sample, below := true, dipped := true, min := sample, dipStart := s.time.elapsed });
        exec (.supplyWarning r sample) s = .next (raise (srcMonitor r) 0 0xFF .all (le 1 0 ++ le 4 sample)
          (refreshHolds (shedBulk { t with power := { t.power with brace := true } }))))
  ∧ (∀ (r sample : Nat) (s : State),
      r < 10 →
      monitored s r = true →
      sample < (monLevels r).1 →
      (s.mon r).dipped = true →
      let t := s.modMon r (fun x => { x with now := sample, below := true, dipped := true, min := Nat.min x.min sample });
        exec (.supplyWarning r sample) s = .next (refreshHolds (shedBulk { t with power := { t.power with brace := true } })))
  ∧ (∀ (r sample : Nat) (s : State),
      r < 10 →
      (s.mon r).below = true →
      (monLevels r).1 + (monLevels r).2.2 < sample →
      exec (.supplyRecover r sample) s = .next (s.modMon r fun x => { x with
        now := sample, below := false, settleAt := s.time.elapsed, dipEnd := s.time.elapsed }))
  ∧ (∀ (s : State),
      settled s = true →
      exec .braceSettleEnd s = .next (endBrace s))
  ∧ (∀ (r sample : Nat) (s : State),
      r < 10 →
      monitored s r = true →
      sample ≤ (monLevels r).2.1 →
      Answers (exec (.brownout r sample) s) fun t =>
        t.mem = [] ∧ t.boot.supEn = 0 ∧ t.boot.pwrOk = false ∧ t.power.brace = false
          ∧ t.map = {} ∧ t.chain.id = 0xFFF ∧ t.time.chain = 0 ∧ t.time.untimed = true
          ∧ t.time.elapsed = s.time.elapsed ∧ t.boot.bootId = Config.bootId s.free ∧ t.crity.managing = some s.boot.mgmtHead
          ∧ ∀ d, 1 ≤ d → d < 44 → (t.dom d).st = .off)
  ∧ (∀ (s : State),
      s.boot.brownout = true →
      suppliesGood s = true →
      maySequence s = true →
      exec .brownoutRecovery s = .next { s with boot := { s.boot with
        brownout := false, phase := .sequence 1, supEn := 1, backoff := none } })
  ∧ (∀ (sample : Nat) (s : State),
      s.boot.phase ≠ .auxOff →
      sample < 3135000 →
      exec (.auxWarn sample) s = .next (commitLog (stage 0x09 0 0x7FF 1 (le 4 sample)
        (raise 1466 3 0xFF .all (le 1 3 ++ le 4 sample) (s.modMon 10 fun x => { x with now := sample, min := Nat.min x.min sample })))))
  ∧ (∀ (sample : Nat) (s : State),
      s.boot.phase ≠ .auxOff →
      sample < 3135000 →
      Answers (exec (.auxWarn sample) s) fun t => t.lm.staged = [])

/-- SLOT_STARTING_END 10 ms after STARTING with less than 1.0 V at the output leads to RAMP, SLOT_RAMP_END after VIN ÷
RAMP_RATE to QUALIFY, and SLOT_QUALIFIED 1 ms after QUALIFY began, no fault timer running, to ON with PGOOD, its
event, a drive slot's vote and what waits for the power. A sample at or above the limit in RAMP or QUALIFY starts the
fault timer; one in ON that starts it also asserts the warning, counts it and raises the first one. A better sample
resets the timer. The timer after FAULT_TIME, a sample above three times the limit and a late start trip the slot with
causes 2, 3 and 4; a trip in QUALIFY of the first attempt of three retries goes to BACKOFF with the gate off, its
event and its counts. BACKOFF ends after 100 ms times 2 to the attempts before it in STARTING, or in WAITING while
braced. A discharge ends, and takes STOPPING without a new command to OFF. An OFF slot neither discharging nor below
1.0 V is a shorted transistor: FET_SHORT, its event and the unit's fence. (16_hot_plug_slots.md R414;
16_hot_plug_slots.md R415; 16_hot_plug_slots.md R416; 16_hot_plug_slots.md R417; 16_hot_plug_slots.md R418;
16_hot_plug_slots.md R419; 16_hot_plug_slots.md R423; 16_hot_plug_slots.md R424) -/
def Obligations.SlotPowerUp : Prop :=
  (∀ (slot vout vin : Nat) (s : State),
      slot < 48 →
      (s.slot slot).st = .starting →
      (s.slot slot).entered + 167772 ≤ s.time.elapsed →
      vout < 1000000 →
      exec (.slotStartingEnd slot vout vin) s = .next (s.modSlot slot fun x => { x with
        st := .ramp, changeTime := s.time.chain, entered := s.time.elapsed, vin := vin, vout := vout }))
  ∧ (∀ (slot : Nat) (s : State),
      slot < 48 →
      (s.slot slot).st = .ramp →
      (s.slot slot).entered + (s.slot slot).vin * 2 ^ 24 / ((s.slot slot).cfg.rampRate * 10000000) ≤ s.time.elapsed →
      exec (.slotRampEnd slot) s = .next (s.modSlot slot fun x => { x with
        st := .qualify, changeTime := s.time.chain, entered := s.time.elapsed, qualAt := s.time.elapsed }))
  ∧ (∀ (slot : Nat) (s : State),
      slot < 48 →
      (s.slot slot).st = .qualify →
      (s.slot slot).timer = false →
      (s.slot slot).qualAt + 16777 ≤ s.time.elapsed →
      let t := raiseSlot slot 0 (le 1 (s.slot slot).attempt) (s.modSlot slot fun x => { x with
          st := .on, changeTime := s.time.chain, entered := s.time.elapsed, pgood := true, attempt := 0 });
        exec (.slotQualified slot) s = .next (replaceWake slot (slotPowered slot (if 32 ≤ slot then setVote (22 + (slot - 32)) 9 true t else t))))
  ∧ (∀ (slot : Nat) (s : State),
      slot < 48 →
      startLate (s.slot slot) s.time.elapsed = true →
      exec (.slotStartFailure slot) s = .next (trip slot 4 (s.slot slot).sense s))
  ∧ (∀ (slot cause sense : Nat) (s : State),
      (s.slot slot).st = .qualify →
      (s.slot slot).attempt = 0 →
      (s.slot slot).cfg.retries = 3 →
      (Answers (.next (trip slot cause sense s)) fun t => ∃ u, u = raiseSlot slot 2
          (le 1 cause ++ le 1 4 ++ le 1 0 ++ le 4 (max sense (s.slot slot).sense)) s
        ∧ t = u.modSlot slot fun y => { y with
          st := .backoff, changeTime := u.time.chain, entered := u.time.elapsed, limited := false, timer := false, warn := false
          gateDrive := 0, discharging := some u.time.elapsed, cause := cause, sense := sense, trips := addSat 24 y.trips 1
          tripsThisUp := y.tripsThisUp + 1, tripTime := s.time.chain, attempt := y.attempt + 1 }))
  ∧ (∀ (slot sense : Nat) (s : State),
      slot < 48 →
      ((s.slot slot).st = .ramp ∨ (s.slot slot).st = .qualify) →
      (s.slot slot).limit ≤ sense + slotOffset s slot →
      exec (.slotLimitReached slot sense) s = .next (s.modSlot slot fun x => { x with
        limited := true, timer := true, sense := sense + slotOffset s slot, timerAt := if x.timer then x.timerAt else s.time.elapsed }))
  ∧ (∀ (slot sense : Nat) (s : State),
      slot < 48 →
      (s.slot slot).st = .on →
      (s.slot slot).timer = false →
      let t := (s.modSlot slot fun x => { x with
          limited := true, timer := true, sense := sense + slotOffset s slot, timerAt := if x.timer then x.timerAt else s.time.elapsed }).modSlot slot
          fun x => { x with warn := true, warned := true, warnings := addSat 24 x.warnings 1 };
        exec (.slotLimitReached slot sense) s = .next (if (s.slot slot).warned then t else raiseSlot slot 4 (le 4 (sense + slotOffset s slot)) t))
  ∧ (∀ (slot : Nat) (s : State),
      slot < 48 →
      (s.slot slot).timer = true →
      (s.slot slot).st.gateOn = true →
      exec (.slotFaultTimerReset slot) s = .next (s.modSlot slot fun x => { x with
        timer := false, limited := false, warn := false, qualAt := if x.st = .qualify then s.time.elapsed else x.qualAt }))
  ∧ (∀ (slot sense : Nat) (s : State),
      slot < 48 →
      (s.slot slot).timer = true →
      (s.slot slot).st.gateOn = true →
      (s.slot slot).timerAt + tenthMs (s.slot slot).cfg.faultTime ≤ s.time.elapsed →
      exec (.slotTimerTrip slot sense) s = .next (trip slot 2 (sense + slotOffset s slot) s))
  ∧ (∀ (slot sense : Nat) (s : State),
      slot < 48 →
      (s.slot slot).st.gateOn = true →
      3 * (s.slot slot).limit < sense + slotOffset s slot →
      exec (.slotFastTrip slot sense) s = .next (trip slot 3 (sense + slotOffset s slot) s))
  ∧ (∀ (slot : Nat) (s : State),
      slot < 48 →
      (s.slot slot).st = .backoff →
      (s.slot slot).entered + tenthMs (1000 * 2 ^ ((s.slot slot).attempt - 1)) ≤ s.time.elapsed →
      s.power.brace = false →
      exec (.slotBackoffEnd slot) s = .next (s.modSlot slot fun x => { x with
        st := .starting, changeTime := s.time.chain, entered := s.time.elapsed, cfg := x.staged
        pwrdis := if 32 ≤ slot then false else x.pwrdis }))
  ∧ (∀ (slot : Nat) (s : State),
      slot < 48 →
      (s.slot slot).st = .backoff →
      (s.slot slot).entered + tenthMs (1000 * 2 ^ ((s.slot slot).attempt - 1)) ≤ s.time.elapsed →
      s.power.brace = true →
      exec (.slotBackoffEnd slot) s = .next (s.modSlot slot fun x => { x with
        st := .waiting, changeTime := s.time.chain, entered := s.time.elapsed }))
  ∧ (∀ (slot : Nat) (s : State),
      slot < 48 →
      (s.slot slot).discharges s.time.elapsed = true →
      (s.slot slot).st = .off →
      slot < s.slots.slots.length →
      exec (.slotDischargeEnd slot) s = .next (s.modSlot slot fun x => { x with discharging := none }))
  ∧ (∀ (slot : Nat) (s : State),
      slot < 48 →
      slot < s.slots.slots.length →
      (s.slot slot).discharges s.time.elapsed = true →
      (s.slot slot).st = .stopping →
      (s.slot slot).commanded = false →
      exec (.slotDischargeEnd slot) s = .next ((s.modSlot slot fun x => { x with discharging := none }).modSlot slot fun x => { x with
        st := .off, changeTime := s.time.chain, entered := s.time.elapsed }))
  ∧ (∀ (slot vout : Nat) (s : State),
      slot < 48 →
      (s.slot slot).st = .off →
      (s.slot slot).discharging = none →
      1000000 < vout →
      let t := raiseSlot slot 5 (le 4 vout) (s.modSlot slot fun x => { x with
          st := .fetShort, changeTime := s.time.chain, entered := s.time.elapsed, pgood := false, commanded := false, cause := 5, vout := vout });
        exec (.slotFetShort slot vout) s = .next (fenceUnit slot 5 (if (t.unit slot).health = .absent
          then t.modUnit slot fun u => { u with fenced := true, cause := 5 } else t)))

/-- An accepted SLOT_POWER on begins the power-up of an OFF slot (a drive slot needs its drive present), and SLOT_POWER
off where no data is lost switches the slot off with cause 1. SLOT_CONFIG applies the settings to the slot, or with
ALL to every slot of its kind; one slot without PERSIST has them staged and RSENSE in force at once. SLOT_CLEAR_LATCH
takes a LATCHED slot, or a FET_SHORT one whose output has been below 1.0 V for 5 ms, to OFF with its event.
SLOT_STATUS answers the slot's bytes and changes nothing but the mailbox. (16_hot_plug_slots.md R410;
16_hot_plug_slots.md R422; 16_hot_plug_slots.md R426; 16_hot_plug_slots.md R428; 16_hot_plug_slots.md R429;
16_hot_plug_slots.md R430) -/
def Obligations.SlotCommands : Prop :=
  (∀ (m : Mb) (p : List Byte) (s : State),
      accepts slotPowerSpec s m p = true →
      byteAt p 1 = 1 →
      (byteAt p 0 < 32 ∨ (s.slot (byteAt p 0)).present = true) →
      (s.slot (byteAt p 0)).st = .off →
      exec (.slotPower m p) s = .next (finished 0xCA01 m [] s (powerUp (byteAt p 0) s)))
  ∧ (∀ (m : Mb) (p : List Byte) (s : State),
      accepts slotPowerSpec s m p = true →
      byteAt p 1 ≠ 1 →
      losesData s [byteAt p 0] = false →
      exec (.slotPower m p) s = .next (finished 0xCA01 m [] s (slotOff (byteAt p 0) 1 3 s)))
  ∧ (∀ (m : Mb) (p : List Byte) (s : State),
      accepts slotConfigSpec s m p = true →
      exec (.slotConfig m p) s = .next (finished 0xCA02 m [] s ((if bitAt p 1 0 then (List.range 48).filter fun i => isDrive i == isDrive (byteAt p 0)
        else [byteAt p 0]).foldl (configSlot p) s)))
  ∧ (∀ (m : Mb) (p : List Byte) (s : State),
      accepts slotConfigSpec s m p = true →
      bitAt p 1 0 = false →
      bitAt p 1 1 = false →
      exec (.slotConfig m p) s = .next (done 0xCA02 m [] (s.modSlot (byteAt p 0) fun x => { x with
        staged := slotCfgOf p, cfg := { x.cfg with rsense := (slotCfgOf p).rsense } })))
  ∧ (∀ (m : Mb) (p : List Byte) (s : State),
      accepts slotClearLatchSpec s m p = true →
      ((s.slot (byteAt p 0)).st = .latched ∨ ((s.slot (byteAt p 0)).st = .fetShort ∧ (s.slot (byteAt p 0)).vout < 1000000
        ∧ (s.slot (byteAt p 0)).lowAt + tenthMs 50 ≤ s.time.elapsed)) →
      exec (.slotClearLatch m p) s = .next (finished 0xCA03 m [] s (raiseSlot (byteAt p 0) 6 (le 1 (s.slot (byteAt p 0)).st.code)
        (s.modSlot (byteAt p 0) fun x => { x with st := .off, changeTime := s.time.chain, entered := s.time.elapsed }))))
  ∧ (∀ (m : Mb) (p : List Byte) (s : State),
      accepts { slotClearLatchSpec with opcode := 0xCA00, mgt := false, any := true, read := true } s m p = true →
      64 ≤ limitOf s m.src →
      exec (.slotStatus m p) s = .next (reply m 0xCA00 .success 0 (slotStatus s (byteAt p 0)) s))

/-- While the lengthsman runs, DIE_TEMP_CROSSING records the sample and the time of its change, excludes one that has not
changed for 2^24 ticks or lies outside -40 to 150 degrees, with event 1513 the first time, and applies the thermal
level. LOG_COMMIT writes the staged records in front of the ring, which drops its oldest 1,024 places when it is full;
a failed flash write leaves them staged and raises event 1514 with the sector and the count. LOG_READ of 1 to 1,000
records, GET_SENSOR_READING and SET_SENSOR_THRESHOLDS of a sensor that exists are answered on the sideband.
MCTP_CONTROL is answered with the endpoint ID, which command 1 sets (PRESUMED number, log 8). A message of an unknown
type is discarded. An I3C sideband takes its dynamic address. A reading beyond a threshold sends a platform event with
its level, 3 beyond the fatal ones; a sensor without thresholds sends none. (17_lengthsman.md R434; 17_lengthsman.md
R435; 17_lengthsman.md R437; 17_lengthsman.md R439; 17_lengthsman.md R441; 17_lengthsman.md R442) -/
def Obligations.Sensors : Prop :=
  (∀ (point : Nat) (temp : Int) (frozen : Bool) (s : State),
      point < 64 →
      lmRuns s = true →
      (frozen = false ∨ dieUnchanged s point temp = true) →
      let bad := frozen || decide (temp < -40960) || decide (153600 < temp);
        let t : State := { s with lm := { s.lm with
          die := s.lm.die.set point temp, dieExcluded := s.lm.dieExcluded.set point bad
          dieAt := if frozen then s.lm.dieAt else s.lm.dieAt.set point s.time.elapsed } };
        exec (.dieTempCrossing point temp frozen) s = .next (applyTherm point (if bad && !s.lm.dieExcluded.getD point false
          then raiseAll 1513 0 (le 1 point ++ le 4 (twos 24 temp)) t else t)))
  ∧ (∀ (s : State),
      s.boot.phase ≠ .auxOff →
      s.lm.staged ≠ [] →
      exec (.logCommit true) s = .next { s with lm := { s.lm with staged := [], ring := if 786432 < (s.lm.staged ++ s.lm.ring).length then (s.lm.staged ++ s.lm.ring).take 785408 else s.lm.staged ++ s.lm.ring } })
  ∧ (∀ (s : State),
      s.boot.phase ≠ .auxOff →
      s.lm.staged ≠ [] →
      exec (.logCommit false) s = .next (raise 1514 0 0xFF .all (le 2 ((s.lm.staged.getLast?.map (·.seq)).getD 0 / 1024 % 768)
        ++ le 2 s.lm.staged.length) s))
  ∧ (∀ (start n : Nat) (s : State),
      lmRuns s = true →
      1 ≤ n ∧ n ≤ 1000 →
      exec (.logRead start n) s = .next (s.emit (.mctp 0x7E (logReadBytes start n s))))
  ∧ (∀ (cmd arg : Nat) (s : State),
      s.boot.phase ≠ .auxOff →
      s.lm.restarting = false →
      exec (.mctpControl cmd arg) s = .next (if cmd = 1 then ({ s with lm := { s.lm with eid := wrap 8 arg } }.emit
        (.mctp 0 (le 1 1 ++ le 1 (wrap 8 arg)))) else s.emit (.mctp 0 (le 1 cmd ++ le 1 s.lm.eid))))
  ∧ (∀ (t : Nat) (s : State),
      s.boot.phase ≠ .auxOff →
      t ∉ [0x00, 0x01, 0x05, 0x06, 0x08, 0x7E] →
      exec (.mctpMessageDiscard t) s = .next (s.emit (.drop 0x4D t)))
  ∧ (∀ (addr : Nat) (entdaa : Bool) (s : State),
      s.lm.i3c = true →
      s.boot.phase ≠ .auxOff →
      exec (.dynamicAddressAssignment addr entdaa) s = .next { s with lm := { s.lm with dynAddr := some (wrap 7 addr) } })
  ∧ (∀ (sensor : Nat) (wh ch fh wl cl fl : Int) (s : State),
      lmRuns s = true →
      sensorExists sensor = true →
      exec (.setSensorThresholds sensor wh ch fh wl cl fl) s = .next ({ s with lm := { s.lm with
        thresholds := ⟨sensor, wh, ch, fh, wl, cl, fl⟩ :: s.lm.thresholds.filter (·.sensor != sensor) } }.emit
        (.mctp 1 (le 2 sensor))))
  ∧ (∀ (sensor : Nat) (s : State),
      lmRuns s = true →
      sensorExists sensor = true →
      exec (.getSensorReading sensor) s = .next (s.emit (.mctp 1 (le 2 sensor ++ le 3 (twos 24 (sensorValue s sensor))))))
  ∧ (∀ (sensor : Nat) (r : Int) (t : SensorThr) (s : State),
      lmRuns s = true →
      sensorExists sensor = true →
      s.lm.thresholds.find? (·.sensor == sensor) = some t →
      thrLevel t r ≠ 0 →
      exec (.sensorThresholdCrossing sensor r) s = .next ((noteSample sensor r s).emit (.pldmEvent sensor r (thrLevel t r))))
  ∧ (∀ (t : SensorThr) (r : Int),
      (t.fatalHigh ≤ r ∨ r ≤ t.fatalLow) →
      thrLevel t r = 3)
  ∧ (∀ (sensor : Nat) (r : Int) (s : State),
      lmRuns s = true →
      sensorExists sensor = true →
      s.lm.thresholds.find? (·.sensor == sensor) = none →
      exec (.sensorThresholdCrossing sensor r) s = .next (noteSample sensor r s))

/-- PLDM_ACTIVATE_FIRMWARE of a valid image with no activation under way: for the next cold reset the slot becomes the
active one; online, with the same ROM, the device not halted and Keeper firmware running, the new lengthsman is
measured and the activation starts with its restart when the handover is accepted, which is free (log 9), else it is
answered as needing a cold reset (PRESUMED codes, log 8). LENGTHSMAN_RESTART_DONE measures the new Keeper image and
goes on to it; KEEPER_TAKEOVER_DONE makes it the running one and rolls the clusters, or ends a reload; after a
takeover 1.2 s late the previous image is measured and restored, and its end rolls the activation back with event
1507. CLUSTER_ROLL_DONE of the cluster being rolled takes its engines' results and goes to the next.
KEEPER_CORE_WATCHDOG takes a running core out with event 1505, and measures and reloads Keeper firmware when fewer
than two are left and no activation runs. (17_lengthsman.md R443; 17_lengthsman.md R444; 17_lengthsman.md R445;
17_lengthsman.md R446; 17_lengthsman.md R447; 17_lengthsman.md R448) -/
def Obligations.FirmwareActivation : Prop :=
  (∀ (b : Bool) (s : State),
      lmRuns s = true →
      (s.lm.image b).valid = true →
      s.lm.activation = none →
      exec (.pldmActivateFirmware false b) s = .next ({ s with lm := { s.lm with activeB := b } }.emit (.mctp 1 (le 1 0))))
  ∧ (∀ (b : Bool) (s : State),
      lmRuns s = true →
      (s.lm.image b).valid = true →
      s.lm.activation = none →
      (s.lm.image b).romDigest = s.lm.romDigest →
      s.flt.halted = false →
      s.boot.phase.keeper = true →
      exec (.pldmActivateFirmware true b) s = .next (if Config.handoverOk s.lm.handover (s.lm.image b).handover
        then (measure 2 (s.lm.image b).lmVer { s with lm := { s.lm with
          activation := some { slotB := b, step := .lengthsman, who := none }, restarting := true } }).emit (.mctp 1 (le 1 0))
        else s.emit (.mctp 1 (le 1 0x8C))))
  ∧ (∀ (a : Activation) (s : State),
      s.lm.activation = some a →
      a.step = .lengthsman →
      exec .lengthsmanRestartDone s = .next (measure 3 (s.lm.image a.slotB).keeperVer { s with lm := { s.lm with
        restarting := false, lmVer := (s.lm.image a.slotB).lmVer
        activation := some { a with step := .keeper, pauseAt := s.time.elapsed } } }))
  ∧ (∀ (a : Activation) (s : State),
      s.lm.activation = some a →
      a.step = .keeper →
      a.reload = true →
      exec .keeperTakeoverDone s = .next { s with lm := { s.lm with
        cores := ~~~ s.lm.coresOut, keeperVer := (s.lm.image a.slotB).keeperVer, handover := (s.lm.image a.slotB).handover
        activation := none } })
  ∧ (∀ (a : Activation) (s : State),
      s.lm.activation = some a →
      a.step = .keeper →
      a.reload = false →
      exec .keeperTakeoverDone s = .next (rollFrom a 0 { s with lm := { s.lm with
        cores := ~~~ s.lm.coresOut, keeperVer := (s.lm.image a.slotB).keeperVer, handover := (s.lm.image a.slotB).handover } }))
  ∧ (∀ (a : Activation) (s : State),
      s.lm.activation = some a →
      a.step = .keeper →
      a.pauseAt + 20132659 ≤ s.time.elapsed →
      exec .keeperTakeoverTimeout s = .next (measure 3 (s.lm.image s.lm.activeB).keeperVer
        { s with lm := { s.lm with activation := some { a with step := .restoring } } }))
  ∧ (∀ (a : Activation) (s : State),
      s.lm.activation = some a →
      a.step = .restoring →
      a.reload = false →
      exec .keeperTakeoverDone s = .next (endActivation a 2 (raiseAll 1507 0 (le 4 (s.time.elapsed - a.pauseAt))
        { s with lm := { s.lm with cores := ~~~ s.lm.coresOut } })))
  ∧ (∀ (c : Nat) (pass : BitVec 8) (a : Activation) (s : State),
      c < 4 →
      s.lm.activation = some a →
      a.step = .rolling c →
      exec (.clusterRollDone c pass) s = .next (rollFrom a (c + 1) (rollDone c pass
        { s with lm := { s.lm with clusterVer := s.lm.clusterVer.set c (s.lm.image a.slotB).codecVer } })))
  ∧ (∀ (core last : Nat) (s : State),
      core < 8 →
      s.lm.cores.getLsbD core = true →
      let t := raiseAll 1505 0 (le 1 core ++ le 1 last) { s with lm := { s.lm with
          cores := s.lm.cores &&& ~~~ BitVec.ofNat 8 (2 ^ core), coresHeld := s.lm.coresHeld ||| BitVec.ofNat 8 (2 ^ core)
          coresOut := if s.lm.coresHeld.getLsbD core then s.lm.coresOut ||| BitVec.ofNat 8 (2 ^ core) else s.lm.coresOut } };
        exec (.keeperCoreWatchdog core last) s = .next (if ((List.range 8).countP fun k => t.lm.cores.getLsbD k) < 2 ∧ t.lm.activation.isNone then
          measure 3 (t.lm.image t.lm.activeB).keeperVer { t with lm := { t.lm with
            activation := some { slotB := t.lm.activeB, step := .keeper, who := none, pauseAt := t.time.elapsed, reload := true } } } else t))

/-- QUIET_TIMER_EXPIRE at a device not halted returns a collector whose quiet time is over to NORMAL with one more
recovery, and changes nothing else. CLEAR_FAULT clears the collector it names or, with 0xFF, all of them, and
SET_REACTION sets the classes of its range of sources; GET_FAULT_STATE and GET_HISTORY answer what the collectors and
groups hold and change nothing but the mailbox. (18_faults.md R456; 18_faults.md R458; 18_faults.md R459; 18_faults.md
R461) -/
def Obligations.FaultCollectors : Prop :=
  (∀ (coll : Nat) (s : State),
      coll < 48 →
      s.flt.halted = false →
      quietDue s.time.elapsed (s.flt.colls.getD coll {}) = true →
      coll < s.flt.colls.length →
      exec (.quietTimerExpire coll) s = .next { s with flt := { s.flt with
        colls := s.flt.colls.set coll (collNormal true (s.flt.colls.getD coll {})) } })
  ∧ (∀ (m : Mb) (p : List Byte) (s : State),
      accepts getFaultStateSpec s m p = true →
      outFits s m (faultStateBytes (byteAt p 0) (byteAt p 1) s) = true →
      exec (.getFaultState m p) s = .next (reply m 0xC800 .success 0 (faultStateBytes (byteAt p 0) (byteAt p 1) s) s))
  ∧ (∀ (m : Mb) (p : List Byte) (s : State),
      accepts clearFaultSpec s m p = true →
      exec (.clearFault m p) s = .next (done 0xC801 m [] { s with flt := { s.flt with
        colls := (if byteAt p 0 = 0xFF then List.range 48 else [byteAt p 0]).foldl
          (fun cs n => cs.modify n (clearColl (byteAt p 1) (byteAt p 2) s.time.elapsed)) s.flt.colls } }))
  ∧ (∀ (m : Mb) (p : List Byte) (s : State),
      accepts getHistorySpec s m p = true →
      outFits s m (historyBytes (byteAt p 0) s) = true →
      exec (.getHistory m p) s = .next (reply m 0xC802 .success 0 (historyBytes (byteAt p 0) s) s))
  ∧ (∀ (m : Mb) (p : List Byte) (s : State),
      accepts setReactionSpec s m p = true →
      exec (.setReaction m p) s = .next (done 0xC803 m [] { s with
        flt := setReaction (ofLe p 0 2) (ofLe p 2 2) (byteAt p 4) s.flt }))

/-- A write of the managing head, with its link up, neither in D3hot nor in reset: to a counter gives the written value
plus the increments of the same cycle, which reload the counter and set its overflow bit past 0xFF_FFFF; to an
overflow register clears the written ones and sets those of the cycle's events; to FREEZE sets it; CLEAR_ALL zeroes
every counter and overflow bit. Such a write of another head to a counter changes none and raises BAR2_WRITE_DENIED
with its address. COUNTER_OVERFLOW of a counter that counts the event itself, neither chained nor sampling, past
0xFF_FFFF reloads it and sets its overflow bit. SAMPLE_CAPTURE by an event of the kind, counting point, master and,
for items, engine of a pending sample with skid at most 63 writes its record into the ring; without one nothing
changes. SAMPLE_ABANDON gives up the counter's samples that 64 events have passed. (19_counters_and_test.md R471;
19_counters_and_test.md R473; 19_counters_and_test.md R474; 09_host_ports.md R255) -/
def Obligations.CounterRegisters : Prop :=
  (∀ (head n : Nat) (value : BitVec 32) (k : Nat) (s : State),
      head < 8 →
      n < 192 →
      headUp s head = true →
      (s.head head).d3 = false ∧ (s.head head).resetting = false →
      isManaging s head = true →
      n < s.pmc.cnt.length →
      value.toNat % 2 ^ 24 + k < 2 ^ 24 →
      exec (.pmcCntWrite head n value k) s = .next { s with pmc := { s.pmc with cnt := s.pmc.cnt.set n (value.toNat % 2 ^ 24 + k) } })
  ∧ (∀ (head n : Nat) (value : BitVec 32) (k : Nat) (s : State),
      head < 8 →
      n < 192 →
      headUp s head = true →
      (s.head head).d3 = false ∧ (s.head head).resetting = false →
      isManaging s head = true →
      n < s.pmc.cnt.length →
      2 ^ 24 ≤ value.toNat % 2 ^ 24 + k →
      selChain (s.pmc.sel.getD n 0) = false →
      selSample (s.pmc.sel.getD n 0) = false →
      exec (.pmcCntWrite head n value k) s = .next { s with pmc := { s.pmc with
        cnt := s.pmc.cnt.set n ((s.pmc.rld.getD n 0 + (value.toNat % 2 ^ 24 + k - 2 ^ 24)) % 2 ^ 24)
        ovf := s.pmc.ovf.modify (n / 16) fun o => o ||| BitVec.ofNat 16 (2 ^ (n % 16)) } })
  ∧ (∀ (head n : Nat) (value : BitVec 32) (k : Nat) (s : State),
      head < 8 →
      n < 192 →
      headUp s head = true →
      (s.head head).d3 = false ∧ (s.head head).resetting = false →
      isManaging s head = false →
      exec (.pmcCntWrite head n value k) s = .next (raiseHead head 6 (le 4 (0x81000 + 16 * n)) s))
  ∧ (∀ (head bank : Nat) (value : BitVec 32) (k : BitVec 16) (s : State),
      head < 8 →
      bank < 12 →
      headUp s head = true →
      (s.head head).d3 = false ∧ (s.head head).resetting = false →
      isManaging s head = true →
      exec (.pmcOvfClear head bank value k) s = .next { s with pmc := { s.pmc with
        ovf := s.pmc.ovf.modify bank fun o => (o &&& ~~~ (value.setWidth 16)) ||| k } })
  ∧ (∀ (head : Nat) (freeze : Bool) (s : State),
      head < 8 →
      headUp s head = true →
      (s.head head).d3 = false ∧ (s.head head).resetting = false →
      isManaging s head = true →
      exec (.pmcFreezeWrite head freeze) s = .next { s with pmc := { s.pmc with freeze := freeze } })
  ∧ (∀ (head : Nat) (s : State),
      head < 8 →
      headUp s head = true →
      (s.head head).d3 = false ∧ (s.head head).resetting = false →
      isManaging s head = true →
      exec (.pmcClearAll head) s = .next { s with pmc := { s.pmc with
        cnt := List.replicate 192 0, ovf := List.replicate 12 0 } })
  ∧ (∀ (n inc : Nat) (ev : PmcEvent) (s : State),
      n < 192 →
      countsSelf s.pmc n = true →
      selMatches (s.pmc.sel.getD n 0) ev = true →
      2 ^ 24 ≤ s.pmc.cnt.getD n 0 + inc →
      selChain (s.pmc.sel.getD n 0) = false →
      selSample (s.pmc.sel.getD n 0) = false →
      exec (.counterOverflow n inc ev) s = .next { s with pmc := { s.pmc with
        cnt := s.pmc.cnt.set n ((s.pmc.rld.getD n 0 + (s.pmc.cnt.getD n 0 + inc - 2 ^ 24)) % 2 ^ 24)
        ovf := s.pmc.ovf.modify (n / 16) fun o => o ||| BitVec.ofNat 16 (2 ^ (n % 16)) } })
  ∧ (∀ (n : Nat) (ev : PmcEvent) (x : PendSample) (s : State),
      n < 192 →
      (s.pmc.pend.find? (fun y => y.top == n && y.master == ev.master && samePoint y.event ev.event && (sampleKind ev.event != 3 || y.unit == ev.unit) && decide (y.skid ≤ 63)) = some x) →
      exec (.sampleCapture n ev) s = .next { s with pmc := { s.pmc with
        pend := s.pmc.pend.erase x
        ring := aset s.pmc.ring (s.pmc.sseq % 256) (sampleBytes s n x.skid x.event ev), sseq := (s.pmc.sseq + 1) % 2 ^ 24 } })
  ∧ (∀ (n : Nat) (ev : PmcEvent) (s : State),
      n < 192 →
      (s.pmc.pend.find? (fun y => y.top == n && y.master == ev.master && samePoint y.event ev.event && (sampleKind ev.event != 3 || y.unit == ev.unit) && decide (y.skid ≤ 63)) = none) →
      exec (.sampleCapture n ev) s = .next s)
  ∧ (∀ (n : Nat) (s : State),
      n < 192 →
      exec (.sampleAbandon n) s = .next { s with pmc := { s.pmc with pend := s.pmc.pend.filter fun x => x.top != n || decide (x.skid < 64) } })

/-- TEST_UNLOCK without input answers a free nonce (log 4) with SERIAL and BOOT_ID, and the nonce stands; a reply that is
not bad (its signature check is free, log 7) consumes the nonce and opens its scopes for its seconds. A nonce goes 60
s after it was drawn; an unlock whose time has come closes every scope and clears every entry and armed injection.
With scope 0 open SET_PERTURB writes or clears its entry, else it fails with 0x0A01; with CLEAR_ALL it relocks in any
case. PERTURB_EXPIRE clears an entry whose end has come. With scope 1 open INJECT raises the event, arms the injection
or disarms all, else it fails with 0x0A01. (19_counters_and_test.md R476; 19_counters_and_test.md R477;
19_counters_and_test.md R478; 19_counters_and_test.md R482) -/
def Obligations.TestUnlocks : Prop :=
  (∀ (m : Mb) (s : State),
      accepts testUnlockSpec s m [] = true →
      64 ≤ limitOf s m.src →
      exec (.testUnlock m []) s = .next (done 0xC900 m
        (le 32 (Config.nonce s.free).toNat ++ le 8 s.boot.serial ++ le 4 s.boot.bootId.toNat ++ zeros 20)
        { s with free := s.free + 1, pmc := { s.pmc with nonce := some (Config.nonce s.free, s.time.elapsed) } }))
  ∧ (∀ (m : Mb) (p : List Byte) (n : BitVec 256) (t : Nat) (s : State),
      accepts testUnlockSpec s m p = true →
      p ≠ [] →
      s.pmc.nonce = some (n, t) →
      n.toNat = ofLe p 0 32 ∧ s.time.elapsed < t + 60 * Config.second ∧ ofLe p 32 8 = s.boot.serial →
      1 ≤ ofLe p 40 4 ∧ ofLe p 40 4 ≤ 3 ∧ 1 ≤ ofLe p 44 4 ∧ ofLe p 44 4 ≤ 86400 →
      exec (.testUnlock m p) s = .next (if Config.verifyUnlock (p.take 64) (p.drop 64) then done 0xC900 m [] { s with pmc := { s.pmc with
          nonce := none, scope := BitVec.ofNat 2 (ofLe p 40 4), unlockEnds := s.time.elapsed + ofLe p 44 4 * Config.second } }
        else logCommand 0xC900 m.src (rcOf 0x0A02) 0x0A02 0xFFFFFFFF (reply m 0xC900 (rcOf 0x0A02) 0x0A02 (le 2 0x0A02 ++ le 2 64)
          { s with pmc := { s.pmc with nonce := none } })))
  ∧ (∀ (n : BitVec 256) (t : Nat) (s : State),
      s.pmc.nonce = some (n, t) →
      t + 60 * 2 ^ 24 ≤ s.time.elapsed →
      exec .nonceExpire s = .next { s with pmc := { s.pmc with nonce := none } })
  ∧ (∀ (s : State),
      s.pmc.scope ≠ 0 →
      s.pmc.unlockEnds ≤ s.time.elapsed →
      exec .unlockExpire s = .next { s with pmc := { s.pmc with scope := 0, ptb := List.replicate 16 {}, armed := [] } })
  ∧ (∀ (m : Mb) (p : List Byte) (s : State),
      accepts setPerturbSpec s m p = true →
      bitAt p 2 0 = false →
      s.pmc.scope.getLsbD 0 = true →
      byteAt p 1 ≠ 0 →
      exec (.setPerturb m p) s = .next (done 0xC901 m [] { s with pmc := { s.pmc with
        ptb := s.pmc.ptb.set (byteAt p 0) {
          kind := byteAt p 1, target := ofLe p 4 2, duty := byteAt p 6, amount := ofLe p 8 3
          ends := if ofLe p 12 4 = 0 then none else some (s.time.elapsed + ofLe p 12 4) } } }))
  ∧ (∀ (m : Mb) (p : List Byte) (s : State),
      accepts setPerturbSpec s m p = true →
      bitAt p 2 0 = false →
      s.pmc.scope.getLsbD 0 = true →
      byteAt p 1 = 0 →
      exec (.setPerturb m p) s = .next (done 0xC901 m [] { s with pmc := { s.pmc with ptb := s.pmc.ptb.set (byteAt p 0) {} } }))
  ∧ (∀ (m : Mb) (p : List Byte) (s : State),
      accepts setPerturbSpec s m p = true →
      bitAt p 2 0 = true →
      exec (.setPerturb m p) s = .next (done 0xC901 m [] { s with pmc := { s.pmc with scope := 0, ptb := List.replicate 16 {}, armed := [] } }))
  ∧ (∀ (m : Mb) (p : List Byte) (s : State),
      accepts setPerturbSpec s m p = true →
      bitAt p 2 0 = false →
      s.pmc.scope.getLsbD 0 = false →
      exec (.setPerturb m p) s = .next (failCmd setPerturbSpec m 0x0A01 0xFFFF s))
  ∧ (∀ (entry t : Nat) (s : State),
      entry < 16 →
      (s.pmc.ptb.getD entry {}).ends = some t →
      t ≤ s.time.elapsed →
      exec (.perturbExpire entry) s = .next { s with pmc := { s.pmc with ptb := s.pmc.ptb.set entry {} } })
  ∧ (∀ (m : Mb) (p : List Byte) (s : State),
      accepts injectSpec s m p = true →
      s.pmc.scope.getLsbD 1 = true →
      byteAt p 0 = 1 →
      exec (.inject m p) s = .next (done 0xC902 m [] { s with pmc := arm (armOf p) s.pmc }))
  ∧ (∀ (m : Mb) (p : List Byte) (s : State),
      accepts injectSpec s m p = true →
      s.pmc.scope.getLsbD 1 = true →
      byteAt p 0 = 0 →
      exec (.inject m p) s = .next (finished 0xC902 m [] s (raiseI true (ofLe p 4 2) (byteAt p 2) (byteAt p 3)
        (imitationScope (ofLe p 4 2) ((p.drop 8).take 8 ++ zeros 8)) ((p.drop 8).take 8) s)))
  ∧ (∀ (m : Mb) (p : List Byte) (s : State),
      accepts injectSpec s m p = true →
      s.pmc.scope.getLsbD 1 = true →
      byteAt p 0 = 2 →
      exec (.inject m p) s = .next (done 0xC902 m [] { s with pmc := { s.pmc with armed := [] } }))
  ∧ (∀ (m : Mb) (p : List Byte) (s : State),
      accepts injectSpec s m p = true →
      s.pmc.scope.getLsbD 1 = false →
      exec (.inject m p) s = .next (failCmd injectSpec m 0x0A01 0xFFFF s))

/-- AUX_POWER_ON with an intact active image leads to the auxiliary phase with the straps and fuses read, a new free
BOOT_ID (log 4), management at the strap's head, no supply enabled, empty memory and map, chain ID 0xFFF and chain
time 0, untimed; with no intact image to recovery. AUX_POWER_LOSS leaves the device unpowered, with PERST, the log
ring, both images, the saved slot settings and the training data kept. MAIN_SEQUENCE_START with VG3 good for 100 ms
starts step 1 with its rail enabled; each RAIL_GOOD before step 6 enables the next rail, that of step 6 sets SYS_PWROK
and wakes DOM_KEEP; RAIL_TIMEOUT takes every enable low, records the step and backs off 2^n s for the n-th failure, at
most 64 s; the back-off's end starts step 1 again. (20_power_up_and_reset.md R483; 20_power_up_and_reset.md R485;
20_power_up_and_reset.md R486; 20_power_up_and_reset.md R487; 15_power_domains.md R408) -/
def Obligations.MainSequence : Prop :=
  (∀ (st : Straps) (f : FlashImage) (s : State),
      s.boot.phase = .auxOff →
      (imageIntact (if f.activeB then f.slotB else f.slotA) = true) →
      Answers (exec (.auxPowerOn st f) s) fun t => t.boot.phase = .aux ∧ t.boot.bootId = Config.bootId s.free
        ∧ t.boot.mgmtHead = wrap 3 st.mgmtHead ∧ t.crity.managing = some (wrap 3 st.mgmtHead) ∧ t.boot.supEn = 0
        ∧ t.boot.pwrOk = false ∧ t.mem = [] ∧ t.map = {} ∧ t.chain.id = 0xFFF ∧ t.time.chain = 0 ∧ t.time.untimed = true
        ∧ t.lm.runB = f.activeB ∧ t.boot.grade = wrap 4 st.grade ∧ t.boot.serial = wrap 64 st.serial)
  ∧ (∀ (st : Straps) (f : FlashImage) (s : State),
      s.boot.phase = .auxOff →
      imageIntact f.slotA = false ∧ imageIntact f.slotB = false →
      Answers (exec (.auxPowerOn st f) s) fun t => t.boot.phase = .recovery ∧ t.lm.lmVer = 0)
  ∧ (∀ (s : State),
      s.boot.phase ≠ .auxOff →
      Answers (exec .auxPowerLoss s) fun t => t.boot.phase = .auxOff ∧ t.mem = [] ∧ t.map = {} ∧ t.keys = {} ∧ t.flt = {}
        ∧ t.time = {} ∧ t.host.perst = s.host.perst ∧ t.lm.ring = s.lm.ring ∧ t.lm.imgA = s.lm.imgA ∧ t.lm.imgB = s.lm.imgB
        ∧ t.lm.savedSlots = s.lm.savedSlots ∧ t.lm.training = s.lm.training)
  ∧ (∀ (s : State),
      maySequence s = true →
      s.boot.brownout = false →
      s.boot.backoff = none →
      (s.mon 3).settleAt + 1677721 ≤ s.time.elapsed →
      exec .mainSequenceStart s = .next { s with boot := { s.boot with phase := .sequence 1, supEn := 1, backoff := none } })
  ∧ (∀ (step : Nat) (s : State),
      1 ≤ step ∧ step < 6 →
      s.boot.phase = .sequence step →
      exec (.railGood step) s = .next { s with boot := { s.boot with
        phase := .sequence (step + 1), supEn := s.boot.supEn ||| BitVec.ofNat 6 (2 ^ step) } })
  ∧ (∀ (s : State),
      s.boot.phase = .sequence 6 →
      exec (.railGood 6) s = .next (arbitrateAll (wakeDom 1 1 0xFF { s with boot := {
        s.boot with phase := .keepWake, pwrOk := true, failed := 0 } })))
  ∧ (∀ (step : Nat) (s : State),
      s.boot.phase = .sequence step →
      exec (.railTimeout step) s = .next (stage 0x03 0 0x7FF 1 (le 1 step) { s with boot := { s.boot with
        phase := .aux, supEn := 0, failed := s.boot.failed + 1
        backoff := some (s.time.elapsed + min 64 (2 ^ min (s.boot.failed + 1) 6) * 16777216) } }))
  ∧ (∀ (e : Nat) (s : State),
      s.boot.backoff = some e →
      maySequence s = true →
      e ≤ s.time.elapsed →
      exec .sequenceBackoffEnd s = .next { s with boot := { s.boot with phase := .sequence 1, supEn := 1, backoff := none } })

/-- KEEPER_START with DOM_KEEP On and the lengthsman running, not halted, starts the bring-up with the mailboxes ready,
the time kept, the version recorded at measurement index 3 and the first batches of both kinds started.
BRINGUP_BATCH_DONE with every slot of the batch ended starts the second batch of drive slots or ends them, and for
DIMM slots reads their SPDs and goes on. A drive still in bring-up 180 s after KEEPER_START fails its step 5.
GEOMETRY_COMMIT_DEFAULT once every step has ended and the population is fit commits the default geometry with 25 per
cent and the default stripe, then sets Memory_Active and casts Keeper firmware's votes. (20_power_up_and_reset.md
R487; 20_power_up_and_reset.md R489; 20_power_up_and_reset.md R490; 20_power_up_and_reset.md R495; 11_drive_ports.md
R303) -/
def Obligations.BringUp : Prop :=
  (∀ (s : State),
      s.boot.phase = .keepWake →
      (s.dom 1).st = .on →
      lmRuns s = true →
      s.flt.halted = false →
      Answers (exec .keeperStart s) fun t => ∃ u, t = keepVotes (arbitrateAll (startBatch true (startBatch false u)))
        ∧ u.boot.phase = .bringup ∧ u.boot.mbReady = true ∧ u.boot.keeperAt = s.time.elapsed
        ∧ u.lm.keeperVer = (runningImage s).keeperVer ∧ u.lm.meas = s.lm.meas.set 2 (runningImage s).keeperVer)
  ∧ (∀ (spds : List SpdRead) (s : State),
      s.boot.phase = .bringup →
      s.flt.halted = false →
      s.boot.driveBusy = true →
      s.boot.driveBatch = 2 →
      (batchSlots s true 1).all (slotEnded s) = true →
      exec (.bringupBatchDone true spds) s = .next { s with boot := { s.boot with driveBusy := false } })
  ∧ (∀ (spds : List SpdRead) (s : State),
      s.boot.phase = .bringup →
      s.flt.halted = false →
      s.boot.driveBusy = true →
      s.boot.driveBatch = 1 →
      (batchSlots s true 0).all (slotEnded s) = true →
      exec (.bringupBatchDone true spds) s = .next (startBatch true s))
  ∧ (∀ (spds : List SpdRead) (s : State),
      s.boot.phase = .bringup →
      s.flt.halted = false →
      s.boot.dimmBusy = true →
      (batchSlots s false (s.boot.dimmBatch - 1)).all (slotEnded s) = true →
      exec (.bringupBatchDone false spds) s = .next (dimmBatchDone spds s))
  ∧ (∀ (d : Nat) (s : State),
      d < 16 →
      s.boot.phase = .bringup →
      s.flt.halted = false →
      (s.drive d).step ≠ 0 →
      s.boot.keeperAt + 3019898880 ≤ s.time.elapsed →
      exec (.driveBringupTimeout d) s = .next (driveUnsuitable d 5 9 s))
  ∧ (∀ (s : State),
      s.boot.phase = .bringup →
      bringupDone s = true →
      populationOk s = true →
      exec .geometryCommitDefault s = .next (keepVotes (mediaReady (commitGeometry
        (geometryOf s 25 (defaultStripe (healthyDrives s).length).1 (defaultStripe (healthyDrives s).length).2) s))))

/-- With main power on, SKREF_LOST raises event 1481 and takes both Stechaisk ports DOWN with cause 0, and PLL_UNLOCK
raises event 1482 with the PLL's number. MGMTREF_LOST raises event 1480 and moves local time to the internal
oscillator; MREF_IN_RESTORED notes that the switch back is due. While the lengthsman runs, DEVICE_RESET_REQUEST of
effecter 1, state 2 is refused with ERROR_NOT_READY (PRESUMED number 0x04, log 8) in a halt, a brace, an activation, a
Keeper pause, a transfer, with another image staged, during a DIMM replacement or before Keeper firmware, and
otherwise is answered 0 and resets; DEVICE_RESET_RESUME, not halted, resumes. PLDM_FW_UPDATE outside recovery takes
one part of a package and answers its code. (21_pins_and_electrical.md R508; 21_pins_and_electrical.md R509;
20_power_up_and_reset.md R497; 20_power_up_and_reset.md R498; 17_lengthsman.md R443) -/
def Obligations.ReferencesAndReset : Prop :=
  (∀ (s : State),
      s.boot.pwrOk = true →
      exec .skrefLost s = .next (enterDown 1 0 (enterDown 0 0 (raiseAll 1481 0 [] s))))
  ∧ (∀ (s : State),
      s.boot.phase ≠ .auxOff →
      s.boot.internalOsc = false →
      exec .mgmtrefLost s = .next (raiseAll 1480 0 [] { s with boot := { s.boot with internalOsc := true, switchBack := false } }))
  ∧ (∀ (s : State),
      s.boot.internalOsc = true →
      exec .mrefInRestored s = .next { s with boot := { s.boot with switchBack := true } })
  ∧ (∀ (pll : Nat) (s : State),
      s.boot.pwrOk = true →
      exec (.pllUnlock pll) s = .next (raise 1482 0 0xFF .all (le 1 pll) s))
  ∧ (∀ (s : State),
      lmRuns s = true →
      resetRefused s = true →
      exec (.deviceResetRequest 1 2) s = .next (s.emit (.mctp 1 [0x04#8])))
  ∧ (∀ (s : State),
      resetRefused s = (s.flt.halted || s.power.brace || s.lm.activation.isSome || keeperPaused s || s.lm.transfer.isSome
        || s.lm.runB != s.lm.activeB || s.dur.repl.any (fun r => decide (r.slot < 32)) || !s.boot.phase.keeper))
  ∧ (∀ (s : State),
      lmRuns s = true →
      resetRefused s = false →
      exec (.deviceResetRequest 1 2) s = .next ((deviceReset s).emit (.mctp 1 [0x00#8])))
  ∧ (∀ (s : State),
      s.boot.devReset.isSome = true →
      s.flt.halted = false →
      lmRuns s = true →
      exec .deviceResetResume s = .next (deviceResume s))
  ∧ (∀ (part : FwPart) (s : State),
      lmRuns s = true →
      s.boot.phase ≠ .recovery →
      exec (.pldmFwUpdate part) s = .next (pldmTransfer part s))

/-- With both copies readable, the read of a Tier H line is issued on the lower channel of its pair unless the partner has
fewer P0 commands queued; on a tie it is the channel numbered below 8. (01_request_path.md R18) -/
def Obligations.HotReadChannel : Prop :=
  ∀ (r : Req) (f : Nat) (s : State), copyReadable s (frameLow s f) f = true → copyReadable s (frameLow s f + 8) f = true →
    ∃ c, readFrame r f s = lineCmd r f c (readOrder r) (s.modReq r.id fun r => { r with
        st := .line c 1 [] false, src_ := some (0, f) })
      ∧ (queuedReads s (frameLow s f + 8) < queuedReads s (frameLow s f) → c = frameLow s f + 8)
      ∧ (queuedReads s (frameLow s f) ≤ queuedReads s (frameLow s f + 8) → c = frameLow s f)

/-- The replay that would bring the count to 4 is not sent and the port starts a retrain, the one that would bring it to 8
takes the port DOWN; any other replay counts and sends every unacknowledged frame again; an acknowledgement clears the
count and a training does not. (12_stechaisk_link.md R337) -/
def Obligations.ReplayCount : Prop :=
  (∀ (port : Nat) (s : State), port < 2 → (s.port port).st = .up → (s.port port).outstanding ≠ [] →
    (s.port port).timerAt + 34 ≤ s.time.elapsed → (s.port port).xoffHeld = false →
    let u := s.modPort port fun x => { x with count := x.count + 1 };
    ((s.port port).count + 1 = 4 → exec (.replayTimerExpire port) s = .next (startRetrain port 0 u))
    ∧ (8 ≤ (s.port port).count + 1 → exec (.replayTimerExpire port) s = .next (enterDown port 1 u))
    ∧ ((s.port port).count + 1 ≠ 4 → (s.port port).count + 1 < 8 → s.pmc.armed = [] →
        (s.pmc.sel.all fun v => v == 0) = true → port < s.skl.ports.length →
        Answers (exec (.replayTimerExpire port) s) fun t => (t.port port).count = (s.port port).count + 1
          ∧ (t.port port).held = (s.port port).held
          ∧ t.tx = ((s.port port).outstanding.map fun h => Tx.frame port h.frame).reverse ++ s.tx))
  ∧ (∀ (port n : Nat) (s : State), 0 < n → port < s.skl.ports.length → ((ackFrames port n s).port port).count = 0)
  ∧ (∀ (x : Port) (now : Nat) (absent : Bool), (x.beginTraining now absent).count = x.count)

/-- The first transmission of a frame for the partner consumes one credit of its virtual channel and marks the frame; a
replay consumes none; a duplicate is acknowledged and returns none; a frame handed to the other port waits there as a
new frame that has taken no credit. (12_stechaisk_link.md R343) -/
def Obligations.CreditOnce : Prop :=
  (∀ (port i : Nat) (s : State), port < 2 → port < s.skl.ports.length → (s.port port).st = .up → (s.port port).xoffHeld = false →
    (s.port port).nextUnsent = some i → s.pmc.armed = [] →
    (let f := ((s.port port).held.getD i { frame := {} }).frame;
      needsCredit s port f = true → 0 < (s.port port).avail.getD f.vc 0 → (s.port port).seqs + seqSpan f ≤ 2047 →
      Answers (exec (.dataFrameSend port) s) fun t => (t.port port).avail = (s.port port).avail.modify f.vc (· - 1)
        ∧ ((t.port port).held.getD i { frame := {} }).credit = true ∧ ((t.port port).held.getD i { frame := {} }).sent = true))
  ∧ (∀ (port : Nat) (s : State), s.pmc.armed = [] → (s.port port).xoffHeld = false → (s.port port).count + 1 ≠ 4 → (s.port port).count + 1 < 8 →
      ((replayFrames port s).port port).avail = (s.port port).avail)
  ∧ (∀ (port : Nat) (f : Frame) (s : State), port < 2 → (s.port port).st = .up → s.pmc.armed = [] →
      2048 < seqDiff f.seq (s.port port).rxExpected →
      ∀ crc, frameCrcOk f crc = true →
      Answers (exec (.dataFrameReceive port f crc) s) fun t => (t.port port).returns = (s.port port).returns)
  ∧ (∀ (s : State) (f : Frame) (q : Nat), q < s.skl.ports.length → (s.port q).held.length < 1024 → (s.port q).backlog = [] →
      ((hold q { f with seq := 0 } s).port q).held = (s.port q).held ++ [{ frame := { f with seq := 0 }, sent := false, credit := false }])

/-- The limit is 16 after reset, SET_HOP_LIMIT sets 1 to 255 and sends TOPO out of both ports, a TOPO that brings another
limit is taken and passed on; an import, or a tandem setting, whose peer lies outside the limit on a route present is
refused with HOP_LIMIT; a forwarding device raises HOP_EXCEEDED for a frame whose hops equal the limit, discards it
and sends it nowhere. (13_chains_and_rings.md R353) -/
def Obligations.HopLimit : Prop :=
  State.reset.chain.hopLimit = 16
  ∧ (∀ (m : Mb) (p : List Byte) (s : State), accepts setHopLimitSpec s m p = true → 1 ≤ byteAt p 0 ∧ byteAt p 0 ≤ 255
      ∧ exec (.setHopLimit m p) s = .next (finished 0xC405 m [] s
          (let t := s.modChain fun c => { c with hopLimit := byteAt p 0 };
            maintain 1 0x32 (topoBytes t.chain) (maintain 0 0x32 (topoBytes t.chain) t))))
  ∧ (∀ (m : Mb) (p : List Byte) (s : State), byteAt p 0 = 0 → accepts setHopLimitSpec s m p = false)
  ∧ (∀ c : ChainState, byteAt (topoBytes c) 5 = c.hopLimit % 256)
  ∧ (∀ (port : Nat) (msg : TopoMsg) (s : State), port < 2 → s.flt.halted = false → assigned s = true →
      s.chain.gen = msg.gen → s.chain.hopLimit ≠ msg.hopLimit →
      let t := (consumeOp port 0x32 s).modChain fun c => { c with hopLimit := msg.hopLimit };
      exec (.topo port msg) s = .next (maintain (1 - port) 0x32 (topoBytes t.chain) t))
  ∧ (∀ (s : State) (peer : Nat), assigned s = true → (direction s peer).isSome = true →
      (peerCheck s peer = 0 ↔ ∀ d, d < 2 → routeIn s peer d = true → (hopsTo s peer d).getD 0 ≤ s.chain.hopLimit)
      ∧ (peerCheck s peer ≠ 0 → peerCheck s peer = 0x0509))
  ∧ (∀ (m : Mb) (p : List Byte) (s : State), accepts setRemoteWindowSpec s m p = true → bitAt p 2 0 = true → byteAt p 1 = 0 →
      spanOk s (ofLe p 4 4) (ofLe p 8 4) = true → spanUsed s (ofLe p 4 4 * 2 ^ 18) (ofLe p 8 4 * 2 ^ 18) = false →
      aget s.chain.imports (byteAt p 0) = none →
      ((s.chain.imports ++ s.chain.exports).any fun x => x.2.overlaps (ofLe p 4 4) (ofLe p 8 4)) = false →
      peerCheck s (ofLe p 12 2) ≠ 0 →
      exec (.setRemoteWindow m p) s = .next (failCmd setRemoteWindowSpec m (peerCheck s (ofLe p 12 2)) 0xFFFF s))
  ∧ (∀ (port r base peer since bootId at_ : Nat) (m : Mb) (p : List Byte) (s : State), port < 2 → s.flt.halted = false →
      s.chain.wait = some ⟨.tandem r base, peer, since⟩ → s.crity.waiting = some (m, 0xC402, p, at_) →
      tandemGib s r + (s.range r).sizeGib ≤ 16384 →
      (let t := (consumeOp port 0x37 s).modChain fun c => { c with wait := none };
        withinHops t peer = false → exec (.windowRsp port 0 bootId) s = .next (finishWaiting m 0xC402 0x0509 t)))
  ∧ (∀ (p : Nat) (f : Frame) (s : State), f.hops = s.chain.hopLimit →
      forwardFrame p f s = consume p f (raiseAll 313 0 (le 2 f.src ++ le 2 f.dst ++ le 1 f.hops) s))

/-- Accepted with a head that is present with its link up, the command gives the managing role to that head and leaves
every head's background command under way; a head that is absent or down fails it with HEAD_ABSENT; a command that
only the managing head may issue fails with NOT_MANAGING_HEAD from a head that does not manage; a cold reset and a
brownout return the role to the head that the strap names. (14_crity_commands.md R371; 14_crity_commands.md R378;
14_crity_commands.md R379; 14_crity_commands.md R380) -/
def Obligations.ManagingHandover : Prop :=
  (∀ (m : Mb) (p : List Byte) (s : State), accepts managingSpec s m p = true →
    (s.head (byteAt p 0)).present = true → headUp s (byteAt p 0) = true →
    Answers (exec (.setManagingHead m p) s) fun t => t.crity.managing = some (byteAt p 0)
      ∧ (∀ h, bgOf t h = bgOf s h))
  ∧ (∀ (m : Mb) (p : List Byte) (s : State), accepts managingSpec s m p = true →
      ((s.head (byteAt p 0)).present = false ∨ headUp s (byteAt p 0) = false) →
      exec (.setManagingHead m p) s = .next (failCmd managingSpec m 0x0005 0 s))
  ∧ (∀ (m : Mb) (p : List Byte) (s : State), m.src ≠ 8 → canIssue s m = true → mustWait s = false → p.length = 4 →
      isManaging s m.src = false → exec (.setManagingHead m p) s = .next (failCmd managingSpec m 0x0001 0xFFFF s))
  ∧ (∀ (spec : CmdSpec) (m : Mb) (p : List Byte) (s : State), m.src ≠ 8 → spec.mgt = true → spec.any = false →
      spec.adm s m.src p = false → spec.len p.length = true → isManaging s m.src = false →
      precheck spec s m p = some (0x0001, 0xFFFF))
  ∧ (∀ (r sample : Nat) (s : State), (brownoutReset r sample s).crity.managing = some s.boot.mgmtHead)
  ∧ (∀ (st : Straps) (f : FlashImage) (s : State), (coldReset st f s).crity.managing = some (wrap 3 st.mgmtHead))

/-- A slot still in RAMP 2 × VIN ÷ RAMP_RATE and 10 ms after it entered it, and one still in QUALIFY 20 ms after it
entered it, trips with cause 4, start failure; before that time, and in every other state, nothing changes.
(16_hot_plug_slots.md R417) -/
def Obligations.StartFailure : Prop :=
  ∀ (slot : Nat) (s : State), slot < 48 →
    ((s.slot slot).st = .ramp → (s.slot slot).entered + 2 * (s.slot slot).rampTicks + 167772 ≤ s.time.elapsed →
      exec (.slotStartFailure slot) s = .next (trip slot 4 (s.slot slot).sense s))
    ∧ ((s.slot slot).st = .qualify → (s.slot slot).entered + 335544 ≤ s.time.elapsed →
      exec (.slotStartFailure slot) s = .next (trip slot 4 (s.slot slot).sense s))
    ∧ ((s.slot slot).st = .ramp → s.time.elapsed < (s.slot slot).entered + 2 * (s.slot slot).rampTicks + 167772 →
      exec (.slotStartFailure slot) s = .next s)
    ∧ ((s.slot slot).st = .qualify → s.time.elapsed < (s.slot slot).entered + 335544 →
      exec (.slotStartFailure slot) s = .next s)
    ∧ ((s.slot slot).st ≠ .ramp → (s.slot slot).st ≠ .qualify → exec (.slotStartFailure slot) s = .next s)

/-- A Crity command of a head whose link is up that fails at a check, while nothing makes it wait, answers with the return
code of its WSC and 4 bytes: the WSC and DETAIL, the offset of the first field at fault or 0xFFFF. The managing role,
memory, keys, sluices and the chain stay as they were, and of a read command all of the Crity state; the record in the
Command Log is that of a command that is no read command. (14_crity_commands.md R372) -/
def Obligations.CommandFailure : Prop :=
  ∀ (spec : CmdSpec) (m : Mb) (p : List Byte) (own : State → CmdRes) (w d : Nat) (s : State), canIssue s m = true →
    headUp s m.src = true → m.src ≠ 8 → m.src < s.host.heads.length → mustWait s = false → precheck spec s m p = some (w, d) →
    let t := runCrity spec m p own s;
    (mailboxOf t m).rc = rcOf w ∧ (mailboxOf t m).out = le 2 w ++ le 2 d ∧ (mailboxOf t m).opcode = spec.opcode
      ∧ t.crity.managing = s.crity.managing ∧ t.mem = s.mem ∧ t.keys = s.keys ∧ t.slu = s.slu ∧ t.chain = s.chain
      ∧ (spec.read = true → t.crity = s.crity)
end

