-- ==== Sys2Proof/Laws/Counting.lean ====
section
/-! SUPPORT. What counting an event of the data path may change (19 R471, R474), and what taking a sluice's front leaves. -/

namespace Sys2Proof.Laws
open Sys2Proof.Machine

theorem addCount_pmc (ev : PmcEvent) : ∀ (fuel n inc : Nat) (s : State), ∃ p, addCount ev fuel n inc s = { s with pmc := p } := by
  intro fuel
  induction fuel with
  | zero => intro n inc s; exact ⟨s.pmc, rfl⟩
  | succ k ih =>
    intro n inc s
    unfold addCount
    dsimp only
    split
    · exact ⟨_, rfl⟩
    · split
      · obtain ⟨p, h⟩ := ih (n + 1) 1 { s with pmc := { s.pmc with
          cnt := s.pmc.cnt.set n (wrap 24 (s.pmc.rld.getD n 0 + (s.pmc.cnt.getD n 0 + inc - 2 ^ 24)))
          ovf := s.pmc.ovf.modify (n / 16) fun o => o ||| BitVec.ofNat 16 (2 ^ (n % 16)) } }
        exact ⟨p, h⟩
      · split
        · unfold startSample
          dsimp only
          repeat' split
          all_goals exact ⟨_, rfl⟩
        · exact ⟨_, rfl⟩

/-- Counting an event changes the counters and samples alone. -/
theorem pmcCount_pmc (ev : PmcEvent) (s : State) : ∃ p, pmcCount ev s = { s with pmc := p } := by
  unfold pmcCount
  split
  · exact ⟨s.pmc, rfl⟩
  · dsimp only
    generalize List.range 192 = l
    generalize hp : passSamples ev s.pmc.pend = q
    have key : ∀ (l : List Nat) (u : State), (∃ p, u = { s with pmc := p }) →
        ∃ p, l.foldl (fun t n => if countsSelf ({ s.pmc with pend := q } : PmcState) n &&
          selMatches (s.pmc.sel.getD n 0) ev then addCount ev 16 n 1 t else t) u = { s with pmc := p } := by
      intro l
      induction l with
      | nil => intro u h; exact h
      | cons a l ih =>
        intro u h
        rw [List.foldl_cons]
        apply ih
        obtain ⟨p, rfl⟩ := h
        split
        · obtain ⟨p', h'⟩ := addCount_pmc ev 16 a 1 { s with pmc := p }
          exact ⟨p', h'⟩
        · exact ⟨p, rfl⟩
    exact key l _ ⟨_, rfl⟩

theorem colourFront_req (i : Nat) (forced : Bool) (s : State) : (colourFront i forced s).req = s.req := by
  unfold colourFront
  dsimp only
  split
  · exact (by
      obtain ⟨p, h⟩ := pmcCount_pmc _ _
      rw [h]; rfl)
  · rfl

theorem colourFront_waiting (i : Nat) (forced : Bool) (s : State) : (colourFront i forced s).slu.waiting = s.slu.waiting := by
  unfold colourFront
  dsimp only
  split
  · exact (by
      obtain ⟨p, h⟩ := pmcCount_pmc _ _
      rw [h]; rfl)
  · rfl

theorem admitWaiting_req (s : State) (h : s.slu.waiting = []) : (admitWaiting s).req = s.req := by
  unfold admitWaiting
  rw [h]
  rfl

/-- With no request waiting outside, taking a sluice's front leaves the requests as they were. -/
theorem takeFront_req (i t : Nat) (s : State) (h : s.slu.waiting = []) : (takeFront i t s).req = s.req := by
  unfold takeFront
  dsimp only
  split
  · refine (admitWaiting_req _ ?_).trans ?_
    · rw [colourFront_waiting]
      exact h
    · rw [colourFront_req]
      rfl
  · rfl

end Sys2Proof.Laws
end

