-- ==== Sys2Proof/Laws/Memory.lean ====
section
/-! SUPPORT. Memory: every operation keeps the canonical form; a read after a write gives the value written, and every other
address reads as before. -/

namespace Sys2Proof.Machine

/-- The canonical form of a list with a first cell. -/
theorem Memory.wf_cons {c : Host.Cell} {m : List Host.Cell} :
    Memory.wf (c :: m) = true ↔ c.2 ≠ 0 ∧ (∀ d ∈ m, c.1 < d.1) ∧ Memory.wf m = true := by
  induction m generalizing c with
  | nil => simp [Memory.wf]
  | cons d m ih =>
    simp only [Memory.wf, Bool.and_eq_true, decide_eq_true_eq, bne_iff_ne, List.mem_cons, forall_eq_or_imp]
    constructor
    · rintro ⟨⟨h1, h2⟩, h3⟩
      exact ⟨h2, ⟨h1, fun x hx => Nat.lt_trans h1 ((ih.1 h3).2.1 x hx)⟩, h3⟩
    · rintro ⟨h1, ⟨h2, _⟩, h3⟩
      exact ⟨⟨h2, h1⟩, h3⟩

theorem Memory.wf_filter {m : List Host.Cell} (p : Host.Cell → Bool) (h : Memory.wf m = true) :
    Memory.wf (m.filter p) = true := by
  induction m with
  | nil => rfl
  | cons c m ih =>
    obtain ⟨h1, h2, h3⟩ := Memory.wf_cons.1 h
    cases hp : p c
    · simpa [List.filter, hp] using ih h3
    · simp only [List.filter, hp]
      exact Memory.wf_cons.2 ⟨h1, fun d hd => h2 d (List.mem_filter.1 hd).1, ih h3⟩

theorem Memory.wf_clearPage {m : List Host.Cell} (p : Nat) (h : Memory.wf m = true) : Memory.wf (Memory.clearPage m p) = true :=
  Memory.wf_filter _ h

/-- A cell that a write leaves comes from the list or is the one written. -/
theorem Memory.mem_write {m : List Host.Cell} {a : Nat} {v : Byte} {c : Host.Cell} (h : c ∈ Memory.write m a v) :
    c ∈ m ∨ c.1 = a := by
  induction m with
  | nil => unfold Memory.write at h; split at h <;> simp_all
  | cons d m ih =>
    obtain ⟨k, b⟩ := d
    unfold Memory.write at h
    split at h
    · split at h <;> simp_all <;> rcases h with h | h | h <;> simp_all
    · split at h
      · split at h <;> simp_all <;> rcases h with h | h <;> simp_all
      · rcases List.mem_cons.1 h with h | h
        · exact .inl (h ▸ List.mem_cons_self)
        · exact (ih h).imp (List.mem_cons_of_mem _) id

theorem Memory.wf_write (m : List Host.Cell) (a : Nat) (v : Byte) (h : Memory.wf m = true) :
    Memory.wf (Memory.write m a v) = true := by
  induction m with
  | nil => unfold Memory.write; split <;> simp_all [Memory.wf]
  | cons d m ih =>
    obtain ⟨k, b⟩ := d
    obtain ⟨h1, h2, h3⟩ := Memory.wf_cons.1 h
    unfold Memory.write
    split
    · rename_i hk
      split
      · exact h
      · refine Memory.wf_cons.2 ⟨‹_›, ?_, h⟩
        intro x hx
        rcases List.mem_cons.1 hx with hx | hx
        · simpa [hx] using hk
        · exact Nat.lt_trans hk (h2 x hx)
    · split
      · split
        · exact h3
        · rename_i hk _
          exact Memory.wf_cons.2 ⟨‹_›, fun x hx => hk ▸ h2 x hx, h3⟩
      · refine Memory.wf_cons.2 ⟨h1, ?_, ih h3⟩
        intro x hx
        rcases Memory.mem_write hx with hx | hx
        · exact h2 x hx
        · show k < x.1
          omega

theorem Memory.wf_writeBytes (m : List Host.Cell) (a : Nat) (bs : List Byte) (h : Memory.wf m = true) :
    Memory.wf (Memory.writeBytes m a bs) = true := by
  induction bs generalizing m a with
  | nil => exact h
  | cons b bs ih => exact ih _ _ (Memory.wf_write m a b h)

/-- An address below every cell, or in none, reads as zero. -/
theorem Memory.read_absent {m : List Host.Cell} {a : Nat} (h : ∀ c ∈ m, c.1 ≠ a) : Memory.read m a = 0 := by
  induction m with
  | nil => rfl
  | cons c m ih =>
    obtain ⟨k, b⟩ := c
    have hk : a ≠ k := fun e => h (k, b) List.mem_cons_self e.symm
    simp only [Memory.read, if_neg hk]
    exact ih fun c hc => h c (List.mem_cons_of_mem _ hc)

/-- Read after write, in the canonical form. -/
theorem Memory.read_write (m : List Host.Cell) (a b : Nat) (v : Byte) (h : Memory.wf m = true) :
    Memory.read (Memory.write m a v) b = if b = a then v else Memory.read m b := by
  induction m with
  | nil =>
    unfold Memory.write
    split
    · rename_i hv; simp [Memory.read, hv]
    · simp [Memory.read]
  | cons d m ih =>
    obtain ⟨k, c⟩ := d
    obtain ⟨_, h2, h3⟩ := Memory.wf_cons.1 h
    have low : ∀ x, x ≤ k → Memory.read m x = 0 := fun x hx =>
      Memory.read_absent fun y hy e => by have := h2 y hy; simp at this; omega
    unfold Memory.write
    split
    · rename_i hk
      split
      · rename_i hv
        by_cases e : b = a
        · subst e
          have : b ≠ k := by omega
          simp [Memory.read, this, low b (by omega), hv]
        · simp [e]
      · simp only [Memory.read]
    · split
      · rename_i hk
        subst hk
        split
        · rename_i hv
          by_cases e : b = a
          · subst e; simp [low b (Nat.le_refl _), hv]
          · simp [Memory.read, e]
        · by_cases e : b = a <;> simp [Memory.read, e]
      · simp only [Memory.read, ih h3]
        by_cases e : b = k
        · have : b ≠ a := by omega
          simp [e]; omega
        · simp [e]

/-- The bytes written at an address read back; every other address reads as before. -/
theorem Memory.read_writeBytes (m : List Host.Cell) (a b : Nat) (bs : List Byte) (h : Memory.wf m = true) :
    Memory.read (Memory.writeBytes m a bs) b
      = if a ≤ b ∧ b < a + bs.length then bs.getD (b - a) 0 else Memory.read m b := by
  induction bs generalizing m a with
  | nil =>
    simp only [Memory.writeBytes, List.length_nil, Nat.add_zero]
    rw [if_neg (by omega)]
  | cons x bs ih =>
    simp only [Memory.writeBytes, ih _ _ (Memory.wf_write m a x h), Memory.read_write m a b x h, List.length_cons]
    by_cases h1 : a + 1 ≤ b ∧ b < a + 1 + bs.length
    · have h2 : a ≤ b ∧ b < a + (bs.length + 1) := by omega
      have h3 : b - a = (b - (a + 1)) + 1 := by omega
      simp [h1, h2, h3]
    · by_cases e : b = a
      · subst e
        have h2 : b ≤ b ∧ b < b + (bs.length + 1) := by omega
        simp only [h1, h2, if_false, if_true, and_self, Nat.sub_self, List.getD_cons_zero]
      · have h2 : ¬ (a ≤ b ∧ b < a + (bs.length + 1)) := by omega
        rw [if_neg h1, if_neg e, if_neg h2]

/-- One more byte of a little-endian field. -/
theorem ofLe_succ (p : List Byte) (n : Nat) : ofLe p 0 (n + 1) = ofLe p 0 n + byteAt p n * 2 ^ (8 * n) := by
  simp [ofLe, List.range_succ, List.foldl_append]

theorem byteAt_lt (p : List Byte) (i : Nat) : byteAt p i < 256 := (p.getD i 0).isLt

theorem ofLe_lt (p : List Byte) (n : Nat) : ofLe p 0 n < 2 ^ (8 * n) := by
  induction n with
  | zero => simp [ofLe]
  | succ n ih =>
    rw [ofLe_succ]
    have h := byteAt_lt p n
    have e : 2 ^ (8 * (n + 1)) = 256 * 2 ^ (8 * n) := by rw [show 8 * (n + 1) = 8 + 8 * n by omega, Nat.pow_add]
    rw [e]
    have : byteAt p n * 2 ^ (8 * n) ≤ 255 * 2 ^ (8 * n) := Nat.mul_le_mul_right _ (by omega)
    omega

/-- Byte `i` of a little-endian field. -/
theorem ofLe_byte (p : List Byte) (n i : Nat) (h : i < n) : ofLe p 0 n / 2 ^ (8 * i) % 256 = byteAt p i := by
  induction n with
  | zero => omega
  | succ n ih =>
    rw [ofLe_succ]
    by_cases e : i = n
    · subst e
      rw [Nat.mul_comm, Nat.add_mul_div_left _ _ (Nat.two_pow_pos _), Nat.div_eq_of_lt (ofLe_lt p i), Nat.zero_add,
        Nat.mod_eq_of_lt (byteAt_lt p i)]
    · have hi : i < n := by omega
      have : byteAt p n * 2 ^ (8 * n) = 2 ^ (8 * i) * (256 * (byteAt p n * 2 ^ (8 * (n - i - 1)))) := by
        rw [show 8 * n = 8 * i + (8 + 8 * (n - i - 1)) by omega, Nat.pow_add, Nat.pow_add]
        rw [show (2:Nat) ^ 8 = 256 by rfl]
        ac_rfl
      rw [this, Nat.add_mul_div_left _ _ (Nat.two_pow_pos _), Nat.add_mul_mod_self_left, ih hi]

theorem lineByte_toNat (d : Line) (i : Nat) : (lineByte d i).toNat = d.toNat / 2 ^ (8 * i) % 256 := by
  simp [lineByte, Nat.shiftRight_eq_div_pow]

/-- Byte `i` of a line read from memory is the byte at its address. -/
theorem lineByte_readLine (m : List Host.Cell) (l i : Nat) (h : i < 64) :
    lineByte (Memory.readLine m l) i = Memory.read m (64 * l + i) := by
  apply BitVec.eq_of_toNat_eq
  rw [lineByte_toNat]
  have e : (Memory.readLine m l).toNat = ofLe (Memory.readBytes m (64 * l) 64) 0 64 := by
    simp only [Memory.readLine, BitVec.toNat_ofNat]
    exact Nat.mod_eq_of_lt (by simpa using ofLe_lt (Memory.readBytes m (64 * l) 64) 64)
  rw [e, ofLe_byte _ _ _ h]
  simp [byteAt, Memory.readBytes, h]

end Sys2Proof.Machine
end

