-- ==== Sys2Proof/Laws/FrameBase.lean ====
section
/-! SUPPORT. Frames of the model's operations over shared operations: none touches the queue; memory is left alone or keeps its
canonical form. -/

set_option maxRecDepth 4000
set_option linter.unusedSimpArgs false

namespace Sys2Proof.Machine

/-- A fold of steps that leave a field alone leaves it alone. -/
@[simp] theorem foldl_p {α : Type} (g : State → α → State) (l : List α) (s : State)
    (h : ∀ t x, (g t x).pending = t.pending) : (l.foldl g s).pending = s.pending := by
  induction l generalizing s with
  | nil => rfl
  | cons x l ih => exact (ih _).trans (h _ _)

/-- The same, where a step is given by an equation. -/
theorem foldl_p' {α : Type} (g : State → α → State) (l : List α) (s : State)
    (h : ∀ t x u, u = g t x → u.pending = t.pending) : (l.foldl g s).pending = s.pending :=
  foldl_p g l s fun t x => h t x _ rfl

@[simp] theorem foldl_m {α : Type} (g : State → α → State) (l : List α) (s : State)
    (h : ∀ t x, (g t x).mem = t.mem) : (l.foldl g s).mem = s.mem := by
  induction l generalizing s with
  | nil => rfl
  | cons x l ih => exact (ih _).trans (h _ _)

theorem foldl_wf {α : Type} (g : State → α → State) (l : List α) (s : State) (hs : Memory.wf s.mem = true)
    (h : ∀ t x, Memory.wf t.mem = true → Memory.wf (g t x).mem = true) : Memory.wf (l.foldl g s).mem = true := by
  induction l generalizing s with
  | nil => exact hs
  | cons x l ih => exact ih _ (h _ _ hs)

theorem foldl_wf' {α : Type} (g : State → α → State) (l : List α) (s : State) (hs : Memory.wf s.mem = true)
    (h : ∀ t x u, u = g t x → Memory.wf t.mem = true → Memory.wf u.mem = true) : Memory.wf (l.foldl g s).mem = true :=
  foldl_wf g l s hs fun t x => h t x _ rfl

@[simp] theorem State.modHead_pending (s) (a1) (a2) : (State.modHead s a1 a2).pending = s.pending := by
  unfold State.modHead
  simp
@[simp] theorem State.modHead_mem (s) (a1) (a2) : (State.modHead s a1 a2).mem = s.mem := by
  unfold State.modHead
  simp

@[simp] theorem State.modSlot_pending (s) (a1) (a2) : (State.modSlot s a1 a2).pending = s.pending := by
  unfold State.modSlot
  simp
@[simp] theorem State.modSlot_mem (s) (a1) (a2) : (State.modSlot s a1 a2).mem = s.mem := by
  unfold State.modSlot
  simp

@[simp] theorem State.modDom_pending (s) (a1) (a2) : (State.modDom s a1 a2).pending = s.pending := by
  unfold State.modDom
  simp
@[simp] theorem State.modDom_mem (s) (a1) (a2) : (State.modDom s a1 a2).mem = s.mem := by
  unfold State.modDom
  simp

@[simp] theorem State.modMon_pending (s) (a1) (a2) : (State.modMon s a1 a2).pending = s.pending := by
  unfold State.modMon
  simp
@[simp] theorem State.modMon_mem (s) (a1) (a2) : (State.modMon s a1 a2).mem = s.mem := by
  unfold State.modMon
  simp

@[simp] theorem State.modUnit_pending (s) (a1) (a2) : (State.modUnit s a1 a2).pending = s.pending := by
  unfold State.modUnit
  simp
@[simp] theorem State.modUnit_mem (s) (a1) (a2) : (State.modUnit s a1 a2).mem = s.mem := by
  unfold State.modUnit
  simp

@[simp] theorem State.modRange_pending (s) (a1) (a2) : (State.modRange s a1 a2).pending = s.pending := by
  unfold State.modRange
  simp
@[simp] theorem State.modRange_mem (s) (a1) (a2) : (State.modRange s a1 a2).mem = s.mem := by
  unfold State.modRange
  simp

@[simp] theorem State.emit_pending (s) (a1) : (State.emit s a1).pending = s.pending := by
  unfold State.emit
  simp
@[simp] theorem State.emit_mem (s) (a1) : (State.emit s a1).mem = s.mem := by
  unfold State.emit
  simp

@[simp] theorem fire_pending (a0) (a1) (s) : (fire a0 a1 s).pending = s.pending := by
  unfold fire
  simp [*, apply_ite State.pending, apply_ite State.mem]
@[simp] theorem fire_mem (a0) (a1) (s) : (fire a0 a1 s).mem = s.mem := by
  unfold fire
  simp [*, apply_ite State.pending, apply_ite State.mem]

@[simp] theorem fireAll_pending (a0) (a1) (s) : (fireAll a0 a1 s).pending = s.pending := by
  unfold fireAll
  simp
@[simp] theorem fireAll_mem (a0) (a1) (s) : (fireAll a0 a1 s).mem = s.mem := by
  unfold fireAll
  simp

@[simp] theorem stage_pending (a0) (a1) (a2) (a3) (a4) (s) : (stage a0 a1 a2 a3 a4 s).pending = s.pending := by
  unfold stage
  simp
@[simp] theorem stage_mem (a0) (a1) (a2) (a3) (a4) (s) : (stage a0 a1 a2 a3 a4 s).mem = s.mem := by
  unfold stage
  simp

@[simp] theorem dropRec_pending (s) : (dropRec s).pending = s.pending := by
  unfold dropRec
  simp
@[simp] theorem dropRec_mem (s) : (dropRec s).mem = s.mem := by
  unfold dropRec
  simp

@[simp] theorem stageEvent_pending (a0) (a1) (s) : (stageEvent a0 a1 s).pending = s.pending := by
  unfold stageEvent
  simp [*, apply_ite State.pending, apply_ite State.mem]
@[simp] theorem stageEvent_mem (a0) (a1) (s) : (stageEvent a0 a1 s).mem = s.mem := by
  unfold stageEvent
  simp [*, apply_ite State.pending, apply_ite State.mem]

@[simp] theorem logTo_pending (a0) (a1) (s) : (logTo a0 a1 s).pending = s.pending := by
  unfold logTo
  simp [*, apply_ite State.pending, apply_ite State.mem]
@[simp] theorem logTo_mem (a0) (a1) (s) : (logTo a0 a1 s).mem = s.mem := by
  unfold logTo
  simp [*, apply_ite State.pending, apply_ite State.mem]

@[simp] theorem deliver_pending (a0) (a1) (a2) (a3) (s) : (deliver a0 a1 a2 a3 s).pending = s.pending := by
  unfold deliver
  simp [*, apply_ite State.pending, apply_ite State.mem]
@[simp] theorem deliver_mem (a0) (a1) (a2) (a3) (s) : (deliver a0 a1 a2 a3 s).mem = s.mem := by
  unfold deliver
  simp [*, apply_ite State.pending, apply_ite State.mem]

@[simp] theorem report_pending (a0) (a1) (a2) (a3) (a4) (a5) (s) : (report a0 a1 a2 a3 a4 a5 s).pending = s.pending := by
  unfold report
  simp
@[simp] theorem report_mem (a0) (a1) (a2) (a3) (a4) (a5) (s) : (report a0 a1 a2 a3 a4 a5 s).mem = s.mem := by
  unfold report
  simp

@[simp] theorem State.modOuting_pending (s) (a1) (a2) : (State.modOuting s a1 a2).pending = s.pending := by
  unfold State.modOuting
  simp
@[simp] theorem State.modOuting_mem (s) (a1) (a2) : (State.modOuting s a1 a2).mem = s.mem := by
  unfold State.modOuting
  simp

@[simp] theorem outingVector_pending (a0) (s) : (outingVector a0 s).pending = s.pending := by
  unfold outingVector
  simp
@[simp] theorem outingVector_mem (a0) (s) : (outingVector a0 s).mem = s.mem := by
  unfold outingVector
  simp

@[simp] theorem openOuting_pending (a0) (a1) (a2) (a3) (a4) (s) : (openOuting a0 a1 a2 a3 a4 s).pending = s.pending := by
  unfold openOuting
  simp
@[simp] theorem openOuting_mem (a0) (a1) (a2) (a3) (a4) (s) : (openOuting a0 a1 a2 a3 a4 s).mem = s.mem := by
  unfold openOuting
  simp

@[simp] theorem endOuting_pending (a0) (a1) (a2) (s) : (endOuting a0 a1 a2 s).pending = s.pending := by
  unfold endOuting
  (try dsimp only)
  (repeat' split) <;> (try simp [*, apply_ite State.pending, apply_ite State.mem]) <;> (try (repeat' split) <;> simp [*, apply_ite State.pending, apply_ite State.mem])
@[simp] theorem endOuting_mem (a0) (a1) (a2) (s) : (endOuting a0 a1 a2 s).mem = s.mem := by
  unfold endOuting
  (try dsimp only)
  (repeat' split) <;> (try simp [*, apply_ite State.pending, apply_ite State.mem]) <;> (try (repeat' split) <;> simp [*, apply_ite State.pending, apply_ite State.mem])

@[simp] theorem signalUnits_pending (a0) (a1) (s) : (signalUnits a0 a1 s).pending = s.pending := by
  unfold signalUnits
  simp
@[simp] theorem signalUnits_mem (a0) (a1) (s) : (signalUnits a0 a1 s).mem = s.mem := by
  unfold signalUnits
  simp

@[simp] theorem addLoss_pending (a0) (a1) (a2) (a3) (a4) (a5) (s) : (addLoss a0 a1 a2 a3 a4 a5 s).pending = s.pending := by
  unfold addLoss
  simp [*, apply_ite State.pending, apply_ite State.mem]
@[simp] theorem addLoss_mem (a0) (a1) (a2) (a3) (a4) (a5) (s) : (addLoss a0 a1 a2 a3 a4 a5 s).mem = s.mem := by
  unfold addLoss
  simp [*, apply_ite State.pending, apply_ite State.mem]

@[simp] theorem signalViral_pending (s) : (signalViral s).pending = s.pending := by
  unfold signalViral
  simp [*, apply_ite State.pending, apply_ite State.mem]
@[simp] theorem signalViral_mem (s) : (signalViral s).mem = s.mem := by
  unfold signalViral
  simp [*, apply_ite State.pending, apply_ite State.mem]

@[simp] theorem failOutings_pending (s) : (failOutings s).pending = s.pending := by
  unfold failOutings
  simp
@[simp] theorem failOutings_mem (s) : (failOutings s).mem = s.mem := by
  unfold failOutings
  simp

@[simp] theorem haltAnswer_pending (s) (a1) : (haltAnswer s a1).pending = s.pending := by
  unfold haltAnswer
  simp [*, apply_ite State.pending, apply_ite State.mem]
@[simp] theorem haltAnswer_mem (s) (a1) : (haltAnswer s a1).mem = s.mem := by
  unfold haltAnswer
  simp [*, apply_ite State.pending, apply_ite State.mem]

@[simp] theorem haltRequests_pending (s) : (haltRequests s).pending = s.pending := by
  unfold haltRequests
  simp
@[simp] theorem haltRequests_mem (s) : (haltRequests s).mem = s.mem := by
  unfold haltRequests
  simp

@[simp] theorem notifyJob_pending (a0) (a1) (s) : (notifyJob a0 a1 s).pending = s.pending := by
  unfold notifyJob
  simp [*, apply_ite State.pending, apply_ite State.mem]
@[simp] theorem notifyJob_mem (a0) (a1) (s) : (notifyJob a0 a1 s).mem = s.mem := by
  unfold notifyJob
  simp [*, apply_ite State.pending, apply_ite State.mem]

@[simp] theorem haltNotices_pending (s) : (haltNotices s).pending = s.pending := by
  unfold haltNotices
  simp
@[simp] theorem haltNotices_mem (s) : (haltNotices s).mem = s.mem := by
  unfold haltNotices
  simp

@[simp] theorem haltUnits_pending (s) : (haltUnits s).pending = s.pending := by
  unfold haltUnits
  simp
@[simp] theorem haltUnits_mem (s) : (haltUnits s).mem = s.mem := by
  unfold haltUnits
  simp

@[simp] theorem haltCommands_pending (s) : (haltCommands s).pending = s.pending := by
  unfold haltCommands
  (try dsimp only)
  (repeat' split) <;> (try simp [*, apply_ite State.pending, apply_ite State.mem]) <;> (try (repeat' split) <;> simp [*, apply_ite State.pending, apply_ite State.mem])
@[simp] theorem haltCommands_mem (s) : (haltCommands s).mem = s.mem := by
  unfold haltCommands
  (try dsimp only)
  (repeat' split) <;> (try simp [*, apply_ite State.pending, apply_ite State.mem]) <;> (try (repeat' split) <;> simp [*, apply_ite State.pending, apply_ite State.mem])

@[simp] theorem relock_pending (s) : (relock s).pending = s.pending := by
  unfold relock
  simp
@[simp] theorem relock_mem (s) : (relock s).mem = s.mem := by
  unfold relock
  simp

@[simp] theorem haltDevice_pending (src : Nat) (c : List Byte) (s : State) : (haltDevice src c s).pending = s.pending := by
  unfold haltDevice
  dsimp only
  rw [stage_pending, haltCommands_pending, haltUnits_pending, haltNotices_pending, haltRequests_pending, failOutings_pending, relock_pending, signalViral_pending]
@[simp] theorem haltDevice_mem (src : Nat) (c : List Byte) (s : State) : (haltDevice src c s).mem = s.mem := by
  unfold haltDevice
  dsimp only
  rw [stage_mem, haltCommands_mem, haltUnits_mem, haltNotices_mem, haltRequests_mem, failOutings_mem, relock_mem, signalViral_mem]

@[simp] theorem raiseI_pending (a0) (a1) (a2) (a3) (a4) (a5) (s) : (raiseI a0 a1 a2 a3 a4 a5 s).pending = s.pending := by
  unfold raiseI
  simp [*, apply_ite State.pending, apply_ite State.mem]
@[simp] theorem raiseI_mem (a0) (a1) (a2) (a3) (a4) (a5) (s) : (raiseI a0 a1 a2 a3 a4 a5 s).mem = s.mem := by
  unfold raiseI
  simp [*, apply_ite State.pending, apply_ite State.mem]

@[simp] theorem raise_pending (a0) (a1) (a2) (a3) (a4) (s) : (raise a0 a1 a2 a3 a4 s).pending = s.pending := by
  unfold raise
  simp
@[simp] theorem raise_mem (a0) (a1) (a2) (a3) (a4) (s) : (raise a0 a1 a2 a3 a4 s).mem = s.mem := by
  unfold raise
  simp

@[simp] theorem raiseAll_pending (a0) (a1) (a2) (s) : (raiseAll a0 a1 a2 s).pending = s.pending := by
  unfold raiseAll
  simp
@[simp] theorem raiseAll_mem (a0) (a1) (a2) (s) : (raiseAll a0 a1 a2 s).mem = s.mem := by
  unfold raiseAll
  simp

@[simp] theorem raiseHead_pending (a0) (a1) (a2) (s) : (raiseHead a0 a1 a2 s).pending = s.pending := by
  unfold raiseHead
  simp
@[simp] theorem raiseHead_mem (a0) (a1) (a2) (s) : (raiseHead a0 a1 a2 s).mem = s.mem := by
  unfold raiseHead
  simp

@[simp] theorem raiseAddr_pending (a0) (a1) (a2) (s) : (raiseAddr a0 a1 a2 s).pending = s.pending := by
  unfold raiseAddr
  simp
@[simp] theorem raiseAddr_mem (a0) (a1) (a2) (s) : (raiseAddr a0 a1 a2 s).mem = s.mem := by
  unfold raiseAddr
  simp

@[simp] theorem raiseAddrOf_pending (a0) (a1) (a2) (a3) (s) : (raiseAddrOf a0 a1 a2 a3 s).pending = s.pending := by
  unfold raiseAddrOf
  simp
@[simp] theorem raiseAddrOf_mem (a0) (a1) (a2) (a3) (s) : (raiseAddrOf a0 a1 a2 a3 s).mem = s.mem := by
  unfold raiseAddrOf
  simp

@[simp] theorem fence_pending (a0) (a1) (s) : (fence a0 a1 s).pending = s.pending := by
  unfold fence
  simp [*, apply_ite State.pending, apply_ite State.mem]
@[simp] theorem fence_mem (a0) (a1) (s) : (fence a0 a1 s).mem = s.mem := by
  unfold fence
  simp [*, apply_ite State.pending, apply_ite State.mem]

@[simp] theorem lose_pending (a0) (a1) (a2) (a3) (a4) (a5) (s) : (lose a0 a1 a2 a3 a4 a5 s).pending = s.pending := by
  unfold lose
  simp [*, apply_ite State.pending, apply_ite State.mem]
@[simp] theorem lose_mem (a0) (a1) (a2) (a3) (a4) (a5) (s) : (lose a0 a1 a2 a3 a4 a5 s).mem = s.mem := by
  unfold lose
  simp [*, apply_ite State.pending, apply_ite State.mem]

@[simp] theorem State.modMailbox_pending (s) (a1) (a2) : (State.modMailbox s a1 a2).pending = s.pending := by
  unfold State.modMailbox
  simp [*, apply_ite State.pending, apply_ite State.mem]
@[simp] theorem State.modMailbox_mem (s) (a1) (a2) : (State.modMailbox s a1 a2).mem = s.mem := by
  unfold State.modMailbox
  simp [*, apply_ite State.pending, apply_ite State.mem]

@[simp] theorem State.modBg_pending (s) (a1) (a2) : (State.modBg s a1 a2).pending = s.pending := by
  unfold State.modBg
  simp [*, apply_ite State.pending, apply_ite State.mem]
@[simp] theorem State.modBg_mem (s) (a1) (a2) : (State.modBg s a1 a2).mem = s.mem := by
  unfold State.modBg
  simp [*, apply_ite State.pending, apply_ite State.mem]

@[simp] theorem reply_pending (a0) (a1) (a2) (a3) (a4) (s) : (reply a0 a1 a2 a3 a4 s).pending = s.pending := by
  unfold reply
  simp [*, apply_ite State.pending, apply_ite State.mem]
@[simp] theorem reply_mem (a0) (a1) (a2) (a3) (a4) (s) : (reply a0 a1 a2 a3 a4 s).mem = s.mem := by
  unfold reply
  simp [*, apply_ite State.pending, apply_ite State.mem]

@[simp] theorem logCommand_pending (a0) (a1) (a2) (a3) (a4) (s) : (logCommand a0 a1 a2 a3 a4 s).pending = s.pending := by
  unfold logCommand
  simp
@[simp] theorem logCommand_mem (a0) (a1) (a2) (a3) (a4) (s) : (logCommand a0 a1 a2 a3 a4 s).mem = s.mem := by
  unfold logCommand
  simp

@[simp] theorem failCmd_pending (a0) (a1) (a2) (a3) (s) : (failCmd a0 a1 a2 a3 s).pending = s.pending := by
  unfold failCmd
  simp [*, apply_ite State.pending, apply_ite State.mem]
@[simp] theorem failCmd_mem (a0) (a1) (a2) (a3) (s) : (failCmd a0 a1 a2 a3 s).mem = s.mem := by
  unfold failCmd
  simp [*, apply_ite State.pending, apply_ite State.mem]

@[simp] theorem busyCmd_pending (a0) (a1) (s) : (busyCmd a0 a1 s).pending = s.pending := by
  unfold busyCmd
  simp [*, apply_ite State.pending, apply_ite State.mem]
@[simp] theorem busyCmd_mem (a0) (a1) (s) : (busyCmd a0 a1 s).mem = s.mem := by
  unfold busyCmd
  simp [*, apply_ite State.pending, apply_ite State.mem]

@[simp] theorem finishWaiting_pending (a0) (a1) (a2) (s) : (finishWaiting a0 a1 a2 s).pending = s.pending := by
  unfold finishWaiting
  simp [*, apply_ite State.pending, apply_ite State.mem]
@[simp] theorem finishWaiting_mem (a0) (a1) (a2) (s) : (finishWaiting a0 a1 a2 s).mem = s.mem := by
  unfold finishWaiting
  simp [*, apply_ite State.pending, apply_ite State.mem]

@[simp] theorem endBackground_pending (a0) (a1) (a2) (a3) (a4) (s) : (endBackground a0 a1 a2 a3 a4 s).pending = s.pending := by
  unfold endBackground
  simp [*, apply_ite State.pending, apply_ite State.mem]
@[simp] theorem endBackground_mem (a0) (a1) (a2) (a3) (a4) (s) : (endBackground a0 a1 a2 a3 a4 s).mem = s.mem := by
  unfold endBackground
  simp [*, apply_ite State.pending, apply_ite State.mem]

@[simp] theorem clearFault_pending (a0) (s) : (clearFault a0 s).pending = s.pending := by
  unfold clearFault
  simp
@[simp] theorem clearFault_mem (a0) (s) : (clearFault a0 s).mem = s.mem := by
  unfold clearFault
  simp

@[simp] theorem capture_pending (a0) (a1) (a2) (a3) (s) : (capture a0 a1 a2 a3 s).pending = s.pending := by
  unfold capture
  simp
@[simp] theorem capture_mem (a0) (a1) (a2) (a3) (s) : (capture a0 a1 a2 a3 s).mem = s.mem := by
  unfold capture
  simp

@[simp] theorem startSample_pending (a0) (a1) (s) : (startSample a0 a1 s).pending = s.pending := by
  unfold startSample
  simp [*, apply_ite State.pending, apply_ite State.mem]
@[simp] theorem startSample_mem (a0) (a1) (s) : (startSample a0 a1 s).mem = s.mem := by
  unfold startSample
  simp [*, apply_ite State.pending, apply_ite State.mem]

@[simp] theorem addCount_pending (ev : PmcEvent) (n a b : Nat) (s : State) : (addCount ev n a b s).pending = s.pending := by
  induction n generalizing a b s with
  | zero => rfl
  | succ n ih => unfold addCount; dsimp only; (repeat' split) <;> simp [ih]
@[simp] theorem addCount_mem (ev : PmcEvent) (n a b : Nat) (s : State) : (addCount ev n a b s).mem = s.mem := by
  induction n generalizing a b s with
  | zero => rfl
  | succ n ih => unfold addCount; dsimp only; (repeat' split) <;> simp [ih]

@[simp] theorem pmcCount_pending (a0) (s) : (pmcCount a0 s).pending = s.pending := by
  unfold pmcCount
  simp [*, apply_ite State.pending, apply_ite State.mem]
@[simp] theorem pmcCount_mem (a0) (s) : (pmcCount a0 s).mem = s.mem := by
  unfold pmcCount
  simp [*, apply_ite State.pending, apply_ite State.mem]

@[simp] theorem notePerturb_pending (a0) (a1) (s) : (notePerturb a0 a1 s).pending = s.pending := by
  unfold notePerturb
  simp
@[simp] theorem notePerturb_mem (a0) (a1) (s) : (notePerturb a0 a1 s).mem = s.mem := by
  unfold notePerturb
  simp

@[simp] theorem pressWindow_pending (s) : (pressWindow s).pending = s.pending := by
  unfold pressWindow
  simp
@[simp] theorem pressWindow_mem (s) : (pressWindow s).mem = s.mem := by
  unfold pressWindow
  simp

@[simp] theorem useArmed_pending (a0) (s) : (useArmed a0 s).pending = s.pending := by
  unfold useArmed
  simp
@[simp] theorem useArmed_mem (a0) (s) : (useArmed a0 s).mem = s.mem := by
  unfold useArmed
  simp

@[simp] theorem eccOp_pending (a0) (a1) (a2) (a3) (s) : (eccOp a0 a1 a2 a3 s).pending = s.pending := by
  unfold eccOp
  (try dsimp only)
  (repeat' split) <;> (try simp [*, apply_ite State.pending, apply_ite State.mem]) <;> (try (repeat' split) <;> simp [*, apply_ite State.pending, apply_ite State.mem])
@[simp] theorem eccOp_mem (a0) (a1) (a2) (a3) (s) : (eccOp a0 a1 a2 a3 s).mem = s.mem := by
  unfold eccOp
  (try dsimp only)
  (repeat' split) <;> (try simp [*, apply_ite State.pending, apply_ite State.mem]) <;> (try (repeat' split) <;> simp [*, apply_ite State.pending, apply_ite State.mem])

@[simp] theorem State.modPage_pending (s) (a1) (a2) : (State.modPage s a1 a2).pending = s.pending := by
  unfold State.modPage
  simp
@[simp] theorem State.modPage_mem (s) (a1) (a2) : (State.modPage s a1 a2).mem = s.mem := by
  unfold State.modPage
  simp

@[simp] theorem State.modGeo_pending (s) (a1) : (State.modGeo s a1).pending = s.pending := by
  unfold State.modGeo
  simp
@[simp] theorem State.modGeo_mem (s) (a1) : (State.modGeo s a1).mem = s.mem := by
  unfold State.modGeo
  simp

@[simp] theorem countOverride_pending (a0) (s) : (countOverride a0 s).pending = s.pending := by
  unfold countOverride
  simp [*, apply_ite State.pending, apply_ite State.mem]
@[simp] theorem countOverride_mem (a0) (s) : (countOverride a0 s).mem = s.mem := by
  unfold countOverride
  simp [*, apply_ite State.pending, apply_ite State.mem]

@[simp] theorem halveHeat_pending (a0) (s) : (halveHeat a0 s).pending = s.pending := by
  unfold halveHeat
  simp
@[simp] theorem halveHeat_mem (a0) (s) : (halveHeat a0 s).mem = s.mem := by
  unfold halveHeat
  simp

@[simp] theorem sampleThreshold_pending (a0) (a1) (a2) (s) : (sampleThreshold a0 a1 a2 s).pending = s.pending := by
  unfold sampleThreshold
  simp [*, apply_ite State.pending, apply_ite State.mem]
@[simp] theorem sampleThreshold_mem (a0) (a1) (a2) (s) : (sampleThreshold a0 a1 a2 s).mem = s.mem := by
  unfold sampleThreshold
  simp [*, apply_ite State.pending, apply_ite State.mem]

@[simp] theorem heatSample_pending (a0) (s) : (heatSample a0 s).pending = s.pending := by
  unfold heatSample
  simp [*, apply_ite State.pending, apply_ite State.mem]
@[simp] theorem heatSample_mem (a0) (s) : (heatSample a0 s).mem = s.mem := by
  unfold heatSample
  simp [*, apply_ite State.pending, apply_ite State.mem]

@[simp] theorem openEpoch_pending (a0) (a1) (s) : (openEpoch a0 a1 s).pending = s.pending := by
  unfold openEpoch
  simp
@[simp] theorem openEpoch_mem (a0) (a1) (s) : (openEpoch a0 a1 s).mem = s.mem := by
  unfold openEpoch
  simp

@[simp] theorem lockTarget_pending (a0) (s) : (lockTarget a0 s).2.pending = s.pending := by
  unfold lockTarget
  (try dsimp only)
  (repeat' split) <;> (try simp [*, apply_ite State.pending, apply_ite State.mem]) <;> (try (repeat' split) <;> simp [*, apply_ite State.pending, apply_ite State.mem])
@[simp] theorem lockTarget_mem (a0) (s) : (lockTarget a0 s).2.mem = s.mem := by
  unfold lockTarget
  (try dsimp only)
  (repeat' split) <;> (try simp [*, apply_ite State.pending, apply_ite State.mem]) <;> (try (repeat' split) <;> simp [*, apply_ite State.pending, apply_ite State.mem])

@[simp] theorem makeOverlay_pending (a0) (a1) (s) : (makeOverlay a0 a1 s).pending = s.pending := by
  unfold makeOverlay
  simp
@[simp] theorem makeOverlay_mem (a0) (a1) (s) : (makeOverlay a0 a1 s).mem = s.mem := by
  unfold makeOverlay
  simp

@[simp] theorem dropSides_pending (a0) (a1) (s) : (dropSides a0 a1 s).pending = s.pending := by
  unfold dropSides
  simp
@[simp] theorem dropSides_mem (a0) (a1) (s) : (dropSides a0 a1 s).mem = s.mem := by
  unfold dropSides
  simp

@[simp] theorem retireLoc_pending (a0) (a1) (a2) (s) : (retireLoc a0 a1 a2 s).pending = s.pending := by
  unfold retireLoc
  simp [*, apply_ite State.pending, apply_ite State.mem]
@[simp] theorem retireLoc_mem (a0) (a1) (a2) (s) : (retireLoc a0 a1 a2 s).mem = s.mem := by
  unfold retireLoc
  simp [*, apply_ite State.pending, apply_ite State.mem]

@[simp] theorem sweepOld_pending (s) : (sweepOld s).pending = s.pending := by
  unfold sweepOld
  simp
@[simp] theorem sweepOld_mem (s) : (sweepOld s).mem = s.mem := by
  unfold sweepOld
  simp

@[simp] theorem takeLock_pending (a0) (a1) (a2) (a3) (s) : (takeLock a0 a1 a2 a3 s).pending = s.pending := by
  unfold takeLock
  (try dsimp only)
  (repeat' split) <;> (try simp [*, apply_ite State.pending, apply_ite State.mem]) <;> (try (repeat' split) <;> simp [*, apply_ite State.pending, apply_ite State.mem])
@[simp] theorem takeLock_mem (a0) (a1) (a2) (a3) (s) : (takeLock a0 a1 a2 a3 s).mem = s.mem := by
  unfold takeLock
  (try dsimp only)
  (repeat' split) <;> (try simp [*, apply_ite State.pending, apply_ite State.mem]) <;> (try (repeat' split) <;> simp [*, apply_ite State.pending, apply_ite State.mem])

@[simp] theorem dropLock_pending (a0) (s) : (dropLock a0 s).pending = s.pending := by
  unfold dropLock
  simp
@[simp] theorem dropLock_mem (a0) (s) : (dropLock a0 s).mem = s.mem := by
  unfold dropLock
  simp

@[simp] theorem passLock_pending (a0) (a1) (a2) (s) : (passLock a0 a1 a2 s).pending = s.pending := by
  unfold passLock
  simp
@[simp] theorem passLock_mem (a0) (a1) (a2) (s) : (passLock a0 a1 a2 s).mem = s.mem := by
  unfold passLock
  simp

@[simp] theorem abortMove_pending (a0) (a1) (s) : (abortMove a0 a1 s).pending = s.pending := by
  unfold abortMove
  (try dsimp only)
  (repeat' split) <;> (try simp [*, apply_ite State.pending, apply_ite State.mem]) <;> (try (repeat' split) <;> simp [*, apply_ite State.pending, apply_ite State.mem])
@[simp] theorem abortMove_mem (a0) (a1) (s) : (abortMove a0 a1 s).mem = s.mem := by
  unfold abortMove
  (try dsimp only)
  (repeat' split) <;> (try simp [*, apply_ite State.pending, apply_ite State.mem]) <;> (try (repeat' split) <;> simp [*, apply_ite State.pending, apply_ite State.mem])

@[simp] theorem useKey_pending (a0) (a1) (a2) (s) : (useKey a0 a1 a2 s).pending = s.pending := by
  unfold useKey
  (try dsimp only)
  (repeat' split) <;> (try simp [*, apply_ite State.pending, apply_ite State.mem]) <;> (try (repeat' split) <;> simp [*, apply_ite State.pending, apply_ite State.mem])
@[simp] theorem useKey_mem (a0) (a1) (a2) (s) : (useKey a0 a1 a2 s).mem = s.mem := by
  unfold useKey
  (try dsimp only)
  (repeat' split) <;> (try simp [*, apply_ite State.pending, apply_ite State.mem]) <;> (try (repeat' split) <;> simp [*, apply_ite State.pending, apply_ite State.mem])

@[simp] theorem historyUpdate_pending (a0) (a1) (a2) (s) : (historyUpdate a0 a1 a2 s).pending = s.pending := by
  unfold historyUpdate
  (try dsimp only)
  (repeat' split) <;> (try simp [*, apply_ite State.pending, apply_ite State.mem]) <;> (try (repeat' split) <;> simp [*, apply_ite State.pending, apply_ite State.mem])
@[simp] theorem historyUpdate_mem (a0) (a1) (a2) (s) : (historyUpdate a0 a1 a2 s).mem = s.mem := by
  unfold historyUpdate
  (try dsimp only)
  (repeat' split) <;> (try simp [*, apply_ite State.pending, apply_ite State.mem]) <;> (try (repeat' split) <;> simp [*, apply_ite State.pending, apply_ite State.mem])

@[simp] theorem State.modPort_pending (s) (a1) (a2) : (State.modPort s a1 a2).pending = s.pending := by
  unfold State.modPort
  simp
@[simp] theorem State.modPort_mem (s) (a1) (a2) : (State.modPort s a1 a2).mem = s.mem := by
  unfold State.modPort
  simp

@[simp] theorem State.modChain_pending (s) (a1) : (State.modChain s a1).pending = s.pending := by
  unfold State.modChain
  simp
@[simp] theorem State.modChain_mem (s) (a1) : (State.modChain s a1).mem = s.mem := by
  unfold State.modChain
  simp

@[simp] theorem portEvent_pending (a0) (a1) (a2) (s) : (portEvent a0 a1 a2 s).pending = s.pending := by
  unfold portEvent
  simp
@[simp] theorem portEvent_mem (a0) (a1) (a2) (s) : (portEvent a0 a1 a2 s).mem = s.mem := by
  unfold portEvent
  simp

@[simp] theorem countDram_pending (a0) (a1) (s) : (countDram a0 a1 s).pending = s.pending := by
  unfold countDram
  simp
@[simp] theorem countDram_mem (a0) (a1) (s) : (countDram a0 a1 s).mem = s.mem := by
  unfold countDram
  simp

@[simp] theorem spillEvents_pending (a0) (s) : (spillEvents a0 s).pending = s.pending := by
  unfold spillEvents
  simp [*, apply_ite State.pending, apply_ite State.mem]
@[simp] theorem spillEvents_mem (a0) (s) : (spillEvents a0 s).mem = s.mem := by
  unfold spillEvents
  simp [*, apply_ite State.pending, apply_ite State.mem]

@[simp] theorem take_pending (a0) (a1) (s) : (take a0 a1 s).pending = s.pending := by
  unfold take
  simp [*, apply_ite State.pending, apply_ite State.mem]
@[simp] theorem take_mem (a0) (a1) (s) : (take a0 a1 s).mem = s.mem := by
  unfold take
  simp [*, apply_ite State.pending, apply_ite State.mem]

@[simp] theorem hold_pending (a0) (a1) (s) : (hold a0 a1 s).pending = s.pending := by
  unfold hold
  simp [*, apply_ite State.pending, apply_ite State.mem]
@[simp] theorem hold_mem (a0) (a1) (s) : (hold a0 a1 s).mem = s.mem := by
  unfold hold
  simp [*, apply_ite State.pending, apply_ite State.mem]

@[simp] theorem takeBacklog_pending (a0) (s) : (takeBacklog a0 s).pending = s.pending := by
  unfold takeBacklog
  simp
@[simp] theorem takeBacklog_mem (a0) (s) : (takeBacklog a0 s).mem = s.mem := by
  unfold takeBacklog
  simp

@[simp] theorem sendTo_pending (a0) (a1) (s) : (sendTo a0 a1 s).pending = s.pending := by
  unfold sendTo
  (try dsimp only)
  (repeat' split) <;> (try simp [*, apply_ite State.pending, apply_ite State.mem]) <;> (try (repeat' split) <;> simp [*, apply_ite State.pending, apply_ite State.mem])
@[simp] theorem sendTo_mem (a0) (a1) (s) : (sendTo a0 a1 s).mem = s.mem := by
  unfold sendTo
  (try dsimp only)
  (repeat' split) <;> (try simp [*, apply_ite State.pending, apply_ite State.mem]) <;> (try (repeat' split) <;> simp [*, apply_ite State.pending, apply_ite State.mem])

@[simp] theorem sendOn_pending (a0) (a1) (s) : (sendOn a0 a1 s).pending = s.pending := by
  unfold sendOn
  simp
@[simp] theorem sendOn_mem (a0) (a1) (s) : (sendOn a0 a1 s).mem = s.mem := by
  unfold sendOn
  simp

@[simp] theorem control_pending (a0) (a1) (s) : (control a0 a1 s).pending = s.pending := by
  unfold control
  simp
@[simp] theorem control_mem (a0) (a1) (s) : (control a0 a1 s).mem = s.mem := by
  unfold control
  simp

@[simp] theorem flowState_pending (a0) (s) : (flowState a0 s).pending = s.pending := by
  unfold flowState
  simp [*, apply_ite State.pending, apply_ite State.mem]
@[simp] theorem flowState_mem (a0) (s) : (flowState a0 s).mem = s.mem := by
  unfold flowState
  simp [*, apply_ite State.pending, apply_ite State.mem]

@[simp] theorem sendCredits_pending (a0) (s) : (sendCredits a0 s).pending = s.pending := by
  unfold sendCredits
  simp
@[simp] theorem sendCredits_mem (a0) (s) : (sendCredits a0 s).mem = s.mem := by
  unfold sendCredits
  simp

@[simp] theorem freeTracker_pending (a0) (a1) (s) : (freeTracker a0 a1 s).pending = s.pending := by
  unfold freeTracker
  simp [*, apply_ite State.pending, apply_ite State.mem]
@[simp] theorem freeTracker_mem (a0) (a1) (s) : (freeTracker a0 a1 s).mem = s.mem := by
  unfold freeTracker
  simp [*, apply_ite State.pending, apply_ite State.mem]

@[simp] theorem consume_pending (a0) (a1) (s) : (consume a0 a1 s).pending = s.pending := by
  unfold consume
  simp [*, apply_ite State.pending, apply_ite State.mem]
@[simp] theorem consume_mem (a0) (a1) (s) : (consume a0 a1 s).mem = s.mem := by
  unfold consume
  simp [*, apply_ite State.pending, apply_ite State.mem]

@[simp] theorem forwardFrame_pending (a0) (a1) (s) : (forwardFrame a0 a1 s).pending = s.pending := by
  unfold forwardFrame
  simp [*, apply_ite State.pending, apply_ite State.mem]
@[simp] theorem forwardFrame_mem (a0) (a1) (s) : (forwardFrame a0 a1 s).mem = s.mem := by
  unfold forwardFrame
  simp [*, apply_ite State.pending, apply_ite State.mem]

@[simp] theorem resumePort_pending (a0) (s) : (resumePort a0 s).pending = s.pending := by
  unfold resumePort
  simp
@[simp] theorem resumePort_mem (a0) (s) : (resumePort a0 s).mem = s.mem := by
  unfold resumePort
  simp

@[simp] theorem State.modReq_pending (s) (a1) (a2) : (State.modReq s a1 a2).pending = s.pending := by
  unfold State.modReq
  simp
@[simp] theorem State.modReq_mem (s) (a1) (a2) : (State.modReq s a1 a2).mem = s.mem := by
  unfold State.modReq
  simp

@[simp] theorem State.setSt_pending (s) (a1) (a2) : (State.setSt s a1 a2).pending = s.pending := by
  unfold State.setSt
  simp
@[simp] theorem State.setSt_mem (s) (a1) (a2) : (State.setSt s a1 a2).mem = s.mem := by
  unfold State.setSt
  simp

@[simp] theorem addReq_pending (a0) (s) : (addReq a0 s).pending = s.pending := by
  unfold addReq
  simp
@[simp] theorem addReq_mem (a0) (s) : (addReq a0 s).mem = s.mem := by
  unfold addReq
  simp

@[simp] theorem resetIdle_pending (a0) (s) : (resetIdle a0 s).pending = s.pending := by
  unfold resetIdle
  simp [*, apply_ite State.pending, apply_ite State.mem]
@[simp] theorem resetIdle_mem (a0) (s) : (resetIdle a0 s).mem = s.mem := by
  unfold resetIdle
  simp [*, apply_ite State.pending, apply_ite State.mem]

@[simp] theorem dropReq_pending (a0) (s) : (dropReq a0 s).pending = s.pending := by
  unfold dropReq
  simp
@[simp] theorem dropReq_mem (a0) (s) : (dropReq a0 s).mem = s.mem := by
  unfold dropReq
  simp

@[simp] theorem setDirEnt_pending (a0) (a1) (s) : (setDirEnt a0 a1 s).pending = s.pending := by
  unfold setDirEnt
  simp
@[simp] theorem setDirEnt_mem (a0) (a1) (s) : (setDirEnt a0 a1 s).mem = s.mem := by
  unfold setDirEnt
  simp

@[simp] theorem startReservation_pending (a0) (s) : (startReservation a0 s).pending = s.pending := by
  unfold startReservation
  simp
@[simp] theorem startReservation_mem (a0) (s) : (startReservation a0 s).mem = s.mem := by
  unfold startReservation
  simp

@[simp] theorem State.modTxn_pending (s) (a1) (a2) : (State.modTxn s a1 a2).pending = s.pending := by
  unfold State.modTxn
  simp
@[simp] theorem State.modTxn_mem (s) (a1) (a2) : (State.modTxn s a1 a2).mem = s.mem := by
  unfold State.modTxn
  simp

@[simp] theorem endTxn_pending (a0) (s) : (endTxn a0 s).pending = s.pending := by
  unfold endTxn
  (try dsimp only)
  (repeat' split) <;> (try simp [*, apply_ite State.pending, apply_ite State.mem]) <;> (try (repeat' split) <;> simp [*, apply_ite State.pending, apply_ite State.mem])
@[simp] theorem endTxn_mem (a0) (s) : (endTxn a0 s).mem = s.mem := by
  unfold endTxn
  (try dsimp only)
  (repeat' split) <;> (try simp [*, apply_ite State.pending, apply_ite State.mem]) <;> (try (repeat' split) <;> simp [*, apply_ite State.pending, apply_ite State.mem])

@[simp] theorem sendHead_pending (a0) (a1) (s) : (sendHead a0 a1 s).pending = s.pending := by
  unfold sendHead
  simp [*, apply_ite State.pending, apply_ite State.mem]
@[simp] theorem sendHead_mem (a0) (a1) (s) : (sendHead a0 a1 s).mem = s.mem := by
  unfold sendHead
  simp [*, apply_ite State.pending, apply_ite State.mem]

@[simp] theorem sendLate_pending (s) : (sendLate s).pending = s.pending := by
  unfold sendLate
  simp [*, apply_ite State.pending, apply_ite State.mem]
@[simp] theorem sendLate_mem (s) : (sendLate s).mem = s.mem := by
  unfold sendLate
  simp [*, apply_ite State.pending, apply_ite State.mem]

@[simp] theorem countDone_pending (a0) (s) : (countDone a0 s).pending = s.pending := by
  unfold countDone
  simp [*, apply_ite State.pending, apply_ite State.mem]
@[simp] theorem countDone_mem (a0) (s) : (countDone a0 s).mem = s.mem := by
  unfold countDone
  simp [*, apply_ite State.pending, apply_ite State.mem]

@[simp] theorem respondRead_pending (a0) (a1) (a2) (s) : (respondRead a0 a1 a2 s).pending = s.pending := by
  unfold respondRead
  simp [*, apply_ite State.pending, apply_ite State.mem]
@[simp] theorem respondRead_mem (a0) (a1) (a2) (s) : (respondRead a0 a1 a2 s).mem = s.mem := by
  unfold respondRead
  simp [*, apply_ite State.pending, apply_ite State.mem]

@[simp] theorem respondNdr_pending (a0) (s) : (respondNdr a0 s).pending = s.pending := by
  unfold respondNdr
  simp [*, apply_ite State.pending, apply_ite State.mem]
@[simp] theorem respondNdr_mem (a0) (s) : (respondNdr a0 s).mem = s.mem := by
  unfold respondNdr
  simp [*, apply_ite State.pending, apply_ite State.mem]

@[simp] theorem respondData_pending (a0) (a1) (a2) (s) : (respondData a0 a1 a2 s).pending = s.pending := by
  unfold respondData
  simp
@[simp] theorem respondData_mem (a0) (a1) (a2) (s) : (respondData a0 a1 a2 s).mem = s.mem := by
  unfold respondData
  simp

@[simp] theorem respondWack_pending (a0) (s) : (respondWack a0 s).pending = s.pending := by
  unfold respondWack
  simp
@[simp] theorem respondWack_mem (a0) (s) : (respondWack a0 s).mem = s.mem := by
  unfold respondWack
  simp

@[simp] theorem respondNak_pending (a0) (a1) (s) : (respondNak a0 a1 s).pending = s.pending := by
  unfold respondNak
  simp
@[simp] theorem respondNak_mem (a0) (a1) (s) : (respondNak a0 a1 s).mem = s.mem := by
  unfold respondNak
  simp

@[simp] theorem conflictAcks_pending (a0) (s) : (conflictAcks a0 s).pending = s.pending := by
  unfold conflictAcks
  simp [*, apply_ite State.pending, apply_ite State.mem]
@[simp] theorem conflictAcks_mem (a0) (s) : (conflictAcks a0 s).mem = s.mem := by
  unfold conflictAcks
  simp [*, apply_ite State.pending, apply_ite State.mem]

@[simp] theorem retireReq_pending (a0) (s) : (retireReq a0 s).pending = s.pending := by
  unfold retireReq
  simp
@[simp] theorem retireReq_mem (a0) (s) : (retireReq a0 s).mem = s.mem := by
  unfold retireReq
  simp

@[simp] theorem finishRead_pending (a0) (a1) (a2) (s) : (finishRead a0 a1 a2 s).pending = s.pending := by
  unfold finishRead
  simp [*, apply_ite State.pending, apply_ite State.mem]
@[simp] theorem finishRead_mem (a0) (a1) (a2) (s) : (finishRead a0 a1 a2 s).mem = s.mem := by
  unfold finishRead
  simp [*, apply_ite State.pending, apply_ite State.mem]

@[simp] theorem finishReadMem_pending (a0) (s) : (finishReadMem a0 s).pending = s.pending := by
  unfold finishReadMem
  simp
@[simp] theorem finishReadMem_mem (a0) (s) : (finishReadMem a0 s).mem = s.mem := by
  unfold finishReadMem
  simp

@[simp] theorem finishNdr_pending (a0) (s) : (finishNdr a0 s).pending = s.pending := by
  unfold finishNdr
  simp [*, apply_ite State.pending, apply_ite State.mem]
@[simp] theorem finishNdr_mem (a0) (s) : (finishNdr a0 s).mem = s.mem := by
  unfold finishNdr
  simp [*, apply_ite State.pending, apply_ite State.mem]

@[simp] theorem refuseReq_pending (a0) (s) : (refuseReq a0 s).pending = s.pending := by
  unfold refuseReq
  simp [*, apply_ite State.pending, apply_ite State.mem]
@[simp] theorem refuseReq_mem (a0) (s) : (refuseReq a0 s).mem = s.mem := by
  unfold refuseReq
  simp [*, apply_ite State.pending, apply_ite State.mem]

@[simp] theorem State.modEngine_pending (s) (a1) (a2) : (State.modEngine s a1 a2).pending = s.pending := by
  unfold State.modEngine
  simp
@[simp] theorem State.modEngine_mem (s) (a1) (a2) : (State.modEngine s a1 a2).mem = s.mem := by
  unfold State.modEngine
  simp

@[simp] theorem setEngine_pending (a0) (a1) (s) : (setEngine a0 a1 s).pending = s.pending := by
  unfold setEngine
  simp [*, apply_ite State.pending, apply_ite State.mem]
@[simp] theorem setEngine_mem (a0) (a1) (s) : (setEngine a0 a1 s).mem = s.mem := by
  unfold setEngine
  simp [*, apply_ite State.pending, apply_ite State.mem]

@[simp] theorem beginWork_pending (a0) (s) : (beginWork a0 s).pending = s.pending := by
  unfold beginWork
  simp
@[simp] theorem beginWork_mem (a0) (s) : (beginWork a0 s).mem = s.mem := by
  unfold beginWork
  simp

@[simp] theorem startItem_pending (a0) (s) : (startItem a0 s).pending = s.pending := by
  unfold startItem
  simp [*, apply_ite State.pending, apply_ite State.mem]
@[simp] theorem startItem_mem (a0) (s) : (startItem a0 s).mem = s.mem := by
  unfold startItem
  simp [*, apply_ite State.pending, apply_ite State.mem]

@[simp] theorem touchHeld_pending (a0) (s) : (touchHeld a0 s).pending = s.pending := by
  unfold touchHeld
  simp
@[simp] theorem touchHeld_mem (a0) (s) : (touchHeld a0 s).mem = s.mem := by
  unfold touchHeld
  simp

@[simp] theorem dropHeld_pending (a0) (s) : (dropHeld a0 s).pending = s.pending := by
  unfold dropHeld
  simp
@[simp] theorem dropHeld_mem (a0) (s) : (dropHeld a0 s).mem = s.mem := by
  unfold dropHeld
  simp

@[simp] theorem codecUnavailable_pending (s) : (codecUnavailable s).pending = s.pending := by
  unfold codecUnavailable
  simp [*, apply_ite State.pending, apply_ite State.mem]
@[simp] theorem codecUnavailable_mem (s) : (codecUnavailable s).mem = s.mem := by
  unfold codecUnavailable
  simp [*, apply_ite State.pending, apply_ite State.mem]

@[simp] theorem startDecode_pending (a0) (a1) (a2) (s) : (startDecode a0 a1 a2 s).pending = s.pending := by
  unfold startDecode
  (try dsimp only)
  (repeat' split) <;> (try simp [*, apply_ite State.pending, apply_ite State.mem]) <;> (try (repeat' split) <;> simp [*, apply_ite State.pending, apply_ite State.mem])
@[simp] theorem startDecode_mem (a0) (a1) (a2) (s) : (startDecode a0 a1 a2 s).mem = s.mem := by
  unfold startDecode
  (try dsimp only)
  (repeat' split) <;> (try simp [*, apply_ite State.pending, apply_ite State.mem]) <;> (try (repeat' split) <;> simp [*, apply_ite State.pending, apply_ite State.mem])

@[simp] theorem startCompress_pending (a0) (s) : (startCompress a0 s).pending = s.pending := by
  unfold startCompress
  (try dsimp only)
  (repeat' split) <;> (try simp [*, apply_ite State.pending, apply_ite State.mem]) <;> (try (repeat' split) <;> simp [*, apply_ite State.pending, apply_ite State.mem])
@[simp] theorem startCompress_mem (a0) (s) : (startCompress a0 s).mem = s.mem := by
  unfold startCompress
  (try dsimp only)
  (repeat' split) <;> (try simp [*, apply_ite State.pending, apply_ite State.mem]) <;> (try (repeat' split) <;> simp [*, apply_ite State.pending, apply_ite State.mem])

@[simp] theorem holdPage_pending (a0) (a1) (s) : (holdPage a0 a1 s).pending = s.pending := by
  unfold holdPage
  simp
@[simp] theorem holdPage_mem (a0) (a1) (s) : (holdPage a0 a1 s).mem = s.mem := by
  unfold holdPage
  simp

@[simp] theorem shedBulk_pending (s) : (shedBulk s).pending = s.pending := by
  unfold shedBulk
  simp
@[simp] theorem shedBulk_mem (s) : (shedBulk s).mem = s.mem := by
  unfold shedBulk
  simp

@[simp] theorem State.modDrive_pending (s) (a1) (a2) : (State.modDrive s a1 a2).pending = s.pending := by
  unfold State.modDrive
  simp
@[simp] theorem State.modDrive_mem (s) (a1) (a2) : (State.modDrive s a1 a2).mem = s.mem := by
  unfold State.modDrive
  simp

@[simp] theorem State.modChan_pending (s) (a1) (a2) : (State.modChan s a1 a2).pending = s.pending := by
  unfold State.modChan
  simp
@[simp] theorem State.modChan_mem (s) (a1) (a2) : (State.modChan s a1 a2).mem = s.mem := by
  unfold State.modChan
  simp

@[simp] theorem submit_pending (a0) (a1) (a2) (a3) (a4) (s) : (submit a0 a1 a2 a3 a4 s).pending = s.pending := by
  unfold submit
  simp [*, apply_ite State.pending, apply_ite State.mem]
@[simp] theorem submit_mem (a0) (a1) (a2) (a3) (a4) (s) : (submit a0 a1 a2 a3 a4 s).mem = s.mem := by
  unfold submit
  simp [*, apply_ite State.pending, apply_ite State.mem]

@[simp] theorem endCmd_pending (a0) (a1) (s) : (endCmd a0 a1 s).pending = s.pending := by
  unfold endCmd
  (try dsimp only)
  (repeat' split) <;> (try simp [*, apply_ite State.pending, apply_ite State.mem]) <;> (try (repeat' split) <;> simp [*, apply_ite State.pending, apply_ite State.mem])
@[simp] theorem endCmd_mem (a0) (a1) (s) : (endCmd a0 a1 s).mem = s.mem := by
  unfold endCmd
  (try dsimp only)
  (repeat' split) <;> (try simp [*, apply_ite State.pending, apply_ite State.mem]) <;> (try (repeat' split) <;> simp [*, apply_ite State.pending, apply_ite State.mem])

@[simp] theorem submitDegraded_pending (a0) (a1) (a2) (a3) (s) : (submitDegraded a0 a1 a2 a3 s).pending = s.pending := by
  unfold submitDegraded
  simp
@[simp] theorem submitDegraded_mem (a0) (a1) (a2) (a3) (s) : (submitDegraded a0 a1 a2 a3 s).mem = s.mem := by
  unfold submitDegraded
  simp

@[simp] theorem moverDegraded_pending (a0) (s) : (moverDegraded a0 s).pending = s.pending := by
  unfold moverDegraded
  simp
@[simp] theorem moverDegraded_mem (a0) (s) : (moverDegraded a0 s).mem = s.mem := by
  unfold moverDegraded
  simp

@[simp] theorem moverFailed_pending (a0) (a1) (s) : (moverFailed a0 a1 s).pending = s.pending := by
  unfold moverFailed
  simp [*, apply_ite State.pending, apply_ite State.mem]
@[simp] theorem moverFailed_mem (a0) (a1) (s) : (moverFailed a0 a1 s).mem = s.mem := by
  unfold moverFailed
  simp [*, apply_ite State.pending, apply_ite State.mem]

@[simp] theorem moverRead_pending (a0) (s) : (moverRead a0 s).pending = s.pending := by
  unfold moverRead
  simp [*, apply_ite State.pending, apply_ite State.mem]
@[simp] theorem moverRead_mem (a0) (s) : (moverRead a0 s).mem = s.mem := by
  unfold moverRead
  simp [*, apply_ite State.pending, apply_ite State.mem]

@[simp] theorem endMoverReads_pending (a0) (s) : (endMoverReads a0 s).pending = s.pending := by
  unfold endMoverReads
  simp
@[simp] theorem endMoverReads_mem (a0) (s) : (endMoverReads a0 s).mem = s.mem := by
  unfold endMoverReads
  simp

@[simp] theorem redirectRead_pending (a0) (s) : (redirectRead a0 s).pending = s.pending := by
  unfold redirectRead
  (try dsimp only)
  (repeat' split) <;> (try simp [*, apply_ite State.pending, apply_ite State.mem]) <;> (try (repeat' split) <;> simp [*, apply_ite State.pending, apply_ite State.mem])
@[simp] theorem redirectRead_mem (a0) (s) : (redirectRead a0 s).mem = s.mem := by
  unfold redirectRead
  (try dsimp only)
  (repeat' split) <;> (try simp [*, apply_ite State.pending, apply_ite State.mem]) <;> (try (repeat' split) <;> simp [*, apply_ite State.pending, apply_ite State.mem])

@[simp] theorem endTag_pending (a0) (a1) (s) : (endTag a0 a1 s).pending = s.pending := by
  unfold endTag
  simp
@[simp] theorem endTag_mem (a0) (a1) (s) : (endTag a0 a1 s).mem = s.mem := by
  unfold endTag
  simp

@[simp] theorem redirectTag_pending (a0) (s) : (redirectTag a0 s).pending = s.pending := by
  unfold redirectTag
  simp [*, apply_ite State.pending, apply_ite State.mem]
@[simp] theorem redirectTag_mem (a0) (s) : (redirectTag a0 s).mem = s.mem := by
  unfold redirectTag
  simp [*, apply_ite State.pending, apply_ite State.mem]

@[simp] theorem absentChunk_pending (a0) (a1) (s) : (absentChunk a0 a1 s).pending = s.pending := by
  unfold absentChunk
  simp
@[simp] theorem absentChunk_mem (a0) (a1) (s) : (absentChunk a0 a1 s).mem = s.mem := by
  unfold absentChunk
  simp

@[simp] theorem endDriveWork_pending (a0) (s) : (endDriveWork a0 s).pending = s.pending := by
  unfold endDriveWork
  (try dsimp only)
  (repeat' split) <;> (try simp [*, apply_ite State.pending, apply_ite State.mem]) <;> (repeat' split) <;> (try simp [*, apply_ite State.pending, apply_ite State.mem]) <;>
    (refine foldl_p _ _ _ ?_; intro t x; (try dsimp only); (repeat' split) <;> simp [*, apply_ite State.pending, apply_ite State.mem])
@[simp] theorem endDriveWork_mem (a0) (s) : (endDriveWork a0 s).mem = s.mem := by
  unfold endDriveWork
  (try dsimp only)
  (repeat' split) <;> (try simp [*, apply_ite State.pending, apply_ite State.mem]) <;> (repeat' split) <;> (try simp [*, apply_ite State.pending, apply_ite State.mem]) <;>
    (refine foldl_m _ _ _ ?_; intro t x; (try dsimp only); (repeat' split) <;> simp [*, apply_ite State.pending, apply_ite State.mem])

@[simp] theorem sanitizeUnit_pending (a0) (s) : (sanitizeUnit a0 s).pending = s.pending := by
  unfold sanitizeUnit
  (try dsimp only)
  (repeat' split) <;> (try simp [*, apply_ite State.pending, apply_ite State.mem]) <;> (try (repeat' split) <;> simp [*, apply_ite State.pending, apply_ite State.mem])
@[simp] theorem sanitizeUnit_mem (a0) (s) : (sanitizeUnit a0 s).mem = s.mem := by
  unfold sanitizeUnit
  (try dsimp only)
  (repeat' split) <;> (try simp [*, apply_ite State.pending, apply_ite State.mem]) <;> (try (repeat' split) <;> simp [*, apply_ite State.pending, apply_ite State.mem])

@[simp] theorem fenceDrive_pending (a0) (s) : (fenceDrive a0 s).pending = s.pending := by
  unfold fenceDrive
  simp [*, apply_ite State.pending, apply_ite State.mem]
@[simp] theorem fenceDrive_mem (a0) (s) : (fenceDrive a0 s).mem = s.mem := by
  unfold fenceDrive
  simp [*, apply_ite State.pending, apply_ite State.mem]

@[simp] theorem issueCmd_pending (a0) (s) : (issueCmd a0 s).pending = s.pending := by
  unfold issueCmd
  (try dsimp only)
  (repeat' split) <;> (try simp [*, apply_ite State.pending, apply_ite State.mem]) <;> (try (repeat' split) <;> simp [*, apply_ite State.pending, apply_ite State.mem])
@[simp] theorem issueCmd_mem (a0) (s) : (issueCmd a0 s).mem = s.mem := by
  unfold issueCmd
  (try dsimp only)
  (repeat' split) <;> (try simp [*, apply_ite State.pending, apply_ite State.mem]) <;> (try (repeat' split) <;> simp [*, apply_ite State.pending, apply_ite State.mem])

@[simp] theorem issueAll_pending (a0) (s) : (issueAll a0 s).pending = s.pending := by
  unfold issueAll
  simp
@[simp] theorem issueAll_mem (a0) (s) : (issueAll a0 s).mem = s.mem := by
  unfold issueAll
  simp

@[simp] theorem touchChan_pending (a0) (s) : (touchChan a0 s).pending = s.pending := by
  unfold touchChan
  simp
@[simp] theorem touchChan_mem (a0) (s) : (touchChan a0 s).mem = s.mem := by
  unfold touchChan
  simp

@[simp] theorem queueCmd_pending (a0) (a1) (s) : (queueCmd a0 a1 s).pending = s.pending := by
  unfold queueCmd
  simp
@[simp] theorem queueCmd_mem (a0) (a1) (s) : (queueCmd a0 a1 s).mem = s.mem := by
  unfold queueCmd
  simp

@[simp] theorem enterTableAt_pending (a0) (a1) (a2) (a3) (a4) (s) : (enterTableAt a0 a1 a2 a3 a4 s).pending = s.pending := by
  unfold enterTableAt
  simp
@[simp] theorem enterTableAt_mem (a0) (a1) (a2) (a3) (a4) (s) : (enterTableAt a0 a1 a2 a3 a4 s).mem = s.mem := by
  unfold enterTableAt
  simp

@[simp] theorem enterTable_pending (a0) (a1) (a2) (a3) (s) : (enterTable a0 a1 a2 a3 s).pending = s.pending := by
  unfold enterTable
  simp
@[simp] theorem enterTable_mem (a0) (a1) (a2) (a3) (s) : (enterTable a0 a1 a2 a3 s).mem = s.mem := by
  unfold enterTable
  simp

@[simp] theorem rescueLine_pending (a0) (a1) (s) : (rescueLine a0 a1 s).pending = s.pending := by
  unfold rescueLine
  (try dsimp only)
  (repeat' split) <;> (try simp [*, apply_ite State.pending, apply_ite State.mem]) <;> (try (repeat' split) <;> simp [*, apply_ite State.pending, apply_ite State.mem])
@[simp] theorem rescueLine_mem (a0) (a1) (s) : (rescueLine a0 a1 s).mem = s.mem := by
  unfold rescueLine
  (try dsimp only)
  (repeat' split) <;> (try simp [*, apply_ite State.pending, apply_ite State.mem]) <;> (try (repeat' split) <;> simp [*, apply_ite State.pending, apply_ite State.mem])

@[simp] theorem releaseFenced_pending (a0) (s) : (releaseFenced a0 s).pending = s.pending := by
  unfold releaseFenced
  simp
@[simp] theorem releaseFenced_mem (a0) (s) : (releaseFenced a0 s).mem = s.mem := by
  unfold releaseFenced
  simp

@[simp] theorem loseEntry_pending (a0) (s) : (loseEntry a0 s).pending = s.pending := by
  unfold loseEntry
  simp
@[simp] theorem loseEntry_mem (a0) (s) : (loseEntry a0 s).mem = s.mem := by
  unfold loseEntry
  simp

@[simp] theorem loseMapPage_pending (t p : Nat) (s : State) : (loseMapPage t p s).pending = s.pending := by
  obtain ⟨u, e⟩ : ∃ u, u = loseMapPage t p s := ⟨_, rfl⟩
  rw [← e]
  unfold loseMapPage at e
  extract_lets q a b c x at e
  obtain ⟨a', ea⟩ : ∃ a', a' = a := ⟨_, rfl⟩
  obtain ⟨b', eb⟩ : ∃ b', b' = b := ⟨_, rfl⟩
  obtain ⟨c', ec⟩ : ∃ c', c' = c := ⟨_, rfl⟩
  obtain ⟨x', ex⟩ : ∃ x', x' = x := ⟨_, rfl⟩
  have ha : a'.pending = s.pending := by rw [show a' = lose 4 t true 0xFF q (BitVec.allOnes 64) s from ea]; exact lose_pending ..
  have hb : b'.pending = a'.pending := by
    rw [show b' = (((List.range 256).filter fun i => decide (q + i < offeredPages a')).foldl (fun t i => loseEntry (q + i) t) a')
      from ea ▸ eb]
    exact foldl_p' _ _ _ fun t x w hw => by rw [show w = loseEntry (q + x) t from hw]; exact loseEntry_pending ..
  have hc : c'.pending = b'.pending := by
    rw [show c' = dropHeld p (dropSides p (fun _ _ => false) (dropLock p b')) from eb ▸ ec, dropHeld_pending, dropSides_pending,
      dropLock_pending]
  have hx : x'.pending = c'.pending := by
    rw [show x' = c'.modPage p (fun _ => {}) from ec ▸ ex]
    exact State.modPage_pending ..
  rw [← ex] at e
  rw [e]
  exact hx.trans (hc.trans (hb.trans ha))
theorem loseMapPage_wf (t p : Nat) (s : State) (h : Memory.wf s.mem = true) : Memory.wf (loseMapPage t p s).mem = true := by
  unfold loseMapPage
  dsimp only
  refine Memory.wf_clearPage p ?_
  simp [h]

@[simp] theorem loseMapPages_pending (j : Nat) (s : State) : (loseMapPages j s).pending = s.pending := by
  unfold loseMapPages
  generalize List.range 256 = l
  refine foldl_p' _ _ _ (fun t x u e => ?_)
  have e : u = if 256 * (256 * j + x) < offeredPages t then loseMapPage 0 (ownPages + (256 * j + x)) t else t := e
  rw [e]
  split
  · exact loseMapPage_pending ..
  · rfl
theorem loseMapPages_wf (j : Nat) (s : State) (h : Memory.wf s.mem = true) : Memory.wf (loseMapPages j s).mem = true := by
  unfold loseMapPages
  generalize List.range 256 = l
  refine foldl_wf' _ _ _ h (fun t x u e ht => ?_)
  have e : u = if 256 * (256 * j + x) < offeredPages t then loseMapPage 0 (ownPages + (256 * j + x)) t else t := e
  rw [e]
  split
  · exact loseMapPage_wf _ _ _ ht
  · exact ht

@[simp] theorem loseLevelOne_pending (a0) (s) : (loseLevelOne a0 s).pending = s.pending := by
  unfold loseLevelOne
  simp
theorem loseLevelOne_wf (p : Nat) (s : State) (h : Memory.wf s.mem = true) : Memory.wf (loseLevelOne p s).mem = true := by
  obtain ⟨u, e⟩ : ∃ u, u = loseLevelOne p s := ⟨_, rfl⟩
  rw [← e]
  unfold loseLevelOne at e
  dsimp only at e
  rw [e]
  exact loseMapPages_wf _ _ (Memory.wf_clearPage p (by simp [h]))

@[simp] theorem noteLoss_pending (a0) (a1) (a2) (a3) (a4) (s) : (noteLoss a0 a1 a2 a3 a4 s).pending = s.pending := by
  unfold noteLoss
  simp [*, apply_ite State.pending, apply_ite State.mem]
theorem noteLoss_wf (a0) (a1) (a2) (a3) (a4) (s) (h : Memory.wf s.mem = true) : Memory.wf (noteLoss a0 a1 a2 a3 a4 s).mem = true := by
  unfold noteLoss
  (try dsimp only)
  (repeat' (first | with_reducible assumption | split | (with_reducible refine foldl_wf _ _ _ ?_ (fun t x h => ?_)) | (with_reducible refine loseMapPage_wf _ _ _ ?_) | (with_reducible refine loseLevelOne_wf _ _ ?_))) <;> (try simp) <;>
    (repeat' (first | with_reducible assumption | split | (with_reducible refine foldl_wf _ _ _ ?_ (fun t x h => ?_)) | (with_reducible refine loseMapPage_wf _ _ _ ?_) | (with_reducible refine loseLevelOne_wf _ _ ?_))) <;> (try simp) <;>
    (repeat' (first | with_reducible assumption | split | (with_reducible refine foldl_wf _ _ _ ?_ (fun t x h => ?_)) | (with_reducible refine loseMapPage_wf _ _ _ ?_) | (with_reducible refine loseLevelOne_wf _ _ ?_))) <;> simp_all

@[simp] theorem makeLost_pending (a0) (a1) (a2) (a3) (a4) (s) : (makeLost a0 a1 a2 a3 a4 s).pending = s.pending := by
  unfold makeLost
  simp
theorem makeLost_wf (a0) (a1) (a2) (a3) (a4) (s) (h : Memory.wf s.mem = true) : Memory.wf (makeLost a0 a1 a2 a3 a4 s).mem = true := by
  unfold makeLost
  (try dsimp only)
  (repeat' (first | with_reducible assumption | split | (with_reducible refine foldl_wf _ _ _ ?_ (fun t x h => ?_)) | (with_reducible refine noteLoss_wf _ _ _ _ _ _ ?_))) <;> (try simp) <;>
    (repeat' (first | with_reducible assumption | split | (with_reducible refine foldl_wf _ _ _ ?_ (fun t x h => ?_)) | (with_reducible refine noteLoss_wf _ _ _ _ _ _ ?_))) <;> (try simp) <;>
    (repeat' (first | with_reducible assumption | split | (with_reducible refine foldl_wf _ _ _ ?_ (fun t x h => ?_)) | (with_reducible refine noteLoss_wf _ _ _ _ _ _ ?_))) <;> simp_all

@[simp] theorem noteLosses_pending (n : Nat) (s : State) : (noteLosses n s).pending = s.pending := by
  obtain ⟨u, e⟩ : ∃ u, u = noteLosses n s := ⟨_, rfl⟩
  rw [← e]
  unfold noteLosses at e
  extract_lets v at e
  have hv : v.pending = s.pending := foldl_p _ _ _ fun t x => foldl_p _ _ _ fun t y => noteLoss_pending ..
  rw [e]
  split
  · exact hv
  · refine (foldl_p' _ _ _ fun t x w hw => ?_).trans hv
    have hw : w = loseLevelOne (levelOnePage x) t := hw
    rw [hw]
    exact loseLevelOne_pending ..
theorem noteLosses_wf (n : Nat) (s : State) (h : Memory.wf s.mem = true) : Memory.wf (noteLosses n s).mem = true := by
  obtain ⟨u, e⟩ : ∃ u, u = noteLosses n s := ⟨_, rfl⟩
  rw [← e]
  unfold noteLosses at e
  extract_lets v at e
  have hv : Memory.wf v.mem = true :=
    foldl_wf _ _ _ h fun t x ht => foldl_wf _ _ _ ht fun t y ht => noteLoss_wf _ _ _ _ _ _ ht
  rw [e]
  split
  · exact hv
  · refine foldl_wf' _ _ _ hv fun t x w hw ht => ?_
    have hw : w = loseLevelOne (levelOnePage x) t := hw
    rw [hw]
    exact loseLevelOne_wf _ _ ht

@[simp] theorem fenceUnit_pending (a0) (a1) (s) : (fenceUnit a0 a1 s).pending = s.pending := by
  unfold fenceUnit
  simp [*, apply_ite State.pending, apply_ite State.mem]
theorem fenceUnit_wf (a0) (a1) (s) (h : Memory.wf s.mem = true) : Memory.wf (fenceUnit a0 a1 s).mem = true := by
  unfold fenceUnit
  (try dsimp only)
  (repeat' (first | with_reducible assumption | split | (with_reducible refine foldl_wf _ _ _ ?_ (fun t x h => ?_)) | (with_reducible refine noteLosses_wf _ _ ?_))) <;> (try simp) <;>
    (repeat' (first | with_reducible assumption | split | (with_reducible refine foldl_wf _ _ _ ?_ (fun t x h => ?_)) | (with_reducible refine noteLosses_wf _ _ ?_))) <;> (try simp) <;>
    (repeat' (first | with_reducible assumption | split | (with_reducible refine foldl_wf _ _ _ ?_ (fun t x h => ?_)) | (with_reducible refine noteLosses_wf _ _ ?_))) <;> simp_all

@[simp] theorem engineOff_pending (a0) (s) : (engineOff a0 s).pending = s.pending := by
  unfold engineOff
  simp
@[simp] theorem engineOff_mem (a0) (s) : (engineOff a0 s).mem = s.mem := by
  unfold engineOff
  simp

@[simp] theorem domainReset_pending (a0) (s) : (domainReset a0 s).pending = s.pending := by
  unfold domainReset
  simp [*, apply_ite State.pending, apply_ite State.mem]
@[simp] theorem domainReset_mem (a0) (s) : (domainReset a0 s).mem = s.mem := by
  unfold domainReset
  simp [*, apply_ite State.pending, apply_ite State.mem]

@[simp] theorem measure_pending (a0) (a1) (s) : (measure a0 a1 s).pending = s.pending := by
  unfold measure
  simp [*, apply_ite State.pending, apply_ite State.mem]
@[simp] theorem measure_mem (a0) (a1) (s) : (measure a0 a1 s).mem = s.mem := by
  unfold measure
  simp [*, apply_ite State.pending, apply_ite State.mem]

@[simp] theorem measureCodec_pending (s) : (measureCodec s).pending = s.pending := by
  unfold measureCodec
  simp [*, apply_ite State.pending, apply_ite State.mem]
@[simp] theorem measureCodec_mem (s) : (measureCodec s).mem = s.mem := by
  unfold measureCodec
  simp [*, apply_ite State.pending, apply_ite State.mem]

@[simp] theorem domainReady_pending (a0) (s) : (domainReady a0 s).pending = s.pending := by
  unfold domainReady
  simp [*, apply_ite State.pending, apply_ite State.mem]
@[simp] theorem domainReady_mem (a0) (s) : (domainReady a0 s).mem = s.mem := by
  unfold domainReady
  simp [*, apply_ite State.pending, apply_ite State.mem]

@[simp] theorem enterStarting_pending (a0) (s) : (enterStarting a0 s).pending = s.pending := by
  unfold enterStarting
  simp
@[simp] theorem enterStarting_mem (a0) (s) : (enterStarting a0 s).mem = s.mem := by
  unfold enterStarting
  simp

@[simp] theorem beginPower_pending (a0) (s) : (beginPower a0 s).pending = s.pending := by
  unfold beginPower
  simp [*, apply_ite State.pending, apply_ite State.mem]
@[simp] theorem beginPower_mem (a0) (s) : (beginPower a0 s).mem = s.mem := by
  unfold beginPower
  simp [*, apply_ite State.pending, apply_ite State.mem]

@[simp] theorem powerUp_pending (a0) (s) : (powerUp a0 s).pending = s.pending := by
  unfold powerUp
  simp
@[simp] theorem powerUp_mem (a0) (s) : (powerUp a0 s).mem = s.mem := by
  unfold powerUp
  simp

@[simp] theorem slotsAfterBrace_pending (s) : (slotsAfterBrace s).pending = s.pending := by
  unfold slotsAfterBrace
  simp [*, apply_ite State.pending, apply_ite State.mem]
@[simp] theorem slotsAfterBrace_mem (s) : (slotsAfterBrace s).mem = s.mem := by
  unfold slotsAfterBrace
  simp [*, apply_ite State.pending, apply_ite State.mem]

@[simp] theorem slotPowered_pending (a0) (s) : (slotPowered a0 s).pending = s.pending := by
  unfold slotPowered
  simp [*, apply_ite State.pending, apply_ite State.mem]
@[simp] theorem slotPowered_mem (a0) (s) : (slotPowered a0 s).mem = s.mem := by
  unfold slotPowered
  simp [*, apply_ite State.pending, apply_ite State.mem]

@[simp] theorem commitLog_pending (s) : (commitLog s).pending = s.pending := by
  unfold commitLog
  simp
@[simp] theorem commitLog_mem (s) : (commitLog s).mem = s.mem := by
  unfold commitLog
  simp

@[simp] theorem refreshHolds_pending (s) : (refreshHolds s).pending = s.pending := by
  unfold refreshHolds
  simp
@[simp] theorem refreshHolds_mem (s) : (refreshHolds s).mem = s.mem := by
  unfold refreshHolds
  simp

@[simp] theorem windowCounts_pending (s) : (windowCounts s).pending = s.pending := by
  unfold windowCounts
  simp
@[simp] theorem windowCounts_mem (s) : (windowCounts s).mem = s.mem := by
  unfold windowCounts
  simp

end Sys2Proof.Machine
end

