-- ==== Sys2Proof/Laws/FramePath.lean ====
section
/-! SUPPORT. Frames of the model's operations over power, slots, scheduling and the path of a request: none touches the queue; memory is left alone or keeps its
canonical form. -/

set_option maxRecDepth 4000
set_option linter.unusedSimpArgs false

namespace Sys2Proof.Machine

@[simp] theorem startWake_pending (a0) (a1) (a2) (a3) (s) : (startWake a0 a1 a2 a3 s).pending = s.pending := by
  unfold startWake
  simp
@[simp] theorem startWake_mem (a0) (a1) (a2) (a3) (s) : (startWake a0 a1 a2 a3 s).mem = s.mem := by
  unfold startWake
  simp

@[simp] theorem wakeDom_pending (a0) (a1) (a2) (s) : (wakeDom a0 a1 a2 s).pending = s.pending := by
  unfold wakeDom
  simp [*, apply_ite State.pending, apply_ite State.mem]
@[simp] theorem wakeDom_mem (a0) (a1) (a2) (s) : (wakeDom a0 a1 a2 s).mem = s.mem := by
  unfold wakeDom
  simp [*, apply_ite State.pending, apply_ite State.mem]

@[simp] theorem startOff_pending (a0) (s) : (startOff a0 s).pending = s.pending := by
  unfold startOff
  simp [*, apply_ite State.pending, apply_ite State.mem]
@[simp] theorem startOff_mem (a0) (s) : (startOff a0 s).mem = s.mem := by
  unfold startOff
  simp [*, apply_ite State.pending, apply_ite State.mem]

@[simp] theorem settleMode_pending (s) : (settleMode s).pending = s.pending := by
  unfold settleMode
  (try dsimp only)
  (repeat' split) <;> (try simp [*, apply_ite State.pending, apply_ite State.mem]) <;> (try (repeat' split) <;> simp [*, apply_ite State.pending, apply_ite State.mem])
@[simp] theorem settleMode_mem (s) : (settleMode s).mem = s.mem := by
  unfold settleMode
  (try dsimp only)
  (repeat' split) <;> (try simp [*, apply_ite State.pending, apply_ite State.mem]) <;> (try (repeat' split) <;> simp [*, apply_ite State.pending, apply_ite State.mem])

@[simp] theorem arbitrate_pending (a0) (s) : (arbitrate a0 s).pending = s.pending := by
  unfold arbitrate
  (try dsimp only)
  (repeat' split) <;> (try simp [*, apply_ite State.pending, apply_ite State.mem]) <;> (try (repeat' split) <;> simp [*, apply_ite State.pending, apply_ite State.mem])
@[simp] theorem arbitrate_mem (a0) (s) : (arbitrate a0 s).mem = s.mem := by
  unfold arbitrate
  (try dsimp only)
  (repeat' split) <;> (try simp [*, apply_ite State.pending, apply_ite State.mem]) <;> (try (repeat' split) <;> simp [*, apply_ite State.pending, apply_ite State.mem])

@[simp] theorem arbitrateAll_pending (s) : (arbitrateAll s).pending = s.pending := by
  unfold arbitrateAll
  simp
@[simp] theorem arbitrateAll_mem (s) : (arbitrateAll s).mem = s.mem := by
  unfold arbitrateAll
  simp

@[simp] theorem castVote_pending (a0) (a1) (s) : (castVote a0 a1 s).pending = s.pending := by
  unfold castVote
  simp
@[simp] theorem castVote_mem (a0) (a1) (s) : (castVote a0 a1 s).mem = s.mem := by
  unfold castVote
  simp

@[simp] theorem withdrawVote_pending (a0) (a1) (s) : (withdrawVote a0 a1 s).pending = s.pending := by
  unfold withdrawVote
  simp
@[simp] theorem withdrawVote_mem (a0) (a1) (s) : (withdrawVote a0 a1 s).mem = s.mem := by
  unfold withdrawVote
  simp

@[simp] theorem setVote_pending (a0) (a1) (a2) (s) : (setVote a0 a1 a2 s).pending = s.pending := by
  unfold setVote
  simp [*, apply_ite State.pending, apply_ite State.mem]
@[simp] theorem setVote_mem (a0) (a1) (a2) (s) : (setVote a0 a1 a2 s).mem = s.mem := by
  unfold setVote
  simp [*, apply_ite State.pending, apply_ite State.mem]

@[simp] theorem dueVote_pending (a0) (a1) (a2) (s) : (dueVote a0 a1 a2 s).pending = s.pending := by
  unfold dueVote
  simp [*, apply_ite State.pending, apply_ite State.mem]
@[simp] theorem dueVote_mem (a0) (a1) (a2) (s) : (dueVote a0 a1 a2 s).mem = s.mem := by
  unfold dueVote
  simp [*, apply_ite State.pending, apply_ite State.mem]

@[simp] theorem keepVotes_pending (s) : (keepVotes s).pending = s.pending := by
  unfold keepVotes
  simp
@[simp] theorem keepVotes_mem (s) : (keepVotes s).mem = s.mem := by
  unfold keepVotes
  simp

@[simp] theorem offNow_pending (a0) (s) : (offNow a0 s).pending = s.pending := by
  unfold offNow
  simp
@[simp] theorem offNow_mem (a0) (s) : (offNow a0 s).mem = s.mem := by
  unfold offNow
  simp

@[simp] theorem refuseOff_pending (a0) (a1) (s) : (refuseOff a0 a1 s).pending = s.pending := by
  unfold refuseOff
  simp
@[simp] theorem refuseOff_mem (a0) (a1) (s) : (refuseOff a0 a1 s).mem = s.mem := by
  unfold refuseOff
  simp

@[simp] theorem handshakeReply_pending (a0) (a1) (a2) (s) : (handshakeReply a0 a1 a2 s).pending = s.pending := by
  unfold handshakeReply
  (try dsimp only)
  (repeat' split) <;> (try simp [*, apply_ite State.pending, apply_ite State.mem]) <;> (try (repeat' split) <;> simp [*, apply_ite State.pending, apply_ite State.mem])
@[simp] theorem handshakeReply_mem (a0) (a1) (a2) (s) : (handshakeReply a0 a1 a2 s).mem = s.mem := by
  unfold handshakeReply
  (try dsimp only)
  (repeat' split) <;> (try simp [*, apply_ite State.pending, apply_ite State.mem]) <;> (try (repeat' split) <;> simp [*, apply_ite State.pending, apply_ite State.mem])

@[simp] theorem wakeFail_pending (a0) (a1) (s) : (wakeFail a0 a1 s).pending = s.pending := by
  unfold wakeFail
  simp [*, apply_ite State.pending, apply_ite State.mem]
theorem wakeFail_wf (a0) (a1) (s) (h : Memory.wf s.mem = true) : Memory.wf (wakeFail a0 a1 s).mem = true := by
  unfold wakeFail
  (try dsimp only)
  (repeat' (first | with_reducible assumption | split | (with_reducible refine foldl_wf _ _ _ ?_ (fun t x h => ?_)) | (with_reducible refine fenceUnit_wf _ _ _ ?_))) <;> (try simp) <;>
    (repeat' (first | with_reducible assumption | split | (with_reducible refine foldl_wf _ _ _ ?_ (fun t x h => ?_)) | (with_reducible refine fenceUnit_wf _ _ _ ?_))) <;> (try simp) <;>
    (repeat' (first | with_reducible assumption | split | (with_reducible refine foldl_wf _ _ _ ?_ (fun t x h => ?_)) | (with_reducible refine fenceUnit_wf _ _ _ ?_))) <;> simp_all

@[simp] theorem setPowerMode_pending (a0) (s) : (setPowerMode a0 s).pending = s.pending := by
  unfold setPowerMode
  simp [*, apply_ite State.pending, apply_ite State.mem]
@[simp] theorem setPowerMode_mem (a0) (s) : (setPowerMode a0 s).mem = s.mem := by
  unfold setPowerMode
  simp [*, apply_ite State.pending, apply_ite State.mem]

@[simp] theorem supplyWarning_pending (a0) (a1) (s) : (supplyWarning a0 a1 s).pending = s.pending := by
  unfold supplyWarning
  simp [*, apply_ite State.pending, apply_ite State.mem]
@[simp] theorem supplyWarning_mem (a0) (a1) (s) : (supplyWarning a0 a1 s).mem = s.mem := by
  unfold supplyWarning
  simp [*, apply_ite State.pending, apply_ite State.mem]

@[simp] theorem raiseDips_pending (s) : (raiseDips s).pending = s.pending := by
  unfold raiseDips
  simp [*, apply_ite State.pending, apply_ite State.mem]
@[simp] theorem raiseDips_mem (s) : (raiseDips s).mem = s.mem := by
  unfold raiseDips
  simp [*, apply_ite State.pending, apply_ite State.mem]

@[simp] theorem deferredWakes_pending (s) : (deferredWakes s).pending = s.pending := by
  unfold deferredWakes
  (try dsimp only)
  (repeat' split) <;> (try simp [*, apply_ite State.pending, apply_ite State.mem]) <;> (repeat' split) <;> (try simp [*, apply_ite State.pending, apply_ite State.mem]) <;>
    (refine foldl_p _ _ _ ?_; intro t x; (try dsimp only); (repeat' split) <;> simp [*, apply_ite State.pending, apply_ite State.mem])
@[simp] theorem deferredWakes_mem (s) : (deferredWakes s).mem = s.mem := by
  unfold deferredWakes
  (try dsimp only)
  (repeat' split) <;> (try simp [*, apply_ite State.pending, apply_ite State.mem]) <;> (repeat' split) <;> (try simp [*, apply_ite State.pending, apply_ite State.mem]) <;>
    (refine foldl_m _ _ _ ?_; intro t x; (try dsimp only); (repeat' split) <;> simp [*, apply_ite State.pending, apply_ite State.mem])

@[simp] theorem endBrace_pending (s) : (endBrace s).pending = s.pending := by
  unfold endBrace
  simp
@[simp] theorem endBrace_mem (s) : (endBrace s).mem = s.mem := by
  unfold endBrace
  simp

@[simp] theorem braceLong_pending (s) : (braceLong s).pending = s.pending := by
  unfold braceLong
  simp [*, apply_ite State.pending, apply_ite State.mem]
@[simp] theorem braceLong_mem (s) : (braceLong s).mem = s.mem := by
  unfold braceLong
  simp [*, apply_ite State.pending, apply_ite State.mem]

@[simp] theorem retryOffs_pending (s) : (retryOffs s).pending = s.pending := by
  unfold retryOffs
  simp [*, apply_ite State.pending, apply_ite State.mem]
@[simp] theorem retryOffs_mem (s) : (retryOffs s).mem = s.mem := by
  unfold retryOffs
  simp [*, apply_ite State.pending, apply_ite State.mem]

@[simp] theorem auxWarn_pending (a0) (s) : (auxWarn a0 s).pending = s.pending := by
  unfold auxWarn
  simp
@[simp] theorem auxWarn_mem (a0) (s) : (auxWarn a0 s).mem = s.mem := by
  unfold auxWarn
  simp

@[simp] theorem raiseSlot_pending (a0) (a1) (a2) (s) : (raiseSlot a0 a1 a2 s).pending = s.pending := by
  unfold raiseSlot
  simp
@[simp] theorem raiseSlot_mem (a0) (a1) (a2) (s) : (raiseSlot a0 a1 a2 s).mem = s.mem := by
  unfold raiseSlot
  simp

@[simp] theorem pgoodVote_pending (a0) (a1) (s) : (pgoodVote a0 a1 s).pending = s.pending := by
  unfold pgoodVote
  simp [*, apply_ite State.pending, apply_ite State.mem]
@[simp] theorem pgoodVote_mem (a0) (a1) (s) : (pgoodVote a0 a1 s).mem = s.mem := by
  unfold pgoodVote
  simp [*, apply_ite State.pending, apply_ite State.mem]

@[simp] theorem bringupCut_pending (a0) (s) : (bringupCut a0 s).pending = s.pending := by
  unfold bringupCut
  simp [*, apply_ite State.pending, apply_ite State.mem]
@[simp] theorem bringupCut_mem (a0) (s) : (bringupCut a0 s).mem = s.mem := by
  unfold bringupCut
  simp [*, apply_ite State.pending, apply_ite State.mem]

@[simp] theorem dropPgood_pending (a0) (a1) (a2) (s) : (dropPgood a0 a1 a2 s).pending = s.pending := by
  unfold dropPgood
  simp
theorem dropPgood_wf (a0) (a1) (a2) (s) (h : Memory.wf s.mem = true) : Memory.wf (dropPgood a0 a1 a2 s).mem = true := by
  unfold dropPgood
  (try dsimp only)
  (repeat' (first | with_reducible assumption | split | (with_reducible refine foldl_wf _ _ _ ?_ (fun t x h => ?_)) | (with_reducible refine fenceUnit_wf _ _ _ ?_))) <;> (try simp) <;>
    (repeat' (first | with_reducible assumption | split | (with_reducible refine foldl_wf _ _ _ ?_ (fun t x h => ?_)) | (with_reducible refine fenceUnit_wf _ _ _ ?_))) <;> (try simp) <;>
    (repeat' (first | with_reducible assumption | split | (with_reducible refine foldl_wf _ _ _ ?_ (fun t x h => ?_)) | (with_reducible refine fenceUnit_wf _ _ _ ?_))) <;> simp_all

@[simp] theorem slotOff_pending (a0) (a1) (a2) (s) : (slotOff a0 a1 a2 s).pending = s.pending := by
  unfold slotOff
  (try dsimp only)
  (repeat' split) <;> (try simp [*, apply_ite State.pending, apply_ite State.mem]) <;> (try (repeat' split) <;> simp [*, apply_ite State.pending, apply_ite State.mem])
theorem slotOff_wf (a0) (a1) (a2) (s) (h : Memory.wf s.mem = true) : Memory.wf (slotOff a0 a1 a2 s).mem = true := by
  unfold slotOff
  (try dsimp only)
  (repeat' (first | with_reducible assumption | split | (with_reducible refine foldl_wf _ _ _ ?_ (fun t x h => ?_)) | (with_reducible refine dropPgood_wf _ _ _ _ ?_))) <;> (try simp) <;>
    (repeat' (first | with_reducible assumption | split | (with_reducible refine foldl_wf _ _ _ ?_ (fun t x h => ?_)) | (with_reducible refine dropPgood_wf _ _ _ _ ?_))) <;> (try simp) <;>
    (repeat' (first | with_reducible assumption | split | (with_reducible refine foldl_wf _ _ _ ?_ (fun t x h => ?_)) | (with_reducible refine dropPgood_wf _ _ _ _ ?_))) <;> simp_all

@[simp] theorem trip_pending (a0) (a1) (a2) (s) : (trip a0 a1 a2 s).pending = s.pending := by
  unfold trip
  (try dsimp only)
  (repeat' split) <;> (try simp [*, apply_ite State.pending, apply_ite State.mem]) <;> (try (repeat' split) <;> simp [*, apply_ite State.pending, apply_ite State.mem])
theorem trip_wf (a0) (a1) (a2) (s) (h : Memory.wf s.mem = true) : Memory.wf (trip a0 a1 a2 s).mem = true := by
  unfold trip
  (try dsimp only)
  (repeat' (first | with_reducible assumption | split | (with_reducible refine foldl_wf _ _ _ ?_ (fun t x h => ?_)) | (with_reducible refine dropPgood_wf _ _ _ _ ?_))) <;> (try simp) <;>
    (repeat' (first | with_reducible assumption | split | (with_reducible refine foldl_wf _ _ _ ?_ (fun t x h => ?_)) | (with_reducible refine dropPgood_wf _ _ _ _ ?_))) <;> (try simp) <;>
    (repeat' (first | with_reducible assumption | split | (with_reducible refine foldl_wf _ _ _ ?_ (fun t x h => ?_)) | (with_reducible refine dropPgood_wf _ _ _ _ ?_))) <;> simp_all

@[simp] theorem replaceWake_pending (a0) (s) : (replaceWake a0 s).pending = s.pending := by
  unfold replaceWake
  (try dsimp only)
  (repeat' split) <;> (try simp [*, apply_ite State.pending, apply_ite State.mem]) <;> (try (repeat' split) <;> simp [*, apply_ite State.pending, apply_ite State.mem])
@[simp] theorem replaceWake_mem (a0) (s) : (replaceWake a0 s).mem = s.mem := by
  unfold replaceWake
  (try dsimp only)
  (repeat' split) <;> (try simp [*, apply_ite State.pending, apply_ite State.mem]) <;> (try (repeat' split) <;> simp [*, apply_ite State.pending, apply_ite State.mem])

@[simp] theorem slotQualified_pending (a0) (s) : (slotQualified a0 s).pending = s.pending := by
  unfold slotQualified
  simp
@[simp] theorem slotQualified_mem (a0) (s) : (slotQualified a0 s).mem = s.mem := by
  unfold slotQualified
  simp

@[simp] theorem limitReached_pending (a0) (a1) (s) : (limitReached a0 a1 s).pending = s.pending := by
  unfold limitReached
  simp [*, apply_ite State.pending, apply_ite State.mem]
@[simp] theorem limitReached_mem (a0) (a1) (s) : (limitReached a0 a1 s).mem = s.mem := by
  unfold limitReached
  simp [*, apply_ite State.pending, apply_ite State.mem]

@[simp] theorem fetShort_pending (a0) (a1) (s) : (fetShort a0 a1 s).pending = s.pending := by
  unfold fetShort
  simp [*, apply_ite State.pending, apply_ite State.mem]
theorem fetShort_wf (a0) (a1) (s) (h : Memory.wf s.mem = true) : Memory.wf (fetShort a0 a1 s).mem = true := by
  unfold fetShort
  (try dsimp only)
  (repeat' (first | with_reducible assumption | split | (with_reducible refine foldl_wf _ _ _ ?_ (fun t x h => ?_)) | (with_reducible refine fenceUnit_wf _ _ _ ?_))) <;> (try simp) <;>
    (repeat' (first | with_reducible assumption | split | (with_reducible refine foldl_wf _ _ _ ?_ (fun t x h => ?_)) | (with_reducible refine fenceUnit_wf _ _ _ ?_))) <;> (try simp) <;>
    (repeat' (first | with_reducible assumption | split | (with_reducible refine foldl_wf _ _ _ ?_ (fun t x h => ?_)) | (with_reducible refine fenceUnit_wf _ _ _ ?_))) <;> simp_all

@[simp] theorem configSlot_pending (a0) (s) (a2) : (configSlot a0 s a2).pending = s.pending := by
  unfold configSlot
  simp [*, apply_ite State.pending, apply_ite State.mem]
@[simp] theorem configSlot_mem (a0) (s) (a2) : (configSlot a0 s a2).mem = s.mem := by
  unfold configSlot
  simp [*, apply_ite State.pending, apply_ite State.mem]

@[simp] theorem State.modSluice_pending (s) (a1) (a2) : (State.modSluice s a1 a2).pending = s.pending := by
  unfold State.modSluice
  simp
@[simp] theorem State.modSluice_mem (s) (a1) (a2) : (State.modSluice s a1 a2).mem = s.mem := by
  unfold State.modSluice
  simp

@[simp] theorem refillAll_pending (s) : (refillAll s).pending = s.pending := by
  unfold refillAll
  simp
@[simp] theorem refillAll_mem (s) : (refillAll s).mem = s.mem := by
  unfold refillAll
  simp

@[simp] theorem colourFront_pending (a0) (a1) (s) : (colourFront a0 a1 s).pending = s.pending := by
  unfold colourFront
  (try dsimp only)
  (repeat' split) <;> (try simp [*, apply_ite State.pending, apply_ite State.mem]) <;> (try (repeat' split) <;> simp [*, apply_ite State.pending, apply_ite State.mem])
@[simp] theorem colourFront_mem (a0) (a1) (s) : (colourFront a0 a1 s).mem = s.mem := by
  unfold colourFront
  (try dsimp only)
  (repeat' split) <;> (try simp [*, apply_ite State.pending, apply_ite State.mem]) <;> (try (repeat' split) <;> simp [*, apply_ite State.pending, apply_ite State.mem])

@[simp] theorem raiseFull_pending (a0) (s) : (raiseFull a0 s).pending = s.pending := by
  unfold raiseFull
  simp [*, apply_ite State.pending, apply_ite State.mem]
@[simp] theorem raiseFull_mem (a0) (s) : (raiseFull a0 s).mem = s.mem := by
  unfold raiseFull
  simp [*, apply_ite State.pending, apply_ite State.mem]

@[simp] theorem pushQueue_pending (a0) (a1) (s) : (pushQueue a0 a1 s).pending = s.pending := by
  unfold pushQueue
  simp [*, apply_ite State.pending, apply_ite State.mem]
@[simp] theorem pushQueue_mem (a0) (a1) (s) : (pushQueue a0 a1 s).mem = s.mem := by
  unfold pushQueue
  simp [*, apply_ite State.pending, apply_ite State.mem]

@[simp] theorem arrive_pending (a0) (a1) (s) : (arrive a0 a1 s).pending = s.pending := by
  unfold arrive
  simp [*, apply_ite State.pending, apply_ite State.mem]
@[simp] theorem arrive_mem (a0) (a1) (s) : (arrive a0 a1 s).mem = s.mem := by
  unfold arrive
  simp [*, apply_ite State.pending, apply_ite State.mem]

@[simp] theorem admitWaiting_pending (s) : (admitWaiting s).pending = s.pending := by
  unfold admitWaiting
  simp
@[simp] theorem admitWaiting_mem (s) : (admitWaiting s).mem = s.mem := by
  unfold admitWaiting
  simp

@[simp] theorem takeFront_pending (a0) (a1) (s) : (takeFront a0 a1 s).pending = s.pending := by
  unfold takeFront
  (try dsimp only)
  (repeat' split) <;> (try simp [*, apply_ite State.pending, apply_ite State.mem]) <;> (try (repeat' split) <;> simp [*, apply_ite State.pending, apply_ite State.mem])
@[simp] theorem takeFront_mem (a0) (a1) (s) : (takeFront a0 a1 s).mem = s.mem := by
  unfold takeFront
  (try dsimp only)
  (repeat' split) <;> (try simp [*, apply_ite State.pending, apply_ite State.mem]) <;> (try (repeat' split) <;> simp [*, apply_ite State.pending, apply_ite State.mem])

@[simp] theorem snapshot_pending (s) : (snapshot s).pending = s.pending := by
  unfold snapshot
  simp
@[simp] theorem snapshot_mem (s) : (snapshot s).mem = s.mem := by
  unfold snapshot
  simp

@[simp] theorem putInForce_pending (s) : (putInForce s).pending = s.pending := by
  unfold putInForce
  (try dsimp only)
  (repeat' split) <;> (try simp [*, apply_ite State.pending, apply_ite State.mem]) <;> (try (repeat' split) <;> simp [*, apply_ite State.pending, apply_ite State.mem])
@[simp] theorem putInForce_mem (s) : (putInForce s).mem = s.mem := by
  unfold putInForce
  (try dsimp only)
  (repeat' split) <;> (try simp [*, apply_ite State.pending, apply_ite State.mem]) <;> (try (repeat' split) <;> simp [*, apply_ite State.pending, apply_ite State.mem])

@[simp] theorem computeFactor_pending (a0) (s) : (computeFactor a0 s).pending = s.pending := by
  unfold computeFactor
  simp [*, apply_ite State.pending, apply_ite State.mem]
@[simp] theorem computeFactor_mem (a0) (s) : (computeFactor a0 s).mem = s.mem := by
  unfold computeFactor
  simp [*, apply_ite State.pending, apply_ite State.mem]

@[simp] theorem recolour_pending (s) : (recolour s).pending = s.pending := by
  unfold recolour
  simp [*, apply_ite State.pending, apply_ite State.mem]
@[simp] theorem recolour_mem (s) : (recolour s).mem = s.mem := by
  unfold recolour
  simp [*, apply_ite State.pending, apply_ite State.mem]

@[simp] theorem windowBoundary_pending (s) : (windowBoundary s).pending = s.pending := by
  unfold windowBoundary
  simp
@[simp] theorem windowBoundary_mem (s) : (windowBoundary s).mem = s.mem := by
  unfold windowBoundary
  simp

@[simp] theorem retime_pending (s) : (retime s).pending = s.pending := by
  unfold retime
  simp [*, apply_ite State.pending, apply_ite State.mem]
@[simp] theorem retime_mem (s) : (retime s).mem = s.mem := by
  unfold retime
  simp [*, apply_ite State.pending, apply_ite State.mem]

@[simp] theorem setChain_pending (a0) (s) : (setChain a0 s).pending = s.pending := by
  unfold setChain
  simp
@[simp] theorem setChain_mem (a0) (s) : (setChain a0 s).mem = s.mem := by
  unfold setChain
  simp

@[simp] theorem stepChain_pending (a0) (s) : (stepChain a0 s).pending = s.pending := by
  unfold stepChain
  simp
@[simp] theorem stepChain_mem (a0) (s) : (stepChain a0 s).mem = s.mem := by
  unfold stepChain
  simp

@[simp] theorem correct_pending (a0) (s) : (correct a0 s).pending = s.pending := by
  unfold correct
  simp [*, apply_ite State.pending, apply_ite State.mem]
@[simp] theorem correct_mem (a0) (s) : (correct a0 s).mem = s.mem := by
  unfold correct
  simp [*, apply_ite State.pending, apply_ite State.mem]

@[simp] theorem edgeOutside_pending (s) : (edgeOutside s).pending = s.pending := by
  unfold edgeOutside
  simp [*, apply_ite State.pending, apply_ite State.mem]
@[simp] theorem edgeOutside_mem (s) : (edgeOutside s).mem = s.mem := by
  unfold edgeOutside
  simp [*, apply_ite State.pending, apply_ite State.mem]

@[simp] theorem trefEdge_pending (s) : (trefEdge s).pending = s.pending := by
  unfold trefEdge
  simp [*, apply_ite State.pending, apply_ite State.mem]
@[simp] theorem trefEdge_mem (s) : (trefEdge s).mem = s.mem := by
  unfold trefEdge
  simp [*, apply_ite State.pending, apply_ite State.mem]

@[simp] theorem loseTref_pending (a0) (s) : (loseTref a0 s).pending = s.pending := by
  unfold loseTref
  simp
@[simp] theorem loseTref_mem (a0) (s) : (loseTref a0 s).mem = s.mem := by
  unfold loseTref
  simp

@[simp] theorem sendTime_pending (a0) (a1) (a2) (a3) (s) : (sendTime a0 a1 a2 a3 s).pending = s.pending := by
  unfold sendTime
  simp [*, apply_ite State.pending, apply_ite State.mem]
@[simp] theorem sendTime_mem (a0) (a1) (a2) (a3) (s) : (sendTime a0 a1 a2 a3 s).mem = s.mem := by
  unfold sendTime
  simp [*, apply_ite State.pending, apply_ite State.mem]

@[simp] theorem timeFrameSend_pending (s) : (timeFrameSend s).pending = s.pending := by
  unfold timeFrameSend
  simp [*, apply_ite State.pending, apply_ite State.mem]
@[simp] theorem timeFrameSend_mem (s) : (timeFrameSend s).mem = s.mem := by
  unfold timeFrameSend
  simp [*, apply_ite State.pending, apply_ite State.mem]

@[simp] theorem timeFrameReceive_pending (a0) (a1) (a2) (a3) (a4) (a5) (a6) (s) : (timeFrameReceive a0 a1 a2 a3 a4 a5 a6 s).pending = s.pending := by
  unfold timeFrameReceive
  simp [*, apply_ite State.pending, apply_ite State.mem]
@[simp] theorem timeFrameReceive_mem (a0) (a1) (a2) (a3) (a4) (a5) (a6) (s) : (timeFrameReceive a0 a1 a2 a3 a4 a5 a6 s).mem = s.mem := by
  unfold timeFrameReceive
  simp [*, apply_ite State.pending, apply_ite State.mem]

@[simp] theorem hostSetTime_pending (a0) (s) : (hostSetTime a0 s).pending = s.pending := by
  unfold hostSetTime
  simp
@[simp] theorem hostSetTime_mem (a0) (s) : (hostSetTime a0 s).mem = s.mem := by
  unfold hostSetTime
  simp

@[simp] theorem setTimestamp_pending (a0) (a1) (s) : (setTimestamp a0 a1 s).pending = s.pending := by
  unfold setTimestamp
  simp [*, apply_ite State.pending, apply_ite State.mem]
@[simp] theorem setTimestamp_mem (a0) (a1) (s) : (setTimestamp a0 a1 s).mem = s.mem := by
  unfold setTimestamp
  simp [*, apply_ite State.pending, apply_ite State.mem]

@[simp] theorem setTimeSource_pending (a0) (s) : (setTimeSource a0 s).pending = s.pending := by
  unfold setTimeSource
  simp [*, apply_ite State.pending, apply_ite State.mem]
@[simp] theorem setTimeSource_mem (a0) (s) : (setTimeSource a0 s).mem = s.mem := by
  unfold setTimeSource
  simp [*, apply_ite State.pending, apply_ite State.mem]

@[simp] theorem chargeSluiceAt_pending (a0) (a1) (s) : (chargeSluiceAt a0 a1 s).pending = s.pending := by
  unfold chargeSluiceAt
  simp
@[simp] theorem chargeSluiceAt_mem (a0) (a1) (s) : (chargeSluiceAt a0 a1 s).mem = s.mem := by
  unfold chargeSluiceAt
  simp

@[simp] theorem chargeSluice_pending (a0) (a1) (s) : (chargeSluice a0 a1 s).pending = s.pending := by
  unfold chargeSluice
  simp
@[simp] theorem chargeSluice_mem (a0) (a1) (s) : (chargeSluice a0 a1 s).mem = s.mem := by
  unfold chargeSluice
  simp

@[simp] theorem clearPage_pending (a0) (s) : (clearPage a0 s).pending = s.pending := by
  unfold clearPage
  simp [*, apply_ite State.pending, apply_ite State.mem]
theorem clearPage_wf (p : Nat) (s : State) (h : Memory.wf s.mem = true) : Memory.wf (clearPage p s).mem = true := by
  unfold clearPage
  dsimp only
  refine Memory.wf_clearPage p ?_
  (repeat' split) <;> simp [h]

@[simp] theorem clearForWrite_pending (a0) (s) : (clearForWrite a0 s).pending = s.pending := by
  unfold clearForWrite
  simp [*, apply_ite State.pending, apply_ite State.mem]
theorem clearForWrite_wf (a0) (s) (h : Memory.wf s.mem = true) : Memory.wf (clearForWrite a0 s).mem = true := by
  unfold clearForWrite
  (try dsimp only)
  (repeat' (first | with_reducible assumption | split | (with_reducible refine foldl_wf _ _ _ ?_ (fun t x h => ?_)) | (with_reducible refine clearPage_wf _ _ ?_))) <;> (try simp) <;>
    (repeat' (first | with_reducible assumption | split | (with_reducible refine foldl_wf _ _ _ ?_ (fun t x h => ?_)) | (with_reducible refine clearPage_wf _ _ ?_))) <;> (try simp) <;>
    (repeat' (first | with_reducible assumption | split | (with_reducible refine foldl_wf _ _ _ ?_ (fun t x h => ?_)) | (with_reducible refine clearPage_wf _ _ ?_))) <;> simp_all

@[simp] theorem chargeDimm_pending (a0) (s) : (chargeDimm a0 s).pending = s.pending := by
  unfold chargeDimm
  simp [*, apply_ite State.pending, apply_ite State.mem]
theorem chargeDimm_wf (a0) (s) (h : Memory.wf s.mem = true) : Memory.wf (chargeDimm a0 s).mem = true := by
  unfold chargeDimm
  (try dsimp only)
  (repeat' (first | with_reducible assumption | split | (with_reducible refine foldl_wf _ _ _ ?_ (fun t x h => ?_)) | (with_reducible refine fenceUnit_wf _ _ _ ?_))) <;> (try simp) <;>
    (repeat' (first | with_reducible assumption | split | (with_reducible refine foldl_wf _ _ _ ?_ (fun t x h => ?_)) | (with_reducible refine fenceUnit_wf _ _ _ ?_))) <;> (try simp) <;>
    (repeat' (first | with_reducible assumption | split | (with_reducible refine foldl_wf _ _ _ ?_ (fun t x h => ?_)) | (with_reducible refine fenceUnit_wf _ _ _ ?_))) <;> simp_all

@[simp] theorem chargeAll_pending (a0) (s) : (chargeAll a0 s).pending = s.pending := by
  unfold chargeAll
  simp
theorem chargeAll_wf (a0) (s) (h : Memory.wf s.mem = true) : Memory.wf (chargeAll a0 s).mem = true := by
  unfold chargeAll
  (try dsimp only)
  (repeat' (first | with_reducible assumption | split | (with_reducible refine foldl_wf _ _ _ ?_ (fun t x h => ?_)) | (with_reducible refine chargeDimm_wf _ _ ?_))) <;> (try simp) <;>
    (repeat' (first | with_reducible assumption | split | (with_reducible refine foldl_wf _ _ _ ?_ (fun t x h => ?_)) | (with_reducible refine chargeDimm_wf _ _ ?_))) <;> (try simp) <;>
    (repeat' (first | with_reducible assumption | split | (with_reducible refine foldl_wf _ _ _ ?_ (fun t x h => ?_)) | (with_reducible refine chargeDimm_wf _ _ ?_))) <;> simp_all

@[simp] theorem raiseWhole_pending (a0) (a1) (a2) (a3) (s) : (raiseWhole a0 a1 a2 a3 s).pending = s.pending := by
  unfold raiseWhole
  simp
@[simp] theorem raiseWhole_mem (a0) (a1) (a2) (a3) (s) : (raiseWhole a0 a1 a2 a3 s).mem = s.mem := by
  unfold raiseWhole
  simp

@[simp] theorem tamper_pending (a0) (a1) (s) : (tamper a0 a1 s).pending = s.pending := by
  unfold tamper
  simp
@[simp] theorem tamper_mem (a0) (a1) (s) : (tamper a0 a1 s).mem = s.mem := by
  unfold tamper
  simp

@[simp] theorem finishPoison_pending (a0) (s) : (finishPoison a0 s).pending = s.pending := by
  unfold finishPoison
  simp
@[simp] theorem finishPoison_mem (a0) (s) : (finishPoison a0 s).mem = s.mem := by
  unfold finishPoison
  simp

@[simp] theorem lostLine_pending (a0) (a1) (s) : (lostLine a0 a1 s).pending = s.pending := by
  unfold lostLine
  simp
theorem lostLine_wf (a0) (a1) (s) (h : Memory.wf s.mem = true) : Memory.wf (lostLine a0 a1 s).mem = true := by
  unfold lostLine
  (try dsimp only)
  (repeat' (first | with_reducible assumption | split | (with_reducible refine foldl_wf _ _ _ ?_ (fun t x h => ?_)) | (with_reducible refine makeLost_wf _ _ _ _ _ _ ?_))) <;> (try simp) <;>
    (repeat' (first | with_reducible assumption | split | (with_reducible refine foldl_wf _ _ _ ?_ (fun t x h => ?_)) | (with_reducible refine makeLost_wf _ _ _ _ _ _ ?_))) <;> (try simp) <;>
    (repeat' (first | with_reducible assumption | split | (with_reducible refine foldl_wf _ _ _ ?_ (fun t x h => ?_)) | (with_reducible refine makeLost_wf _ _ _ _ _ _ ?_))) <;> simp_all

@[simp] theorem lineCmd_pending (a0) (a1) (a2) (a3) (s) : (lineCmd a0 a1 a2 a3 s).pending = s.pending := by
  unfold lineCmd
  simp
@[simp] theorem lineCmd_mem (a0) (a1) (a2) (a3) (s) : (lineCmd a0 a1 a2 a3 s).mem = s.mem := by
  unfold lineCmd
  simp

@[simp] theorem readFrame_pending (a0) (a1) (s) : (readFrame a0 a1 s).pending = s.pending := by
  unfold readFrame
  simp [*, apply_ite State.pending, apply_ite State.mem]
theorem readFrame_wf (a0) (a1) (s) (h : Memory.wf s.mem = true) : Memory.wf (readFrame a0 a1 s).mem = true := by
  unfold readFrame
  (try dsimp only)
  (repeat' (first | with_reducible assumption | split | (with_reducible refine foldl_wf _ _ _ ?_ (fun t x h => ?_)) | (with_reducible refine lostLine_wf _ _ _ ?_))) <;> (try simp) <;>
    (repeat' (first | with_reducible assumption | split | (with_reducible refine foldl_wf _ _ _ ?_ (fun t x h => ?_)) | (with_reducible refine lostLine_wf _ _ _ ?_))) <;> (try simp) <;>
    (repeat' (first | with_reducible assumption | split | (with_reducible refine foldl_wf _ _ _ ?_ (fun t x h => ?_)) | (with_reducible refine lostLine_wf _ _ _ ?_))) <;> simp_all

@[simp] theorem enterFix_pending (a0) (a1) (s) : (enterFix a0 a1 s).pending = s.pending := by
  unfold enterFix
  simp
@[simp] theorem enterFix_mem (a0) (a1) (s) : (enterFix a0 a1 s).mem = s.mem := by
  unfold enterFix
  simp

@[simp] theorem rewriteCopy_pending (a0) (a1) (s) : (rewriteCopy a0 a1 s).pending = s.pending := by
  unfold rewriteCopy
  simp [*, apply_ite State.pending, apply_ite State.mem]
@[simp] theorem rewriteCopy_mem (a0) (a1) (s) : (rewriteCopy a0 a1 s).mem = s.mem := by
  unfold rewriteCopy
  simp [*, apply_ite State.pending, apply_ite State.mem]

@[simp] theorem readRetry_pending (a0) (a1) (s) : (readRetry a0 a1 s).pending = s.pending := by
  unfold readRetry
  simp
@[simp] theorem readRetry_mem (a0) (a1) (s) : (readRetry a0 a1 s).mem = s.mem := by
  unfold readRetry
  simp

@[simp] theorem nextLine_pending (a0) (a1) (a2) (a3) (a4) (s) : (nextLine a0 a1 a2 a3 a4 s).pending = s.pending := by
  unfold nextLine
  simp [*, apply_ite State.pending, apply_ite State.mem]
theorem nextLine_wf (a0) (a1) (a2) (a3) (a4) (s) (h : Memory.wf s.mem = true) : Memory.wf (nextLine a0 a1 a2 a3 a4 s).mem = true := by
  unfold nextLine
  (try dsimp only)
  (repeat' (first | with_reducible assumption | split | (with_reducible refine foldl_wf _ _ _ ?_ (fun t x h => ?_)) | (with_reducible refine chargeAll_wf _ _ ?_) | (with_reducible refine lostLine_wf _ _ _ ?_))) <;> (try simp) <;>
    (repeat' (first | with_reducible assumption | split | (with_reducible refine foldl_wf _ _ _ ?_ (fun t x h => ?_)) | (with_reducible refine chargeAll_wf _ _ ?_) | (with_reducible refine lostLine_wf _ _ _ ?_))) <;> (try simp) <;>
    (repeat' (first | with_reducible assumption | split | (with_reducible refine foldl_wf _ _ _ ?_ (fun t x h => ?_)) | (with_reducible refine chargeAll_wf _ _ ?_) | (with_reducible refine lostLine_wf _ _ _ ?_))) <;> simp_all

@[simp] theorem scrubRewrite_pending (a0) (a1) (s) : (scrubRewrite a0 a1 s).pending = s.pending := by
  unfold scrubRewrite
  simp [*, apply_ite State.pending, apply_ite State.mem]
@[simp] theorem scrubRewrite_mem (a0) (a1) (s) : (scrubRewrite a0 a1 s).mem = s.mem := by
  unfold scrubRewrite
  simp [*, apply_ite State.pending, apply_ite State.mem]

@[simp] theorem lineReturn_pending (a0) (a1) (a2) (a3) (a4) (a5) (s) : (lineReturn a0 a1 a2 a3 a4 a5 s).pending = s.pending := by
  unfold lineReturn
  (try dsimp only)
  (repeat' split) <;> (try simp [*, apply_ite State.pending, apply_ite State.mem]) <;> (try (repeat' split) <;> simp [*, apply_ite State.pending, apply_ite State.mem])
theorem lineReturn_wf (a0) (a1) (a2) (a3) (a4) (a5) (s) (h : Memory.wf s.mem = true) : Memory.wf (lineReturn a0 a1 a2 a3 a4 a5 s).mem = true := by
  unfold lineReturn
  (try dsimp only)
  (repeat' (first | with_reducible assumption | split | (with_reducible refine foldl_wf _ _ _ ?_ (fun t x h => ?_)) | (with_reducible refine chargeAll_wf _ _ ?_) | (with_reducible refine nextLine_wf _ _ _ _ _ _ ?_))) <;> (try simp) <;>
    (repeat' (first | with_reducible assumption | split | (with_reducible refine foldl_wf _ _ _ ?_ (fun t x h => ?_)) | (with_reducible refine chargeAll_wf _ _ ?_) | (with_reducible refine nextLine_wf _ _ _ _ _ _ ?_))) <;> (try simp) <;>
    (repeat' (first | with_reducible assumption | split | (with_reducible refine foldl_wf _ _ _ ?_ (fun t x h => ?_)) | (with_reducible refine chargeAll_wf _ _ ?_) | (with_reducible refine nextLine_wf _ _ _ _ _ _ ?_))) <;> simp_all

@[simp] theorem lostBlock_pending (a0) (a1) (a2) (a3) (s) : (lostBlock a0 a1 a2 a3 s).pending = s.pending := by
  unfold lostBlock
  simp
theorem lostBlock_wf (a0) (a1) (a2) (a3) (s) (h : Memory.wf s.mem = true) : Memory.wf (lostBlock a0 a1 a2 a3 s).mem = true := by
  unfold lostBlock
  (try dsimp only)
  (repeat' (first | with_reducible assumption | split | (with_reducible refine foldl_wf _ _ _ ?_ (fun t x h => ?_)) | (with_reducible refine makeLost_wf _ _ _ _ _ _ ?_))) <;> (try simp) <;>
    (repeat' (first | with_reducible assumption | split | (with_reducible refine foldl_wf _ _ _ ?_ (fun t x h => ?_)) | (with_reducible refine makeLost_wf _ _ _ _ _ _ ?_))) <;> (try simp) <;>
    (repeat' (first | with_reducible assumption | split | (with_reducible refine foldl_wf _ _ _ ?_ (fun t x h => ?_)) | (with_reducible refine makeLost_wf _ _ _ _ _ _ ?_))) <;> simp_all

@[simp] theorem blockVerdict_pending (a0) (a1) (a2) (a3) (a4) (a5) (a6) (s) : (blockVerdict a0 a1 a2 a3 a4 a5 a6 s).pending = s.pending := by
  unfold blockVerdict
  simp [*, apply_ite State.pending, apply_ite State.mem]
theorem blockVerdict_wf (a0) (a1) (a2) (a3) (a4) (a5) (a6) (s) (h : Memory.wf s.mem = true) : Memory.wf (blockVerdict a0 a1 a2 a3 a4 a5 a6 s).mem = true := by
  unfold blockVerdict
  (try dsimp only)
  (repeat' (first | with_reducible assumption | split | (with_reducible refine foldl_wf _ _ _ ?_ (fun t x h => ?_)) | (with_reducible refine lostBlock_wf _ _ _ _ _ ?_))) <;> (try simp) <;>
    (repeat' (first | with_reducible assumption | split | (with_reducible refine foldl_wf _ _ _ ?_ (fun t x h => ?_)) | (with_reducible refine lostBlock_wf _ _ _ _ _ ?_))) <;> (try simp) <;>
    (repeat' (first | with_reducible assumption | split | (with_reducible refine foldl_wf _ _ _ ?_ (fun t x h => ?_)) | (with_reducible refine lostBlock_wf _ _ _ _ _ ?_))) <;> simp_all

@[simp] theorem advanceBlock_pending (a0) (a1) (a2) (a3) (a4) (s) : (advanceBlock a0 a1 a2 a3 a4 s).pending = s.pending := by
  unfold advanceBlock
  (try dsimp only)
  (repeat' split) <;> (try simp [*, apply_ite State.pending, apply_ite State.mem]) <;> (try (repeat' split) <;> simp [*, apply_ite State.pending, apply_ite State.mem])
theorem advanceBlock_wf (a0) (a1) (a2) (a3) (a4) (s) (h : Memory.wf s.mem = true) : Memory.wf (advanceBlock a0 a1 a2 a3 a4 s).mem = true := by
  unfold advanceBlock
  (try dsimp only)
  (repeat' (first | with_reducible assumption | split | (with_reducible refine foldl_wf _ _ _ ?_ (fun t x h => ?_)) | (with_reducible refine blockVerdict_wf _ _ _ _ _ _ _ _ ?_))) <;> (try simp) <;>
    (repeat' (first | with_reducible assumption | split | (with_reducible refine foldl_wf _ _ _ ?_ (fun t x h => ?_)) | (with_reducible refine blockVerdict_wf _ _ _ _ _ _ _ _ ?_))) <;> (try simp) <;>
    (repeat' (first | with_reducible assumption | split | (with_reducible refine foldl_wf _ _ _ ?_ (fun t x h => ?_)) | (with_reducible refine blockVerdict_wf _ _ _ _ _ _ _ _ ?_))) <;> simp_all

@[simp] theorem blockWhole_pending (a0) (a1) (a2) (a3) (a4) (a5) (s) : (blockWhole a0 a1 a2 a3 a4 a5 s).pending = s.pending := by
  unfold blockWhole
  simp [*, apply_ite State.pending, apply_ite State.mem]
theorem blockWhole_wf (a0) (a1) (a2) (a3) (a4) (a5) (s) (h : Memory.wf s.mem = true) : Memory.wf (blockWhole a0 a1 a2 a3 a4 a5 s).mem = true := by
  unfold blockWhole
  (try dsimp only)
  (repeat' (first | with_reducible assumption | split | (with_reducible refine foldl_wf _ _ _ ?_ (fun t x h => ?_)) | (with_reducible refine chargeAll_wf _ _ ?_))) <;> (try simp) <;>
    (repeat' (first | with_reducible assumption | split | (with_reducible refine foldl_wf _ _ _ ?_ (fun t x h => ?_)) | (with_reducible refine chargeAll_wf _ _ ?_))) <;> (try simp) <;>
    (repeat' (first | with_reducible assumption | split | (with_reducible refine foldl_wf _ _ _ ?_ (fun t x h => ?_)) | (with_reducible refine chargeAll_wf _ _ ?_))) <;> simp_all

@[simp] theorem blockReturn_pending (a0) (a1) (a2) (a3) (a4) (a5) (s) : (blockReturn a0 a1 a2 a3 a4 a5 s).pending = s.pending := by
  unfold blockReturn
  (try dsimp only)
  (repeat' split) <;> (try simp [*, apply_ite State.pending, apply_ite State.mem]) <;> (try (repeat' split) <;> simp [*, apply_ite State.pending, apply_ite State.mem])
theorem blockReturn_wf (a0) (a1) (a2) (a3) (a4) (a5) (s) (h : Memory.wf s.mem = true) : Memory.wf (blockReturn a0 a1 a2 a3 a4 a5 s).mem = true := by
  unfold blockReturn
  (try dsimp only)
  (repeat' (first | with_reducible assumption | split | (with_reducible refine foldl_wf _ _ _ ?_ (fun t x h => ?_)) | (with_reducible refine advanceBlock_wf _ _ _ _ _ _ ?_) | (with_reducible refine blockWhole_wf _ _ _ _ _ _ _ ?_))) <;> (try simp) <;>
    (repeat' (first | with_reducible assumption | split | (with_reducible refine foldl_wf _ _ _ ?_ (fun t x h => ?_)) | (with_reducible refine advanceBlock_wf _ _ _ _ _ _ ?_) | (with_reducible refine blockWhole_wf _ _ _ _ _ _ _ ?_))) <;> (try simp) <;>
    (repeat' (first | with_reducible assumption | split | (with_reducible refine foldl_wf _ _ _ ?_ (fun t x h => ?_)) | (with_reducible refine advanceBlock_wf _ _ _ _ _ _ ?_) | (with_reducible refine blockWhole_wf _ _ _ _ _ _ _ ?_))) <;> simp_all

@[simp] theorem readCold_pending (a0) (a1) (s) : (readCold a0 a1 s).pending = s.pending := by
  unfold readCold
  simp [*, apply_ite State.pending, apply_ite State.mem]
theorem readCold_wf (a0) (a1) (s) (h : Memory.wf s.mem = true) : Memory.wf (readCold a0 a1 s).mem = true := by
  unfold readCold
  (try dsimp only)
  (repeat' (first | with_reducible assumption | split | (with_reducible refine foldl_wf _ _ _ ?_ (fun t x h => ?_)) | (with_reducible refine advanceBlock_wf _ _ _ _ _ _ ?_))) <;> (try simp) <;>
    (repeat' (first | with_reducible assumption | split | (with_reducible refine foldl_wf _ _ _ ?_ (fun t x h => ?_)) | (with_reducible refine advanceBlock_wf _ _ _ _ _ _ ?_))) <;> (try simp) <;>
    (repeat' (first | with_reducible assumption | split | (with_reducible refine foldl_wf _ _ _ ?_ (fun t x h => ?_)) | (with_reducible refine advanceBlock_wf _ _ _ _ _ _ ?_))) <;> simp_all

@[simp] theorem readWarm_pending (a0) (a1) (a2) (s) : (readWarm a0 a1 a2 s).pending = s.pending := by
  unfold readWarm
  simp [*, apply_ite State.pending, apply_ite State.mem]
theorem readWarm_wf (a0) (a1) (a2) (s) (h : Memory.wf s.mem = true) : Memory.wf (readWarm a0 a1 a2 s).mem = true := by
  unfold readWarm
  (try dsimp only)
  (repeat' (first | with_reducible assumption | split | (with_reducible refine foldl_wf _ _ _ ?_ (fun t x h => ?_)) | (with_reducible refine advanceBlock_wf _ _ _ _ _ _ ?_))) <;> (try simp) <;>
    (repeat' (first | with_reducible assumption | split | (with_reducible refine foldl_wf _ _ _ ?_ (fun t x h => ?_)) | (with_reducible refine advanceBlock_wf _ _ _ _ _ _ ?_))) <;> (try simp) <;>
    (repeat' (first | with_reducible assumption | split | (with_reducible refine foldl_wf _ _ _ ?_ (fun t x h => ?_)) | (with_reducible refine advanceBlock_wf _ _ _ _ _ _ ?_))) <;> simp_all

@[simp] theorem readLost_pending (a0) (s) : (readLost a0 s).pending = s.pending := by
  unfold readLost
  (try dsimp only)
  (repeat' split) <;> (try simp [*, apply_ite State.pending, apply_ite State.mem]) <;> (try (repeat' split) <;> simp [*, apply_ite State.pending, apply_ite State.mem])
theorem readLost_wf (a0) (s) (h : Memory.wf s.mem = true) : Memory.wf (readLost a0 s).mem = true := by
  unfold readLost
  (try dsimp only)
  (repeat' (first | with_reducible assumption | split | (with_reducible refine foldl_wf _ _ _ ?_ (fun t x h => ?_)) | (with_reducible refine makeLost_wf _ _ _ _ _ _ ?_))) <;> (try simp) <;>
    (repeat' (first | with_reducible assumption | split | (with_reducible refine foldl_wf _ _ _ ?_ (fun t x h => ?_)) | (with_reducible refine makeLost_wf _ _ _ _ _ _ ?_))) <;> (try simp) <;>
    (repeat' (first | with_reducible assumption | split | (with_reducible refine foldl_wf _ _ _ ?_ (fun t x h => ?_)) | (with_reducible refine makeLost_wf _ _ _ _ _ _ ?_))) <;> simp_all

@[simp] theorem startRead_pending (a0) (s) : (startRead a0 s).pending = s.pending := by
  unfold startRead
  simp [*, apply_ite State.pending, apply_ite State.mem]
theorem startRead_wf (r0 : Req) (s : State) (h : Memory.wf s.mem = true) : Memory.wf (startRead r0 s).mem = true := by
  obtain ⟨u, e⟩ : ∃ u, u = startRead r0 s := ⟨_, rfl⟩
  rw [← e]
  unfold startRead at e
  extract_lets l p x cap r v ovl at e
  have hv : Memory.wf v.mem = true := by rw [State.modReq_mem]; exact h
  clear_value v r ovl
  rw [e]
  (repeat' (first | split | (with_reducible refine readFrame_wf _ _ _ ?_) | (with_reducible refine readCold_wf _ _ _ ?_) |
    (with_reducible refine readWarm_wf _ _ _ _ ?_) | (with_reducible refine readLost_wf _ _ ?_))) <;>
    simpa only [finishRead_mem, State.modReq_mem, State.setSt_mem, touchHeld_mem, finishReadMem_mem, pmcCount_mem] using hv

@[simp] theorem freshEpoch_pending (a0) (s) : (freshEpoch a0 s).pending = s.pending := by
  unfold freshEpoch
  (try dsimp only)
  (repeat' split) <;> (try simp [*, apply_ite State.pending, apply_ite State.mem]) <;> (try (repeat' split) <;> simp [*, apply_ite State.pending, apply_ite State.mem])
@[simp] theorem freshEpoch_mem (a0) (s) : (freshEpoch a0 s).mem = s.mem := by
  unfold freshEpoch
  (try dsimp only)
  (repeat' split) <;> (try simp [*, apply_ite State.pending, apply_ite State.mem]) <;> (try (repeat' split) <;> simp [*, apply_ite State.pending, apply_ite State.mem])

@[simp] theorem beginReads_pending (a0) (s) : (beginReads a0 s).pending = s.pending := by
  unfold beginReads
  (try dsimp only)
  (repeat' split) <;> (try simp [*, apply_ite State.pending, apply_ite State.mem]) <;> (try (repeat' split) <;> simp [*, apply_ite State.pending, apply_ite State.mem])
@[simp] theorem beginReads_mem (a0) (s) : (beginReads a0 s).mem = s.mem := by
  unfold beginReads
  (try dsimp only)
  (repeat' split) <;> (try simp [*, apply_ite State.pending, apply_ite State.mem]) <;> (try (repeat' split) <;> simp [*, apply_ite State.pending, apply_ite State.mem])

@[simp] theorem fillOverlay_pending (a0) (s) : (fillOverlay a0 s).pending = s.pending := by
  unfold fillOverlay
  (try dsimp only)
  (repeat' split) <;> (try simp [*, apply_ite State.pending, apply_ite State.mem]) <;> (try (repeat' split) <;> simp [*, apply_ite State.pending, apply_ite State.mem])
@[simp] theorem fillOverlay_mem (a0) (s) : (fillOverlay a0 s).mem = s.mem := by
  unfold fillOverlay
  (try dsimp only)
  (repeat' split) <;> (try simp [*, apply_ite State.pending, apply_ite State.mem]) <;> (try (repeat' split) <;> simp [*, apply_ite State.pending, apply_ite State.mem])

@[simp] theorem startReencrypt_pending (a0) (s) : (startReencrypt a0 s).pending = s.pending := by
  unfold startReencrypt
  simp [*, apply_ite State.pending, apply_ite State.mem]
@[simp] theorem startReencrypt_mem (a0) (s) : (startReencrypt a0 s).mem = s.mem := by
  unfold startReencrypt
  simp [*, apply_ite State.pending, apply_ite State.mem]

@[simp] theorem waitOverlay_pending (a0) (s) : (waitOverlay a0 s).pending = s.pending := by
  unfold waitOverlay
  simp [*, apply_ite State.pending, apply_ite State.mem]
@[simp] theorem waitOverlay_mem (a0) (s) : (waitOverlay a0 s).mem = s.mem := by
  unfold waitOverlay
  simp [*, apply_ite State.pending, apply_ite State.mem]

@[simp] theorem sendWrite_pending (a0) (a1) (a2) (s) : (sendWrite a0 a1 a2 s).pending = s.pending := by
  unfold sendWrite
  simp [*, apply_ite State.pending, apply_ite State.mem]
@[simp] theorem sendWrite_mem (a0) (a1) (a2) (s) : (sendWrite a0 a1 a2 s).mem = s.mem := by
  unfold sendWrite
  simp [*, apply_ite State.pending, apply_ite State.mem]

@[simp] theorem readSideband_pending (a0) (a1) (a2) (a3) (a4) (s) : (readSideband a0 a1 a2 a3 a4 s).pending = s.pending := by
  unfold readSideband
  simp
@[simp] theorem readSideband_mem (a0) (a1) (a2) (a3) (a4) (s) : (readSideband a0 a1 a2 a3 a4 s).mem = s.mem := by
  unfold readSideband
  simp

@[simp] theorem issueWrite_pending (a0) (a1) (a2) (s) : (issueWrite a0 a1 a2 s).pending = s.pending := by
  unfold issueWrite
  simp [*, apply_ite State.pending, apply_ite State.mem]
@[simp] theorem issueWrite_mem (a0) (a1) (a2) (s) : (issueWrite a0 a1 a2 s).mem = s.mem := by
  unfold issueWrite
  simp [*, apply_ite State.pending, apply_ite State.mem]

@[simp] theorem overlayWrite_pending (a0) (s) : (overlayWrite a0 s).pending = s.pending := by
  unfold overlayWrite
  (try dsimp only)
  (repeat' split) <;> (try simp [*, apply_ite State.pending, apply_ite State.mem]) <;> (try (repeat' split) <;> simp [*, apply_ite State.pending, apply_ite State.mem])
@[simp] theorem overlayWrite_mem (a0) (s) : (overlayWrite a0 s).mem = s.mem := by
  unfold overlayWrite
  (try dsimp only)
  (repeat' split) <;> (try simp [*, apply_ite State.pending, apply_ite State.mem]) <;> (try (repeat' split) <;> simp [*, apply_ite State.pending, apply_ite State.mem])

@[simp] theorem startWrite_pending (a0) (s) : (startWrite a0 s).pending = s.pending := by
  unfold startWrite
  simp [*, apply_ite State.pending, apply_ite State.mem]
theorem startWrite_wf (a0) (s) (h : Memory.wf s.mem = true) : Memory.wf (startWrite a0 s).mem = true := by
  unfold startWrite
  (try dsimp only)
  (repeat' (first | with_reducible assumption | split | (with_reducible refine foldl_wf _ _ _ ?_ (fun t x h => ?_)) | (with_reducible refine clearForWrite_wf _ _ ?_))) <;> (try simp) <;>
    (repeat' (first | with_reducible assumption | split | (with_reducible refine foldl_wf _ _ _ ?_ (fun t x h => ?_)) | (with_reducible refine clearForWrite_wf _ _ ?_))) <;> (try simp) <;>
    (repeat' (first | with_reducible assumption | split | (with_reducible refine foldl_wf _ _ _ ?_ (fun t x h => ?_)) | (with_reducible refine clearForWrite_wf _ _ ?_))) <;> simp_all

@[simp] theorem wakeOrdered_pending (a0) (s) : (wakeOrdered a0 s).pending = s.pending := by
  unfold wakeOrdered
  (try dsimp only)
  (repeat' split) <;> (try simp [*, apply_ite State.pending, apply_ite State.mem]) <;> (repeat' split) <;> (try simp [*, apply_ite State.pending, apply_ite State.mem]) <;>
    (refine foldl_p _ _ _ ?_; intro t x; (try dsimp only); (repeat' split) <;> simp [*, apply_ite State.pending, apply_ite State.mem])
theorem wakeOrdered_wf (a0) (s) (h : Memory.wf s.mem = true) : Memory.wf (wakeOrdered a0 s).mem = true := by
  unfold wakeOrdered
  (try dsimp only)
  (repeat' (first | with_reducible assumption | split | (with_reducible refine foldl_wf _ _ _ ?_ (fun t x h => ?_)) | (with_reducible refine startRead_wf _ _ ?_) | (with_reducible refine startWrite_wf _ _ ?_))) <;> (try simp) <;>
    (repeat' (first | with_reducible assumption | split | (with_reducible refine foldl_wf _ _ _ ?_ (fun t x h => ?_)) | (with_reducible refine startRead_wf _ _ ?_) | (with_reducible refine startWrite_wf _ _ ?_))) <;> (try simp) <;>
    (repeat' (first | with_reducible assumption | split | (with_reducible refine foldl_wf _ _ _ ?_ (fun t x h => ?_)) | (with_reducible refine startRead_wf _ _ ?_) | (with_reducible refine startWrite_wf _ _ ?_))) <;> simp_all

@[simp] theorem retryWrite_pending (a0) (s) : (retryWrite a0 s).pending = s.pending := by
  unfold retryWrite
  simp [*, apply_ite State.pending, apply_ite State.mem]
theorem retryWrite_wf (a0) (s) (h : Memory.wf s.mem = true) : Memory.wf (retryWrite a0 s).mem = true := by
  unfold retryWrite
  (try dsimp only)
  (repeat' (first | with_reducible assumption | split | (with_reducible refine foldl_wf _ _ _ ?_ (fun t x h => ?_)) | (with_reducible refine startWrite_wf _ _ ?_) | (with_reducible refine wakeOrdered_wf _ _ ?_))) <;> (try simp) <;>
    (repeat' (first | with_reducible assumption | split | (with_reducible refine foldl_wf _ _ _ ?_ (fun t x h => ?_)) | (with_reducible refine startWrite_wf _ _ ?_) | (with_reducible refine wakeOrdered_wf _ _ ?_))) <;> (try simp) <;>
    (repeat' (first | with_reducible assumption | split | (with_reducible refine foldl_wf _ _ _ ?_ (fun t x h => ?_)) | (with_reducible refine startWrite_wf _ _ ?_) | (with_reducible refine wakeOrdered_wf _ _ ?_))) <;> simp_all

@[simp] theorem wakeWaiting_pending (a0) (s) : (wakeWaiting a0 s).pending = s.pending := by
  unfold wakeWaiting
  (try dsimp only)
  (repeat' split) <;> (try simp [*, apply_ite State.pending, apply_ite State.mem]) <;> (repeat' split) <;> (try simp [*, apply_ite State.pending, apply_ite State.mem]) <;>
    (refine foldl_p _ _ _ ?_; intro t x; (try dsimp only); (repeat' split) <;> simp [*, apply_ite State.pending, apply_ite State.mem])
theorem wakeWaiting_wf (a0) (s) (h : Memory.wf s.mem = true) : Memory.wf (wakeWaiting a0 s).mem = true := by
  unfold wakeWaiting
  (try dsimp only)
  (repeat' (first | with_reducible assumption | split | (with_reducible refine foldl_wf _ _ _ ?_ (fun t x h => ?_)) | (with_reducible refine retryWrite_wf _ _ ?_))) <;> (try simp) <;>
    (repeat' (first | with_reducible assumption | split | (with_reducible refine foldl_wf _ _ _ ?_ (fun t x h => ?_)) | (with_reducible refine retryWrite_wf _ _ ?_))) <;> (try simp) <;>
    (repeat' (first | with_reducible assumption | split | (with_reducible refine foldl_wf _ _ _ ?_ (fun t x h => ?_)) | (with_reducible refine retryWrite_wf _ _ ?_))) <;> simp_all

@[simp] theorem sideReturn_pending (a0) (a1) (a2) (a3) (a4) (a5) (s) : (sideReturn a0 a1 a2 a3 a4 a5 s).pending = s.pending := by
  unfold sideReturn
  (try dsimp only)
  (repeat' split) <;> (try simp [*, apply_ite State.pending, apply_ite State.mem]) <;> (try (repeat' split) <;> simp [*, apply_ite State.pending, apply_ite State.mem])
theorem sideReturn_wf (a0) (a1) (a2) (a3) (a4) (a5) (s) (h : Memory.wf s.mem = true) : Memory.wf (sideReturn a0 a1 a2 a3 a4 a5 s).mem = true := by
  unfold sideReturn
  (try dsimp only)
  (repeat' (first | with_reducible assumption | split | (with_reducible refine foldl_wf _ _ _ ?_ (fun t x h => ?_)) | (with_reducible refine makeLost_wf _ _ _ _ _ _ ?_) | (with_reducible refine retryWrite_wf _ _ ?_))) <;> (try simp) <;>
    (repeat' (first | with_reducible assumption | split | (with_reducible refine foldl_wf _ _ _ ?_ (fun t x h => ?_)) | (with_reducible refine makeLost_wf _ _ _ _ _ _ ?_) | (with_reducible refine retryWrite_wf _ _ ?_))) <;> (try simp) <;>
    (repeat' (first | with_reducible assumption | split | (with_reducible refine foldl_wf _ _ _ ?_ (fun t x h => ?_)) | (with_reducible refine makeLost_wf _ _ _ _ _ _ ?_) | (with_reducible refine retryWrite_wf _ _ ?_))) <;> simp_all

@[simp] theorem markCatchUp_pending (a0) (s) : (markCatchUp a0 s).pending = s.pending := by
  unfold markCatchUp
  simp [*, apply_ite State.pending, apply_ite State.mem]
@[simp] theorem markCatchUp_mem (a0) (s) : (markCatchUp a0 s).mem = s.mem := by
  unfold markCatchUp
  simp [*, apply_ite State.pending, apply_ite State.mem]

@[simp] theorem storeLine_pending (a0) (a1) (a2) (a3) (a4) (a5) (s) : (storeLine a0 a1 a2 a3 a4 a5 s).pending = s.pending := by
  unfold storeLine
  simp [*, apply_ite State.pending, apply_ite State.mem]
theorem storeLine_wf (l : Nat) (b : List Byte) (p f o : Bool) (n : Nat) (s : State) (h : Memory.wf s.mem = true) :
    Memory.wf (storeLine l b p f o n s).mem = true := by
  unfold storeLine
  dsimp only
  (repeat' split) <;> simp only [State.modPage_mem] <;> exact Memory.wf_writeBytes _ _ _ (by (repeat' split) <;> simp [h])

@[simp] theorem acceptWrite_pending (a0) (a1) (a2) (a3) (s) : (acceptWrite a0 a1 a2 a3 s).pending = s.pending := by
  unfold acceptWrite
  simp [*, apply_ite State.pending, apply_ite State.mem]
theorem acceptWrite_wf (a0) (a1) (a2) (a3) (s) (h : Memory.wf s.mem = true) : Memory.wf (acceptWrite a0 a1 a2 a3 s).mem = true := by
  unfold acceptWrite
  (try dsimp only)
  (repeat' (first | with_reducible assumption | split | (with_reducible refine foldl_wf _ _ _ ?_ (fun t x h => ?_)) | (with_reducible refine storeLine_wf _ _ _ _ _ _ _ ?_))) <;> (try simp) <;>
    (repeat' (first | with_reducible assumption | split | (with_reducible refine foldl_wf _ _ _ ?_ (fun t x h => ?_)) | (with_reducible refine storeLine_wf _ _ _ _ _ _ _ ?_))) <;> (try simp) <;>
    (repeat' (first | with_reducible assumption | split | (with_reducible refine foldl_wf _ _ _ ?_ (fun t x h => ?_)) | (with_reducible refine storeLine_wf _ _ _ _ _ _ _ ?_))) <;> simp_all

@[simp] theorem putLine_pending (a0) (a1) (a2) (s) : (putLine a0 a1 a2 s).pending = s.pending := by
  unfold putLine
  (try dsimp only)
  (repeat' split) <;> (try simp [*, apply_ite State.pending, apply_ite State.mem]) <;> (try (repeat' split) <;> simp [*, apply_ite State.pending, apply_ite State.mem])
theorem putLine_wf (a0) (a1) (a2) (s) (h : Memory.wf s.mem = true) : Memory.wf (putLine a0 a1 a2 s).mem = true := by
  unfold putLine
  (try dsimp only)
  (repeat' (first | with_reducible assumption | split | (with_reducible refine foldl_wf _ _ _ ?_ (fun t x h => ?_)) | (with_reducible refine startWrite_wf _ _ ?_) | (with_reducible refine wakeOrdered_wf _ _ ?_) | (with_reducible refine acceptWrite_wf _ _ _ _ _ ?_))) <;> (try simp) <;>
    (repeat' (first | with_reducible assumption | split | (with_reducible refine foldl_wf _ _ _ ?_ (fun t x h => ?_)) | (with_reducible refine startWrite_wf _ _ ?_) | (with_reducible refine wakeOrdered_wf _ _ ?_) | (with_reducible refine acceptWrite_wf _ _ _ _ _ ?_))) <;> (try simp) <;>
    (repeat' (first | with_reducible assumption | split | (with_reducible refine foldl_wf _ _ _ ?_ (fun t x h => ?_)) | (with_reducible refine startWrite_wf _ _ ?_) | (with_reducible refine wakeOrdered_wf _ _ ?_) | (with_reducible refine acceptWrite_wf _ _ _ _ _ ?_))) <;> simp_all

@[simp] theorem putEntries_pending (m i : Nat) (s : State) : (putEntries m i s).pending = s.pending := by
  obtain ⟨u, e⟩ : ∃ u, u = putEntries m i s := ⟨_, rfl⟩
  rw [← e]
  unfold putEntries at e
  extract_lets l d at e
  rw [e]
  split
  · rfl
  · exact putLine_pending ..
theorem putEntries_wf (m i : Nat) (s : State) (h : Memory.wf s.mem = true) : Memory.wf (putEntries m i s).mem = true := by
  obtain ⟨u, e⟩ : ∃ u, u = putEntries m i s := ⟨_, rfl⟩
  rw [← e]
  unfold putEntries at e
  extract_lets l d at e
  rw [e]
  split
  · exact h
  · exact putLine_wf _ _ _ _ h

@[simp] theorem writeBack_pending (p : Nat) (k : Bool) (s : State) : (writeBack p k s).pending = s.pending := by
  obtain ⟨u, e⟩ : ∃ u, u = writeBack p k s := ⟨_, rfl⟩
  rw [← e]
  unfold writeBack at e
  extract_lets v lag count fix m w at e
  have hv : v.pending = s.pending := by
    show (if k then s else halveHeat p s).pending = s.pending
    split
    · rfl
    · exact halveHeat_pending ..
  have hw : w.pending = s.pending := hv
  rw [e]
  split
  · exact (putEntries_pending ..).trans hw
  · refine (foldl_p' _ _ _ fun t x v hv => ?_).trans hw
    have hv : v = putEntries (mapPage p) x t := hv
    rw [hv]
    exact putEntries_pending ..
theorem writeBack_wf (p : Nat) (k : Bool) (s : State) (h : Memory.wf s.mem = true) : Memory.wf (writeBack p k s).mem = true := by
  obtain ⟨u, e⟩ : ∃ u, u = writeBack p k s := ⟨_, rfl⟩
  rw [← e]
  unfold writeBack at e
  extract_lets v lag count fix m w at e
  have hv : Memory.wf v.mem = true := by
    show Memory.wf (if k then s else halveHeat p s).mem = true
    split
    · exact h
    · rw [halveHeat_mem]; exact h
  have hw : Memory.wf w.mem = true := hv
  rw [e]
  split
  · exact putEntries_wf _ _ _ hw
  · refine foldl_wf' _ _ _ hw fun t x v hv ht => ?_
    have hv : v = putEntries (mapPage p) x t := hv
    rw [hv]
    exact putEntries_wf _ _ _ ht

@[simp] theorem makeRoom_pending (a0) (s) : (makeRoom a0 s).pending = s.pending := by
  unfold makeRoom
  (try dsimp only)
  (repeat' split) <;> (try simp [*, apply_ite State.pending, apply_ite State.mem]) <;> (try (repeat' split) <;> simp [*, apply_ite State.pending, apply_ite State.mem])
theorem makeRoom_wf (a0) (s) (h : Memory.wf s.mem = true) : Memory.wf (makeRoom a0 s).mem = true := by
  unfold makeRoom
  (try dsimp only)
  (repeat' (first | with_reducible assumption | split | (with_reducible refine foldl_wf _ _ _ ?_ (fun t x h => ?_)) | (with_reducible refine writeBack_wf _ _ _ ?_))) <;> (try simp) <;>
    (repeat' (first | with_reducible assumption | split | (with_reducible refine foldl_wf _ _ _ ?_ (fun t x h => ?_)) | (with_reducible refine writeBack_wf _ _ _ ?_))) <;> (try simp) <;>
    (repeat' (first | with_reducible assumption | split | (with_reducible refine foldl_wf _ _ _ ?_ (fun t x h => ?_)) | (with_reducible refine writeBack_wf _ _ _ ?_))) <;> simp_all

@[simp] theorem loadEntry_pending (a0) (s) : (loadEntry a0 s).pending = s.pending := by
  unfold loadEntry
  simp [*, apply_ite State.pending, apply_ite State.mem]
theorem loadEntry_wf (a0) (s) (h : Memory.wf s.mem = true) : Memory.wf (loadEntry a0 s).mem = true := by
  unfold loadEntry
  (try dsimp only)
  (repeat' (first | with_reducible assumption | split | (with_reducible refine foldl_wf _ _ _ ?_ (fun t x h => ?_)) | (with_reducible refine makeRoom_wf _ _ ?_))) <;> (try simp) <;>
    (repeat' (first | with_reducible assumption | split | (with_reducible refine foldl_wf _ _ _ ?_ (fun t x h => ?_)) | (with_reducible refine makeRoom_wf _ _ ?_))) <;> (try simp) <;>
    (repeat' (first | with_reducible assumption | split | (with_reducible refine foldl_wf _ _ _ ?_ (fun t x h => ?_)) | (with_reducible refine makeRoom_wf _ _ ?_))) <;> simp_all

@[simp] theorem writeLineNow_pending (a0) (a1) (a2) (s) : (writeLineNow a0 a1 a2 s).pending = s.pending := by
  unfold writeLineNow
  simp
theorem writeLineNow_wf (a0) (a1) (a2) (s) (h : Memory.wf s.mem = true) : Memory.wf (writeLineNow a0 a1 a2 s).mem = true := by
  unfold writeLineNow
  (try dsimp only)
  (repeat' (first | with_reducible assumption | split | (with_reducible refine foldl_wf _ _ _ ?_ (fun t x h => ?_)) | (with_reducible refine putLine_wf _ _ _ _ ?_) | (with_reducible refine loadEntry_wf _ _ ?_))) <;> (try simp) <;>
    (repeat' (first | with_reducible assumption | split | (with_reducible refine foldl_wf _ _ _ ?_ (fun t x h => ?_)) | (with_reducible refine putLine_wf _ _ _ _ ?_) | (with_reducible refine loadEntry_wf _ _ ?_))) <;> (try simp) <;>
    (repeat' (first | with_reducible assumption | split | (with_reducible refine foldl_wf _ _ _ ?_ (fun t x h => ?_)) | (with_reducible refine putLine_wf _ _ _ _ ?_) | (with_reducible refine loadEntry_wf _ _ ?_))) <;> simp_all

@[simp] theorem startWalk_pending (a0) (s) : (startWalk a0 s).pending = s.pending := by
  unfold startWalk
  (try dsimp only)
  (repeat' split) <;> (try simp [*, apply_ite State.pending, apply_ite State.mem]) <;> (try (repeat' split) <;> simp [*, apply_ite State.pending, apply_ite State.mem])
theorem startWalk_wf (a0) (s) (h : Memory.wf s.mem = true) : Memory.wf (startWalk a0 s).mem = true := by
  unfold startWalk
  (try dsimp only)
  (repeat' (first | with_reducible assumption | split | (with_reducible refine foldl_wf _ _ _ ?_ (fun t x h => ?_)) | (with_reducible refine startRead_wf _ _ ?_))) <;> (try simp) <;>
    (repeat' (first | with_reducible assumption | split | (with_reducible refine foldl_wf _ _ _ ?_ (fun t x h => ?_)) | (with_reducible refine startRead_wf _ _ ?_))) <;> (try simp) <;>
    (repeat' (first | with_reducible assumption | split | (with_reducible refine foldl_wf _ _ _ ?_ (fun t x h => ?_)) | (with_reducible refine startRead_wf _ _ ?_))) <;> simp_all

@[simp] theorem accessPage_pending (a0) (s) : (accessPage a0 s).pending = s.pending := by
  unfold accessPage
  (try dsimp only)
  (repeat' split) <;> (try simp [*, apply_ite State.pending, apply_ite State.mem]) <;> (try (repeat' split) <;> simp [*, apply_ite State.pending, apply_ite State.mem])
theorem accessPage_wf (a0) (s) (h : Memory.wf s.mem = true) : Memory.wf (accessPage a0 s).mem = true := by
  unfold accessPage
  (try dsimp only)
  (repeat' (first | with_reducible assumption | split | (with_reducible refine foldl_wf _ _ _ ?_ (fun t x h => ?_)) | (with_reducible refine startRead_wf _ _ ?_) | (with_reducible refine startWrite_wf _ _ ?_))) <;> (try simp) <;>
    (repeat' (first | with_reducible assumption | split | (with_reducible refine foldl_wf _ _ _ ?_ (fun t x h => ?_)) | (with_reducible refine startRead_wf _ _ ?_) | (with_reducible refine startWrite_wf _ _ ?_))) <;> (try simp) <;>
    (repeat' (first | with_reducible assumption | split | (with_reducible refine foldl_wf _ _ _ ?_ (fun t x h => ?_)) | (with_reducible refine startRead_wf _ _ ?_) | (with_reducible refine startWrite_wf _ _ ?_))) <;> simp_all

@[simp] theorem lastInLine_pending (a0) (s) : (lastInLine a0 s).pending = s.pending := by
  unfold lastInLine
  simp
@[simp] theorem lastInLine_mem (a0) (s) : (lastInLine a0 s).mem = s.mem := by
  unfold lastInLine
  simp

@[simp] theorem mapStage_pending (a0) (s) : (mapStage a0 s).pending = s.pending := by
  unfold mapStage
  (try dsimp only)
  (repeat' split) <;> (try simp [*, apply_ite State.pending, apply_ite State.mem]) <;> (try (repeat' split) <;> simp [*, apply_ite State.pending, apply_ite State.mem])
theorem mapStage_wf (a0) (s) (h : Memory.wf s.mem = true) : Memory.wf (mapStage a0 s).mem = true := by
  unfold mapStage
  (try dsimp only)
  (repeat' (first | with_reducible assumption | split | (with_reducible refine foldl_wf _ _ _ ?_ (fun t x h => ?_)) | (with_reducible refine startWalk_wf _ _ ?_) | (with_reducible refine accessPage_wf _ _ ?_))) <;> (try simp) <;>
    (repeat' (first | with_reducible assumption | split | (with_reducible refine foldl_wf _ _ _ ?_ (fun t x h => ?_)) | (with_reducible refine startWalk_wf _ _ ?_) | (with_reducible refine accessPage_wf _ _ ?_))) <;> (try simp) <;>
    (repeat' (first | with_reducible assumption | split | (with_reducible refine foldl_wf _ _ _ ?_ (fun t x h => ?_)) | (with_reducible refine startWalk_wf _ _ ?_) | (with_reducible refine accessPage_wf _ _ ?_))) <;> simp_all

@[simp] theorem walkDone_pending (p : Nat) (s : State) : (walkDone p s).pending = s.pending := by
  unfold walkDone
  dsimp only
  split
  · rw [foldl_p _ _ _ (fun t r => by split <;> simp)]; simp
  · simp
theorem walkDone_wf (a0) (s) (h : Memory.wf s.mem = true) : Memory.wf (walkDone a0 s).mem = true := by
  unfold walkDone
  (try dsimp only)
  (repeat' (first | with_reducible assumption | split | (with_reducible refine foldl_wf _ _ _ ?_ (fun t x h => ?_)) | (with_reducible refine loadEntry_wf _ _ ?_) | (with_reducible refine accessPage_wf _ _ ?_))) <;> (try simp) <;>
    (repeat' (first | with_reducible assumption | split | (with_reducible refine foldl_wf _ _ _ ?_ (fun t x h => ?_)) | (with_reducible refine loadEntry_wf _ _ ?_) | (with_reducible refine accessPage_wf _ _ ?_))) <;> (try simp) <;>
    (repeat' (first | with_reducible assumption | split | (with_reducible refine foldl_wf _ _ _ ?_ (fun t x h => ?_)) | (with_reducible refine loadEntry_wf _ _ ?_) | (with_reducible refine accessPage_wf _ _ ?_))) <;> simp_all

@[simp] theorem drainFixes_pending (s) : (drainFixes s).pending = s.pending := by
  unfold drainFixes
  (try dsimp only)
  (repeat' split) <;> (try simp [*, apply_ite State.pending, apply_ite State.mem]) <;> (try (repeat' split) <;> simp [*, apply_ite State.pending, apply_ite State.mem])
@[simp] theorem drainFixes_mem (s) : (drainFixes s).mem = s.mem := by
  unfold drainFixes
  (try dsimp only)
  (repeat' split) <;> (try simp [*, apply_ite State.pending, apply_ite State.mem]) <;> (try (repeat' split) <;> simp [*, apply_ite State.pending, apply_ite State.mem])

@[simp] theorem chunkArrived_pending (a0) (a1) (s) : (chunkArrived a0 a1 s).pending = s.pending := by
  unfold chunkArrived
  simp
@[simp] theorem chunkArrived_mem (a0) (a1) (s) : (chunkArrived a0 a1 s).mem = s.mem := by
  unfold chunkArrived
  simp

@[simp] theorem releaseEntry_pending (a0) (a1) (s) : (releaseEntry a0 a1 s).pending = s.pending := by
  unfold releaseEntry
  (try dsimp only)
  (repeat' split) <;> (try simp [*, apply_ite State.pending, apply_ite State.mem]) <;> (try (repeat' split) <;> simp [*, apply_ite State.pending, apply_ite State.mem])
@[simp] theorem releaseEntry_mem (a0) (a1) (s) : (releaseEntry a0 a1 s).mem = s.mem := by
  unfold releaseEntry
  (try dsimp only)
  (repeat' split) <;> (try simp [*, apply_ite State.pending, apply_ite State.mem]) <;> (try (repeat' split) <;> simp [*, apply_ite State.pending, apply_ite State.mem])

@[simp] theorem retireRetry_pending (a0) (s) : (retireRetry a0 s).pending = s.pending := by
  unfold retireRetry
  (try dsimp only)
  (repeat' split) <;> (try simp [*, apply_ite State.pending, apply_ite State.mem]) <;> (try (repeat' split) <;> simp [*, apply_ite State.pending, apply_ite State.mem])
@[simp] theorem retireRetry_mem (a0) (s) : (retireRetry a0 s).mem = s.mem := by
  unfold retireRetry
  (try dsimp only)
  (repeat' split) <;> (try simp [*, apply_ite State.pending, apply_ite State.mem]) <;> (try (repeat' split) <;> simp [*, apply_ite State.pending, apply_ite State.mem])

@[simp] theorem sendBiSnp_pending (a0) (a1) (a2) (a3) (s) : (sendBiSnp a0 a1 a2 a3 s).pending = s.pending := by
  unfold sendBiSnp
  simp
@[simp] theorem sendBiSnp_mem (a0) (a1) (a2) (a3) (s) : (sendBiSnp a0 a1 a2 a3 s).mem = s.mem := by
  unfold sendBiSnp
  simp

@[simp] theorem sendChainSnoop_pending (a0) (a1) (a2) (a3) (a4) (a5) (a6) (s) : (sendChainSnoop a0 a1 a2 a3 a4 a5 a6 s).pending = s.pending := by
  unfold sendChainSnoop
  simp [*, apply_ite State.pending, apply_ite State.mem]
@[simp] theorem sendChainSnoop_mem (a0) (a1) (a2) (a3) (a4) (a5) (a6) (s) : (sendChainSnoop a0 a1 a2 a3 a4 a5 a6 s).mem = s.mem := by
  unfold sendChainSnoop
  simp [*, apply_ite State.pending, apply_ite State.mem]

@[simp] theorem enqueue_pending (a0) (a1) (s) : (enqueue a0 a1 s).pending = s.pending := by
  unfold enqueue
  simp [*, apply_ite State.pending, apply_ite State.mem]
@[simp] theorem enqueue_mem (a0) (a1) (s) : (enqueue a0 a1 s).mem = s.mem := by
  unfold enqueue
  simp [*, apply_ite State.pending, apply_ite State.mem]

@[simp] theorem dequeue_pending (a0) (s) : (dequeue a0 s).pending = s.pending := by
  unfold dequeue
  simp
@[simp] theorem dequeue_mem (a0) (s) : (dequeue a0 s).mem = s.mem := by
  unfold dequeue
  simp

@[simp] theorem actOn_pending (a0) (s) : (actOn a0 s).pending = s.pending := by
  unfold actOn
  simp [*, apply_ite State.pending, apply_ite State.mem]
theorem actOn_wf (a0) (s) (h : Memory.wf s.mem = true) : Memory.wf (actOn a0 s).mem = true := by
  unfold actOn
  (try dsimp only)
  (repeat' (first | with_reducible assumption | split | (with_reducible refine foldl_wf _ _ _ ?_ (fun t x h => ?_)) | (with_reducible refine mapStage_wf _ _ ?_))) <;> (try simp) <;>
    (repeat' (first | with_reducible assumption | split | (with_reducible refine foldl_wf _ _ _ ?_ (fun t x h => ?_)) | (with_reducible refine mapStage_wf _ _ ?_))) <;> (try simp) <;>
    (repeat' (first | with_reducible assumption | split | (with_reducible refine foldl_wf _ _ _ ?_ (fun t x h => ?_)) | (with_reducible refine mapStage_wf _ _ ?_))) <;> simp_all

@[simp] theorem tryStart_pending (a0) (s) : (tryStart a0 s).pending = s.pending := by
  unfold tryStart
  (try dsimp only)
  (repeat' split) <;> (try simp [*, apply_ite State.pending, apply_ite State.mem]) <;> (try (repeat' split) <;> simp [*, apply_ite State.pending, apply_ite State.mem])
theorem tryStart_wf (a0) (s) (h : Memory.wf s.mem = true) : Memory.wf (tryStart a0 s).mem = true := by
  unfold tryStart
  (try dsimp only)
  (repeat' (first | with_reducible assumption | split | (with_reducible refine foldl_wf _ _ _ ?_ (fun t x h => ?_)) | (with_reducible refine actOn_wf _ _ ?_))) <;> (try simp) <;>
    (repeat' (first | with_reducible assumption | split | (with_reducible refine foldl_wf _ _ _ ?_ (fun t x h => ?_)) | (with_reducible refine actOn_wf _ _ ?_))) <;> (try simp) <;>
    (repeat' (first | with_reducible assumption | split | (with_reducible refine foldl_wf _ _ _ ?_ (fun t x h => ?_)) | (with_reducible refine actOn_wf _ _ ?_))) <;> simp_all

@[simp] theorem tryEvictDone_pending (a0) (s) : (tryEvictDone a0 s).pending = s.pending := by
  unfold tryEvictDone
  (try dsimp only)
  (repeat' split) <;> (try simp [*, apply_ite State.pending, apply_ite State.mem]) <;> (try (repeat' split) <;> simp [*, apply_ite State.pending, apply_ite State.mem])
theorem tryEvictDone_wf (a0) (s) (h : Memory.wf s.mem = true) : Memory.wf (tryEvictDone a0 s).mem = true := by
  unfold tryEvictDone
  (try dsimp only)
  (repeat' (first | with_reducible assumption | split | (with_reducible refine foldl_wf _ _ _ ?_ (fun t x h => ?_)) | (with_reducible refine tryStart_wf _ _ ?_))) <;> (try simp) <;>
    (repeat' (first | with_reducible assumption | split | (with_reducible refine foldl_wf _ _ _ ?_ (fun t x h => ?_)) | (with_reducible refine tryStart_wf _ _ ?_))) <;> (try simp) <;>
    (repeat' (first | with_reducible assumption | split | (with_reducible refine foldl_wf _ _ _ ?_ (fun t x h => ?_)) | (with_reducible refine tryStart_wf _ _ ?_))) <;> simp_all

@[simp] theorem evictLine_pending (a0) (s) : (evictLine a0 s).pending = s.pending := by
  unfold evictLine
  simp
@[simp] theorem evictLine_mem (a0) (s) : (evictLine a0 s).mem = s.mem := by
  unfold evictLine
  simp

@[simp] theorem sendSnoops_pending (a0) (a1) (a2) (s) : (sendSnoops a0 a1 a2 s).pending = s.pending := by
  unfold sendSnoops
  (try dsimp only)
  (repeat' split) <;> (try simp [*, apply_ite State.pending, apply_ite State.mem]) <;> (try (repeat' split) <;> simp [*, apply_ite State.pending, apply_ite State.mem])
@[simp] theorem sendSnoops_mem (a0) (a1) (a2) (s) : (sendSnoops a0 a1 a2 s).mem = s.mem := by
  unfold sendSnoops
  (try dsimp only)
  (repeat' split) <;> (try simp [*, apply_ite State.pending, apply_ite State.mem]) <;> (try (repeat' split) <;> simp [*, apply_ite State.pending, apply_ite State.mem])

@[simp] theorem grant_pending (a0) (s) : (grant a0 s).pending = s.pending := by
  unfold grant
  simp [*, apply_ite State.pending, apply_ite State.mem]
theorem grant_wf (a0) (s) (h : Memory.wf s.mem = true) : Memory.wf (grant a0 s).mem = true := by
  unfold grant
  (try dsimp only)
  (repeat' (first | with_reducible assumption | split | (with_reducible refine foldl_wf _ _ _ ?_ (fun t x h => ?_)) | (with_reducible refine actOn_wf _ _ ?_))) <;> (try simp) <;>
    (repeat' (first | with_reducible assumption | split | (with_reducible refine foldl_wf _ _ _ ?_ (fun t x h => ?_)) | (with_reducible refine actOn_wf _ _ ?_))) <;> (try simp) <;>
    (repeat' (first | with_reducible assumption | split | (with_reducible refine foldl_wf _ _ _ ?_ (fun t x h => ?_)) | (with_reducible refine actOn_wf _ _ ?_))) <;> simp_all

@[simp] theorem nak_pending (a0) (a1) (s) : (nak a0 a1 s).pending = s.pending := by
  unfold nak
  simp [*, apply_ite State.pending, apply_ite State.mem]
@[simp] theorem nak_mem (a0) (a1) (s) : (nak a0 a1 s).mem = s.mem := by
  unfold nak
  simp [*, apply_ite State.pending, apply_ite State.mem]

@[simp] theorem grantWithWay_pending (a0) (s) : (grantWithWay a0 s).pending = s.pending := by
  unfold grantWithWay
  (try dsimp only)
  (repeat' split) <;> (try simp [*, apply_ite State.pending, apply_ite State.mem]) <;> (try (repeat' split) <;> simp [*, apply_ite State.pending, apply_ite State.mem])
theorem grantWithWay_wf (a0) (s) (h : Memory.wf s.mem = true) : Memory.wf (grantWithWay a0 s).mem = true := by
  unfold grantWithWay
  (try dsimp only)
  (repeat' (first | with_reducible assumption | split | (with_reducible refine foldl_wf _ _ _ ?_ (fun t x h => ?_)) | (with_reducible refine tryStart_wf _ _ ?_) | (with_reducible refine tryEvictDone_wf _ _ ?_) | (with_reducible refine grant_wf _ _ ?_))) <;> (try simp) <;>
    (repeat' (first | with_reducible assumption | split | (with_reducible refine foldl_wf _ _ _ ?_ (fun t x h => ?_)) | (with_reducible refine tryStart_wf _ _ ?_) | (with_reducible refine tryEvictDone_wf _ _ ?_) | (with_reducible refine grant_wf _ _ ?_))) <;> (try simp) <;>
    (repeat' (first | with_reducible assumption | split | (with_reducible refine foldl_wf _ _ _ ?_ (fun t x h => ?_)) | (with_reducible refine tryStart_wf _ _ ?_) | (with_reducible refine tryEvictDone_wf _ _ ?_) | (with_reducible refine grant_wf _ _ ?_))) <;> simp_all

@[simp] theorem grantWaiter_pending (a0) (s) : (grantWaiter a0 s).pending = s.pending := by
  unfold grantWaiter
  (try dsimp only)
  (repeat' split) <;> (try simp [*, apply_ite State.pending, apply_ite State.mem]) <;> (try (repeat' split) <;> simp [*, apply_ite State.pending, apply_ite State.mem])
theorem grantWaiter_wf (a0) (s) (h : Memory.wf s.mem = true) : Memory.wf (grantWaiter a0 s).mem = true := by
  unfold grantWaiter
  (try dsimp only)
  (repeat' (first | with_reducible assumption | split | (with_reducible refine foldl_wf _ _ _ ?_ (fun t x h => ?_)) | (with_reducible refine grantWithWay_wf _ _ ?_))) <;> (try simp) <;>
    (repeat' (first | with_reducible assumption | split | (with_reducible refine foldl_wf _ _ _ ?_ (fun t x h => ?_)) | (with_reducible refine grantWithWay_wf _ _ ?_))) <;> (try simp) <;>
    (repeat' (first | with_reducible assumption | split | (with_reducible refine foldl_wf _ _ _ ?_ (fun t x h => ?_)) | (with_reducible refine grantWithWay_wf _ _ ?_))) <;> simp_all

@[simp] theorem dirAccess_pending (a0) (s) : (dirAccess a0 s).pending = s.pending := by
  unfold dirAccess
  (try dsimp only)
  (repeat' split) <;> (try simp [*, apply_ite State.pending, apply_ite State.mem]) <;> (try (repeat' split) <;> simp [*, apply_ite State.pending, apply_ite State.mem])
theorem dirAccess_wf (a0) (s) (h : Memory.wf s.mem = true) : Memory.wf (dirAccess a0 s).mem = true := by
  unfold dirAccess
  (try dsimp only)
  (repeat' (first | with_reducible assumption | split | (with_reducible refine foldl_wf _ _ _ ?_ (fun t x h => ?_)) | (with_reducible refine mapStage_wf _ _ ?_) | (with_reducible refine grantWithWay_wf _ _ ?_) | (with_reducible refine grantWaiter_wf _ _ ?_))) <;> (try simp) <;>
    (repeat' (first | with_reducible assumption | split | (with_reducible refine foldl_wf _ _ _ ?_ (fun t x h => ?_)) | (with_reducible refine mapStage_wf _ _ ?_) | (with_reducible refine grantWithWay_wf _ _ ?_) | (with_reducible refine grantWaiter_wf _ _ ?_))) <;> (try simp) <;>
    (repeat' (first | with_reducible assumption | split | (with_reducible refine foldl_wf _ _ _ ?_ (fun t x h => ?_)) | (with_reducible refine mapStage_wf _ _ ?_) | (with_reducible refine grantWithWay_wf _ _ ?_) | (with_reducible refine grantWaiter_wf _ _ ?_))) <;> simp_all

@[simp] theorem retrySet_pending (a0) (s) : (retrySet a0 s).pending = s.pending := by
  unfold retrySet
  (try dsimp only)
  (repeat' split) <;> (try simp [*, apply_ite State.pending, apply_ite State.mem]) <;> (try (repeat' split) <;> simp [*, apply_ite State.pending, apply_ite State.mem])
theorem retrySet_wf (a0) (s) (h : Memory.wf s.mem = true) : Memory.wf (retrySet a0 s).mem = true := by
  unfold retrySet
  (try dsimp only)
  (repeat' (first | with_reducible assumption | split | (with_reducible refine foldl_wf _ _ _ ?_ (fun t x h => ?_)) | (with_reducible refine grantWithWay_wf _ _ ?_))) <;> (try simp) <;>
    (repeat' (first | with_reducible assumption | split | (with_reducible refine foldl_wf _ _ _ ?_ (fun t x h => ?_)) | (with_reducible refine grantWithWay_wf _ _ ?_))) <;> (try simp) <;>
    (repeat' (first | with_reducible assumption | split | (with_reducible refine foldl_wf _ _ _ ?_ (fun t x h => ?_)) | (with_reducible refine grantWithWay_wf _ _ ?_))) <;> simp_all

@[simp] theorem keepHead_pending (a0) (a1) (a2) (s) : (keepHead a0 a1 a2 s).pending = s.pending := by
  unfold keepHead
  (try dsimp only)
  (repeat' split) <;> (try simp [*, apply_ite State.pending, apply_ite State.mem]) <;> (try (repeat' split) <;> simp [*, apply_ite State.pending, apply_ite State.mem])
@[simp] theorem keepHead_mem (a0) (a1) (a2) (s) : (keepHead a0 a1 a2 s).mem = s.mem := by
  unfold keepHead
  (try dsimp only)
  (repeat' split) <;> (try simp [*, apply_ite State.pending, apply_ite State.mem]) <;> (try (repeat' split) <;> simp [*, apply_ite State.pending, apply_ite State.mem])

@[simp] theorem answerSnoop_pending (a0) (a1) (s) : (answerSnoop a0 a1 s).pending = s.pending := by
  unfold answerSnoop
  (try dsimp only)
  (repeat' split) <;> (try simp [*, apply_ite State.pending, apply_ite State.mem]) <;> (try (repeat' split) <;> simp [*, apply_ite State.pending, apply_ite State.mem])
theorem answerSnoop_wf (a0) (a1) (s) (h : Memory.wf s.mem = true) : Memory.wf (answerSnoop a0 a1 s).mem = true := by
  unfold answerSnoop
  (try dsimp only)
  (repeat' (first | with_reducible assumption | split | (with_reducible refine foldl_wf _ _ _ ?_ (fun t x h => ?_)) | (with_reducible refine tryStart_wf _ _ ?_) | (with_reducible refine tryEvictDone_wf _ _ ?_))) <;> (try simp) <;>
    (repeat' (first | with_reducible assumption | split | (with_reducible refine foldl_wf _ _ _ ?_ (fun t x h => ?_)) | (with_reducible refine tryStart_wf _ _ ?_) | (with_reducible refine tryEvictDone_wf _ _ ?_))) <;> (try simp) <;>
    (repeat' (first | with_reducible assumption | split | (with_reducible refine foldl_wf _ _ _ ?_ (fun t x h => ?_)) | (with_reducible refine tryStart_wf _ _ ?_) | (with_reducible refine tryEvictDone_wf _ _ ?_))) <;> simp_all

@[simp] theorem flushWrites_pending (a0) (a1) (s) : (flushWrites a0 a1 s).pending = s.pending := by
  unfold flushWrites
  simp [*, apply_ite State.pending, apply_ite State.mem]
theorem flushWrites_wf (a0) (a1) (s) (h : Memory.wf s.mem = true) : Memory.wf (flushWrites a0 a1 s).mem = true := by
  unfold flushWrites
  (try dsimp only)
  (repeat' (first | with_reducible assumption | split | (with_reducible refine foldl_wf _ _ _ ?_ (fun t x h => ?_)) | (with_reducible refine mapStage_wf _ _ ?_))) <;> (try simp) <;>
    (repeat' (first | with_reducible assumption | split | (with_reducible refine foldl_wf _ _ _ ?_ (fun t x h => ?_)) | (with_reducible refine mapStage_wf _ _ ?_))) <;> (try simp) <;>
    (repeat' (first | with_reducible assumption | split | (with_reducible refine foldl_wf _ _ _ ?_ (fun t x h => ?_)) | (with_reducible refine mapStage_wf _ _ ?_))) <;> simp_all

@[simp] theorem biRsp_pending (a0) (a1) (a2) (s) : (biRsp a0 a1 a2 s).pending = s.pending := by
  unfold biRsp
  (try dsimp only)
  (repeat' split) <;> (try simp [*, apply_ite State.pending, apply_ite State.mem]) <;> (try (repeat' split) <;> simp [*, apply_ite State.pending, apply_ite State.mem])
theorem biRsp_wf (a0) (a1) (a2) (s) (h : Memory.wf s.mem = true) : Memory.wf (biRsp a0 a1 a2 s).mem = true := by
  unfold biRsp
  (try dsimp only)
  (repeat' (first | with_reducible assumption | split | (with_reducible refine foldl_wf _ _ _ ?_ (fun t x h => ?_)) | (with_reducible refine answerSnoop_wf _ _ _ ?_) | (with_reducible refine flushWrites_wf _ _ _ ?_))) <;> (try simp) <;>
    (repeat' (first | with_reducible assumption | split | (with_reducible refine foldl_wf _ _ _ ?_ (fun t x h => ?_)) | (with_reducible refine answerSnoop_wf _ _ _ ?_) | (with_reducible refine flushWrites_wf _ _ _ ?_))) <;> (try simp) <;>
    (repeat' (first | with_reducible assumption | split | (with_reducible refine foldl_wf _ _ _ ?_ (fun t x h => ?_)) | (with_reducible refine answerSnoop_wf _ _ _ ?_) | (with_reducible refine flushWrites_wf _ _ _ ?_))) <;> simp_all

@[simp] theorem chainAnswer_pending (a0) (a1) (a2) (a3) (s) : (chainAnswer a0 a1 a2 a3 s).pending = s.pending := by
  unfold chainAnswer
  (try dsimp only)
  (repeat' split) <;> (try simp [*, apply_ite State.pending, apply_ite State.mem]) <;> (try (repeat' split) <;> simp [*, apply_ite State.pending, apply_ite State.mem])
theorem chainAnswer_wf (a0) (a1) (a2) (a3) (s) (h : Memory.wf s.mem = true) : Memory.wf (chainAnswer a0 a1 a2 a3 s).mem = true := by
  unfold chainAnswer
  (try dsimp only)
  (repeat' (first | with_reducible assumption | split | (with_reducible refine foldl_wf _ _ _ ?_ (fun t x h => ?_)) | (with_reducible refine writeLineNow_wf _ _ _ _ ?_) | (with_reducible refine tryStart_wf _ _ ?_) | (with_reducible refine tryEvictDone_wf _ _ ?_))) <;> (try simp) <;>
    (repeat' (first | with_reducible assumption | split | (with_reducible refine foldl_wf _ _ _ ?_ (fun t x h => ?_)) | (with_reducible refine writeLineNow_wf _ _ _ _ ?_) | (with_reducible refine tryStart_wf _ _ ?_) | (with_reducible refine tryEvictDone_wf _ _ ?_))) <;> (try simp) <;>
    (repeat' (first | with_reducible assumption | split | (with_reducible refine foldl_wf _ _ _ ?_ (fun t x h => ?_)) | (with_reducible refine writeLineNow_wf _ _ _ _ ?_) | (with_reducible refine tryStart_wf _ _ ?_) | (with_reducible refine tryEvictDone_wf _ _ ?_))) <;> simp_all

@[simp] theorem unqueue_pending (a0) (s) : (unqueue a0 s).pending = s.pending := by
  unfold unqueue
  simp [*, apply_ite State.pending, apply_ite State.mem]
@[simp] theorem unqueue_mem (a0) (s) : (unqueue a0 s).mem = s.mem := by
  unfold unqueue
  simp [*, apply_ite State.pending, apply_ite State.mem]

@[simp] theorem dropHeadDir_pending (a0) (s) : (dropHeadDir a0 s).pending = s.pending := by
  unfold dropHeadDir
  simp
theorem dropHeadDir_wf (a0) (s) (h : Memory.wf s.mem = true) : Memory.wf (dropHeadDir a0 s).mem = true := by
  unfold dropHeadDir
  (try dsimp only)
  (repeat' (first | with_reducible assumption | split | (with_reducible refine foldl_wf _ _ _ ?_ (fun t x h => ?_)) | (with_reducible refine answerSnoop_wf _ _ _ ?_))) <;> (try simp) <;>
    (repeat' (first | with_reducible assumption | split | (with_reducible refine foldl_wf _ _ _ ?_ (fun t x h => ?_)) | (with_reducible refine answerSnoop_wf _ _ _ ?_))) <;> (try simp) <;>
    (repeat' (first | with_reducible assumption | split | (with_reducible refine foldl_wf _ _ _ ?_ (fun t x h => ?_)) | (with_reducible refine answerSnoop_wf _ _ _ ?_))) <;> simp_all

@[simp] theorem dropDevice_pending (a0) (s) : (dropDevice a0 s).pending = s.pending := by
  unfold dropDevice
  simp
@[simp] theorem dropDevice_mem (a0) (s) : (dropDevice a0 s).mem = s.mem := by
  unfold dropDevice
  simp

@[simp] theorem failSnoops_pending (a0) (s) : (failSnoops a0 s).pending = s.pending := by
  unfold failSnoops
  (try dsimp only)
  (repeat' split) <;> (try simp [*, apply_ite State.pending, apply_ite State.mem]) <;> (repeat' split) <;> (try simp [*, apply_ite State.pending, apply_ite State.mem]) <;>
    (refine foldl_p _ _ _ ?_; intro t x; (try dsimp only); (repeat' split) <;> simp [*, apply_ite State.pending, apply_ite State.mem])
theorem failSnoops_wf (a0) (s) (h : Memory.wf s.mem = true) : Memory.wf (failSnoops a0 s).mem = true := by
  unfold failSnoops
  (try dsimp only)
  (repeat' (first | with_reducible assumption | split | (with_reducible refine foldl_wf _ _ _ ?_ (fun t x h => ?_)) | (with_reducible refine chainAnswer_wf _ _ _ _ _ ?_))) <;> (try simp) <;>
    (repeat' (first | with_reducible assumption | split | (with_reducible refine foldl_wf _ _ _ ?_ (fun t x h => ?_)) | (with_reducible refine chainAnswer_wf _ _ _ _ _ ?_))) <;> (try simp) <;>
    (repeat' (first | with_reducible assumption | split | (with_reducible refine foldl_wf _ _ _ ?_ (fun t x h => ?_)) | (with_reducible refine chainAnswer_wf _ _ _ _ _ ?_))) <;> simp_all

@[simp] theorem State.modRemote_pending (s) (a1) (a2) : (State.modRemote s a1 a2).pending = s.pending := by
  unfold State.modRemote
  simp
@[simp] theorem State.modRemote_mem (s) (a1) (a2) : (State.modRemote s a1 a2).mem = s.mem := by
  unfold State.modRemote
  simp

@[simp] theorem dropRemote_pending (a0) (s) : (dropRemote a0 s).pending = s.pending := by
  unfold dropRemote
  simp
@[simp] theorem dropRemote_mem (a0) (s) : (dropRemote a0 s).mem = s.mem := by
  unfold dropRemote
  simp

@[simp] theorem sendRemote_pending (a0) (s) : (sendRemote a0 s).pending = s.pending := by
  unfold sendRemote
  (try dsimp only)
  (repeat' split) <;> (try simp [*, apply_ite State.pending, apply_ite State.mem]) <;> (try (repeat' split) <;> simp [*, apply_ite State.pending, apply_ite State.mem])
@[simp] theorem sendRemote_mem (a0) (s) : (sendRemote a0 s).mem = s.mem := by
  unfold sendRemote
  (try dsimp only)
  (repeat' split) <;> (try simp [*, apply_ite State.pending, apply_ite State.mem]) <;> (try (repeat' split) <;> simp [*, apply_ite State.pending, apply_ite State.mem])

@[simp] theorem openRemote_pending (a0) (s) : (openRemote a0 s).2.pending = s.pending := by
  unfold openRemote
  (try dsimp only)
  (repeat' split) <;> (try simp [*, apply_ite State.pending, apply_ite State.mem]) <;> (try (repeat' split) <;> simp [*, apply_ite State.pending, apply_ite State.mem])
@[simp] theorem openRemote_mem (a0) (s) : (openRemote a0 s).2.mem = s.mem := by
  unfold openRemote
  (try dsimp only)
  (repeat' split) <;> (try simp [*, apply_ite State.pending, apply_ite State.mem]) <;> (try (repeat' split) <;> simp [*, apply_ite State.pending, apply_ite State.mem])

@[simp] theorem pumpLine_pending (a0) (a1) (s) : (pumpLine a0 a1 s).pending = s.pending := by
  unfold pumpLine
  (try dsimp only)
  (repeat' split) <;> (try simp [*, apply_ite State.pending, apply_ite State.mem]) <;> (try (repeat' split) <;> simp [*, apply_ite State.pending, apply_ite State.mem])
@[simp] theorem pumpLine_mem (a0) (a1) (s) : (pumpLine a0 a1 s).mem = s.mem := by
  unfold pumpLine
  (try dsimp only)
  (repeat' split) <;> (try simp [*, apply_ite State.pending, apply_ite State.mem]) <;> (try (repeat' split) <;> simp [*, apply_ite State.pending, apply_ite State.mem])

@[simp] theorem State.modV_pending (s) (a1) (a2) : (State.modV s a1 a2).pending = s.pending := by
  unfold State.modV
  simp
@[simp] theorem State.modV_mem (s) (a1) (a2) : (State.modV s a1 a2).mem = s.mem := by
  unfold State.modV
  simp

@[simp] theorem dropHeadV_pending (a0) (a1) (s) : (dropHeadV a0 a1 s).pending = s.pending := by
  unfold dropHeadV
  simp
@[simp] theorem dropHeadV_mem (a0) (a1) (s) : (dropHeadV a0 a1 s).mem = s.mem := by
  unfold dropHeadV
  simp

@[simp] theorem visitorPresence_pending (a0) (a1) (s) : (visitorPresence a0 a1 s).pending = s.pending := by
  unfold visitorPresence
  simp
@[simp] theorem visitorPresence_mem (a0) (a1) (s) : (visitorPresence a0 a1 s).mem = s.mem := by
  unfold visitorPresence
  simp

@[simp] theorem visitorDone_pending (a0) (s) : (visitorDone a0 s).pending = s.pending := by
  unfold visitorDone
  simp
@[simp] theorem visitorDone_mem (a0) (s) : (visitorDone a0 s).mem = s.mem := by
  unfold visitorDone
  simp

@[simp] theorem visitorPoison_pending (a0) (s) : (visitorPoison a0 s).pending = s.pending := by
  unfold visitorPoison
  simp
@[simp] theorem visitorPoison_mem (a0) (s) : (visitorPoison a0 s).mem = s.mem := by
  unfold visitorPoison
  simp

@[simp] theorem raiseNoRoute_pending (a0) (a1) (s) : (raiseNoRoute a0 a1 s).pending = s.pending := by
  unfold raiseNoRoute
  simp [*, apply_ite State.pending, apply_ite State.mem]
@[simp] theorem raiseNoRoute_mem (a0) (a1) (s) : (raiseNoRoute a0 a1 s).mem = s.mem := by
  unfold raiseNoRoute
  simp [*, apply_ite State.pending, apply_ite State.mem]

@[simp] theorem raiseWindowLost_pending (a0) (a1) (s) : (raiseWindowLost a0 a1 s).pending = s.pending := by
  unfold raiseWindowLost
  simp [*, apply_ite State.pending, apply_ite State.mem]
@[simp] theorem raiseWindowLost_mem (a0) (a1) (s) : (raiseWindowLost a0 a1 s).mem = s.mem := by
  unfold raiseWindowLost
  simp [*, apply_ite State.pending, apply_ite State.mem]

@[simp] theorem startRemoteReq_pending (a0) (a1) (a2) (a3) (s) : (startRemoteReq a0 a1 a2 a3 s).pending = s.pending := by
  unfold startRemoteReq
  simp
@[simp] theorem startRemoteReq_mem (a0) (a1) (a2) (a3) (s) : (startRemoteReq a0 a1 a2 a3 s).mem = s.mem := by
  unfold startRemoteReq
  simp

@[simp] theorem visitorAct_pending (a0) (a1) (a2) (a3) (s) : (visitorAct a0 a1 a2 a3 s).pending = s.pending := by
  unfold visitorAct
  simp [*, apply_ite State.pending, apply_ite State.mem]
@[simp] theorem visitorAct_mem (a0) (a1) (a2) (a3) (s) : (visitorAct a0 a1 a2 a3 s).mem = s.mem := by
  unfold visitorAct
  simp [*, apply_ite State.pending, apply_ite State.mem]

@[simp] theorem visitorWriteback_pending (a0) (a1) (a2) (s) : (visitorWriteback a0 a1 a2 s).pending = s.pending := by
  unfold visitorWriteback
  simp [*, apply_ite State.pending, apply_ite State.mem]
@[simp] theorem visitorWriteback_mem (a0) (a1) (a2) (s) : (visitorWriteback a0 a1 a2 s).mem = s.mem := by
  unfold visitorWriteback
  simp [*, apply_ite State.pending, apply_ite State.mem]

@[simp] theorem visitorStage_pending (a0) (a1) (s) : (visitorStage a0 a1 s).pending = s.pending := by
  unfold visitorStage
  (try dsimp only)
  (repeat' split) <;> (try simp [*, apply_ite State.pending, apply_ite State.mem]) <;> (try (repeat' split) <;> simp [*, apply_ite State.pending, apply_ite State.mem])
@[simp] theorem visitorStage_mem (a0) (a1) (s) : (visitorStage a0 a1 s).mem = s.mem := by
  unfold visitorStage
  (try dsimp only)
  (repeat' split) <;> (try simp [*, apply_ite State.pending, apply_ite State.mem]) <;> (try (repeat' split) <;> simp [*, apply_ite State.pending, apply_ite State.mem])

@[simp] theorem sack_pending (a0) (a1) (a2) (a3) (a4) (s) : (sack a0 a1 a2 a3 a4 s).pending = s.pending := by
  unfold sack
  simp
@[simp] theorem sack_mem (a0) (a1) (a2) (a3) (a4) (s) : (sack a0 a1 a2 a3 a4 s).mem = s.mem := by
  unfold sack
  simp

@[simp] theorem finishVSnoop_pending (a0) (s) : (finishVSnoop a0 s).pending = s.pending := by
  unfold finishVSnoop
  simp [*, apply_ite State.pending, apply_ite State.mem]
@[simp] theorem finishVSnoop_mem (a0) (s) : (finishVSnoop a0 s).mem = s.mem := by
  unfold finishVSnoop
  simp [*, apply_ite State.pending, apply_ite State.mem]

@[simp] theorem beginVSnoop_pending (a0) (s) : (beginVSnoop a0 s).pending = s.pending := by
  unfold beginVSnoop
  (try dsimp only)
  (repeat' split) <;> (try simp [*, apply_ite State.pending, apply_ite State.mem]) <;> (repeat' split) <;> (try simp [*, apply_ite State.pending, apply_ite State.mem]) <;>
    (refine foldl_p _ _ _ ?_; intro t x; (try dsimp only); (repeat' split) <;> simp [*, apply_ite State.pending, apply_ite State.mem])
@[simp] theorem beginVSnoop_mem (a0) (s) : (beginVSnoop a0 s).mem = s.mem := by
  unfold beginVSnoop
  (try dsimp only)
  (repeat' split) <;> (try simp [*, apply_ite State.pending, apply_ite State.mem]) <;> (repeat' split) <;> (try simp [*, apply_ite State.pending, apply_ite State.mem]) <;>
    (refine foldl_m _ _ _ ?_; intro t x; (try dsimp only); (repeat' split) <;> simp [*, apply_ite State.pending, apply_ite State.mem])

@[simp] theorem visitorSnoop_pending (a0) (s) : (visitorSnoop a0 s).pending = s.pending := by
  unfold visitorSnoop
  (try dsimp only)
  (repeat' split) <;> (try simp [*, apply_ite State.pending, apply_ite State.mem]) <;> (try (repeat' split) <;> simp [*, apply_ite State.pending, apply_ite State.mem])
@[simp] theorem visitorSnoop_mem (a0) (s) : (visitorSnoop a0 s).mem = s.mem := by
  unfold visitorSnoop
  (try dsimp only)
  (repeat' split) <;> (try simp [*, apply_ite State.pending, apply_ite State.mem]) <;> (try (repeat' split) <;> simp [*, apply_ite State.pending, apply_ite State.mem])

@[simp] theorem visitorProgress_pending (own : Nat) (s : State) : (visitorProgress own s).pending = s.pending := by
  unfold visitorProgress
  dsimp only
  rw [foldl_p _ _ _ (fun t r => by (repeat' split) <;> simp), foldl_p _ _ _ (fun t r => by split <;> simp), foldl_p _ _ _ (fun t r => by split <;> simp)]
@[simp] theorem visitorProgress_mem (own : Nat) (s : State) : (visitorProgress own s).mem = s.mem := by
  unfold visitorProgress
  dsimp only
  rw [foldl_m _ _ _ (fun t r => by (repeat' split) <;> simp), foldl_m _ _ _ (fun t r => by split <;> simp), foldl_m _ _ _ (fun t r => by split <;> simp)]

@[simp] theorem dropVLines_pending (a0) (s) : (dropVLines a0 s).pending = s.pending := by
  unfold dropVLines
  simp [*, apply_ite State.pending, apply_ite State.mem]
@[simp] theorem dropVLines_mem (a0) (s) : (dropVLines a0 s).mem = s.mem := by
  unfold dropVLines
  simp [*, apply_ite State.pending, apply_ite State.mem]

@[simp] theorem closeWindows_pending (s) : (closeWindows s).pending = s.pending := by
  unfold closeWindows
  simp
@[simp] theorem closeWindows_mem (s) : (closeWindows s).mem = s.mem := by
  unfold closeWindows
  simp

@[simp] theorem insertV_pending (a0) (a1) (a2) (a3) (a4) (a5) (s) : (insertV a0 a1 a2 a3 a4 a5 s).pending = s.pending := by
  unfold insertV
  (try dsimp only)
  (repeat' split) <;> (try simp [*, apply_ite State.pending, apply_ite State.mem]) <;> (try (repeat' split) <;> simp [*, apply_ite State.pending, apply_ite State.mem])
@[simp] theorem insertV_mem (a0) (a1) (a2) (a3) (a4) (a5) (s) : (insertV a0 a1 a2 a3 a4 a5 s).mem = s.mem := by
  unfold insertV
  (try dsimp only)
  (repeat' split) <;> (try simp [*, apply_ite State.pending, apply_ite State.mem]) <;> (try (repeat' split) <;> simp [*, apply_ite State.pending, apply_ite State.mem])

@[simp] theorem deliverData_pending (a0) (a1) (s) : (deliverData a0 a1 s).pending = s.pending := by
  unfold deliverData
  (try dsimp only)
  (repeat' split) <;> (try simp [*, apply_ite State.pending, apply_ite State.mem]) <;> (try (repeat' split) <;> simp [*, apply_ite State.pending, apply_ite State.mem])
@[simp] theorem deliverData_mem (a0) (a1) (s) : (deliverData a0 a1 s).mem = s.mem := by
  unfold deliverData
  (try dsimp only)
  (repeat' split) <;> (try simp [*, apply_ite State.pending, apply_ite State.mem]) <;> (try (repeat' split) <;> simp [*, apply_ite State.pending, apply_ite State.mem])

@[simp] theorem clearPoisoned_pending (s) : (clearPoisoned s).pending = s.pending := by
  unfold clearPoisoned
  simp
@[simp] theorem clearPoisoned_mem (s) : (clearPoisoned s).mem = s.mem := by
  unfold clearPoisoned
  simp

@[simp] theorem clearUndelivered_pending (a0) (s) : (clearUndelivered a0 s).pending = s.pending := by
  unfold clearUndelivered
  simp
@[simp] theorem clearUndelivered_mem (a0) (s) : (clearUndelivered a0 s).mem = s.mem := by
  unfold clearUndelivered
  simp

@[simp] theorem completeWrite_pending (a0) (a1) (s) : (completeWrite a0 a1 s).pending = s.pending := by
  unfold completeWrite
  (try dsimp only)
  (repeat' split) <;> (try simp [*, apply_ite State.pending, apply_ite State.mem]) <;> (try (repeat' split) <;> simp [*, apply_ite State.pending, apply_ite State.mem])
@[simp] theorem completeWrite_mem (a0) (a1) (s) : (completeWrite a0 a1 s).mem = s.mem := by
  unfold completeWrite
  (try dsimp only)
  (repeat' split) <;> (try simp [*, apply_ite State.pending, apply_ite State.mem]) <;> (try (repeat' split) <;> simp [*, apply_ite State.pending, apply_ite State.mem])

@[simp] theorem State.modTandem_pending (s) (a1) (a2) : (State.modTandem s a1 a2).pending = s.pending := by
  unfold State.modTandem
  simp
@[simp] theorem State.modTandem_mem (s) (a1) (a2) : (State.modTandem s a1 a2).mem = s.mem := by
  unfold State.modTandem
  simp

@[simp] theorem markPage_pending (a0) (a1) (s) : (markPage a0 a1 s).pending = s.pending := by
  unfold markPage
  simp
@[simp] theorem markPage_mem (a0) (a1) (s) : (markPage a0 a1 s).mem = s.mem := by
  unfold markPage
  simp

@[simp] theorem sendTandem_pending (a0) (a1) (a2) (a3) (s) : (sendTandem a0 a1 a2 a3 s).2.pending = s.pending := by
  unfold sendTandem
  simp
@[simp] theorem sendTandem_mem (a0) (a1) (a2) (a3) (s) : (sendTandem a0 a1 a2 a3 s).2.mem = s.mem := by
  unfold sendTandem
  simp

@[simp] theorem finishWrite_pending (a0) (s) : (finishWrite a0 s).pending = s.pending := by
  unfold finishWrite
  (try dsimp only)
  (repeat' split) <;> (try simp [*, apply_ite State.pending, apply_ite State.mem]) <;> (try (repeat' split) <;> simp [*, apply_ite State.pending, apply_ite State.mem])
@[simp] theorem finishWrite_mem (a0) (s) : (finishWrite a0 s).mem = s.mem := by
  unfold finishWrite
  (try dsimp only)
  (repeat' split) <;> (try simp [*, apply_ite State.pending, apply_ite State.mem]) <;> (try (repeat' split) <;> simp [*, apply_ite State.pending, apply_ite State.mem])

@[simp] theorem goSolo_pending (a0) (a1) (s) : (goSolo a0 a1 s).pending = s.pending := by
  unfold goSolo
  (try dsimp only)
  (repeat' split) <;> (try simp [*, apply_ite State.pending, apply_ite State.mem]) <;> (repeat' split) <;> (try simp [*, apply_ite State.pending, apply_ite State.mem]) <;>
    (refine foldl_p _ _ _ ?_; intro t x; (try dsimp only); (repeat' split) <;> simp [*, apply_ite State.pending, apply_ite State.mem])
@[simp] theorem goSolo_mem (a0) (a1) (s) : (goSolo a0 a1 s).mem = s.mem := by
  unfold goSolo
  (try dsimp only)
  (repeat' split) <;> (try simp [*, apply_ite State.pending, apply_ite State.mem]) <;> (repeat' split) <;> (try simp [*, apply_ite State.pending, apply_ite State.mem]) <;>
    (refine foldl_m _ _ _ ?_; intro t x; (try dsimp only); (repeat' split) <;> simp [*, apply_ite State.pending, apply_ite State.mem])

@[simp] theorem resyncEnd_pending (a0) (s) : (resyncEnd a0 s).pending = s.pending := by
  unfold resyncEnd
  (try dsimp only)
  (repeat' split) <;> (try simp [*, apply_ite State.pending, apply_ite State.mem]) <;> (try (repeat' split) <;> simp [*, apply_ite State.pending, apply_ite State.mem])
@[simp] theorem resyncEnd_mem (a0) (s) : (resyncEnd a0 s).mem = s.mem := by
  unfold resyncEnd
  (try dsimp only)
  (repeat' split) <;> (try simp [*, apply_ite State.pending, apply_ite State.mem]) <;> (try (repeat' split) <;> simp [*, apply_ite State.pending, apply_ite State.mem])

@[simp] theorem startResync_pending (a0) (s) : (startResync a0 s).pending = s.pending := by
  unfold startResync
  (try dsimp only)
  (repeat' split) <;> (try simp [*, apply_ite State.pending, apply_ite State.mem]) <;> (try (repeat' split) <;> simp [*, apply_ite State.pending, apply_ite State.mem])
@[simp] theorem startResync_mem (a0) (s) : (startResync a0 s).mem = s.mem := by
  unfold startResync
  (try dsimp only)
  (repeat' split) <;> (try simp [*, apply_ite State.pending, apply_ite State.mem]) <;> (try (repeat' split) <;> simp [*, apply_ite State.pending, apply_ite State.mem])

@[simp] theorem resyncPage_pending (a0) (s) : (resyncPage a0 s).pending = s.pending := by
  unfold resyncPage
  (try dsimp only)
  (repeat' split) <;> (try simp [*, apply_ite State.pending, apply_ite State.mem]) <;> (try (repeat' split) <;> simp [*, apply_ite State.pending, apply_ite State.mem])
@[simp] theorem resyncPage_mem (a0) (s) : (resyncPage a0 s).mem = s.mem := by
  unfold resyncPage
  (try dsimp only)
  (repeat' split) <;> (try simp [*, apply_ite State.pending, apply_ite State.mem]) <;> (try (repeat' split) <;> simp [*, apply_ite State.pending, apply_ite State.mem])

@[simp] theorem tandemWack_pending (a0) (s) : (tandemWack a0 s).pending = s.pending := by
  unfold tandemWack
  (try dsimp only)
  (repeat' split) <;> (try simp [*, apply_ite State.pending, apply_ite State.mem]) <;> (try (repeat' split) <;> simp [*, apply_ite State.pending, apply_ite State.mem])
@[simp] theorem tandemWack_mem (a0) (s) : (tandemWack a0 s).mem = s.mem := by
  unfold tandemWack
  (try dsimp only)
  (repeat' split) <;> (try simp [*, apply_ite State.pending, apply_ite State.mem]) <;> (try (repeat' split) <;> simp [*, apply_ite State.pending, apply_ite State.mem])

@[simp] theorem endClear_pending (a0) (a1) (s) : (endClear a0 a1 s).pending = s.pending := by
  unfold endClear
  (try dsimp only)
  (repeat' split) <;> (try simp [*, apply_ite State.pending, apply_ite State.mem]) <;> (try (repeat' split) <;> simp [*, apply_ite State.pending, apply_ite State.mem])
@[simp] theorem endClear_mem (a0) (a1) (s) : (endClear a0 a1 s).mem = s.mem := by
  unfold endClear
  (try dsimp only)
  (repeat' split) <;> (try simp [*, apply_ite State.pending, apply_ite State.mem]) <;> (try (repeat' split) <;> simp [*, apply_ite State.pending, apply_ite State.mem])

@[simp] theorem deliverWack_pending (a0) (s) : (deliverWack a0 s).pending = s.pending := by
  unfold deliverWack
  (try dsimp only)
  (repeat' split) <;> (try simp [*, apply_ite State.pending, apply_ite State.mem]) <;> (try (repeat' split) <;> simp [*, apply_ite State.pending, apply_ite State.mem])
@[simp] theorem deliverWack_mem (a0) (s) : (deliverWack a0 s).mem = s.mem := by
  unfold deliverWack
  (try dsimp only)
  (repeat' split) <;> (try simp [*, apply_ite State.pending, apply_ite State.mem]) <;> (try (repeat' split) <;> simp [*, apply_ite State.pending, apply_ite State.mem])

@[simp] theorem flushVisitor_pending (a0) (a1) (s) : (flushVisitor a0 a1 s).pending = s.pending := by
  unfold flushVisitor
  simp
@[simp] theorem flushVisitor_mem (a0) (a1) (s) : (flushVisitor a0 a1 s).mem = s.mem := by
  unfold flushVisitor
  simp

@[simp] theorem visitorAnswer_pending (a0) (a1) (s) : (visitorAnswer a0 a1 s).pending = s.pending := by
  unfold visitorAnswer
  (try dsimp only)
  (repeat' split) <;> (try simp [*, apply_ite State.pending, apply_ite State.mem]) <;> (try (repeat' split) <;> simp [*, apply_ite State.pending, apply_ite State.mem])
@[simp] theorem visitorAnswer_mem (a0) (a1) (s) : (visitorAnswer a0 a1 s).mem = s.mem := by
  unfold visitorAnswer
  (try dsimp only)
  (repeat' split) <;> (try simp [*, apply_ite State.pending, apply_ite State.mem]) <;> (try (repeat' split) <;> simp [*, apply_ite State.pending, apply_ite State.mem])

@[simp] theorem headRsp_pending (a0) (a1) (a2) (s) : (headRsp a0 a1 a2 s).pending = s.pending := by
  unfold headRsp
  (try dsimp only)
  (repeat' split) <;> (try simp [*, apply_ite State.pending, apply_ite State.mem]) <;> (try (repeat' split) <;> simp [*, apply_ite State.pending, apply_ite State.mem])
theorem headRsp_wf (a0) (a1) (a2) (s) (h : Memory.wf s.mem = true) : Memory.wf (headRsp a0 a1 a2 s).mem = true := by
  unfold headRsp
  (try dsimp only)
  (repeat' (first | with_reducible assumption | split | (with_reducible refine foldl_wf _ _ _ ?_ (fun t x h => ?_)) | (with_reducible refine biRsp_wf _ _ _ _ ?_))) <;> (try simp) <;>
    (repeat' (first | with_reducible assumption | split | (with_reducible refine foldl_wf _ _ _ ?_ (fun t x h => ?_)) | (with_reducible refine biRsp_wf _ _ _ _ ?_))) <;> (try simp) <;>
    (repeat' (first | with_reducible assumption | split | (with_reducible refine foldl_wf _ _ _ ?_ (fun t x h => ?_)) | (with_reducible refine biRsp_wf _ _ _ _ ?_))) <;> simp_all

@[simp] theorem dropHead_pending (a0) (s) : (dropHead a0 s).pending = s.pending := by
  unfold dropHead
  simp
theorem dropHead_wf (a0) (s) (h : Memory.wf s.mem = true) : Memory.wf (dropHead a0 s).mem = true := by
  unfold dropHead
  (try dsimp only)
  (repeat' (first | with_reducible assumption | split | (with_reducible refine foldl_wf _ _ _ ?_ (fun t x h => ?_)) | (with_reducible refine dropHeadDir_wf _ _ ?_))) <;> (try simp) <;>
    (repeat' (first | with_reducible assumption | split | (with_reducible refine foldl_wf _ _ _ ?_ (fun t x h => ?_)) | (with_reducible refine dropHeadDir_wf _ _ ?_))) <;> (try simp) <;>
    (repeat' (first | with_reducible assumption | split | (with_reducible refine foldl_wf _ _ _ ?_ (fun t x h => ?_)) | (with_reducible refine dropHeadDir_wf _ _ ?_))) <;> simp_all

@[simp] theorem visitorLose_pending (a0) (s) : (visitorLose a0 s).pending = s.pending := by
  unfold visitorLose
  simp [*, apply_ite State.pending, apply_ite State.mem]
@[simp] theorem visitorLose_mem (a0) (s) : (visitorLose a0 s).mem = s.mem := by
  unfold visitorLose
  simp [*, apply_ite State.pending, apply_ite State.mem]

@[simp] theorem failReads_pending (a0) (s) : (failReads a0 s).pending = s.pending := by
  unfold failReads
  (try dsimp only)
  (repeat' split) <;> (try simp [*, apply_ite State.pending, apply_ite State.mem]) <;> (repeat' split) <;> (try simp [*, apply_ite State.pending, apply_ite State.mem]) <;>
    (refine foldl_p _ _ _ ?_; intro t x; (try dsimp only); (repeat' split) <;> simp [*, apply_ite State.pending, apply_ite State.mem])
@[simp] theorem failReads_mem (a0) (s) : (failReads a0 s).mem = s.mem := by
  unfold failReads
  (try dsimp only)
  (repeat' split) <;> (try simp [*, apply_ite State.pending, apply_ite State.mem]) <;> (repeat' split) <;> (try simp [*, apply_ite State.pending, apply_ite State.mem]) <;>
    (refine foldl_m _ _ _ ?_; intro t x; (try dsimp only); (repeat' split) <;> simp [*, apply_ite State.pending, apply_ite State.mem])

@[simp] theorem loseRoute_pending (a0) (s) : (loseRoute a0 s).pending = s.pending := by
  unfold loseRoute
  (try dsimp only)
  (repeat' split) <;> (try simp [*, apply_ite State.pending, apply_ite State.mem]) <;> (try (repeat' split) <;> simp [*, apply_ite State.pending, apply_ite State.mem])
theorem loseRoute_wf (a0) (s) (h : Memory.wf s.mem = true) : Memory.wf (loseRoute a0 s).mem = true := by
  unfold loseRoute
  (try dsimp only)
  (repeat' (first | with_reducible assumption | split | (with_reducible refine foldl_wf _ _ _ ?_ (fun t x h => ?_)) | (with_reducible refine failSnoops_wf _ _ ?_))) <;> (try simp) <;>
    (repeat' (first | with_reducible assumption | split | (with_reducible refine foldl_wf _ _ _ ?_ (fun t x h => ?_)) | (with_reducible refine failSnoops_wf _ _ ?_))) <;> (try simp) <;>
    (repeat' (first | with_reducible assumption | split | (with_reducible refine foldl_wf _ _ _ ?_ (fun t x h => ?_)) | (with_reducible refine failSnoops_wf _ _ ?_))) <;> simp_all

@[simp] theorem gainRoute_pending (a0) (s) : (gainRoute a0 s).pending = s.pending := by
  unfold gainRoute
  simp
@[simp] theorem gainRoute_mem (a0) (s) : (gainRoute a0 s).mem = s.mem := by
  unfold gainRoute
  simp

@[simp] theorem afterRoutes_pending (a0) (s) : (afterRoutes a0 s).pending = s.pending := by
  unfold afterRoutes
  (try dsimp only)
  (repeat' split) <;> (try simp [*, apply_ite State.pending, apply_ite State.mem]) <;> (repeat' split) <;> (try simp [*, apply_ite State.pending, apply_ite State.mem]) <;>
    (refine foldl_p _ _ _ ?_; intro t x; (try dsimp only); (repeat' split) <;> simp [*, apply_ite State.pending, apply_ite State.mem])
theorem afterRoutes_wf (a0) (s) (h : Memory.wf s.mem = true) : Memory.wf (afterRoutes a0 s).mem = true := by
  unfold afterRoutes
  (try dsimp only)
  (repeat' (first | with_reducible assumption | split | (with_reducible refine foldl_wf _ _ _ ?_ (fun t x h => ?_)) | (with_reducible refine loseRoute_wf _ _ ?_))) <;> (try simp) <;>
    (repeat' (first | with_reducible assumption | split | (with_reducible refine foldl_wf _ _ _ ?_ (fun t x h => ?_)) | (with_reducible refine loseRoute_wf _ _ ?_))) <;> (try simp) <;>
    (repeat' (first | with_reducible assumption | split | (with_reducible refine foldl_wf _ _ _ ?_ (fun t x h => ?_)) | (with_reducible refine loseRoute_wf _ _ ?_))) <;> simp_all

@[simp] theorem consumeOp_pending (a0) (a1) (s) : (consumeOp a0 a1 s).pending = s.pending := by
  unfold consumeOp
  (try dsimp only)
  (repeat' split) <;> (try simp [*, apply_ite State.pending, apply_ite State.mem]) <;> (try (repeat' split) <;> simp [*, apply_ite State.pending, apply_ite State.mem])
@[simp] theorem consumeOp_mem (a0) (a1) (s) : (consumeOp a0 a1 s).mem = s.mem := by
  unfold consumeOp
  (try dsimp only)
  (repeat' split) <;> (try simp [*, apply_ite State.pending, apply_ite State.mem]) <;> (try (repeat' split) <;> simp [*, apply_ite State.pending, apply_ite State.mem])

@[simp] theorem chainRequest_pending (a0) (a1) (a2) (s) : (chainRequest a0 a1 a2 s).pending = s.pending := by
  unfold chainRequest
  simp [*, apply_ite State.pending, apply_ite State.mem]
@[simp] theorem chainRequest_mem (a0) (a1) (a2) (s) : (chainRequest a0 a1 a2 s).mem = s.mem := by
  unfold chainRequest
  simp [*, apply_ite State.pending, apply_ite State.mem]

@[simp] theorem enterDup_pending (a0) (s) : (enterDup a0 s).pending = s.pending := by
  unfold enterDup
  simp
@[simp] theorem enterDup_mem (a0) (s) : (enterDup a0 s).mem = s.mem := by
  unfold enterDup
  simp

@[simp] theorem chainNak_pending (a0) (s) : (chainNak a0 s).pending = s.pending := by
  unfold chainNak
  (try dsimp only)
  (repeat' split) <;> (try simp [*, apply_ite State.pending, apply_ite State.mem]) <;> (try (repeat' split) <;> simp [*, apply_ite State.pending, apply_ite State.mem])
@[simp] theorem chainNak_mem (a0) (s) : (chainNak a0 s).mem = s.mem := by
  unfold chainNak
  (try dsimp only)
  (repeat' split) <;> (try simp [*, apply_ite State.pending, apply_ite State.mem]) <;> (try (repeat' split) <;> simp [*, apply_ite State.pending, apply_ite State.mem])

@[simp] theorem addUndelivered_pending (a0) (s) : (addUndelivered a0 s).pending = s.pending := by
  unfold addUndelivered
  (try dsimp only)
  (repeat' split) <;> (try simp [*, apply_ite State.pending, apply_ite State.mem]) <;> (try (repeat' split) <;> simp [*, apply_ite State.pending, apply_ite State.mem])
@[simp] theorem addUndelivered_mem (a0) (s) : (addUndelivered a0 s).mem = s.mem := by
  unfold addUndelivered
  (try dsimp only)
  (repeat' split) <;> (try simp [*, apply_ite State.pending, apply_ite State.mem]) <;> (try (repeat' split) <;> simp [*, apply_ite State.pending, apply_ite State.mem])

@[simp] theorem undeliver_pending (a0) (s) : (undeliver a0 s).pending = s.pending := by
  unfold undeliver
  simp [*, apply_ite State.pending, apply_ite State.mem]
@[simp] theorem undeliver_mem (a0) (s) : (undeliver a0 s).mem = s.mem := by
  unfold undeliver
  simp [*, apply_ite State.pending, apply_ite State.mem]

@[simp] theorem maintain_pending (a0) (a1) (a2) (s) : (maintain a0 a1 a2 s).pending = s.pending := by
  unfold maintain
  simp [*, apply_ite State.pending, apply_ite State.mem]
@[simp] theorem maintain_mem (a0) (a1) (a2) (s) : (maintain a0 a1 a2 s).mem = s.mem := by
  unfold maintain
  simp [*, apply_ite State.pending, apply_ite State.mem]

@[simp] theorem sendCut_pending (a0) (s) : (sendCut a0 s).pending = s.pending := by
  unfold sendCut
  simp [*, apply_ite State.pending, apply_ite State.mem]
@[simp] theorem sendCut_mem (a0) (s) : (sendCut a0 s).mem = s.mem := by
  unfold sendCut
  simp [*, apply_ite State.pending, apply_ite State.mem]

@[simp] theorem sendJoin_pending (a0) (s) : (sendJoin a0 s).pending = s.pending := by
  unfold sendJoin
  simp [*, apply_ite State.pending, apply_ite State.mem]
@[simp] theorem sendJoin_mem (a0) (s) : (sendJoin a0 s).mem = s.mem := by
  unfold sendJoin
  simp [*, apply_ite State.pending, apply_ite State.mem]

@[simp] theorem routeCut_pending (a0) (a1) (a2) (s) : (routeCut a0 a1 a2 s).pending = s.pending := by
  unfold routeCut
  simp [*, apply_ite State.pending, apply_ite State.mem]
theorem routeCut_wf (a0) (a1) (a2) (s) (h : Memory.wf s.mem = true) : Memory.wf (routeCut a0 a1 a2 s).mem = true := by
  unfold routeCut
  (try dsimp only)
  (repeat' (first | with_reducible assumption | split | (with_reducible refine foldl_wf _ _ _ ?_ (fun t x h => ?_)) | (with_reducible refine afterRoutes_wf _ _ ?_))) <;> (try simp) <;>
    (repeat' (first | with_reducible assumption | split | (with_reducible refine foldl_wf _ _ _ ?_ (fun t x h => ?_)) | (with_reducible refine afterRoutes_wf _ _ ?_))) <;> (try simp) <;>
    (repeat' (first | with_reducible assumption | split | (with_reducible refine foldl_wf _ _ _ ?_ (fun t x h => ?_)) | (with_reducible refine afterRoutes_wf _ _ ?_))) <;> simp_all

@[simp] theorem routeJoin_pending (a0) (a1) (a2) (s) : (routeJoin a0 a1 a2 s).pending = s.pending := by
  unfold routeJoin
  simp [*, apply_ite State.pending, apply_ite State.mem]
theorem routeJoin_wf (a0) (a1) (a2) (s) (h : Memory.wf s.mem = true) : Memory.wf (routeJoin a0 a1 a2 s).mem = true := by
  unfold routeJoin
  (try dsimp only)
  (repeat' (first | with_reducible assumption | split | (with_reducible refine foldl_wf _ _ _ ?_ (fun t x h => ?_)) | (with_reducible refine afterRoutes_wf _ _ ?_))) <;> (try simp) <;>
    (repeat' (first | with_reducible assumption | split | (with_reducible refine foldl_wf _ _ _ ?_ (fun t x h => ?_)) | (with_reducible refine afterRoutes_wf _ _ ?_))) <;> (try simp) <;>
    (repeat' (first | with_reducible assumption | split | (with_reducible refine foldl_wf _ _ _ ?_ (fun t x h => ?_)) | (with_reducible refine afterRoutes_wf _ _ ?_))) <;> simp_all

@[simp] theorem sendNeighbour_pending (a0) (s) : (sendNeighbour a0 s).pending = s.pending := by
  unfold sendNeighbour
  simp
@[simp] theorem sendNeighbour_mem (a0) (s) : (sendNeighbour a0 s).mem = s.mem := by
  unfold sendNeighbour
  simp

@[simp] theorem markAll_pending (a0) (s) : (markAll a0 s).pending = s.pending := by
  unfold markAll
  simp
@[simp] theorem markAll_mem (a0) (s) : (markAll a0 s).mem = s.mem := by
  unfold markAll
  simp

@[simp] theorem buddyBoot_pending (a0) (a1) (s) : (buddyBoot a0 a1 s).pending = s.pending := by
  unfold buddyBoot
  simp
@[simp] theorem buddyBoot_mem (a0) (a1) (s) : (buddyBoot a0 a1 s).mem = s.mem := by
  unfold buddyBoot
  simp

@[simp] theorem neighbour_pending (a0) (a1) (a2) (a3) (a4) (s) : (neighbour a0 a1 a2 a3 a4 s).pending = s.pending := by
  unfold neighbour
  simp [*, apply_ite State.pending, apply_ite State.mem]
theorem neighbour_wf (a0) (a1) (a2) (a3) (a4) (s) (h : Memory.wf s.mem = true) : Memory.wf (neighbour a0 a1 a2 a3 a4 s).mem = true := by
  unfold neighbour
  (try dsimp only)
  (repeat' (first | with_reducible assumption | split | (with_reducible refine foldl_wf _ _ _ ?_ (fun t x h => ?_)) | (with_reducible refine afterRoutes_wf _ _ ?_))) <;> (try simp) <;>
    (repeat' (first | with_reducible assumption | split | (with_reducible refine foldl_wf _ _ _ ?_ (fun t x h => ?_)) | (with_reducible refine afterRoutes_wf _ _ ?_))) <;> (try simp) <;>
    (repeat' (first | with_reducible assumption | split | (with_reducible refine foldl_wf _ _ _ ?_ (fun t x h => ?_)) | (with_reducible refine afterRoutes_wf _ _ ?_))) <;> simp_all

@[simp] theorem discoveryResult_pending (a0) (a1) (a2) (s) : (discoveryResult a0 a1 a2 s).pending = s.pending := by
  unfold discoveryResult
  simp
@[simp] theorem discoveryResult_mem (a0) (a1) (a2) (s) : (discoveryResult a0 a1 a2 s).mem = s.mem := by
  unfold discoveryResult
  simp

@[simp] theorem raiseChanged_pending (s) : (raiseChanged s).pending = s.pending := by
  unfold raiseChanged
  simp
@[simp] theorem raiseChanged_mem (s) : (raiseChanged s).mem = s.mem := by
  unfold raiseChanged
  simp

@[simp] theorem sendTopo_pending (s) : (sendTopo s).pending = s.pending := by
  unfold sendTopo
  simp
@[simp] theorem sendTopo_mem (s) : (sendTopo s).mem = s.mem := by
  unfold sendTopo
  simp

@[simp] theorem finishDiscovery_pending (a0) (a1) (a2) (s) : (finishDiscovery a0 a1 a2 s).pending = s.pending := by
  unfold finishDiscovery
  simp [*, apply_ite State.pending, apply_ite State.mem]
theorem finishDiscovery_wf (a0) (a1) (a2) (s) (h : Memory.wf s.mem = true) : Memory.wf (finishDiscovery a0 a1 a2 s).mem = true := by
  unfold finishDiscovery
  (try dsimp only)
  (repeat' (first | with_reducible assumption | split | (with_reducible refine foldl_wf _ _ _ ?_ (fun t x h => ?_)) | (with_reducible refine afterRoutes_wf _ _ ?_))) <;> (try simp) <;>
    (repeat' (first | with_reducible assumption | split | (with_reducible refine foldl_wf _ _ _ ?_ (fun t x h => ?_)) | (with_reducible refine afterRoutes_wf _ _ ?_))) <;> (try simp) <;>
    (repeat' (first | with_reducible assumption | split | (with_reducible refine foldl_wf _ _ _ ?_ (fun t x h => ?_)) | (with_reducible refine afterRoutes_wf _ _ ?_))) <;> simp_all

@[simp] theorem probeWest_pending (a0) (a1) (s) : (probeWest a0 a1 s).pending = s.pending := by
  unfold probeWest
  simp [*, apply_ite State.pending, apply_ite State.mem]
theorem probeWest_wf (a0) (a1) (s) (h : Memory.wf s.mem = true) : Memory.wf (probeWest a0 a1 s).mem = true := by
  unfold probeWest
  (try dsimp only)
  (repeat' (first | with_reducible assumption | split | (with_reducible refine foldl_wf _ _ _ ?_ (fun t x h => ?_)) | (with_reducible refine finishDiscovery_wf _ _ _ _ ?_))) <;> (try simp) <;>
    (repeat' (first | with_reducible assumption | split | (with_reducible refine foldl_wf _ _ _ ?_ (fun t x h => ?_)) | (with_reducible refine finishDiscovery_wf _ _ _ _ ?_))) <;> (try simp) <;>
    (repeat' (first | with_reducible assumption | split | (with_reducible refine foldl_wf _ _ _ ?_ (fun t x h => ?_)) | (with_reducible refine finishDiscovery_wf _ _ _ _ ?_))) <;> simp_all

@[simp] theorem startDiscovery_pending (a0) (s) : (startDiscovery a0 s).pending = s.pending := by
  unfold startDiscovery
  simp [*, apply_ite State.pending, apply_ite State.mem]
theorem startDiscovery_wf (a0) (s) (h : Memory.wf s.mem = true) : Memory.wf (startDiscovery a0 s).mem = true := by
  unfold startDiscovery
  (try dsimp only)
  (repeat' (first | with_reducible assumption | split | (with_reducible refine foldl_wf _ _ _ ?_ (fun t x h => ?_)) | (with_reducible refine probeWest_wf _ _ _ ?_))) <;> (try simp) <;>
    (repeat' (first | with_reducible assumption | split | (with_reducible refine foldl_wf _ _ _ ?_ (fun t x h => ?_)) | (with_reducible refine probeWest_wf _ _ _ ?_))) <;> (try simp) <;>
    (repeat' (first | with_reducible assumption | split | (with_reducible refine foldl_wf _ _ _ ?_ (fun t x h => ?_)) | (with_reducible refine probeWest_wf _ _ _ ?_))) <;> simp_all

@[simp] theorem probe_pending (a0) (a1) (s) : (probe a0 a1 s).pending = s.pending := by
  unfold probe
  (try dsimp only)
  (repeat' split) <;> (try simp [*, apply_ite State.pending, apply_ite State.mem]) <;> (try (repeat' split) <;> simp [*, apply_ite State.pending, apply_ite State.mem])
theorem probe_wf (a0) (a1) (s) (h : Memory.wf s.mem = true) : Memory.wf (probe a0 a1 s).mem = true := by
  unfold probe
  (try dsimp only)
  (repeat' (first | with_reducible assumption | split | (with_reducible refine foldl_wf _ _ _ ?_ (fun t x h => ?_)) | (with_reducible refine finishDiscovery_wf _ _ _ _ ?_))) <;> (try simp) <;>
    (repeat' (first | with_reducible assumption | split | (with_reducible refine foldl_wf _ _ _ ?_ (fun t x h => ?_)) | (with_reducible refine finishDiscovery_wf _ _ _ _ ?_))) <;> (try simp) <;>
    (repeat' (first | with_reducible assumption | split | (with_reducible refine foldl_wf _ _ _ ?_ (fun t x h => ?_)) | (with_reducible refine finishDiscovery_wf _ _ _ _ ?_))) <;> simp_all

@[simp] theorem probeEnd_pending (a0) (a1) (s) : (probeEnd a0 a1 s).pending = s.pending := by
  unfold probeEnd
  (try dsimp only)
  (repeat' split) <;> (try simp [*, apply_ite State.pending, apply_ite State.mem]) <;> (try (repeat' split) <;> simp [*, apply_ite State.pending, apply_ite State.mem])
theorem probeEnd_wf (a0) (a1) (s) (h : Memory.wf s.mem = true) : Memory.wf (probeEnd a0 a1 s).mem = true := by
  unfold probeEnd
  (try dsimp only)
  (repeat' (first | with_reducible assumption | split | (with_reducible refine foldl_wf _ _ _ ?_ (fun t x h => ?_)) | (with_reducible refine finishDiscovery_wf _ _ _ _ ?_) | (with_reducible refine probeWest_wf _ _ _ ?_))) <;> (try simp) <;>
    (repeat' (first | with_reducible assumption | split | (with_reducible refine foldl_wf _ _ _ ?_ (fun t x h => ?_)) | (with_reducible refine finishDiscovery_wf _ _ _ _ ?_) | (with_reducible refine probeWest_wf _ _ _ ?_))) <;> (try simp) <;>
    (repeat' (first | with_reducible assumption | split | (with_reducible refine foldl_wf _ _ _ ?_ (fun t x h => ?_)) | (with_reducible refine finishDiscovery_wf _ _ _ _ ?_) | (with_reducible refine probeWest_wf _ _ _ ?_))) <;> simp_all

@[simp] theorem topo_pending (a0) (a1) (s) : (topo a0 a1 s).pending = s.pending := by
  unfold topo
  simp [*, apply_ite State.pending, apply_ite State.mem]
theorem topo_wf (a0) (a1) (s) (h : Memory.wf s.mem = true) : Memory.wf (topo a0 a1 s).mem = true := by
  unfold topo
  (try dsimp only)
  (repeat' (first | with_reducible assumption | split | (with_reducible refine foldl_wf _ _ _ ?_ (fun t x h => ?_)) | (with_reducible refine afterRoutes_wf _ _ ?_))) <;> (try simp) <;>
    (repeat' (first | with_reducible assumption | split | (with_reducible refine foldl_wf _ _ _ ?_ (fun t x h => ?_)) | (with_reducible refine afterRoutes_wf _ _ ?_))) <;> (try simp) <;>
    (repeat' (first | with_reducible assumption | split | (with_reducible refine foldl_wf _ _ _ ?_ (fun t x h => ?_)) | (with_reducible refine afterRoutes_wf _ _ ?_))) <;> simp_all

@[simp] theorem sendCheck_pending (a0) (a1) (a2) (a3) (s) : (sendCheck a0 a1 a2 a3 s).pending = s.pending := by
  unfold sendCheck
  simp
@[simp] theorem sendCheck_mem (a0) (a1) (a2) (a3) (s) : (sendCheck a0 a1 a2 a3 s).mem = s.mem := by
  unfold sendCheck
  simp

@[simp] theorem closeExport_pending (a0) (s) : (closeExport a0 s).pending = s.pending := by
  unfold closeExport
  simp
@[simp] theorem closeExport_mem (a0) (s) : (closeExport a0 s).mem = s.mem := by
  unfold closeExport
  simp

@[simp] theorem clearTandem_pending (a0) (s) : (clearTandem a0 s).pending = s.pending := by
  unfold clearTandem
  (try dsimp only)
  (repeat' split) <;> (try simp [*, apply_ite State.pending, apply_ite State.mem]) <;> (repeat' split) <;> (try simp [*, apply_ite State.pending, apply_ite State.mem]) <;>
    (refine foldl_p _ _ _ ?_; intro t x; (try dsimp only); (repeat' split) <;> simp [*, apply_ite State.pending, apply_ite State.mem])
@[simp] theorem clearTandem_mem (a0) (s) : (clearTandem a0 s).mem = s.mem := by
  unfold clearTandem
  (try dsimp only)
  (repeat' split) <;> (try simp [*, apply_ite State.pending, apply_ite State.mem]) <;> (repeat' split) <;> (try simp [*, apply_ite State.pending, apply_ite State.mem]) <;>
    (refine foldl_m _ _ _ ?_; intro t x; (try dsimp only); (repeat' split) <;> simp [*, apply_ite State.pending, apply_ite State.mem])

@[simp] theorem windowCheck_pending (a0) (a1) (a2) (s) : (windowCheck a0 a1 a2 s).pending = s.pending := by
  unfold windowCheck
  simp
@[simp] theorem windowCheck_mem (a0) (a1) (a2) (s) : (windowCheck a0 a1 a2 s).mem = s.mem := by
  unfold windowCheck
  simp

@[simp] theorem windowRsp_pending (a0) (a1) (s) : (windowRsp a0 a1 s).pending = s.pending := by
  unfold windowRsp
  (try dsimp only)
  (repeat' split) <;> (try simp [*, apply_ite State.pending, apply_ite State.mem]) <;> (try (repeat' split) <;> simp [*, apply_ite State.pending, apply_ite State.mem])
@[simp] theorem windowRsp_mem (a0) (a1) (s) : (windowRsp a0 a1 s).mem = s.mem := by
  unfold windowRsp
  (try dsimp only)
  (repeat' split) <;> (try simp [*, apply_ite State.pending, apply_ite State.mem]) <;> (try (repeat' split) <;> simp [*, apply_ite State.pending, apply_ite State.mem])

@[simp] theorem hdmCommit_pending (a0) (a1) (a2) (s) : (hdmCommit a0 a1 a2 s).pending = s.pending := by
  unfold hdmCommit
  (try dsimp only)
  (repeat' split) <;> (try simp [*, apply_ite State.pending, apply_ite State.mem]) <;> (try (repeat' split) <;> simp [*, apply_ite State.pending, apply_ite State.mem])
@[simp] theorem hdmCommit_mem (a0) (a1) (a2) (s) : (hdmCommit a0 a1 a2 s).mem = s.mem := by
  unfold hdmCommit
  (try dsimp only)
  (repeat' split) <;> (try simp [*, apply_ite State.pending, apply_ite State.mem]) <;> (try (repeat' split) <;> simp [*, apply_ite State.pending, apply_ite State.mem])

@[simp] theorem dropPresence_pending (a0) (s) : (dropPresence a0 s).pending = s.pending := by
  unfold dropPresence
  simp
theorem dropPresence_wf (a0) (s) (h : Memory.wf s.mem = true) : Memory.wf (dropPresence a0 s).mem = true := by
  unfold dropPresence
  (try dsimp only)
  (repeat' (first | with_reducible assumption | split | (with_reducible refine foldl_wf _ _ _ ?_ (fun t x h => ?_)) | (with_reducible refine answerSnoop_wf _ _ _ ?_))) <;> (try simp) <;>
    (repeat' (first | with_reducible assumption | split | (with_reducible refine foldl_wf _ _ _ ?_ (fun t x h => ?_)) | (with_reducible refine answerSnoop_wf _ _ _ ?_))) <;> (try simp) <;>
    (repeat' (first | with_reducible assumption | split | (with_reducible refine foldl_wf _ _ _ ?_ (fun t x h => ?_)) | (with_reducible refine answerSnoop_wf _ _ _ ?_))) <;> simp_all

@[simp] theorem biEnable_pending (a0) (a1) (a2) (s) : (biEnable a0 a1 a2 s).pending = s.pending := by
  unfold biEnable
  simp [*, apply_ite State.pending, apply_ite State.mem]
theorem biEnable_wf (a0) (a1) (a2) (s) (h : Memory.wf s.mem = true) : Memory.wf (biEnable a0 a1 a2 s).mem = true := by
  unfold biEnable
  (try dsimp only)
  (repeat' (first | with_reducible assumption | split | (with_reducible refine foldl_wf _ _ _ ?_ (fun t x h => ?_)) | (with_reducible refine dropPresence_wf _ _ ?_))) <;> (try simp) <;>
    (repeat' (first | with_reducible assumption | split | (with_reducible refine foldl_wf _ _ _ ?_ (fun t x h => ?_)) | (with_reducible refine dropPresence_wf _ _ ?_))) <;> (try simp) <;>
    (repeat' (first | with_reducible assumption | split | (with_reducible refine foldl_wf _ _ _ ?_ (fun t x h => ?_)) | (with_reducible refine dropPresence_wf _ _ ?_))) <;> simp_all

@[simp] theorem dropJobs_pending (a0) (s) : (dropJobs a0 s).pending = s.pending := by
  unfold dropJobs
  simp
@[simp] theorem dropJobs_mem (a0) (s) : (dropJobs a0 s).mem = s.mem := by
  unfold dropJobs
  simp

@[simp] theorem headDown_pending (a0) (a1) (s) : (headDown a0 a1 s).pending = s.pending := by
  unfold headDown
  simp [*, apply_ite State.pending, apply_ite State.mem]
theorem headDown_wf (a0) (a1) (s) (h : Memory.wf s.mem = true) : Memory.wf (headDown a0 a1 s).mem = true := by
  unfold headDown
  (try dsimp only)
  (repeat' (first | with_reducible assumption | split | (with_reducible refine foldl_wf _ _ _ ?_ (fun t x h => ?_)) | (with_reducible refine dropHead_wf _ _ ?_))) <;> (try simp) <;>
    (repeat' (first | with_reducible assumption | split | (with_reducible refine foldl_wf _ _ _ ?_ (fun t x h => ?_)) | (with_reducible refine dropHead_wf _ _ ?_))) <;> (try simp) <;>
    (repeat' (first | with_reducible assumption | split | (with_reducible refine foldl_wf _ _ _ ?_ (fun t x h => ?_)) | (with_reducible refine dropHead_wf _ _ ?_))) <;> simp_all

@[simp] theorem dropVotes_pending (a0) (s) : (dropVotes a0 s).pending = s.pending := by
  unfold dropVotes
  simp [*, apply_ite State.pending, apply_ite State.mem]
@[simp] theorem dropVotes_mem (a0) (s) : (dropVotes a0 s).mem = s.mem := by
  unfold dropVotes
  simp [*, apply_ite State.pending, apply_ite State.mem]

@[simp] theorem resetHead_pending (a0) (a1) (s) : (resetHead a0 a1 s).pending = s.pending := by
  unfold resetHead
  simp
theorem resetHead_wf (a0) (a1) (s) (h : Memory.wf s.mem = true) : Memory.wf (resetHead a0 a1 s).mem = true := by
  unfold resetHead
  (try dsimp only)
  (repeat' (first | with_reducible assumption | split | (with_reducible refine foldl_wf _ _ _ ?_ (fun t x h => ?_)) | (with_reducible refine dropHead_wf _ _ ?_))) <;> (try simp) <;>
    (repeat' (first | with_reducible assumption | split | (with_reducible refine foldl_wf _ _ _ ?_ (fun t x h => ?_)) | (with_reducible refine dropHead_wf _ _ ?_))) <;> (try simp) <;>
    (repeat' (first | with_reducible assumption | split | (with_reducible refine foldl_wf _ _ _ ?_ (fun t x h => ?_)) | (with_reducible refine dropHead_wf _ _ ?_))) <;> simp_all

@[simp] theorem convReset_pending (a0) (a1) (s) : (convReset a0 a1 s).pending = s.pending := by
  unfold convReset
  simp [*, apply_ite State.pending, apply_ite State.mem]
theorem convReset_wf (a0) (a1) (s) (h : Memory.wf s.mem = true) : Memory.wf (convReset a0 a1 s).mem = true := by
  unfold convReset
  (try dsimp only)
  (repeat' (first | with_reducible assumption | split | (with_reducible refine foldl_wf _ _ _ ?_ (fun t x h => ?_)) | (with_reducible refine resetHead_wf _ _ _ ?_))) <;> (try simp) <;>
    (repeat' (first | with_reducible assumption | split | (with_reducible refine foldl_wf _ _ _ ?_ (fun t x h => ?_)) | (with_reducible refine resetHead_wf _ _ _ ?_))) <;> (try simp) <;>
    (repeat' (first | with_reducible assumption | split | (with_reducible refine foldl_wf _ _ _ ?_ (fun t x h => ?_)) | (with_reducible refine resetHead_wf _ _ _ ?_))) <;> simp_all

@[simp] theorem perstDeassert_pending (a0) (a1) (s) : (perstDeassert a0 a1 s).pending = s.pending := by
  unfold perstDeassert
  simp [*, apply_ite State.pending, apply_ite State.mem]
@[simp] theorem perstDeassert_mem (a0) (a1) (s) : (perstDeassert a0 a1 s).mem = s.mem := by
  unfold perstDeassert
  simp [*, apply_ite State.pending, apply_ite State.mem]

@[simp] theorem headLinkUp_pending (a0) (a1) (a2) (s) : (headLinkUp a0 a1 a2 s).pending = s.pending := by
  unfold headLinkUp
  simp [*, apply_ite State.pending, apply_ite State.mem]
@[simp] theorem headLinkUp_mem (a0) (a1) (a2) (s) : (headLinkUp a0 a1 a2 s).mem = s.mem := by
  unfold headLinkUp
  simp [*, apply_ite State.pending, apply_ite State.mem]

@[simp] theorem flushMsi_pending (a0) (s) : (flushMsi a0 s).pending = s.pending := by
  unfold flushMsi
  simp [*, apply_ite State.pending, apply_ite State.mem]
@[simp] theorem flushMsi_mem (a0) (s) : (flushMsi a0 s).mem = s.mem := by
  unfold flushMsi
  simp [*, apply_ite State.pending, apply_ite State.mem]

@[simp] theorem routeReq_pending (a0) (a1) (a2) (a3) (a4) (a5) (s) : (routeReq a0 a1 a2 a3 a4 a5 s).pending = s.pending := by
  unfold routeReq
  (try dsimp only)
  (repeat' split) <;> (try simp [*, apply_ite State.pending, apply_ite State.mem]) <;> (try (repeat' split) <;> simp [*, apply_ite State.pending, apply_ite State.mem])
@[simp] theorem routeReq_mem (a0) (a1) (a2) (a3) (a4) (a5) (s) : (routeReq a0 a1 a2 a3 a4 a5 s).mem = s.mem := by
  unfold routeReq
  (try dsimp only)
  (repeat' split) <;> (try simp [*, apply_ite State.pending, apply_ite State.mem]) <;> (try (repeat' split) <;> simp [*, apply_ite State.pending, apply_ite State.mem])

@[simp] theorem memRequest_pending (a0) (a1) (a2) (a3) (a4) (a5) (a6) (s) : (memRequest a0 a1 a2 a3 a4 a5 a6 s).pending = s.pending := by
  unfold memRequest
  (try dsimp only)
  (repeat' split) <;> (try simp [*, apply_ite State.pending, apply_ite State.mem]) <;> (try (repeat' split) <;> simp [*, apply_ite State.pending, apply_ite State.mem])
@[simp] theorem memRequest_mem (a0) (a1) (a2) (a3) (a4) (a5) (a6) (s) : (memRequest a0 a1 a2 a3 a4 a5 a6 s).mem = s.mem := by
  unfold memRequest
  (try dsimp only)
  (repeat' split) <;> (try simp [*, apply_ite State.pending, apply_ite State.mem]) <;> (try (repeat' split) <;> simp [*, apply_ite State.pending, apply_ite State.mem])

@[simp] theorem biConflict_pending (a0) (a1) (s) : (biConflict a0 a1 s).pending = s.pending := by
  unfold biConflict
  (try dsimp only)
  (repeat' split) <;> (try simp [*, apply_ite State.pending, apply_ite State.mem]) <;> (try (repeat' split) <;> simp [*, apply_ite State.pending, apply_ite State.mem])
@[simp] theorem biConflict_mem (a0) (a1) (s) : (biConflict a0 a1 s).mem = s.mem := by
  unfold biConflict
  (try dsimp only)
  (repeat' split) <;> (try simp [*, apply_ite State.pending, apply_ite State.mem]) <;> (try (repeat' split) <;> simp [*, apply_ite State.pending, apply_ite State.mem])

@[simp] theorem enterPath_pending (a0) (s) : (enterPath a0 s).pending = s.pending := by
  unfold enterPath
  simp [*, apply_ite State.pending, apply_ite State.mem]
theorem enterPath_wf (a0) (s) (h : Memory.wf s.mem = true) : Memory.wf (enterPath a0 s).mem = true := by
  unfold enterPath
  (try dsimp only)
  (repeat' (first | with_reducible assumption | split | (with_reducible refine foldl_wf _ _ _ ?_ (fun t x h => ?_)) | (with_reducible refine dirAccess_wf _ _ ?_))) <;> (try simp) <;>
    (repeat' (first | with_reducible assumption | split | (with_reducible refine foldl_wf _ _ _ ?_ (fun t x h => ?_)) | (with_reducible refine dirAccess_wf _ _ ?_))) <;> (try simp) <;>
    (repeat' (first | with_reducible assumption | split | (with_reducible refine foldl_wf _ _ _ ?_ (fun t x h => ?_)) | (with_reducible refine dirAccess_wf _ _ ?_))) <;> simp_all

@[simp] theorem dispatchOne_pending (a0) (s) : (dispatchOne a0 s).2.pending = s.pending := by
  unfold dispatchOne
  (try dsimp only)
  (repeat' split) <;> (try simp [*, apply_ite State.pending, apply_ite State.mem]) <;> (try (repeat' split) <;> simp [*, apply_ite State.pending, apply_ite State.mem])
@[simp] theorem dispatchOne_mem (a0) (s) : (dispatchOne a0 s).2.mem = s.mem := by
  unfold dispatchOne
  (try dsimp only)
  (repeat' split) <;> (try simp [*, apply_ite State.pending, apply_ite State.mem]) <;> (try (repeat' split) <;> simp [*, apply_ite State.pending, apply_ite State.mem])

@[simp] theorem cycleRequests_pending (n : Nat) (rs : List Req) (s : State) : (cycleRequests n rs s).2.pending = s.pending := by
  induction n generalizing rs s with
  | zero => rfl
  | succ n ih =>
    have h := dispatchOne_pending rs.length s
    unfold cycleRequests
    split <;> rename_i e <;> rw [e] at h
    · rw [ih]; exact h
    · exact h
@[simp] theorem cycleRequests_mem (n : Nat) (rs : List Req) (s : State) : (cycleRequests n rs s).2.mem = s.mem := by
  induction n generalizing rs s with
  | zero => rfl
  | succ n ih =>
    have h := dispatchOne_mem rs.length s
    unfold cycleRequests
    split <;> rename_i e <;> rw [e] at h
    · rw [ih]; exact h
    · exact h

@[simp] theorem dispatch_pending (a0) (s) : (dispatch a0 s).pending = s.pending := by
  unfold dispatch
  simp [*, apply_ite State.pending, apply_ite State.mem]
theorem dispatch_wf (a0) (s) (h : Memory.wf s.mem = true) : Memory.wf (dispatch a0 s).mem = true := by
  unfold dispatch
  (try dsimp only)
  (repeat' (first | with_reducible assumption | split | (with_reducible refine foldl_wf _ _ _ ?_ (fun t x h => ?_)) | (with_reducible refine enterPath_wf _ _ ?_))) <;> (try simp) <;>
    (repeat' (first | with_reducible assumption | split | (with_reducible refine foldl_wf _ _ _ ?_ (fun t x h => ?_)) | (with_reducible refine enterPath_wf _ _ ?_))) <;> (try simp) <;>
    (repeat' (first | with_reducible assumption | split | (with_reducible refine foldl_wf _ _ _ ?_ (fun t x h => ?_)) | (with_reducible refine enterPath_wf _ _ ?_))) <;> simp_all

@[simp] theorem injectLine_pending (a0) (a1) (a2) (s) : (injectLine a0 a1 a2 s).2.pending = s.pending := by
  unfold injectLine
  (try dsimp only)
  (repeat' split) <;> (try simp [*, apply_ite State.pending, apply_ite State.mem]) <;> (try (repeat' split) <;> simp [*, apply_ite State.pending, apply_ite State.mem])
@[simp] theorem injectLine_mem (a0) (a1) (a2) (s) : (injectLine a0 a1 a2 s).2.mem = s.mem := by
  unfold injectLine
  (try dsimp only)
  (repeat' split) <;> (try simp [*, apply_ite State.pending, apply_ite State.mem]) <;> (try (repeat' split) <;> simp [*, apply_ite State.pending, apply_ite State.mem])

@[simp] theorem injectBlock_pending (a0) (a1) (a2) (a3) (s) : (injectBlock a0 a1 a2 a3 s).2.pending = s.pending := by
  unfold injectBlock
  (try dsimp only)
  (repeat' split) <;> (try simp [*, apply_ite State.pending, apply_ite State.mem]) <;> (try (repeat' split) <;> simp [*, apply_ite State.pending, apply_ite State.mem])
@[simp] theorem injectBlock_mem (a0) (a1) (a2) (a3) (s) : (injectBlock a0 a1 a2 a3 s).2.mem = s.mem := by
  unfold injectBlock
  (try dsimp only)
  (repeat' split) <;> (try simp [*, apply_ite State.pending, apply_ite State.mem]) <;> (try (repeat' split) <;> simp [*, apply_ite State.pending, apply_ite State.mem])

@[simp] theorem blockArrives_pending (a0) (a1) (a2) (a3) (a4) (s) : (blockArrives a0 a1 a2 a3 a4 s).pending = s.pending := by
  unfold blockArrives
  (try dsimp only)
  (repeat' split) <;> (try simp [*, apply_ite State.pending, apply_ite State.mem]) <;> (try (repeat' split) <;> simp [*, apply_ite State.pending, apply_ite State.mem])
theorem blockArrives_wf (a0) (a1) (a2) (a3) (a4) (s) (h : Memory.wf s.mem = true) : Memory.wf (blockArrives a0 a1 a2 a3 a4 s).mem = true := by
  unfold blockArrives
  (try dsimp only)
  (repeat' (first | with_reducible assumption | split | (with_reducible refine foldl_wf _ _ _ ?_ (fun t x h => ?_)) | (with_reducible refine blockReturn_wf _ _ _ _ _ _ _ ?_))) <;> (try simp) <;>
    (repeat' (first | with_reducible assumption | split | (with_reducible refine foldl_wf _ _ _ ?_ (fun t x h => ?_)) | (with_reducible refine blockReturn_wf _ _ _ _ _ _ _ ?_))) <;> (try simp) <;>
    (repeat' (first | with_reducible assumption | split | (with_reducible refine foldl_wf _ _ _ ?_ (fun t x h => ?_)) | (with_reducible refine blockReturn_wf _ _ _ _ _ _ _ ?_))) <;> simp_all

@[simp] theorem dramReturn_pending (a0) (a1) (s) : (dramReturn a0 a1 s).pending = s.pending := by
  unfold dramReturn
  (try dsimp only)
  (repeat' split) <;> (try simp [*, apply_ite State.pending, apply_ite State.mem]) <;> (try (repeat' split) <;> simp [*, apply_ite State.pending, apply_ite State.mem])
theorem dramReturn_wf (a0) (a1) (s) (h : Memory.wf s.mem = true) : Memory.wf (dramReturn a0 a1 s).mem = true := by
  unfold dramReturn
  (try dsimp only)
  (repeat' (first | with_reducible assumption | split | (with_reducible refine foldl_wf _ _ _ ?_ (fun t x h => ?_)) | (with_reducible refine lineReturn_wf _ _ _ _ _ _ _ ?_) | (with_reducible refine sideReturn_wf _ _ _ _ _ _ _ ?_) | (with_reducible refine blockArrives_wf _ _ _ _ _ _ ?_))) <;> (try simp) <;>
    (repeat' (first | with_reducible assumption | split | (with_reducible refine foldl_wf _ _ _ ?_ (fun t x h => ?_)) | (with_reducible refine lineReturn_wf _ _ _ _ _ _ _ ?_) | (with_reducible refine sideReturn_wf _ _ _ _ _ _ _ ?_) | (with_reducible refine blockArrives_wf _ _ _ _ _ _ ?_))) <;> (try simp) <;>
    (repeat' (first | with_reducible assumption | split | (with_reducible refine foldl_wf _ _ _ ?_ (fun t x h => ?_)) | (with_reducible refine lineReturn_wf _ _ _ _ _ _ _ ?_) | (with_reducible refine sideReturn_wf _ _ _ _ _ _ _ ?_) | (with_reducible refine blockArrives_wf _ _ _ _ _ _ ?_))) <;> simp_all

@[simp] theorem degradedReturn_pending (a0) (a1) (s) : (degradedReturn a0 a1 s).pending = s.pending := by
  unfold degradedReturn
  (try dsimp only)
  (repeat' split) <;> (try simp [*, apply_ite State.pending, apply_ite State.mem]) <;> (try (repeat' split) <;> simp [*, apply_ite State.pending, apply_ite State.mem])
theorem degradedReturn_wf (a0) (a1) (s) (h : Memory.wf s.mem = true) : Memory.wf (degradedReturn a0 a1 s).mem = true := by
  unfold degradedReturn
  (try dsimp only)
  (repeat' (first | with_reducible assumption | split | (with_reducible refine foldl_wf _ _ _ ?_ (fun t x h => ?_)) | (with_reducible refine lineReturn_wf _ _ _ _ _ _ _ ?_) | (with_reducible refine blockReturn_wf _ _ _ _ _ _ _ ?_))) <;> (try simp) <;>
    (repeat' (first | with_reducible assumption | split | (with_reducible refine foldl_wf _ _ _ ?_ (fun t x h => ?_)) | (with_reducible refine lineReturn_wf _ _ _ _ _ _ _ ?_) | (with_reducible refine blockReturn_wf _ _ _ _ _ _ _ ?_))) <;> (try simp) <;>
    (repeat' (first | with_reducible assumption | split | (with_reducible refine foldl_wf _ _ _ ?_ (fun t x h => ?_)) | (with_reducible refine lineReturn_wf _ _ _ _ _ _ _ ?_) | (with_reducible refine blockReturn_wf _ _ _ _ _ _ _ ?_))) <;> simp_all

@[simp] theorem writeAccepted_pending (a0) (s) : (writeAccepted a0 s).pending = s.pending := by
  unfold writeAccepted
  (try dsimp only)
  (repeat' split) <;> (try simp [*, apply_ite State.pending, apply_ite State.mem]) <;> (try (repeat' split) <;> simp [*, apply_ite State.pending, apply_ite State.mem])
theorem writeAccepted_wf (a0) (s) (h : Memory.wf s.mem = true) : Memory.wf (writeAccepted a0 s).mem = true := by
  unfold writeAccepted
  (try dsimp only)
  (repeat' (first | with_reducible assumption | split | (with_reducible refine foldl_wf _ _ _ ?_ (fun t x h => ?_)) | (with_reducible refine wakeOrdered_wf _ _ ?_) | (with_reducible refine acceptWrite_wf _ _ _ _ _ ?_))) <;> (try simp) <;>
    (repeat' (first | with_reducible assumption | split | (with_reducible refine foldl_wf _ _ _ ?_ (fun t x h => ?_)) | (with_reducible refine wakeOrdered_wf _ _ ?_) | (with_reducible refine acceptWrite_wf _ _ _ _ _ ?_))) <;> (try simp) <;>
    (repeat' (first | with_reducible assumption | split | (with_reducible refine foldl_wf _ _ _ ?_ (fun t x h => ?_)) | (with_reducible refine wakeOrdered_wf _ _ ?_) | (with_reducible refine acceptWrite_wf _ _ _ _ _ ?_))) <;> simp_all

end Sys2Proof.Machine
end

