-- ==== Sys2Proof/Laws/FrameWork.lean ====
section
/-! SUPPORT. Frames of the model's operations over engines, links, movers, berths and keys: none touches the queue; memory is left alone or keeps its
canonical form. -/

set_option maxRecDepth 4000
set_option linter.unusedSimpArgs false

namespace Sys2Proof.Machine

@[simp] theorem refetch_pending (a0) (s) : (refetch a0 s).pending = s.pending := by
  unfold refetch
  (try dsimp only)
  (repeat' split) <;> (try simp [*, apply_ite State.pending, apply_ite State.mem]) <;> (try (repeat' split) <;> simp [*, apply_ite State.pending, apply_ite State.mem])
theorem refetch_wf (a0) (s) (h : Memory.wf s.mem = true) : Memory.wf (refetch a0 s).mem = true := by
  unfold refetch
  (try dsimp only)
  (repeat' (first | with_reducible assumption | split | (with_reducible refine foldl_wf _ _ _ ?_ (fun t x h => ?_)) | (with_reducible refine readCold_wf _ _ _ ?_) | (with_reducible refine readWarm_wf _ _ _ _ ?_))) <;> (try simp) <;>
    (repeat' (first | with_reducible assumption | split | (with_reducible refine foldl_wf _ _ _ ?_ (fun t x h => ?_)) | (with_reducible refine readCold_wf _ _ _ ?_) | (with_reducible refine readWarm_wf _ _ _ _ ?_))) <;> (try simp) <;>
    (repeat' (first | with_reducible assumption | split | (with_reducible refine foldl_wf _ _ _ ?_ (fun t x h => ?_)) | (with_reducible refine readCold_wf _ _ _ ?_) | (with_reducible refine readWarm_wf _ _ _ _ ?_))) <;> simp_all

@[simp] theorem redistribute_pending (a0) (s) : (redistribute a0 s).pending = s.pending := by
  unfold redistribute
  (try dsimp only)
  (repeat' split) <;> (try simp [*, apply_ite State.pending, apply_ite State.mem]) <;> (try (repeat' split) <;> simp [*, apply_ite State.pending, apply_ite State.mem])
theorem redistribute_wf (a0) (s) (h : Memory.wf s.mem = true) : Memory.wf (redistribute a0 s).mem = true := by
  unfold redistribute
  (try dsimp only)
  (repeat' (first | with_reducible assumption | split | (with_reducible refine foldl_wf _ _ _ ?_ (fun t x h => ?_)) | (with_reducible refine refetch_wf _ _ ?_))) <;> (try simp) <;>
    (repeat' (first | with_reducible assumption | split | (with_reducible refine foldl_wf _ _ _ ?_ (fun t x h => ?_)) | (with_reducible refine refetch_wf _ _ ?_))) <;> (try simp) <;>
    (repeat' (first | with_reducible assumption | split | (with_reducible refine foldl_wf _ _ _ ?_ (fun t x h => ?_)) | (with_reducible refine refetch_wf _ _ ?_))) <;> simp_all

@[simp] theorem makeSuspect_pending (a0) (s) : (makeSuspect a0 s).pending = s.pending := by
  unfold makeSuspect
  simp [*, apply_ite State.pending, apply_ite State.mem]
theorem makeSuspect_wf (a0) (s) (h : Memory.wf s.mem = true) : Memory.wf (makeSuspect a0 s).mem = true := by
  unfold makeSuspect
  (try dsimp only)
  (repeat' (first | with_reducible assumption | split | (with_reducible refine foldl_wf _ _ _ ?_ (fun t x h => ?_)) | (with_reducible refine redistribute_wf _ _ ?_))) <;> (try simp) <;>
    (repeat' (first | with_reducible assumption | split | (with_reducible refine foldl_wf _ _ _ ?_ (fun t x h => ?_)) | (with_reducible refine redistribute_wf _ _ ?_))) <;> (try simp) <;>
    (repeat' (first | with_reducible assumption | split | (with_reducible refine foldl_wf _ _ _ ?_ (fun t x h => ?_)) | (with_reducible refine redistribute_wf _ _ ?_))) <;> simp_all

@[simp] theorem chargeEngine_pending (a0) (s) : (chargeEngine a0 s).pending = s.pending := by
  unfold chargeEngine
  simp [*, apply_ite State.pending, apply_ite State.mem]
theorem chargeEngine_wf (a0) (s) (h : Memory.wf s.mem = true) : Memory.wf (chargeEngine a0 s).mem = true := by
  unfold chargeEngine
  (try dsimp only)
  (repeat' (first | with_reducible assumption | split | (with_reducible refine foldl_wf _ _ _ ?_ (fun t x h => ?_)) | (with_reducible refine makeSuspect_wf _ _ ?_))) <;> (try simp) <;>
    (repeat' (first | with_reducible assumption | split | (with_reducible refine foldl_wf _ _ _ ?_ (fun t x h => ?_)) | (with_reducible refine makeSuspect_wf _ _ ?_))) <;> (try simp) <;>
    (repeat' (first | with_reducible assumption | split | (with_reducible refine foldl_wf _ _ _ ?_ (fun t x h => ?_)) | (with_reducible refine makeSuspect_wf _ _ ?_))) <;> simp_all

@[simp] theorem resendDecode_pending (s) (a1) : (resendDecode s a1).pending = s.pending := by
  unfold resendDecode
  (try dsimp only)
  (repeat' split) <;> (try simp [*, apply_ite State.pending, apply_ite State.mem]) <;> (try (repeat' split) <;> simp [*, apply_ite State.pending, apply_ite State.mem])
@[simp] theorem resendDecode_mem (s) (a1) : (resendDecode s a1).mem = s.mem := by
  unfold resendDecode
  (try dsimp only)
  (repeat' split) <;> (try simp [*, apply_ite State.pending, apply_ite State.mem]) <;> (try (repeat' split) <;> simp [*, apply_ite State.pending, apply_ite State.mem])

@[simp] theorem resumeCodec_pending (s) : (resumeCodec s).pending = s.pending := by
  unfold resumeCodec
  simp [*, apply_ite State.pending, apply_ite State.mem]
@[simp] theorem resumeCodec_mem (s) : (resumeCodec s).mem = s.mem := by
  unfold resumeCodec
  simp [*, apply_ite State.pending, apply_ite State.mem]

@[simp] theorem codecEvent_pending (a0) (a1) (a2) (a3) (s) : (codecEvent a0 a1 a2 a3 s).pending = s.pending := by
  unfold codecEvent
  simp
@[simp] theorem codecEvent_mem (a0) (a1) (a2) (a3) (s) : (codecEvent a0 a1 a2 a3 s).mem = s.mem := by
  unfold codecEvent
  simp

@[simp] theorem decoded_pending (a0) (a1) (s) : (decoded a0 a1 s).pending = s.pending := by
  unfold decoded
  (try dsimp only)
  (repeat' split) <;> (try simp [*, apply_ite State.pending, apply_ite State.mem]) <;> (try (repeat' split) <;> simp [*, apply_ite State.pending, apply_ite State.mem])
@[simp] theorem decoded_mem (a0) (a1) (s) : (decoded a0 a1 s).mem = s.mem := by
  unfold decoded
  (try dsimp only)
  (repeat' split) <;> (try simp [*, apply_ite State.pending, apply_ite State.mem]) <;> (try (repeat' split) <;> simp [*, apply_ite State.pending, apply_ite State.mem])

@[simp] theorem decodeFail_pending (a0) (a1) (s) : (decodeFail a0 a1 s).pending = s.pending := by
  unfold decodeFail
  (try dsimp only)
  (repeat' split) <;> (try simp [*, apply_ite State.pending, apply_ite State.mem]) <;> (try (repeat' split) <;> simp [*, apply_ite State.pending, apply_ite State.mem])
theorem decodeFail_wf (a0) (a1) (s) (h : Memory.wf s.mem = true) : Memory.wf (decodeFail a0 a1 s).mem = true := by
  unfold decodeFail
  (try dsimp only)
  (repeat' (first | with_reducible assumption | split | (with_reducible refine foldl_wf _ _ _ ?_ (fun t x h => ?_)) | (with_reducible refine chargeEngine_wf _ _ ?_))) <;> (try simp) <;>
    (repeat' (first | with_reducible assumption | split | (with_reducible refine foldl_wf _ _ _ ?_ (fun t x h => ?_)) | (with_reducible refine chargeEngine_wf _ _ ?_))) <;> (try simp) <;>
    (repeat' (first | with_reducible assumption | split | (with_reducible refine foldl_wf _ _ _ ?_ (fun t x h => ?_)) | (with_reducible refine chargeEngine_wf _ _ ?_))) <;> simp_all

@[simp] theorem setBlock_pending (a0) (a1) (s) : (setBlock a0 a1 s).pending = s.pending := by
  unfold setBlock
  simp
@[simp] theorem setBlock_mem (a0) (a1) (s) : (setBlock a0 a1 s).mem = s.mem := by
  unfold setBlock
  simp

@[simp] theorem staticOverride_pending (a0) (s) : (staticOverride a0 s).pending = s.pending := by
  unfold staticOverride
  (try dsimp only)
  (repeat' split) <;> (try simp [*, apply_ite State.pending, apply_ite State.mem]) <;> (try (repeat' split) <;> simp [*, apply_ite State.pending, apply_ite State.mem])
@[simp] theorem staticOverride_mem (a0) (s) : (staticOverride a0 s).mem = s.mem := by
  unfold staticOverride
  (try dsimp only)
  (repeat' split) <;> (try simp [*, apply_ite State.pending, apply_ite State.mem]) <;> (try (repeat' split) <;> simp [*, apply_ite State.pending, apply_ite State.mem])

@[simp] theorem compressed_pending (a0) (a1) (s) : (compressed a0 a1 s).pending = s.pending := by
  unfold compressed
  simp [*, apply_ite State.pending, apply_ite State.mem]
@[simp] theorem compressed_mem (a0) (a1) (s) : (compressed a0 a1 s).mem = s.mem := by
  unfold compressed
  simp [*, apply_ite State.pending, apply_ite State.mem]

@[simp] theorem mismatch_pending (a0) (a1) (s) : (mismatch a0 a1 s).pending = s.pending := by
  unfold mismatch
  simp
theorem mismatch_wf (a0) (a1) (s) (h : Memory.wf s.mem = true) : Memory.wf (mismatch a0 a1 s).mem = true := by
  unfold mismatch
  (try dsimp only)
  (repeat' (first | with_reducible assumption | split | (with_reducible refine foldl_wf _ _ _ ?_ (fun t x h => ?_)) | (with_reducible refine chargeEngine_wf _ _ ?_))) <;> (try simp) <;>
    (repeat' (first | with_reducible assumption | split | (with_reducible refine foldl_wf _ _ _ ?_ (fun t x h => ?_)) | (with_reducible refine chargeEngine_wf _ _ ?_))) <;> (try simp) <;>
    (repeat' (first | with_reducible assumption | split | (with_reducible refine foldl_wf _ _ _ ?_ (fun t x h => ?_)) | (with_reducible refine chargeEngine_wf _ _ ?_))) <;> simp_all

@[simp] theorem freeEngine_pending (a0) (s) : (freeEngine a0 s).pending = s.pending := by
  unfold freeEngine
  simp
@[simp] theorem freeEngine_mem (a0) (s) : (freeEngine a0 s).mem = s.mem := by
  unfold freeEngine
  simp

@[simp] theorem itemComplete_pending (a0) (a1) (s) : (itemComplete a0 a1 s).pending = s.pending := by
  unfold itemComplete
  (try dsimp only)
  (repeat' split) <;> (try simp [*, apply_ite State.pending, apply_ite State.mem]) <;> (try (repeat' split) <;> simp [*, apply_ite State.pending, apply_ite State.mem])
theorem itemComplete_wf (a0) (a1) (s) (h : Memory.wf s.mem = true) : Memory.wf (itemComplete a0 a1 s).mem = true := by
  unfold itemComplete
  (try dsimp only)
  (repeat' (first | with_reducible assumption | split | (with_reducible refine foldl_wf _ _ _ ?_ (fun t x h => ?_)) | (with_reducible refine decodeFail_wf _ _ _ ?_) | (with_reducible refine mismatch_wf _ _ _ ?_))) <;> (try simp) <;>
    (repeat' (first | with_reducible assumption | split | (with_reducible refine foldl_wf _ _ _ ?_ (fun t x h => ?_)) | (with_reducible refine decodeFail_wf _ _ _ ?_) | (with_reducible refine mismatch_wf _ _ _ ?_))) <;> (try simp) <;>
    (repeat' (first | with_reducible assumption | split | (with_reducible refine foldl_wf _ _ _ ?_ (fun t x h => ?_)) | (with_reducible refine decodeFail_wf _ _ _ ?_) | (with_reducible refine mismatch_wf _ _ _ ?_))) <;> simp_all

@[simp] theorem watchdog_pending (a0) (s) : (watchdog a0 s).pending = s.pending := by
  unfold watchdog
  (try dsimp only)
  (repeat' split) <;> (try simp [*, apply_ite State.pending, apply_ite State.mem]) <;> (try (repeat' split) <;> simp [*, apply_ite State.pending, apply_ite State.mem])
theorem watchdog_wf (a0) (s) (h : Memory.wf s.mem = true) : Memory.wf (watchdog a0 s).mem = true := by
  unfold watchdog
  (try dsimp only)
  (repeat' (first | with_reducible assumption | split | (with_reducible refine foldl_wf _ _ _ ?_ (fun t x h => ?_)) | (with_reducible refine makeSuspect_wf _ _ ?_))) <;> (try simp) <;>
    (repeat' (first | with_reducible assumption | split | (with_reducible refine foldl_wf _ _ _ ?_ (fun t x h => ?_)) | (with_reducible refine makeSuspect_wf _ _ ?_))) <;> (try simp) <;>
    (repeat' (first | with_reducible assumption | split | (with_reducible refine foldl_wf _ _ _ ?_ (fun t x h => ?_)) | (with_reducible refine makeSuspect_wf _ _ ?_))) <;> simp_all

@[simp] theorem rollCluster_pending (a0) (s) : (rollCluster a0 s).pending = s.pending := by
  unfold rollCluster
  simp [*, apply_ite State.pending, apply_ite State.mem]
@[simp] theorem rollCluster_mem (a0) (s) : (rollCluster a0 s).mem = s.mem := by
  unfold rollCluster
  simp [*, apply_ite State.pending, apply_ite State.mem]

@[simp] theorem rollDone_pending (a0) (a1) (s) : (rollDone a0 a1 s).pending = s.pending := by
  unfold rollDone
  simp [*, apply_ite State.pending, apply_ite State.mem]
theorem rollDone_wf (a0) (a1) (s) (h : Memory.wf s.mem = true) : Memory.wf (rollDone a0 a1 s).mem = true := by
  unfold rollDone
  (try dsimp only)
  (repeat' (first | with_reducible assumption | split | (with_reducible refine foldl_wf _ _ _ ?_ (fun t x h => ?_)) | (with_reducible refine redistribute_wf _ _ ?_))) <;> (try simp) <;>
    (repeat' (first | with_reducible assumption | split | (with_reducible refine foldl_wf _ _ _ ?_ (fun t x h => ?_)) | (with_reducible refine redistribute_wf _ _ ?_))) <;> (try simp) <;>
    (repeat' (first | with_reducible assumption | split | (with_reducible refine foldl_wf _ _ _ ?_ (fun t x h => ?_)) | (with_reducible refine redistribute_wf _ _ ?_))) <;> simp_all

@[simp] theorem applyTherm_pending (a0) (s) : (applyTherm a0 s).pending = s.pending := by
  unfold applyTherm
  simp [*, apply_ite State.pending, apply_ite State.mem]
@[simp] theorem applyTherm_mem (a0) (s) : (applyTherm a0 s).mem = s.mem := by
  unfold applyTherm
  simp [*, apply_ite State.pending, apply_ite State.mem]

@[simp] theorem dieTemp_pending (a0) (a1) (a2) (s) : (dieTemp a0 a1 a2 s).pending = s.pending := by
  unfold dieTemp
  simp [*, apply_ite State.pending, apply_ite State.mem]
@[simp] theorem dieTemp_mem (a0) (a1) (a2) (s) : (dieTemp a0 a1 a2 s).mem = s.mem := by
  unfold dieTemp
  simp [*, apply_ite State.pending, apply_ite State.mem]

@[simp] theorem noteSample_pending (a0) (a1) (s) : (noteSample a0 a1 s).pending = s.pending := by
  unfold noteSample
  simp [*, apply_ite State.pending, apply_ite State.mem]
@[simp] theorem noteSample_mem (a0) (a1) (s) : (noteSample a0 a1 s).mem = s.mem := by
  unfold noteSample
  simp [*, apply_ite State.pending, apply_ite State.mem]

@[simp] theorem transferPart_finish_pending (part : FwPart) (b : Bool) (s : State) : (transferPart.finish part b s).2.pending = s.pending := by
  unfold transferPart.finish; (repeat' split) <;> simp
@[simp] theorem transferPart_pending (path : Nat) (part : FwPart) (s : State) : (transferPart path part s).2.pending = s.pending := by
  unfold transferPart
  dsimp only
  (repeat' split) <;> simp
@[simp] theorem transferPart_finish_mem (part : FwPart) (b : Bool) (s : State) : (transferPart.finish part b s).2.mem = s.mem := by
  unfold transferPart.finish; (repeat' split) <;> simp
@[simp] theorem transferPart_mem (path : Nat) (part : FwPart) (s : State) : (transferPart path part s).2.mem = s.mem := by
  unfold transferPart
  dsimp only
  (repeat' split) <;> simp

@[simp] theorem pldmTransfer_pending (a0) (s) : (pldmTransfer a0 s).pending = s.pending := by
  unfold pldmTransfer
  simp
@[simp] theorem pldmTransfer_mem (a0) (s) : (pldmTransfer a0 s).mem = s.mem := by
  unfold pldmTransfer
  simp

@[simp] theorem startActivation_pending (a0) (a1) (s) : (startActivation a0 a1 s).pending = s.pending := by
  unfold startActivation
  simp
@[simp] theorem startActivation_mem (a0) (a1) (s) : (startActivation a0 a1 s).mem = s.mem := by
  unfold startActivation
  simp

@[simp] theorem activateNext_pending (a0) (s) : (activateNext a0 s).pending = s.pending := by
  unfold activateNext
  simp
@[simp] theorem activateNext_mem (a0) (s) : (activateNext a0 s).mem = s.mem := by
  unfold activateNext
  simp

@[simp] theorem endActivation_pending (a0) (a1) (s) : (endActivation a0 a1 s).pending = s.pending := by
  unfold endActivation
  (try dsimp only)
  (repeat' split) <;> (try simp [*, apply_ite State.pending, apply_ite State.mem]) <;> (try (repeat' split) <;> simp [*, apply_ite State.pending, apply_ite State.mem])
@[simp] theorem endActivation_mem (a0) (a1) (s) : (endActivation a0 a1 s).mem = s.mem := by
  unfold endActivation
  (try dsimp only)
  (repeat' split) <;> (try simp [*, apply_ite State.pending, apply_ite State.mem]) <;> (try (repeat' split) <;> simp [*, apply_ite State.pending, apply_ite State.mem])

@[simp] theorem rollFrom_pending (a0) (a1) (s) : (rollFrom a0 a1 s).pending = s.pending := by
  unfold rollFrom
  (try dsimp only)
  (repeat' split) <;> (try simp [*, apply_ite State.pending, apply_ite State.mem]) <;> (try (repeat' split) <;> simp [*, apply_ite State.pending, apply_ite State.mem])
@[simp] theorem rollFrom_mem (a0) (a1) (s) : (rollFrom a0 a1 s).mem = s.mem := by
  unfold rollFrom
  (try dsimp only)
  (repeat' split) <;> (try simp [*, apply_ite State.pending, apply_ite State.mem]) <;> (try (repeat' split) <;> simp [*, apply_ite State.pending, apply_ite State.mem])

@[simp] theorem takeoverDone_pending (s) : (takeoverDone s).pending = s.pending := by
  unfold takeoverDone
  (try dsimp only)
  (repeat' split) <;> (try simp [*, apply_ite State.pending, apply_ite State.mem]) <;> (try (repeat' split) <;> simp [*, apply_ite State.pending, apply_ite State.mem])
@[simp] theorem takeoverDone_mem (s) : (takeoverDone s).mem = s.mem := by
  unfold takeoverDone
  (try dsimp only)
  (repeat' split) <;> (try simp [*, apply_ite State.pending, apply_ite State.mem]) <;> (try (repeat' split) <;> simp [*, apply_ite State.pending, apply_ite State.mem])

@[simp] theorem coreDown_pending (a0) (a1) (s) : (coreDown a0 a1 s).pending = s.pending := by
  unfold coreDown
  simp [*, apply_ite State.pending, apply_ite State.mem]
@[simp] theorem coreDown_mem (a0) (a1) (s) : (coreDown a0 a1 s).mem = s.mem := by
  unfold coreDown
  simp [*, apply_ite State.pending, apply_ite State.mem]

@[simp] theorem State.modJob_pending (s) (a1) (a2) : (State.modJob s a1 a2).pending = s.pending := by
  unfold State.modJob
  simp
@[simp] theorem State.modJob_mem (s) (a1) (a2) : (State.modJob s a1 a2).mem = s.mem := by
  unfold State.modJob
  simp

@[simp] theorem stopJob_pending (a0) (a1) (a2) (s) : (stopJob a0 a1 a2 s).pending = s.pending := by
  unfold stopJob
  (try dsimp only)
  (repeat' split) <;> (try simp [*, apply_ite State.pending, apply_ite State.mem]) <;> (try (repeat' split) <;> simp [*, apply_ite State.pending, apply_ite State.mem])
@[simp] theorem stopJob_mem (a0) (a1) (a2) (s) : (stopJob a0 a1 a2 s).mem = s.mem := by
  unfold stopJob
  (try dsimp only)
  (repeat' split) <;> (try simp [*, apply_ite State.pending, apply_ite State.mem]) <;> (try (repeat' split) <;> simp [*, apply_ite State.pending, apply_ite State.mem])

@[simp] theorem moveJob_pending (a0) (a1) (s) : (moveJob a0 a1 s).pending = s.pending := by
  unfold moveJob
  simp
@[simp] theorem moveJob_mem (a0) (a1) (s) : (moveJob a0 a1 s).mem = s.mem := by
  unfold moveJob
  simp

@[simp] theorem jobSnoop_pending (a0) (s) : (jobSnoop a0 s).pending = s.pending := by
  unfold jobSnoop
  simp [*, apply_ite State.pending, apply_ite State.mem]
theorem jobSnoop_wf (a0) (s) (h : Memory.wf s.mem = true) : Memory.wf (jobSnoop a0 s).mem = true := by
  unfold jobSnoop
  (try dsimp only)
  (repeat' (first | with_reducible assumption | split | (with_reducible refine foldl_wf _ _ _ ?_ (fun t x h => ?_)) | (with_reducible refine tryEvictDone_wf _ _ ?_))) <;> (try simp) <;>
    (repeat' (first | with_reducible assumption | split | (with_reducible refine foldl_wf _ _ _ ?_ (fun t x h => ?_)) | (with_reducible refine tryEvictDone_wf _ _ ?_))) <;> (try simp) <;>
    (repeat' (first | with_reducible assumption | split | (with_reducible refine foldl_wf _ _ _ ?_ (fun t x h => ?_)) | (with_reducible refine tryEvictDone_wf _ _ ?_))) <;> simp_all

@[simp] theorem endJob_pending (a0) (s) : (endJob a0 s).pending = s.pending := by
  unfold endJob
  (try dsimp only)
  (repeat' split) <;> (try simp [*, apply_ite State.pending, apply_ite State.mem]) <;> (try (repeat' split) <;> simp [*, apply_ite State.pending, apply_ite State.mem])
@[simp] theorem endJob_mem (a0) (s) : (endJob a0 s).mem = s.mem := by
  unfold endJob
  (try dsimp only)
  (repeat' split) <;> (try simp [*, apply_ite State.pending, apply_ite State.mem]) <;> (try (repeat' split) <;> simp [*, apply_ite State.pending, apply_ite State.mem])

@[simp] theorem fetchRemote_pending (a0) (a1) (s) : (fetchRemote a0 a1 s).pending = s.pending := by
  unfold fetchRemote
  simp [*, apply_ite State.pending, apply_ite State.mem]
@[simp] theorem fetchRemote_mem (a0) (a1) (s) : (fetchRemote a0 a1 s).mem = s.mem := by
  unfold fetchRemote
  simp [*, apply_ite State.pending, apply_ite State.mem]

@[simp] theorem segmentDispatch_pending (a0) (a1) (s) : (segmentDispatch a0 a1 s).pending = s.pending := by
  unfold segmentDispatch
  (try dsimp only)
  (repeat' split) <;> (try simp [*, apply_ite State.pending, apply_ite State.mem]) <;> (try (repeat' split) <;> simp [*, apply_ite State.pending, apply_ite State.mem])
theorem segmentDispatch_wf (a0) (a1) (s) (h : Memory.wf s.mem = true) : Memory.wf (segmentDispatch a0 a1 s).mem = true := by
  unfold segmentDispatch
  (try dsimp only)
  (repeat' (first | with_reducible assumption | split | (with_reducible refine foldl_wf _ _ _ ?_ (fun t x h => ?_)) | (with_reducible refine jobSnoop_wf _ _ ?_))) <;> (try simp) <;>
    (repeat' (first | with_reducible assumption | split | (with_reducible refine foldl_wf _ _ _ ?_ (fun t x h => ?_)) | (with_reducible refine jobSnoop_wf _ _ ?_))) <;> (try simp) <;>
    (repeat' (first | with_reducible assumption | split | (with_reducible refine foldl_wf _ _ _ ?_ (fun t x h => ?_)) | (with_reducible refine jobSnoop_wf _ _ ?_))) <;> simp_all

@[simp] theorem jobLine_pending (a0) (a1) (a2) (a3) (s) : (jobLine a0 a1 a2 a3 s).pending = s.pending := by
  unfold jobLine
  simp [*, apply_ite State.pending, apply_ite State.mem]
theorem jobLine_wf (a0) (a1) (a2) (a3) (s) (h : Memory.wf s.mem = true) : Memory.wf (jobLine a0 a1 a2 a3 s).mem = true := by
  unfold jobLine
  (try dsimp only)
  (repeat' (first | with_reducible assumption | split | (with_reducible refine foldl_wf _ _ _ ?_ (fun t x h => ?_)) | (with_reducible refine writeLineNow_wf _ _ _ _ ?_))) <;> (try simp) <;>
    (repeat' (first | with_reducible assumption | split | (with_reducible refine foldl_wf _ _ _ ?_ (fun t x h => ?_)) | (with_reducible refine writeLineNow_wf _ _ _ _ ?_))) <;> (try simp) <;>
    (repeat' (first | with_reducible assumption | split | (with_reducible refine foldl_wf _ _ _ ?_ (fun t x h => ?_)) | (with_reducible refine writeLineNow_wf _ _ _ _ ?_))) <;> simp_all

@[simp] theorem jobWrite_pending (a0) (a1) (s) : (jobWrite a0 a1 s).pending = s.pending := by
  unfold jobWrite
  simp
theorem jobWrite_wf (a0) (a1) (s) (h : Memory.wf s.mem = true) : Memory.wf (jobWrite a0 a1 s).mem = true := by
  unfold jobWrite
  (try dsimp only)
  (repeat' (first | with_reducible assumption | split | (with_reducible refine foldl_wf _ _ _ ?_ (fun t x h => ?_)) | (with_reducible refine jobLine_wf _ _ _ _ _ ?_))) <;> (try simp) <;>
    (repeat' (first | with_reducible assumption | split | (with_reducible refine foldl_wf _ _ _ ?_ (fun t x h => ?_)) | (with_reducible refine jobLine_wf _ _ _ _ _ ?_))) <;> (try simp) <;>
    (repeat' (first | with_reducible assumption | split | (with_reducible refine foldl_wf _ _ _ ?_ (fun t x h => ?_)) | (with_reducible refine jobLine_wf _ _ _ _ _ ?_))) <;> simp_all

@[simp] theorem afterSegment_pending (a0) (a1) (s) : (afterSegment a0 a1 s).pending = s.pending := by
  unfold afterSegment
  (try dsimp only)
  (repeat' split) <;> (try simp [*, apply_ite State.pending, apply_ite State.mem]) <;> (try (repeat' split) <;> simp [*, apply_ite State.pending, apply_ite State.mem])
@[simp] theorem afterSegment_mem (a0) (a1) (s) : (afterSegment a0 a1 s).mem = s.mem := by
  unfold afterSegment
  (try dsimp only)
  (repeat' split) <;> (try simp [*, apply_ite State.pending, apply_ite State.mem]) <;> (try (repeat' split) <;> simp [*, apply_ite State.pending, apply_ite State.mem])

@[simp] theorem dropFetched_pending (a0) (s) : (dropFetched a0 s).pending = s.pending := by
  unfold dropFetched
  simp
@[simp] theorem dropFetched_mem (a0) (s) : (dropFetched a0 s).mem = s.mem := by
  unfold dropFetched
  simp

@[simp] theorem segmentDone_pending (a0) (s) : (segmentDone a0 s).pending = s.pending := by
  unfold segmentDone
  (try dsimp only)
  (repeat' split) <;> (try simp [*, apply_ite State.pending, apply_ite State.mem]) <;> (try (repeat' split) <;> simp [*, apply_ite State.pending, apply_ite State.mem])
theorem segmentDone_wf (a0) (s) (h : Memory.wf s.mem = true) : Memory.wf (segmentDone a0 s).mem = true := by
  unfold segmentDone
  (try dsimp only)
  (repeat' (first | with_reducible assumption | split | (with_reducible refine foldl_wf _ _ _ ?_ (fun t x h => ?_)) | (with_reducible refine jobSnoop_wf _ _ ?_) | (with_reducible refine jobWrite_wf _ _ _ ?_))) <;> (try simp) <;>
    (repeat' (first | with_reducible assumption | split | (with_reducible refine foldl_wf _ _ _ ?_ (fun t x h => ?_)) | (with_reducible refine jobSnoop_wf _ _ ?_) | (with_reducible refine jobWrite_wf _ _ _ ?_))) <;> (try simp) <;>
    (repeat' (first | with_reducible assumption | split | (with_reducible refine foldl_wf _ _ _ ?_ (fun t x h => ?_)) | (with_reducible refine jobSnoop_wf _ _ ?_) | (with_reducible refine jobWrite_wf _ _ _ ?_))) <;> simp_all

@[simp] theorem denyJobs_pending (a0) (a1) (s) : (denyJobs a0 a1 s).pending = s.pending := by
  unfold denyJobs
  simp
@[simp] theorem denyJobs_mem (a0) (a1) (s) : (denyJobs a0 a1 s).mem = s.mem := by
  unfold denyJobs
  simp

@[simp] theorem ackFrames_pending (a0) (a1) (s) : (ackFrames a0 a1 s).pending = s.pending := by
  unfold ackFrames
  simp [*, apply_ite State.pending, apply_ite State.mem]
@[simp] theorem ackFrames_mem (a0) (a1) (s) : (ackFrames a0 a1 s).mem = s.mem := by
  unfold ackFrames
  simp [*, apply_ite State.pending, apply_ite State.mem]

@[simp] theorem ackSeq_pending (a0) (a1) (s) : (ackSeq a0 a1 s).pending = s.pending := by
  unfold ackSeq
  (try dsimp only)
  (repeat' split) <;> (try simp [*, apply_ite State.pending, apply_ite State.mem]) <;> (try (repeat' split) <;> simp [*, apply_ite State.pending, apply_ite State.mem])
@[simp] theorem ackSeq_mem (a0) (a1) (s) : (ackSeq a0 a1 s).mem = s.mem := by
  unfold ackSeq
  (try dsimp only)
  (repeat' split) <;> (try simp [*, apply_ite State.pending, apply_ite State.mem]) <;> (try (repeat' split) <;> simp [*, apply_ite State.pending, apply_ite State.mem])

@[simp] theorem portCount_pending (a0) (a1) (a2) (s) : (portCount a0 a1 a2 s).pending = s.pending := by
  unfold portCount
  simp
@[simp] theorem portCount_mem (a0) (a1) (a2) (s) : (portCount a0 a1 a2 s).mem = s.mem := by
  unfold portCount
  simp

@[simp] theorem handOver_pending (a0) (s) : (handOver a0 s).pending = s.pending := by
  unfold handOver
  simp
@[simp] theorem handOver_mem (a0) (s) : (handOver a0 s).mem = s.mem := by
  unfold handOver
  simp

@[simp] theorem startRetrain_pending (a0) (a1) (s) : (startRetrain a0 a1 s).pending = s.pending := by
  unfold startRetrain
  simp [*, apply_ite State.pending, apply_ite State.mem]
theorem startRetrain_wf (a0) (a1) (s) (h : Memory.wf s.mem = true) : Memory.wf (startRetrain a0 a1 s).mem = true := by
  unfold startRetrain
  (try dsimp only)
  (repeat' (first | with_reducible assumption | split | (with_reducible refine foldl_wf _ _ _ ?_ (fun t x h => ?_)) | (with_reducible refine afterRoutes_wf _ _ ?_))) <;> (try simp) <;>
    (repeat' (first | with_reducible assumption | split | (with_reducible refine foldl_wf _ _ _ ?_ (fun t x h => ?_)) | (with_reducible refine afterRoutes_wf _ _ ?_))) <;> (try simp) <;>
    (repeat' (first | with_reducible assumption | split | (with_reducible refine foldl_wf _ _ _ ?_ (fun t x h => ?_)) | (with_reducible refine afterRoutes_wf _ _ ?_))) <;> simp_all

@[simp] theorem enterDown_pending (a0) (a1) (s) : (enterDown a0 a1 s).pending = s.pending := by
  unfold enterDown
  simp [*, apply_ite State.pending, apply_ite State.mem]
theorem enterDown_wf (a0) (a1) (s) (h : Memory.wf s.mem = true) : Memory.wf (enterDown a0 a1 s).mem = true := by
  unfold enterDown
  (try dsimp only)
  (repeat' (first | with_reducible assumption | split | (with_reducible refine foldl_wf _ _ _ ?_ (fun t x h => ?_)) | (with_reducible refine afterRoutes_wf _ _ ?_))) <;> (try simp) <;>
    (repeat' (first | with_reducible assumption | split | (with_reducible refine foldl_wf _ _ _ ?_ (fun t x h => ?_)) | (with_reducible refine afterRoutes_wf _ _ ?_))) <;> (try simp) <;>
    (repeat' (first | with_reducible assumption | split | (with_reducible refine foldl_wf _ _ _ ?_ (fun t x h => ?_)) | (with_reducible refine afterRoutes_wf _ _ ?_))) <;> simp_all

@[simp] theorem enterLoop_pending (a0) (a1) (s) : (enterLoop a0 a1 s).pending = s.pending := by
  unfold enterLoop
  simp [*, apply_ite State.pending, apply_ite State.mem]
theorem enterLoop_wf (a0) (a1) (s) (h : Memory.wf s.mem = true) : Memory.wf (enterLoop a0 a1 s).mem = true := by
  unfold enterLoop
  (try dsimp only)
  (repeat' (first | with_reducible assumption | split | (with_reducible refine foldl_wf _ _ _ ?_ (fun t x h => ?_)) | (with_reducible refine afterRoutes_wf _ _ ?_))) <;> (try simp) <;>
    (repeat' (first | with_reducible assumption | split | (with_reducible refine foldl_wf _ _ _ ?_ (fun t x h => ?_)) | (with_reducible refine afterRoutes_wf _ _ ?_))) <;> (try simp) <;>
    (repeat' (first | with_reducible assumption | split | (with_reducible refine foldl_wf _ _ _ ?_ (fun t x h => ?_)) | (with_reducible refine afterRoutes_wf _ _ ?_))) <;> simp_all

@[simp] theorem enterAbsent_pending (a0) (s) : (enterAbsent a0 s).pending = s.pending := by
  unfold enterAbsent
  simp
@[simp] theorem enterAbsent_mem (a0) (s) : (enterAbsent a0 s).mem = s.mem := by
  unfold enterAbsent
  simp

@[simp] theorem signalDetect_pending (a0) (s) : (signalDetect a0 s).pending = s.pending := by
  unfold signalDetect
  simp [*, apply_ite State.pending, apply_ite State.mem]
@[simp] theorem signalDetect_mem (a0) (s) : (signalDetect a0 s).mem = s.mem := by
  unfold signalDetect
  simp [*, apply_ite State.pending, apply_ite State.mem]

@[simp] theorem alignDone_pending (a0) (a1) (s) : (alignDone a0 a1 s).pending = s.pending := by
  unfold alignDone
  (try dsimp only)
  (repeat' split) <;> (try simp [*, apply_ite State.pending, apply_ite State.mem]) <;> (try (repeat' split) <;> simp [*, apply_ite State.pending, apply_ite State.mem])
theorem alignDone_wf (a0) (a1) (s) (h : Memory.wf s.mem = true) : Memory.wf (alignDone a0 a1 s).mem = true := by
  unfold alignDone
  (try dsimp only)
  (repeat' (first | with_reducible assumption | split | (with_reducible refine foldl_wf _ _ _ ?_ (fun t x h => ?_)) | (with_reducible refine enterDown_wf _ _ _ ?_))) <;> (try simp) <;>
    (repeat' (first | with_reducible assumption | split | (with_reducible refine foldl_wf _ _ _ ?_ (fun t x h => ?_)) | (with_reducible refine enterDown_wf _ _ _ ?_))) <;> (try simp) <;>
    (repeat' (first | with_reducible assumption | split | (with_reducible refine foldl_wf _ _ _ ?_ (fun t x h => ?_)) | (with_reducible refine enterDown_wf _ _ _ ?_))) <;> simp_all

@[simp] theorem sendHello_pending (a0) (s) : (sendHello a0 s).pending = s.pending := by
  unfold sendHello
  simp
@[simp] theorem sendHello_mem (a0) (s) : (sendHello a0 s).mem = s.mem := by
  unfold sendHello
  simp

@[simp] theorem deskewDone_pending (a0) (a1) (a2) (s) : (deskewDone a0 a1 a2 s).pending = s.pending := by
  unfold deskewDone
  simp [*, apply_ite State.pending, apply_ite State.mem]
theorem deskewDone_wf (a0) (a1) (a2) (s) (h : Memory.wf s.mem = true) : Memory.wf (deskewDone a0 a1 a2 s).mem = true := by
  unfold deskewDone
  (try dsimp only)
  (repeat' (first | with_reducible assumption | split | (with_reducible refine foldl_wf _ _ _ ?_ (fun t x h => ?_)) | (with_reducible refine enterDown_wf _ _ _ ?_))) <;> (try simp) <;>
    (repeat' (first | with_reducible assumption | split | (with_reducible refine foldl_wf _ _ _ ?_ (fun t x h => ?_)) | (with_reducible refine enterDown_wf _ _ _ ?_))) <;> (try simp) <;>
    (repeat' (first | with_reducible assumption | split | (with_reducible refine foldl_wf _ _ _ ?_ (fun t x h => ?_)) | (with_reducible refine enterDown_wf _ _ _ ?_))) <;> simp_all

@[simp] theorem handshakeFail_pending (a0) (a1) (s) : (handshakeFail a0 a1 s).pending = s.pending := by
  unfold handshakeFail
  simp
theorem handshakeFail_wf (a0) (a1) (s) (h : Memory.wf s.mem = true) : Memory.wf (handshakeFail a0 a1 s).mem = true := by
  unfold handshakeFail
  (try dsimp only)
  (repeat' (first | with_reducible assumption | split | (with_reducible refine foldl_wf _ _ _ ?_ (fun t x h => ?_)) | (with_reducible refine enterDown_wf _ _ _ ?_))) <;> (try simp) <;>
    (repeat' (first | with_reducible assumption | split | (with_reducible refine foldl_wf _ _ _ ?_ (fun t x h => ?_)) | (with_reducible refine enterDown_wf _ _ _ ?_))) <;> (try simp) <;>
    (repeat' (first | with_reducible assumption | split | (with_reducible refine foldl_wf _ _ _ ?_ (fun t x h => ?_)) | (with_reducible refine enterDown_wf _ _ _ ?_))) <;> simp_all

@[simp] theorem trainHello_pending (a0) (a1) (a2) (s) : (trainHello a0 a1 a2 s).pending = s.pending := by
  unfold trainHello
  simp [*, apply_ite State.pending, apply_ite State.mem]
theorem trainHello_wf (a0) (a1) (a2) (s) (h : Memory.wf s.mem = true) : Memory.wf (trainHello a0 a1 a2 s).mem = true := by
  unfold trainHello
  (try dsimp only)
  (repeat' (first | with_reducible assumption | split | (with_reducible refine foldl_wf _ _ _ ?_ (fun t x h => ?_)) | (with_reducible refine startRetrain_wf _ _ _ ?_) | (with_reducible refine handshakeFail_wf _ _ _ ?_))) <;> (try simp) <;>
    (repeat' (first | with_reducible assumption | split | (with_reducible refine foldl_wf _ _ _ ?_ (fun t x h => ?_)) | (with_reducible refine startRetrain_wf _ _ _ ?_) | (with_reducible refine handshakeFail_wf _ _ _ ?_))) <;> (try simp) <;>
    (repeat' (first | with_reducible assumption | split | (with_reducible refine foldl_wf _ _ _ ?_ (fun t x h => ?_)) | (with_reducible refine startRetrain_wf _ _ _ ?_) | (with_reducible refine handshakeFail_wf _ _ _ ?_))) <;> simp_all

@[simp] theorem sendAccepted_pending (a0) (s) : (sendAccepted a0 s).pending = s.pending := by
  unfold sendAccepted
  simp
@[simp] theorem sendAccepted_mem (a0) (s) : (sendAccepted a0 s).mem = s.mem := by
  unfold sendAccepted
  simp

@[simp] theorem echoRsp_pending (a0) (a1) (a2) (a3) (a4) (s) : (echoRsp a0 a1 a2 a3 a4 s).pending = s.pending := by
  unfold echoRsp
  simp [*, apply_ite State.pending, apply_ite State.mem]
@[simp] theorem echoRsp_mem (a0) (a1) (a2) (a3) (a4) (s) : (echoRsp a0 a1 a2 a3 a4 s).mem = s.mem := by
  unfold echoRsp
  simp [*, apply_ite State.pending, apply_ite State.mem]

@[simp] theorem enterUp_pending (a0) (s) : (enterUp a0 s).pending = s.pending := by
  unfold enterUp
  (try dsimp only)
  (repeat' split) <;> (try simp [*, apply_ite State.pending, apply_ite State.mem]) <;> (try (repeat' split) <;> simp [*, apply_ite State.pending, apply_ite State.mem])
theorem enterUp_wf (a0) (s) (h : Memory.wf s.mem = true) : Memory.wf (enterUp a0 s).mem = true := by
  unfold enterUp
  (try dsimp only)
  (repeat' (first | with_reducible assumption | split | (with_reducible refine foldl_wf _ _ _ ?_ (fun t x h => ?_)) | (with_reducible refine afterRoutes_wf _ _ ?_))) <;> (try simp) <;>
    (repeat' (first | with_reducible assumption | split | (with_reducible refine foldl_wf _ _ _ ?_ (fun t x h => ?_)) | (with_reducible refine afterRoutes_wf _ _ ?_))) <;> (try simp) <;>
    (repeat' (first | with_reducible assumption | split | (with_reducible refine foldl_wf _ _ _ ?_ (fun t x h => ?_)) | (with_reducible refine afterRoutes_wf _ _ ?_))) <;> simp_all

@[simp] theorem tryReady_pending (a0) (s) : (tryReady a0 s).pending = s.pending := by
  unfold tryReady
  simp [*, apply_ite State.pending, apply_ite State.mem]
theorem tryReady_wf (a0) (s) (h : Memory.wf s.mem = true) : Memory.wf (tryReady a0 s).mem = true := by
  unfold tryReady
  (try dsimp only)
  (repeat' (first | with_reducible assumption | split | (with_reducible refine foldl_wf _ _ _ ?_ (fun t x h => ?_)) | (with_reducible refine enterUp_wf _ _ ?_))) <;> (try simp) <;>
    (repeat' (first | with_reducible assumption | split | (with_reducible refine foldl_wf _ _ _ ?_ (fun t x h => ?_)) | (with_reducible refine enterUp_wf _ _ ?_))) <;> (try simp) <;>
    (repeat' (first | with_reducible assumption | split | (with_reducible refine foldl_wf _ _ _ ?_ (fun t x h => ?_)) | (with_reducible refine enterUp_wf _ _ ?_))) <;> simp_all

@[simp] theorem trainFrame_pending (a0) (a1) (s) : (trainFrame a0 a1 s).pending = s.pending := by
  unfold trainFrame
  simp [*, apply_ite State.pending, apply_ite State.mem]
theorem trainFrame_wf (a0) (a1) (s) (h : Memory.wf s.mem = true) : Memory.wf (trainFrame a0 a1 s).mem = true := by
  unfold trainFrame
  (try dsimp only)
  (repeat' (first | with_reducible assumption | split | (with_reducible refine foldl_wf _ _ _ ?_ (fun t x h => ?_)) | (with_reducible refine startRetrain_wf _ _ _ ?_) | (with_reducible refine tryReady_wf _ _ ?_))) <;> (try simp) <;>
    (repeat' (first | with_reducible assumption | split | (with_reducible refine foldl_wf _ _ _ ?_ (fun t x h => ?_)) | (with_reducible refine startRetrain_wf _ _ _ ?_) | (with_reducible refine tryReady_wf _ _ ?_))) <;> (try simp) <;>
    (repeat' (first | with_reducible assumption | split | (with_reducible refine foldl_wf _ _ _ ?_ (fun t x h => ?_)) | (with_reducible refine startRetrain_wf _ _ _ ?_) | (with_reducible refine tryReady_wf _ _ ?_))) <;> simp_all

@[simp] theorem leaveLoop_pending (a0) (a1) (s) : (leaveLoop a0 a1 s).pending = s.pending := by
  unfold leaveLoop
  simp
@[simp] theorem leaveLoop_mem (a0) (a1) (s) : (leaveLoop a0 a1 s).mem = s.mem := by
  unfold leaveLoop
  simp

@[simp] theorem damageSent_pending (a0) (a1) (s) : (damageSent a0 a1 s).pending = s.pending := by
  unfold damageSent
  (try dsimp only)
  (repeat' split) <;> (try simp [*, apply_ite State.pending, apply_ite State.mem]) <;> (try (repeat' split) <;> simp [*, apply_ite State.pending, apply_ite State.mem])
@[simp] theorem damageSent_mem (a0) (a1) (s) : (damageSent a0 a1 s).mem = s.mem := by
  unfold damageSent
  (try dsimp only)
  (repeat' split) <;> (try simp [*, apply_ite State.pending, apply_ite State.mem]) <;> (try (repeat' split) <;> simp [*, apply_ite State.pending, apply_ite State.mem])

@[simp] theorem frameSend_pending (a0) (s) : (frameSend a0 s).pending = s.pending := by
  unfold frameSend
  (try dsimp only)
  (repeat' split) <;> (try simp [*, apply_ite State.pending, apply_ite State.mem]) <;> (try (repeat' split) <;> simp [*, apply_ite State.pending, apply_ite State.mem])
@[simp] theorem frameSend_mem (a0) (s) : (frameSend a0 s).mem = s.mem := by
  unfold frameSend
  (try dsimp only)
  (repeat' split) <;> (try simp [*, apply_ite State.pending, apply_ite State.mem]) <;> (try (repeat' split) <;> simp [*, apply_ite State.pending, apply_ite State.mem])

@[simp] theorem replayFrames_pending (a0) (s) : (replayFrames a0 s).pending = s.pending := by
  unfold replayFrames
  simp [*, apply_ite State.pending, apply_ite State.mem]
theorem replayFrames_wf (a0) (s) (h : Memory.wf s.mem = true) : Memory.wf (replayFrames a0 s).mem = true := by
  unfold replayFrames
  (try dsimp only)
  (repeat' (first | with_reducible assumption | split | (with_reducible refine foldl_wf _ _ _ ?_ (fun t x h => ?_)) | (with_reducible refine startRetrain_wf _ _ _ ?_) | (with_reducible refine enterDown_wf _ _ _ ?_))) <;> (try simp) <;>
    (repeat' (first | with_reducible assumption | split | (with_reducible refine foldl_wf _ _ _ ?_ (fun t x h => ?_)) | (with_reducible refine startRetrain_wf _ _ _ ?_) | (with_reducible refine enterDown_wf _ _ _ ?_))) <;> (try simp) <;>
    (repeat' (first | with_reducible assumption | split | (with_reducible refine foldl_wf _ _ _ ?_ (fun t x h => ?_)) | (with_reducible refine startRetrain_wf _ _ _ ?_) | (with_reducible refine enterDown_wf _ _ _ ?_))) <;> simp_all

@[simp] theorem sendAck_pending (a0) (s) : (sendAck a0 s).pending = s.pending := by
  unfold sendAck
  simp
@[simp] theorem sendAck_mem (a0) (s) : (sendAck a0 s).mem = s.mem := by
  unfold sendAck
  simp

@[simp] theorem sendNak_pending (a0) (s) : (sendNak a0 s).pending = s.pending := by
  unfold sendNak
  simp [*, apply_ite State.pending, apply_ite State.mem]
@[simp] theorem sendNak_mem (a0) (s) : (sendNak a0 s).mem = s.mem := by
  unfold sendNak
  simp [*, apply_ite State.pending, apply_ite State.mem]

@[simp] theorem acceptFrame_pending (a0) (a1) (s) : (acceptFrame a0 a1 s).pending = s.pending := by
  unfold acceptFrame
  simp [*, apply_ite State.pending, apply_ite State.mem]
@[simp] theorem acceptFrame_mem (a0) (a1) (s) : (acceptFrame a0 a1 s).mem = s.mem := by
  unfold acceptFrame
  simp [*, apply_ite State.pending, apply_ite State.mem]

@[simp] theorem frameReceive_pending (a0) (a1) (a2) (s) : (frameReceive a0 a1 a2 s).pending = s.pending := by
  unfold frameReceive
  simp [*, apply_ite State.pending, apply_ite State.mem]
@[simp] theorem frameReceive_mem (a0) (a1) (a2) (s) : (frameReceive a0 a1 a2 s).mem = s.mem := by
  unfold frameReceive
  simp [*, apply_ite State.pending, apply_ite State.mem]

@[simp] theorem controlDrop_pending (a0) (s) : (controlDrop a0 s).pending = s.pending := by
  unfold controlDrop
  simp [*, apply_ite State.pending, apply_ite State.mem]
theorem controlDrop_wf (a0) (s) (h : Memory.wf s.mem = true) : Memory.wf (controlDrop a0 s).mem = true := by
  unfold controlDrop
  (try dsimp only)
  (repeat' (first | with_reducible assumption | split | (with_reducible refine foldl_wf _ _ _ ?_ (fun t x h => ?_)) | (with_reducible refine startRetrain_wf _ _ _ ?_))) <;> (try simp) <;>
    (repeat' (first | with_reducible assumption | split | (with_reducible refine foldl_wf _ _ _ ?_ (fun t x h => ?_)) | (with_reducible refine startRetrain_wf _ _ _ ?_))) <;> (try simp) <;>
    (repeat' (first | with_reducible assumption | split | (with_reducible refine foldl_wf _ _ _ ?_ (fun t x h => ?_)) | (with_reducible refine startRetrain_wf _ _ _ ?_))) <;> simp_all

@[simp] theorem laneBurst_pending (a0) (a1) (a2) (s) : (laneBurst a0 a1 a2 s).pending = s.pending := by
  unfold laneBurst
  simp
theorem laneBurst_wf (a0) (a1) (a2) (s) (h : Memory.wf s.mem = true) : Memory.wf (laneBurst a0 a1 a2 s).mem = true := by
  unfold laneBurst
  (try dsimp only)
  (repeat' (first | with_reducible assumption | split | (with_reducible refine foldl_wf _ _ _ ?_ (fun t x h => ?_)) | (with_reducible refine startRetrain_wf _ _ _ ?_))) <;> (try simp) <;>
    (repeat' (first | with_reducible assumption | split | (with_reducible refine foldl_wf _ _ _ ?_ (fun t x h => ?_)) | (with_reducible refine startRetrain_wf _ _ _ ?_))) <;> (try simp) <;>
    (repeat' (first | with_reducible assumption | split | (with_reducible refine foldl_wf _ _ _ ?_ (fun t x h => ?_)) | (with_reducible refine startRetrain_wf _ _ _ ?_))) <;> simp_all

@[simp] theorem allLost_pending (a0) (s) : (allLost a0 s).pending = s.pending := by
  unfold allLost
  (try dsimp only)
  (repeat' split) <;> (try simp [*, apply_ite State.pending, apply_ite State.mem]) <;> (try (repeat' split) <;> simp [*, apply_ite State.pending, apply_ite State.mem])
theorem allLost_wf (a0) (s) (h : Memory.wf s.mem = true) : Memory.wf (allLost a0 s).mem = true := by
  unfold allLost
  (try dsimp only)
  (repeat' (first | with_reducible assumption | split | (with_reducible refine foldl_wf _ _ _ ?_ (fun t x h => ?_)) | (with_reducible refine enterDown_wf _ _ _ ?_))) <;> (try simp) <;>
    (repeat' (first | with_reducible assumption | split | (with_reducible refine foldl_wf _ _ _ ?_ (fun t x h => ?_)) | (with_reducible refine enterDown_wf _ _ _ ?_))) <;> (try simp) <;>
    (repeat' (first | with_reducible assumption | split | (with_reducible refine foldl_wf _ _ _ ?_ (fun t x h => ?_)) | (with_reducible refine enterDown_wf _ _ _ ?_))) <;> simp_all

@[simp] theorem linkAction_pending (a0) (a1) (s) : (linkAction a0 a1 s).pending = s.pending := by
  unfold linkAction
  (try dsimp only)
  (repeat' split) <;> (try simp [*, apply_ite State.pending, apply_ite State.mem]) <;> (try (repeat' split) <;> simp [*, apply_ite State.pending, apply_ite State.mem])
theorem linkAction_wf (a0) (a1) (s) (h : Memory.wf s.mem = true) : Memory.wf (linkAction a0 a1 s).mem = true := by
  unfold linkAction
  (try dsimp only)
  (repeat' (first | with_reducible assumption | split | (with_reducible refine foldl_wf _ _ _ ?_ (fun t x h => ?_)) | (with_reducible refine startRetrain_wf _ _ _ ?_) | (with_reducible refine enterDown_wf _ _ _ ?_) | (with_reducible refine enterLoop_wf _ _ _ ?_))) <;> (try simp) <;>
    (repeat' (first | with_reducible assumption | split | (with_reducible refine foldl_wf _ _ _ ?_ (fun t x h => ?_)) | (with_reducible refine startRetrain_wf _ _ _ ?_) | (with_reducible refine enterDown_wf _ _ _ ?_) | (with_reducible refine enterLoop_wf _ _ _ ?_))) <;> (try simp) <;>
    (repeat' (first | with_reducible assumption | split | (with_reducible refine foldl_wf _ _ _ ?_ (fun t x h => ?_)) | (with_reducible refine startRetrain_wf _ _ _ ?_) | (with_reducible refine enterDown_wf _ _ _ ?_) | (with_reducible refine enterLoop_wf _ _ _ ?_))) <;> simp_all

@[simp] theorem freeBarge_pending (a0) (a1) (s) : (freeBarge a0 a1 s).pending = s.pending := by
  unfold freeBarge
  simp [*, apply_ite State.pending, apply_ite State.mem]
@[simp] theorem freeBarge_mem (a0) (a1) (s) : (freeBarge a0 a1 s).mem = s.mem := by
  unfold freeBarge
  simp [*, apply_ite State.pending, apply_ite State.mem]

@[simp] theorem startWarmBarge_pending (a0) (s) : (startWarmBarge a0 s).pending = s.pending := by
  unfold startWarmBarge
  simp [*, apply_ite State.pending, apply_ite State.mem]
@[simp] theorem startWarmBarge_mem (a0) (s) : (startWarmBarge a0 s).mem = s.mem := by
  unfold startWarmBarge
  simp [*, apply_ite State.pending, apply_ite State.mem]

@[simp] theorem startColdBarge_pending (a0) (s) : (startColdBarge a0 s).pending = s.pending := by
  unfold startColdBarge
  simp [*, apply_ite State.pending, apply_ite State.mem]
@[simp] theorem startColdBarge_mem (a0) (s) : (startColdBarge a0 s).mem = s.mem := by
  unfold startColdBarge
  simp [*, apply_ite State.pending, apply_ite State.mem]

@[simp] theorem checkFree_pending (s) : (checkFree s).pending = s.pending := by
  unfold checkFree
  simp [*, apply_ite State.pending, apply_ite State.mem]
@[simp] theorem checkFree_mem (s) : (checkFree s).mem = s.mem := by
  unfold checkFree
  simp [*, apply_ite State.pending, apply_ite State.mem]

@[simp] theorem overlaySides_pending (a0) (s) : (overlaySides a0 s).pending = s.pending := by
  unfold overlaySides
  simp
@[simp] theorem overlaySides_mem (a0) (s) : (overlaySides a0 s).mem = s.mem := by
  unfold overlaySides
  simp

@[simp] theorem commitZero_pending (a0) (a1) (s) : (commitZero a0 a1 s).pending = s.pending := by
  unfold commitZero
  (try dsimp only)
  (repeat' split) <;> (try simp [*, apply_ite State.pending, apply_ite State.mem]) <;> (try (repeat' split) <;> simp [*, apply_ite State.pending, apply_ite State.mem])
@[simp] theorem commitZero_mem (a0) (a1) (s) : (commitZero a0 a1 s).mem = s.mem := by
  unfold commitZero
  (try dsimp only)
  (repeat' split) <;> (try simp [*, apply_ite State.pending, apply_ite State.mem]) <;> (try (repeat' split) <;> simp [*, apply_ite State.pending, apply_ite State.mem])

@[simp] theorem fillLine_pending (a0) (a1) (s) : (fillLine a0 a1 s).pending = s.pending := by
  unfold fillLine
  (try dsimp only)
  (repeat' split) <;> (try simp [*, apply_ite State.pending, apply_ite State.mem]) <;> (try (repeat' split) <;> simp [*, apply_ite State.pending, apply_ite State.mem])
theorem fillLine_wf (a0) (a1) (s) (h : Memory.wf s.mem = true) : Memory.wf (fillLine a0 a1 s).mem = true := by
  unfold fillLine
  (try dsimp only)
  (repeat' (first | with_reducible assumption | split | (with_reducible refine foldl_wf _ _ _ ?_ (fun t x h => ?_)) | (with_reducible refine storeLine_wf _ _ _ _ _ _ _ ?_))) <;> (try simp) <;>
    (repeat' (first | with_reducible assumption | split | (with_reducible refine foldl_wf _ _ _ ?_ (fun t x h => ?_)) | (with_reducible refine storeLine_wf _ _ _ _ _ _ _ ?_))) <;> (try simp) <;>
    (repeat' (first | with_reducible assumption | split | (with_reducible refine foldl_wf _ _ _ ?_ (fun t x h => ?_)) | (with_reducible refine storeLine_wf _ _ _ _ _ _ _ ?_))) <;> simp_all

@[simp] theorem fillLines_pending (a0) (s) : (fillLines a0 s).pending = s.pending := by
  unfold fillLines
  simp
theorem fillLines_wf (a0) (s) (h : Memory.wf s.mem = true) : Memory.wf (fillLines a0 s).mem = true := by
  unfold fillLines
  (try dsimp only)
  (repeat' (first | with_reducible assumption | split | (with_reducible refine foldl_wf _ _ _ ?_ (fun t x h => ?_)) | (with_reducible refine fillLine_wf _ _ _ ?_))) <;> (try simp) <;>
    (repeat' (first | with_reducible assumption | split | (with_reducible refine foldl_wf _ _ _ ?_ (fun t x h => ?_)) | (with_reducible refine fillLine_wf _ _ _ ?_))) <;> (try simp) <;>
    (repeat' (first | with_reducible assumption | split | (with_reducible refine foldl_wf _ _ _ ?_ (fun t x h => ?_)) | (with_reducible refine fillLine_wf _ _ _ ?_))) <;> simp_all

@[simp] theorem commitHot_pending (a0) (s) : (commitHot a0 s).pending = s.pending := by
  unfold commitHot
  (try dsimp only)
  (repeat' split) <;> (try simp [*, apply_ite State.pending, apply_ite State.mem]) <;> (try (repeat' split) <;> simp [*, apply_ite State.pending, apply_ite State.mem])
@[simp] theorem commitHot_mem (a0) (s) : (commitHot a0 s).mem = s.mem := by
  unfold commitHot
  (try dsimp only)
  (repeat' split) <;> (try simp [*, apply_ite State.pending, apply_ite State.mem]) <;> (try (repeat' split) <;> simp [*, apply_ite State.pending, apply_ite State.mem])

@[simp] theorem commitBlock_pending (a0) (a1) (s) : (commitBlock a0 a1 s).pending = s.pending := by
  unfold commitBlock
  (try dsimp only)
  (repeat' split) <;> (try simp [*, apply_ite State.pending, apply_ite State.mem]) <;> (try (repeat' split) <;> simp [*, apply_ite State.pending, apply_ite State.mem])
@[simp] theorem commitBlock_mem (a0) (a1) (s) : (commitBlock a0 a1 s).mem = s.mem := by
  unfold commitBlock
  (try dsimp only)
  (repeat' split) <;> (try simp [*, apply_ite State.pending, apply_ite State.mem]) <;> (try (repeat' split) <;> simp [*, apply_ite State.pending, apply_ite State.mem])

@[simp] theorem commitCopy_pending (a0) (a1) (s) : (commitCopy a0 a1 s).pending = s.pending := by
  unfold commitCopy
  simp [*, apply_ite State.pending, apply_ite State.mem]
@[simp] theorem commitCopy_mem (a0) (a1) (s) : (commitCopy a0 a1 s).mem = s.mem := by
  unfold commitCopy
  simp [*, apply_ite State.pending, apply_ite State.mem]

@[simp] theorem writeFrame_pending (a0) (a1) (a2) (a3) (s) : (writeFrame a0 a1 a2 a3 s).pending = s.pending := by
  unfold writeFrame
  simp
@[simp] theorem writeFrame_mem (a0) (a1) (a2) (a3) (s) : (writeFrame a0 a1 a2 a3 s).mem = s.mem := by
  unfold writeFrame
  simp

@[simp] theorem commitRebuild_pending (a0) (a1) (s) : (commitRebuild a0 a1 s).pending = s.pending := by
  unfold commitRebuild
  (try dsimp only)
  (repeat' split) <;> (try simp [*, apply_ite State.pending, apply_ite State.mem]) <;> (try (repeat' split) <;> simp [*, apply_ite State.pending, apply_ite State.mem])
@[simp] theorem commitRebuild_mem (a0) (a1) (s) : (commitRebuild a0 a1 s).mem = s.mem := by
  unfold commitRebuild
  (try dsimp only)
  (repeat' split) <;> (try simp [*, apply_ite State.pending, apply_ite State.mem]) <;> (try (repeat' split) <;> simp [*, apply_ite State.pending, apply_ite State.mem])

@[simp] theorem moverEvent_pending (a0) (a1) (a2) (s) : (moverEvent a0 a1 a2 s).pending = s.pending := by
  unfold moverEvent
  (try dsimp only)
  (repeat' split) <;> (try simp [*, apply_ite State.pending, apply_ite State.mem]) <;> (try (repeat' split) <;> simp [*, apply_ite State.pending, apply_ite State.mem])
@[simp] theorem moverEvent_mem (a0) (a1) (a2) (s) : (moverEvent a0 a1 a2 s).mem = s.mem := by
  unfold moverEvent
  (try dsimp only)
  (repeat' split) <;> (try simp [*, apply_ite State.pending, apply_ite State.mem]) <;> (try (repeat' split) <;> simp [*, apply_ite State.pending, apply_ite State.mem])

@[simp] theorem afterCommit_pending (a0) (a1) (s) : (afterCommit a0 a1 s).pending = s.pending := by
  unfold afterCommit
  simp [*, apply_ite State.pending, apply_ite State.mem]
theorem afterCommit_wf (a0) (a1) (s) (h : Memory.wf s.mem = true) : Memory.wf (afterCommit a0 a1 s).mem = true := by
  unfold afterCommit
  (try dsimp only)
  (repeat' (first | with_reducible assumption | split | (with_reducible refine foldl_wf _ _ _ ?_ (fun t x h => ?_)) | (with_reducible refine wakeWaiting_wf _ _ ?_))) <;> (try simp) <;>
    (repeat' (first | with_reducible assumption | split | (with_reducible refine foldl_wf _ _ _ ?_ (fun t x h => ?_)) | (with_reducible refine wakeWaiting_wf _ _ ?_))) <;> (try simp) <;>
    (repeat' (first | with_reducible assumption | split | (with_reducible refine foldl_wf _ _ _ ?_ (fun t x h => ?_)) | (with_reducible refine wakeWaiting_wf _ _ ?_))) <;> simp_all

@[simp] theorem setPuts_pending (a0) (a1) (a2) (s) : (setPuts a0 a1 a2 s).pending = s.pending := by
  unfold setPuts
  simp [*, apply_ite State.pending, apply_ite State.mem]
@[simp] theorem setPuts_mem (a0) (a1) (a2) (s) : (setPuts a0 a1 a2 s).mem = s.mem := by
  unfold setPuts
  simp [*, apply_ite State.pending, apply_ite State.mem]

@[simp] theorem commitMove_pending (a0) (a1) (s) : (commitMove a0 a1 s).pending = s.pending := by
  unfold commitMove
  (try dsimp only)
  (repeat' split) <;> (try simp [*, apply_ite State.pending, apply_ite State.mem]) <;> (try (repeat' split) <;> simp [*, apply_ite State.pending, apply_ite State.mem])
theorem commitMove_wf (a0) (a1) (s) (h : Memory.wf s.mem = true) : Memory.wf (commitMove a0 a1 s).mem = true := by
  unfold commitMove
  (try dsimp only)
  (repeat' (first | with_reducible assumption | split | (with_reducible refine foldl_wf _ _ _ ?_ (fun t x h => ?_)) | (with_reducible refine fillLines_wf _ _ ?_) | (with_reducible refine afterCommit_wf _ _ _ ?_))) <;> (try simp) <;>
    (repeat' (first | with_reducible assumption | split | (with_reducible refine foldl_wf _ _ _ ?_ (fun t x h => ?_)) | (with_reducible refine fillLines_wf _ _ ?_) | (with_reducible refine afterCommit_wf _ _ _ ?_))) <;> (try simp) <;>
    (repeat' (first | with_reducible assumption | split | (with_reducible refine foldl_wf _ _ _ ?_ (fun t x h => ?_)) | (with_reducible refine fillLines_wf _ _ ?_) | (with_reducible refine afterCommit_wf _ _ _ ?_))) <;> simp_all

@[simp] theorem moverCommit_pending (a0) (a1) (s) : (moverCommit a0 a1 s).pending = s.pending := by
  unfold moverCommit
  (try dsimp only)
  (repeat' split) <;> (try simp [*, apply_ite State.pending, apply_ite State.mem]) <;> (try (repeat' split) <;> simp [*, apply_ite State.pending, apply_ite State.mem])
theorem moverCommit_wf (a0) (a1) (s) (h : Memory.wf s.mem = true) : Memory.wf (moverCommit a0 a1 s).mem = true := by
  unfold moverCommit
  (try dsimp only)
  (repeat' (first | with_reducible assumption | split | (with_reducible refine foldl_wf _ _ _ ?_ (fun t x h => ?_)) | (with_reducible refine commitMove_wf _ _ _ ?_))) <;> (try simp) <;>
    (repeat' (first | with_reducible assumption | split | (with_reducible refine foldl_wf _ _ _ ?_ (fun t x h => ?_)) | (with_reducible refine commitMove_wf _ _ _ ?_))) <;> (try simp) <;>
    (repeat' (first | with_reducible assumption | split | (with_reducible refine foldl_wf _ _ _ ?_ (fun t x h => ?_)) | (with_reducible refine commitMove_wf _ _ _ ?_))) <;> simp_all

@[simp] theorem queueReprotect_pending (a0) (a1) (s) : (queueReprotect a0 a1 s).pending = s.pending := by
  unfold queueReprotect
  (try dsimp only)
  (repeat' split) <;> (try simp [*, apply_ite State.pending, apply_ite State.mem]) <;> (try (repeat' split) <;> simp [*, apply_ite State.pending, apply_ite State.mem])
@[simp] theorem queueReprotect_mem (a0) (a1) (s) : (queueReprotect a0 a1 s).mem = s.mem := by
  unfold queueReprotect
  (try dsimp only)
  (repeat' split) <;> (try simp [*, apply_ite State.pending, apply_ite State.mem]) <;> (try (repeat' split) <;> simp [*, apply_ite State.pending, apply_ite State.mem])

@[simp] theorem commitBarge_pending (a0) (a1) (a2) (s) : (commitBarge a0 a1 a2 s).pending = s.pending := by
  unfold commitBarge
  simp [*, apply_ite State.pending, apply_ite State.mem]
theorem commitBarge_wf (a0) (a1) (a2) (s) (h : Memory.wf s.mem = true) : Memory.wf (commitBarge a0 a1 a2 s).mem = true := by
  unfold commitBarge
  (try dsimp only)
  (repeat' (first | with_reducible assumption | split | (with_reducible refine foldl_wf _ _ _ ?_ (fun t x h => ?_)) | (with_reducible refine moverCommit_wf _ _ _ ?_))) <;> (try simp) <;>
    (repeat' (first | with_reducible assumption | split | (with_reducible refine foldl_wf _ _ _ ?_ (fun t x h => ?_)) | (with_reducible refine moverCommit_wf _ _ _ ?_))) <;> (try simp) <;>
    (repeat' (first | with_reducible assumption | split | (with_reducible refine foldl_wf _ _ _ ?_ (fun t x h => ?_)) | (with_reducible refine moverCommit_wf _ _ _ ?_))) <;> simp_all

@[simp] theorem bargeCommit_pending (a0) (a1) (a2) (s) : (bargeCommit a0 a1 a2 s).pending = s.pending := by
  unfold bargeCommit
  (try dsimp only)
  (repeat' split) <;> (try simp [*, apply_ite State.pending, apply_ite State.mem]) <;> (try (repeat' split) <;> simp [*, apply_ite State.pending, apply_ite State.mem])
theorem bargeCommit_wf (a0) (a1) (a2) (s) (h : Memory.wf s.mem = true) : Memory.wf (bargeCommit a0 a1 a2 s).mem = true := by
  unfold bargeCommit
  (try dsimp only)
  (repeat' (first | with_reducible assumption | split | (with_reducible refine foldl_wf _ _ _ ?_ (fun t x h => ?_)) | (with_reducible refine commitBarge_wf _ _ _ _ ?_))) <;> (try simp) <;>
    (repeat' (first | with_reducible assumption | split | (with_reducible refine foldl_wf _ _ _ ?_ (fun t x h => ?_)) | (with_reducible refine commitBarge_wf _ _ _ _ ?_))) <;> (try simp) <;>
    (repeat' (first | with_reducible assumption | split | (with_reducible refine foldl_wf _ _ _ ?_ (fun t x h => ?_)) | (with_reducible refine commitBarge_wf _ _ _ _ ?_))) <;> simp_all

@[simp] theorem firstTouch_pending (a0) (a1) (s) : (firstTouch a0 a1 s).pending = s.pending := by
  unfold firstTouch
  simp [*, apply_ite State.pending, apply_ite State.mem]
@[simp] theorem firstTouch_mem (a0) (a1) (s) : (firstTouch a0 a1 s).mem = s.mem := by
  unfold firstTouch
  simp [*, apply_ite State.pending, apply_ite State.mem]

@[simp] theorem startMove_pending (a0) (a1) (a2) (a3) (s) : (startMove a0 a1 a2 a3 s).pending = s.pending := by
  unfold startMove
  simp [*, apply_ite State.pending, apply_ite State.mem]
theorem startMove_wf (a0) (a1) (a2) (a3) (s) (h : Memory.wf s.mem = true) : Memory.wf (startMove a0 a1 a2 a3 s).mem = true := by
  unfold startMove
  (try dsimp only)
  (repeat' (first | with_reducible assumption | split | (with_reducible refine foldl_wf _ _ _ ?_ (fun t x h => ?_)) | (with_reducible refine loadEntry_wf _ _ ?_))) <;> (try simp) <;>
    (repeat' (first | with_reducible assumption | split | (with_reducible refine foldl_wf _ _ _ ?_ (fun t x h => ?_)) | (with_reducible refine loadEntry_wf _ _ ?_))) <;> (try simp) <;>
    (repeat' (first | with_reducible assumption | split | (with_reducible refine foldl_wf _ _ _ ?_ (fun t x h => ?_)) | (with_reducible refine loadEntry_wf _ _ ?_))) <;> simp_all

@[simp] theorem planPromote_pending (a0) (a1) (s) : (planPromote a0 a1 s).pending = s.pending := by
  unfold planPromote
  simp [*, apply_ite State.pending, apply_ite State.mem]
theorem planPromote_wf (a0) (a1) (s) (h : Memory.wf s.mem = true) : Memory.wf (planPromote a0 a1 s).mem = true := by
  unfold planPromote
  (try dsimp only)
  (repeat' (first | with_reducible assumption | split | (with_reducible refine foldl_wf _ _ _ ?_ (fun t x h => ?_)) | (with_reducible refine startMove_wf _ _ _ _ _ ?_))) <;> (try simp) <;>
    (repeat' (first | with_reducible assumption | split | (with_reducible refine foldl_wf _ _ _ ?_ (fun t x h => ?_)) | (with_reducible refine startMove_wf _ _ _ _ _ ?_))) <;> (try simp) <;>
    (repeat' (first | with_reducible assumption | split | (with_reducible refine foldl_wf _ _ _ ?_ (fun t x h => ?_)) | (with_reducible refine startMove_wf _ _ _ _ _ ?_))) <;> simp_all

@[simp] theorem scanPast_pending (a0) (a1) (s) : (scanPast a0 a1 s).pending = s.pending := by
  unfold scanPast
  simp
@[simp] theorem scanPast_mem (a0) (a1) (s) : (scanPast a0 a1 s).mem = s.mem := by
  unfold scanPast
  simp

@[simp] theorem planDemote_pending (a0) (a1) (s) : (planDemote a0 a1 s).pending = s.pending := by
  unfold planDemote
  simp [*, apply_ite State.pending, apply_ite State.mem]
theorem planDemote_wf (a0) (a1) (s) (h : Memory.wf s.mem = true) : Memory.wf (planDemote a0 a1 s).mem = true := by
  unfold planDemote
  (try dsimp only)
  (repeat' (first | with_reducible assumption | split | (with_reducible refine foldl_wf _ _ _ ?_ (fun t x h => ?_)) | (with_reducible refine startMove_wf _ _ _ _ _ ?_))) <;> (try simp) <;>
    (repeat' (first | with_reducible assumption | split | (with_reducible refine foldl_wf _ _ _ ?_ (fun t x h => ?_)) | (with_reducible refine startMove_wf _ _ _ _ _ ?_))) <;> (try simp) <;>
    (repeat' (first | with_reducible assumption | split | (with_reducible refine foldl_wf _ _ _ ?_ (fun t x h => ?_)) | (with_reducible refine startMove_wf _ _ _ _ _ ?_))) <;> simp_all

@[simp] theorem planMerge_pending (a0) (s) : (planMerge a0 s).pending = s.pending := by
  unfold planMerge
  (try dsimp only)
  (repeat' split) <;> (try simp [*, apply_ite State.pending, apply_ite State.mem]) <;> (try (repeat' split) <;> simp [*, apply_ite State.pending, apply_ite State.mem])
theorem planMerge_wf (a0) (s) (h : Memory.wf s.mem = true) : Memory.wf (planMerge a0 s).mem = true := by
  unfold planMerge
  (try dsimp only)
  (repeat' (first | with_reducible assumption | split | (with_reducible refine foldl_wf _ _ _ ?_ (fun t x h => ?_)) | (with_reducible refine startMove_wf _ _ _ _ _ ?_))) <;> (try simp) <;>
    (repeat' (first | with_reducible assumption | split | (with_reducible refine foldl_wf _ _ _ ?_ (fun t x h => ?_)) | (with_reducible refine startMove_wf _ _ _ _ _ ?_))) <;> (try simp) <;>
    (repeat' (first | with_reducible assumption | split | (with_reducible refine foldl_wf _ _ _ ?_ (fun t x h => ?_)) | (with_reducible refine startMove_wf _ _ _ _ _ ?_))) <;> simp_all

@[simp] theorem planRebuild_pending (a0) (s) : (planRebuild a0 s).pending = s.pending := by
  unfold planRebuild
  (try dsimp only)
  (repeat' split) <;> (try simp [*, apply_ite State.pending, apply_ite State.mem]) <;> (try (repeat' split) <;> simp [*, apply_ite State.pending, apply_ite State.mem])
theorem planRebuild_wf (a0) (s) (h : Memory.wf s.mem = true) : Memory.wf (planRebuild a0 s).mem = true := by
  unfold planRebuild
  (try dsimp only)
  (repeat' (first | with_reducible assumption | split | (with_reducible refine foldl_wf _ _ _ ?_ (fun t x h => ?_)) | (with_reducible refine startMove_wf _ _ _ _ _ ?_))) <;> (try simp) <;>
    (repeat' (first | with_reducible assumption | split | (with_reducible refine foldl_wf _ _ _ ?_ (fun t x h => ?_)) | (with_reducible refine startMove_wf _ _ _ _ _ ?_))) <;> (try simp) <;>
    (repeat' (first | with_reducible assumption | split | (with_reducible refine foldl_wf _ _ _ ?_ (fun t x h => ?_)) | (with_reducible refine startMove_wf _ _ _ _ _ ?_))) <;> simp_all

@[simp] theorem planRekey_pending (a0) (s) : (planRekey a0 s).pending = s.pending := by
  unfold planRekey
  (try dsimp only)
  (repeat' split) <;> (try simp [*, apply_ite State.pending, apply_ite State.mem]) <;> (try (repeat' split) <;> simp [*, apply_ite State.pending, apply_ite State.mem])
theorem planRekey_wf (a0) (s) (h : Memory.wf s.mem = true) : Memory.wf (planRekey a0 s).mem = true := by
  unfold planRekey
  (try dsimp only)
  (repeat' (first | with_reducible assumption | split | (with_reducible refine foldl_wf _ _ _ ?_ (fun t x h => ?_)) | (with_reducible refine startMove_wf _ _ _ _ _ ?_))) <;> (try simp) <;>
    (repeat' (first | with_reducible assumption | split | (with_reducible refine foldl_wf _ _ _ ?_ (fun t x h => ?_)) | (with_reducible refine startMove_wf _ _ _ _ _ ?_))) <;> (try simp) <;>
    (repeat' (first | with_reducible assumption | split | (with_reducible refine foldl_wf _ _ _ ?_ (fun t x h => ?_)) | (with_reducible refine startMove_wf _ _ _ _ _ ?_))) <;> simp_all

@[simp] theorem planMove_pending (s) (a1) : (planMove s a1).pending = s.pending := by
  unfold planMove
  (try dsimp only)
  (repeat' split) <;> (try simp [*, apply_ite State.pending, apply_ite State.mem]) <;> (try (repeat' split) <;> simp [*, apply_ite State.pending, apply_ite State.mem])
theorem planMove_wf (s) (a1) (h : Memory.wf s.mem = true) : Memory.wf (planMove s a1).mem = true := by
  unfold planMove
  (try dsimp only)
  (repeat' (first | with_reducible assumption | split | (with_reducible refine foldl_wf _ _ _ ?_ (fun t x h => ?_)) | (with_reducible refine planPromote_wf _ _ _ ?_) | (with_reducible refine planDemote_wf _ _ _ ?_) | (with_reducible refine planMerge_wf _ _ ?_) | (with_reducible refine planRebuild_wf _ _ ?_) | (with_reducible refine planRekey_wf _ _ ?_))) <;> (try simp) <;>
    (repeat' (first | with_reducible assumption | split | (with_reducible refine foldl_wf _ _ _ ?_ (fun t x h => ?_)) | (with_reducible refine planPromote_wf _ _ _ ?_) | (with_reducible refine planDemote_wf _ _ _ ?_) | (with_reducible refine planMerge_wf _ _ ?_) | (with_reducible refine planRebuild_wf _ _ ?_) | (with_reducible refine planRekey_wf _ _ ?_))) <;> (try simp) <;>
    (repeat' (first | with_reducible assumption | split | (with_reducible refine foldl_wf _ _ _ ?_ (fun t x h => ?_)) | (with_reducible refine planPromote_wf _ _ _ ?_) | (with_reducible refine planDemote_wf _ _ _ ?_) | (with_reducible refine planMerge_wf _ _ ?_) | (with_reducible refine planRebuild_wf _ _ ?_) | (with_reducible refine planRekey_wf _ _ ?_))) <;> simp_all

@[simp] theorem dredgeBarge_pending (s) (a1) : (dredgeBarge s a1).pending = s.pending := by
  unfold dredgeBarge
  simp [*, apply_ite State.pending, apply_ite State.mem]
theorem dredgeBarge_wf (s) (a1) (h : Memory.wf s.mem = true) : Memory.wf (dredgeBarge s a1).mem = true := by
  unfold dredgeBarge
  (try dsimp only)
  (repeat' (first | with_reducible assumption | split | (with_reducible refine foldl_wf _ _ _ ?_ (fun t x h => ?_)) | (with_reducible refine startMove_wf _ _ _ _ _ ?_))) <;> (try simp) <;>
    (repeat' (first | with_reducible assumption | split | (with_reducible refine foldl_wf _ _ _ ?_ (fun t x h => ?_)) | (with_reducible refine startMove_wf _ _ _ _ _ ?_))) <;> (try simp) <;>
    (repeat' (first | with_reducible assumption | split | (with_reducible refine foldl_wf _ _ _ ?_ (fun t x h => ?_)) | (with_reducible refine startMove_wf _ _ _ _ _ ?_))) <;> simp_all

@[simp] theorem queueOverlays_pending (s) : (queueOverlays s).pending = s.pending := by
  unfold queueOverlays
  simp
@[simp] theorem queueOverlays_mem (s) : (queueOverlays s).mem = s.mem := by
  unfold queueOverlays
  simp

@[simp] theorem unitRestored_pending (a0) (s) : (unitRestored a0 s).pending = s.pending := by
  unfold unitRestored
  simp
@[simp] theorem unitRestored_mem (a0) (s) : (unitRestored a0 s).mem = s.mem := by
  unfold unitRestored
  simp

@[simp] theorem retireEpoch_pending (a0) (s) : (retireEpoch a0 s).pending = s.pending := by
  unfold retireEpoch
  simp
@[simp] theorem retireEpoch_mem (a0) (s) : (retireEpoch a0 s).mem = s.mem := by
  unfold retireEpoch
  simp

@[simp] theorem endErase_pending (a0) (s) : (endErase a0 s).pending = s.pending := by
  unfold endErase
  simp
@[simp] theorem endErase_mem (a0) (s) : (endErase a0 s).mem = s.mem := by
  unfold endErase
  simp

@[simp] theorem noteBg_pending (a0) (a1) (a2) (a3) (s) : (noteBg a0 a1 a2 a3 s).pending = s.pending := by
  unfold noteBg
  simp [*, apply_ite State.pending, apply_ite State.mem]
@[simp] theorem noteBg_mem (a0) (a1) (a2) (a3) (s) : (noteBg a0 a1 a2 a3 s).mem = s.mem := by
  unfold noteBg
  simp [*, apply_ite State.pending, apply_ite State.mem]

@[simp] theorem outingDone_pending (n : Nat) (o : Outing) (s : State) : (outingDone n o s).pending = s.pending := by
  induction n generalizing o s with
  | zero => rfl
  | succ n ih => unfold outingDone; dsimp only; (repeat' split) <;> simp [ih, apply_ite State.pending]
@[simp] theorem outingDone_mem (n : Nat) (o : Outing) (s : State) : (outingDone n o s).mem = s.mem := by
  induction n generalizing o s with
  | zero => rfl
  | succ n ih => unfold outingDone; dsimp only; (repeat' split) <;> simp [ih, apply_ite State.mem]

@[simp] theorem startOuting_pending (a0) (a1) (a2) (a3) (a4) (s) : (startOuting a0 a1 a2 a3 a4 s).pending = s.pending := by
  unfold startOuting
  simp [*, apply_ite State.pending, apply_ite State.mem]
@[simp] theorem startOuting_mem (a0) (a1) (a2) (a3) (a4) (s) : (startOuting a0 a1 a2 a3 a4 s).mem = s.mem := by
  unfold startOuting
  simp [*, apply_ite State.pending, apply_ite State.mem]

@[simp] theorem recordUnits_pending (s) (a1) : (recordUnits s a1).pending = s.pending := by
  unfold recordUnits
  simp [*, apply_ite State.pending, apply_ite State.mem]
@[simp] theorem recordUnits_mem (s) (a1) : (recordUnits s a1).mem = s.mem := by
  unfold recordUnits
  simp [*, apply_ite State.pending, apply_ite State.mem]

@[simp] theorem resumeRekey_pending (s) : (resumeRekey s).pending = s.pending := by
  unfold resumeRekey
  simp [*, apply_ite State.pending, apply_ite State.mem]
@[simp] theorem resumeRekey_mem (s) : (resumeRekey s).mem = s.mem := by
  unfold resumeRekey
  simp [*, apply_ite State.pending, apply_ite State.mem]

@[simp] theorem resumeTandem_pending (s) : (resumeTandem s).pending = s.pending := by
  unfold resumeTandem
  simp [*, apply_ite State.pending, apply_ite State.mem]
@[simp] theorem resumeTandem_mem (s) : (resumeTandem s).mem = s.mem := by
  unfold resumeTandem
  simp [*, apply_ite State.pending, apply_ite State.mem]

@[simp] theorem toRefill_pending (a0) (s) : (toRefill a0 s).pending = s.pending := by
  unfold toRefill
  simp
@[simp] theorem toRefill_mem (a0) (s) : (toRefill a0 s).mem = s.mem := by
  unfold toRefill
  simp

@[simp] theorem finishReplace_pending (a0) (s) : (finishReplace a0 s).pending = s.pending := by
  unfold finishReplace
  simp
@[simp] theorem finishReplace_mem (a0) (s) : (finishReplace a0 s).mem = s.mem := by
  unfold finishReplace
  simp

@[simp] theorem startRefills_pending (s) : (startRefills s).pending = s.pending := by
  unfold startRefills
  simp [*, apply_ite State.pending, apply_ite State.mem]
@[simp] theorem startRefills_mem (s) : (startRefills s).mem = s.mem := by
  unfold startRefills
  simp [*, apply_ite State.pending, apply_ite State.mem]

@[simp] theorem keeperStep_pending (s) : (keeperStep s).pending = s.pending := by
  unfold keeperStep
  (try dsimp only)
  (repeat' split) <;> (try simp [*, apply_ite State.pending, apply_ite State.mem]) <;> (repeat' split) <;> (try simp [*, apply_ite State.pending, apply_ite State.mem]) <;>
    (refine foldl_p _ _ _ ?_; intro t x; (try dsimp only); (repeat' split) <;> simp [*, apply_ite State.pending, apply_ite State.mem])
@[simp] theorem keeperStep_mem (s) : (keeperStep s).mem = s.mem := by
  unfold keeperStep
  (try dsimp only)
  (repeat' split) <;> (try simp [*, apply_ite State.pending, apply_ite State.mem]) <;> (repeat' split) <;> (try simp [*, apply_ite State.pending, apply_ite State.mem]) <;>
    (refine foldl_m _ _ _ ?_; intro t x; (try dsimp only); (repeat' split) <;> simp [*, apply_ite State.pending, apply_ite State.mem])

@[simp] theorem failUnitOutings_pending (a0) (s) : (failUnitOutings a0 s).pending = s.pending := by
  unfold failUnitOutings
  simp
@[simp] theorem failUnitOutings_mem (a0) (s) : (failUnitOutings a0 s).mem = s.mem := by
  unfold failUnitOutings
  simp

@[simp] theorem reprotect_pending (a0) (s) : (reprotect a0 s).pending = s.pending := by
  unfold reprotect
  simp
@[simp] theorem reprotect_mem (a0) (s) : (reprotect a0 s).mem = s.mem := by
  unfold reprotect
  simp

@[simp] theorem recordLost_pending (a0) (s) : (recordLost a0 s).pending = s.pending := by
  unfold recordLost
  simp [*, apply_ite State.pending, apply_ite State.mem]
theorem recordLost_wf (a0) (s) (h : Memory.wf s.mem = true) : Memory.wf (recordLost a0 s).mem = true := by
  unfold recordLost
  (try dsimp only)
  (repeat' (first | with_reducible assumption | split | (with_reducible refine foldl_wf _ _ _ ?_ (fun t x h => ?_)) | (with_reducible refine slotOff_wf _ _ _ _ ?_))) <;> (try simp) <;>
    (repeat' (first | with_reducible assumption | split | (with_reducible refine foldl_wf _ _ _ ?_ (fun t x h => ?_)) | (with_reducible refine slotOff_wf _ _ _ _ ?_))) <;> (try simp) <;>
    (repeat' (first | with_reducible assumption | split | (with_reducible refine foldl_wf _ _ _ ?_ (fun t x h => ?_)) | (with_reducible refine slotOff_wf _ _ _ _ ?_))) <;> simp_all

@[simp] theorem decayRun_pending (s) : (decayRun s).pending = s.pending := by
  unfold decayRun
  simp
@[simp] theorem decayRun_mem (s) : (decayRun s).mem = s.mem := by
  unfold decayRun
  simp

@[simp] theorem stageDelay_pending (a0) (a1) (a2) (s) : (stageDelay a0 a1 a2 s).pending = s.pending := by
  unfold stageDelay
  simp
@[simp] theorem stageDelay_mem (a0) (a1) (a2) (s) : (stageDelay a0 a1 a2 s).mem = s.mem := by
  unfold stageDelay
  simp

@[simp] theorem commitDelays_pending (a0) (a1) (s) : (commitDelays a0 a1 s).pending = s.pending := by
  unfold commitDelays
  simp [*, apply_ite State.pending, apply_ite State.mem]
@[simp] theorem commitDelays_mem (a0) (a1) (s) : (commitDelays a0 a1 s).mem = s.mem := by
  unfold commitDelays
  simp [*, apply_ite State.pending, apply_ite State.mem]

@[simp] theorem recentre_pending (s) (a1) : (recentre s a1).pending = s.pending := by
  unfold recentre
  simp [*, apply_ite State.pending, apply_ite State.mem]
@[simp] theorem recentre_mem (s) (a1) : (recentre s a1).mem = s.mem := by
  unfold recentre
  simp [*, apply_ite State.pending, apply_ite State.mem]

@[simp] theorem driftRun_pending (a0) (s) : (driftRun a0 s).pending = s.pending := by
  unfold driftRun
  simp
@[simp] theorem driftRun_mem (a0) (s) : (driftRun a0 s).mem = s.mem := by
  unfold driftRun
  simp

@[simp] theorem scrubMoved_pending (a0) (s) : (scrubMoved a0 s).pending = s.pending := by
  unfold scrubMoved
  simp
@[simp] theorem scrubMoved_mem (a0) (s) : (scrubMoved a0 s).mem = s.mem := by
  unfold scrubMoved
  simp

@[simp] theorem scrubFetch_pending (a0) (s) : (scrubFetch a0 s).pending = s.pending := by
  unfold scrubFetch
  simp
@[simp] theorem scrubFetch_mem (a0) (s) : (scrubFetch a0 s).mem = s.mem := by
  unfold scrubFetch
  simp

@[simp] theorem scrubMismatch_pending (a0) (s) : (scrubMismatch a0 s).pending = s.pending := by
  unfold scrubMismatch
  simp [*, apply_ite State.pending, apply_ite State.mem]
@[simp] theorem scrubMismatch_mem (a0) (s) : (scrubMismatch a0 s).mem = s.mem := by
  unfold scrubMismatch
  simp [*, apply_ite State.pending, apply_ite State.mem]

@[simp] theorem scrubRead_pending (s) (a1) : (scrubRead s a1).pending = s.pending := by
  unfold scrubRead
  (try dsimp only)
  (repeat' split) <;> (try simp [*, apply_ite State.pending, apply_ite State.mem]) <;> (try (repeat' split) <;> simp [*, apply_ite State.pending, apply_ite State.mem])
@[simp] theorem scrubRead_mem (s) (a1) : (scrubRead s a1).mem = s.mem := by
  unfold scrubRead
  (try dsimp only)
  (repeat' split) <;> (try simp [*, apply_ite State.pending, apply_ite State.mem]) <;> (try (repeat' split) <;> simp [*, apply_ite State.pending, apply_ite State.mem])

@[simp] theorem scrubLate_pending (s) : (scrubLate s).pending = s.pending := by
  unfold scrubLate
  simp [*, apply_ite State.pending, apply_ite State.mem]
@[simp] theorem scrubLate_mem (s) : (scrubLate s).mem = s.mem := by
  unfold scrubLate
  simp [*, apply_ite State.pending, apply_ite State.mem]

@[simp] theorem takeWork_pending (a0) (a1) (s) : (takeWork a0 a1 s).2.pending = s.pending := by
  unfold takeWork
  (try dsimp only)
  (repeat' split) <;> (try simp [*, apply_ite State.pending, apply_ite State.mem]) <;> (try (repeat' split) <;> simp [*, apply_ite State.pending, apply_ite State.mem])
@[simp] theorem takeWork_mem (a0) (a1) (s) : (takeWork a0 a1 s).2.mem = s.mem := by
  unfold takeWork
  (try dsimp only)
  (repeat' split) <;> (try simp [*, apply_ite State.pending, apply_ite State.mem]) <;> (try (repeat' split) <;> simp [*, apply_ite State.pending, apply_ite State.mem])

@[simp] theorem eraseUnits_pending (a0) (a1) (s) : (eraseUnits a0 a1 s).pending = s.pending := by
  unfold eraseUnits
  simp
theorem eraseUnits_wf (a0) (a1) (s) (h : Memory.wf s.mem = true) : Memory.wf (eraseUnits a0 a1 s).mem = true := by
  unfold eraseUnits
  (try dsimp only)
  (repeat' (first | with_reducible assumption | split | (with_reducible refine foldl_wf _ _ _ ?_ (fun t x h => ?_)) | (with_reducible refine clearPage_wf _ _ ?_))) <;> (try simp) <;>
    (repeat' (first | with_reducible assumption | split | (with_reducible refine foldl_wf _ _ _ ?_ (fun t x h => ?_)) | (with_reducible refine clearPage_wf _ _ ?_))) <;> (try simp) <;>
    (repeat' (first | with_reducible assumption | split | (with_reducible refine foldl_wf _ _ _ ?_ (fun t x h => ?_)) | (with_reducible refine clearPage_wf _ _ ?_))) <;> simp_all

@[simp] theorem chunkRefilled_pending (a0) (a1) (s) : (chunkRefilled a0 a1 s).pending = s.pending := by
  unfold chunkRefilled
  (try dsimp only)
  (repeat' split) <;> (try simp [*, apply_ite State.pending, apply_ite State.mem]) <;> (try (repeat' split) <;> simp [*, apply_ite State.pending, apply_ite State.mem])
@[simp] theorem chunkRefilled_mem (a0) (a1) (s) : (chunkRefilled a0 a1 s).mem = s.mem := by
  unfold chunkRefilled
  (try dsimp only)
  (repeat' split) <;> (try simp [*, apply_ite State.pending, apply_ite State.mem]) <;> (try (repeat' split) <;> simp [*, apply_ite State.pending, apply_ite State.mem])

theorem copyFrame_pending {c n : Nat} {s u : State} (h : copyFrame c n s = some u) : u.pending = s.pending := by
  unfold copyFrame at h
  split at h
  · exact congrArg State.pending (Option.some.inj h).symm
  · dsimp only at h
    split at h
    · cases h
    · rw [← Option.some.inj h, foldl_p _ _ _ (fun t x => by simp)]; simp
@[simp] theorem copyFrames_pending (c : Nat) (l : List Nat) (s : State) : (copyFrames c l s).2.pending = s.pending := by
  induction l generalizing s with
  | nil => rfl
  | cons x l ih =>
    unfold copyFrames
    split
    · rw [ih]; exact copyFrame_pending ‹_›
    · rfl
theorem copyFrame_mem {c n : Nat} {s u : State} (h : copyFrame c n s = some u) : u.mem = s.mem := by
  unfold copyFrame at h
  split at h
  · exact congrArg State.mem (Option.some.inj h).symm
  · dsimp only at h
    split at h
    · cases h
    · rw [← Option.some.inj h, foldl_m _ _ _ (fun t x => by simp)]; simp
@[simp] theorem copyFrames_mem (c : Nat) (l : List Nat) (s : State) : (copyFrames c l s).2.mem = s.mem := by
  induction l generalizing s with
  | nil => rfl
  | cons x l ih =>
    unfold copyFrames
    split
    · rw [ih]; exact copyFrame_mem ‹_›
    · rfl

@[simp] theorem refillUnits_pending (a0) (a1) (s) : (refillUnits a0 a1 s).pending = s.pending := by
  unfold refillUnits
  simp
@[simp] theorem refillUnits_mem (a0) (a1) (s) : (refillUnits a0 a1 s).mem = s.mem := by
  unfold refillUnits
  simp

@[simp] theorem catchUpUnits_pending (a0) (a1) (s) : (catchUpUnits a0 a1 s).pending = s.pending := by
  unfold catchUpUnits
  simp
@[simp] theorem catchUpUnits_mem (a0) (a1) (s) : (catchUpUnits a0 a1 s).mem = s.mem := by
  unfold catchUpUnits
  simp

@[simp] theorem warmUnits_pending (o : Outing) (n : Nat) (s : State) : (warmUnits o n s).pending = s.pending := by
  unfold warmUnits
  dsimp only
  generalize true = b
  generalize List.range n = l
  have key : ∀ (g : Bool × State → Nat → Bool × State), (∀ x i, (g x i).2.pending = x.2.pending) →
      ∀ x, (l.foldl g x).2.pending = x.2.pending := fun g hg => by
    induction l with
    | nil => intro x; rfl
    | cons i l ih => intro x; rw [List.foldl_cons, ih, hg]
  refine key _ (fun x i => ?_) _
  split
  · dsimp only; rw [foldl_p _ _ _ (fun t x => by simp)]; simp
  · rfl
@[simp] theorem warmUnits_mem (o : Outing) (n : Nat) (s : State) : (warmUnits o n s).mem = s.mem := by
  unfold warmUnits
  dsimp only
  generalize true = b
  generalize List.range n = l
  have key : ∀ (g : Bool × State → Nat → Bool × State), (∀ x i, (g x i).2.mem = x.2.mem) →
      ∀ x, (l.foldl g x).2.mem = x.2.mem := fun g hg => by
    induction l with
    | nil => intro x; rfl
    | cons i l ih => intro x; rw [List.foldl_cons, ih, hg]
  refine key _ (fun x i => ?_) _
  split
  · dsimp only; rw [foldl_m _ _ _ (fun t x => by simp)]; simp
  · rfl

@[simp] theorem resyncUnits_pending (a0) (a1) (s) : (resyncUnits a0 a1 s).pending = s.pending := by
  unfold resyncUnits
  simp [*, apply_ite State.pending, apply_ite State.mem]
@[simp] theorem resyncUnits_mem (a0) (a1) (s) : (resyncUnits a0 a1 s).mem = s.mem := by
  unfold resyncUnits
  simp [*, apply_ite State.pending, apply_ite State.mem]

@[simp] theorem doUnits_pending (s) (a1) : (doUnits s a1).pending = s.pending := by
  unfold doUnits
  (try dsimp only)
  (repeat' split) <;> (try simp [*, apply_ite State.pending, apply_ite State.mem]) <;> (try (repeat' split) <;> simp [*, apply_ite State.pending, apply_ite State.mem])
theorem doUnits_wf (s) (a1) (h : Memory.wf s.mem = true) : Memory.wf (doUnits s a1).mem = true := by
  unfold doUnits
  (try dsimp only)
  (repeat' (first | with_reducible assumption | split | (with_reducible refine foldl_wf _ _ _ ?_ (fun t x h => ?_)) | (with_reducible refine eraseUnits_wf _ _ _ ?_))) <;> (try simp) <;>
    (repeat' (first | with_reducible assumption | split | (with_reducible refine foldl_wf _ _ _ ?_ (fun t x h => ?_)) | (with_reducible refine eraseUnits_wf _ _ _ ?_))) <;> (try simp) <;>
    (repeat' (first | with_reducible assumption | split | (with_reducible refine foldl_wf _ _ _ ?_ (fun t x h => ?_)) | (with_reducible refine eraseUnits_wf _ _ _ ?_))) <;> simp_all

@[simp] theorem berthWork_pending (a0) (s) : (berthWork a0 s).pending = s.pending := by
  unfold berthWork
  (try dsimp only)
  (repeat' split) <;> (try simp [*, apply_ite State.pending, apply_ite State.mem]) <;> (try (repeat' split) <;> simp [*, apply_ite State.pending, apply_ite State.mem])
theorem berthWork_wf (a0) (s) (h : Memory.wf s.mem = true) : Memory.wf (berthWork a0 s).mem = true := by
  unfold berthWork
  (try dsimp only)
  (repeat' (first | with_reducible assumption | split | (with_reducible refine foldl_wf _ _ _ ?_ (fun t x h => ?_)) | (with_reducible refine planMove_wf _ _ ?_) | (with_reducible refine dredgeBarge_wf _ _ ?_) | (with_reducible refine doUnits_wf _ _ ?_))) <;> (try simp) <;>
    (repeat' (first | with_reducible assumption | split | (with_reducible refine foldl_wf _ _ _ ?_ (fun t x h => ?_)) | (with_reducible refine planMove_wf _ _ ?_) | (with_reducible refine dredgeBarge_wf _ _ ?_) | (with_reducible refine doUnits_wf _ _ ?_))) <;> (try simp) <;>
    (repeat' (first | with_reducible assumption | split | (with_reducible refine foldl_wf _ _ _ ?_ (fun t x h => ?_)) | (with_reducible refine planMove_wf _ _ ?_) | (with_reducible refine dredgeBarge_wf _ _ ?_) | (with_reducible refine doUnits_wf _ _ ?_))) <;> simp_all

@[simp] theorem berthBoundary_pending (a0) (s) : (berthBoundary a0 s).pending = s.pending := by
  unfold berthBoundary
  simp [*, apply_ite State.pending, apply_ite State.mem]
theorem berthBoundary_wf (a0) (s) (h : Memory.wf s.mem = true) : Memory.wf (berthBoundary a0 s).mem = true := by
  unfold berthBoundary
  (try dsimp only)
  (repeat' (first | with_reducible assumption | split | (with_reducible refine foldl_wf _ _ _ ?_ (fun t x h => ?_)) | (with_reducible refine berthWork_wf _ _ ?_))) <;> (try simp) <;>
    (repeat' (first | with_reducible assumption | split | (with_reducible refine foldl_wf _ _ _ ?_ (fun t x h => ?_)) | (with_reducible refine berthWork_wf _ _ ?_))) <;> (try simp) <;>
    (repeat' (first | with_reducible assumption | split | (with_reducible refine foldl_wf _ _ _ ?_ (fun t x h => ?_)) | (with_reducible refine berthWork_wf _ _ ?_))) <;> simp_all

@[simp] theorem countRecords_pending (s) : (countRecords s).pending = s.pending := by
  unfold countRecords
  simp
@[simp] theorem countRecords_mem (s) : (countRecords s).mem = s.mem := by
  unfold countRecords
  simp

@[simp] theorem driveCycle_pending (s) (a1) : (driveCycle s a1).pending = s.pending := by
  unfold driveCycle
  simp [*, apply_ite State.pending, apply_ite State.mem]
@[simp] theorem driveCycle_mem (s) (a1) : (driveCycle s a1).mem = s.mem := by
  unfold driveCycle
  simp [*, apply_ite State.pending, apply_ite State.mem]

@[simp] theorem smartPoll_pending (s) (a1) : (smartPoll s a1).pending = s.pending := by
  unfold smartPoll
  simp [*, apply_ite State.pending, apply_ite State.mem]
theorem smartPoll_wf (s) (a1) (h : Memory.wf s.mem = true) : Memory.wf (smartPoll s a1).mem = true := by
  unfold smartPoll
  (try dsimp only)
  (repeat' (first | with_reducible assumption | split | (with_reducible refine foldl_wf _ _ _ ?_ (fun t x h => ?_)) | (with_reducible refine fenceUnit_wf _ _ _ ?_))) <;> (try simp) <;>
    (repeat' (first | with_reducible assumption | split | (with_reducible refine foldl_wf _ _ _ ?_ (fun t x h => ?_)) | (with_reducible refine fenceUnit_wf _ _ _ ?_))) <;> (try simp) <;>
    (repeat' (first | with_reducible assumption | split | (with_reducible refine foldl_wf _ _ _ ?_ (fun t x h => ?_)) | (with_reducible refine fenceUnit_wf _ _ _ ?_))) <;> simp_all

@[simp] theorem reconcile_pending (a0) (a1) (a2) (s) : (reconcile a0 a1 a2 s).pending = s.pending := by
  unfold reconcile
  (try dsimp only)
  (repeat' split) <;> (try simp [*, apply_ite State.pending, apply_ite State.mem]) <;> (try (repeat' split) <;> simp [*, apply_ite State.pending, apply_ite State.mem])
@[simp] theorem reconcile_mem (a0) (a1) (a2) (s) : (reconcile a0 a1 a2 s).mem = s.mem := by
  unfold reconcile
  (try dsimp only)
  (repeat' split) <;> (try simp [*, apply_ite State.pending, apply_ite State.mem]) <;> (try (repeat' split) <;> simp [*, apply_ite State.pending, apply_ite State.mem])

@[simp] theorem crossCheck_pending (s) (a1) : (crossCheck s a1).pending = s.pending := by
  unfold crossCheck
  simp [*, apply_ite State.pending, apply_ite State.mem]
theorem crossCheck_wf (s) (a1) (h : Memory.wf s.mem = true) : Memory.wf (crossCheck s a1).mem = true := by
  unfold crossCheck
  (try dsimp only)
  (repeat' (first | with_reducible assumption | split | (with_reducible refine foldl_wf _ _ _ ?_ (fun t x h => ?_)) | (with_reducible refine fenceUnit_wf _ _ _ ?_) | (with_reducible refine slotOff_wf _ _ _ _ ?_) | (with_reducible refine recordLost_wf _ _ ?_))) <;> (try simp) <;>
    (repeat' (first | with_reducible assumption | split | (with_reducible refine foldl_wf _ _ _ ?_ (fun t x h => ?_)) | (with_reducible refine fenceUnit_wf _ _ _ ?_) | (with_reducible refine slotOff_wf _ _ _ _ ?_) | (with_reducible refine recordLost_wf _ _ ?_))) <;> (try simp) <;>
    (repeat' (first | with_reducible assumption | split | (with_reducible refine foldl_wf _ _ _ ?_ (fun t x h => ?_)) | (with_reducible refine fenceUnit_wf _ _ _ ?_) | (with_reducible refine slotOff_wf _ _ _ _ ?_) | (with_reducible refine recordLost_wf _ _ ?_))) <;> simp_all

@[simp] theorem reconcileAll_pending (s) : (reconcileAll s).pending = s.pending := by
  unfold reconcileAll
  simp
theorem reconcileAll_wf (s) (h : Memory.wf s.mem = true) : Memory.wf (reconcileAll s).mem = true := by
  unfold reconcileAll
  (try dsimp only)
  (repeat' (first | with_reducible assumption | split | (with_reducible refine foldl_wf _ _ _ ?_ (fun t x h => ?_)) | (with_reducible refine crossCheck_wf _ _ ?_))) <;> (try simp) <;>
    (repeat' (first | with_reducible assumption | split | (with_reducible refine foldl_wf _ _ _ ?_ (fun t x h => ?_)) | (with_reducible refine crossCheck_wf _ _ ?_))) <;> (try simp) <;>
    (repeat' (first | with_reducible assumption | split | (with_reducible refine foldl_wf _ _ _ ?_ (fun t x h => ?_)) | (with_reducible refine crossCheck_wf _ _ ?_))) <;> simp_all

@[simp] theorem cycleWork_pending (a0) (s) : (cycleWork a0 s).pending = s.pending := by
  unfold cycleWork
  simp [*, apply_ite State.pending, apply_ite State.mem]
theorem cycleWork_wf (a0) (s) (h : Memory.wf s.mem = true) : Memory.wf (cycleWork a0 s).mem = true := by
  unfold cycleWork
  (try dsimp only)
  (repeat' (first | with_reducible assumption | split | (with_reducible refine foldl_wf _ _ _ ?_ (fun t x h => ?_)) | (with_reducible refine smartPoll_wf _ _ ?_) | (with_reducible refine reconcileAll_wf _ ?_))) <;> (try simp) <;>
    (repeat' (first | with_reducible assumption | split | (with_reducible refine foldl_wf _ _ _ ?_ (fun t x h => ?_)) | (with_reducible refine smartPoll_wf _ _ ?_) | (with_reducible refine reconcileAll_wf _ ?_))) <;> (try simp) <;>
    (repeat' (first | with_reducible assumption | split | (with_reducible refine foldl_wf _ _ _ ?_ (fun t x h => ?_)) | (with_reducible refine smartPoll_wf _ _ ?_) | (with_reducible refine reconcileAll_wf _ ?_))) <;> simp_all

@[simp] theorem cycleBoundary_pending (a0) (s) : (cycleBoundary a0 s).pending = s.pending := by
  unfold cycleBoundary
  simp [*, apply_ite State.pending, apply_ite State.mem]
theorem cycleBoundary_wf (a0) (s) (h : Memory.wf s.mem = true) : Memory.wf (cycleBoundary a0 s).mem = true := by
  unfold cycleBoundary
  (try dsimp only)
  (repeat' (first | with_reducible assumption | split | (with_reducible refine foldl_wf _ _ _ ?_ (fun t x h => ?_)) | (with_reducible refine cycleWork_wf _ _ ?_))) <;> (try simp) <;>
    (repeat' (first | with_reducible assumption | split | (with_reducible refine foldl_wf _ _ _ ?_ (fun t x h => ?_)) | (with_reducible refine cycleWork_wf _ _ ?_))) <;> (try simp) <;>
    (repeat' (first | with_reducible assumption | split | (with_reducible refine foldl_wf _ _ _ ?_ (fun t x h => ?_)) | (with_reducible refine cycleWork_wf _ _ ?_))) <;> simp_all

@[simp] theorem commitGeometry_pending (a0) (s) : (commitGeometry a0 s).pending = s.pending := by
  unfold commitGeometry
  simp
@[simp] theorem commitGeometry_mem (a0) (s) : (commitGeometry a0 s).mem = s.mem := by
  unfold commitGeometry
  simp

@[simp] theorem mediaReady_pending (s) : (mediaReady s).pending = s.pending := by
  unfold mediaReady
  simp
@[simp] theorem mediaReady_mem (s) : (mediaReady s).mem = s.mem := by
  unfold mediaReady
  simp

@[simp] theorem defaultGeometry_pending (s) : (defaultGeometry s).pending = s.pending := by
  unfold defaultGeometry
  simp [*, apply_ite State.pending, apply_ite State.mem]
@[simp] theorem defaultGeometry_mem (s) : (defaultGeometry s).mem = s.mem := by
  unfold defaultGeometry
  simp [*, apply_ite State.pending, apply_ite State.mem]

@[simp] theorem repin_pending (a0) (a1) (s) : (repin a0 a1 s).pending = s.pending := by
  unfold repin
  simp
@[simp] theorem repin_mem (a0) (a1) (s) : (repin a0 a1 s).mem = s.mem := by
  unfold repin
  simp

@[simp] theorem countOverrides_pending (a0) (a1) (s) : (countOverrides a0 a1 s).pending = s.pending := by
  unfold countOverrides
  simp [*, apply_ite State.pending, apply_ite State.mem]
@[simp] theorem countOverrides_mem (a0) (a1) (s) : (countOverrides a0 a1 s).mem = s.mem := by
  unfold countOverrides
  simp [*, apply_ite State.pending, apply_ite State.mem]

@[simp] theorem State.modRepl_pending (s) (a1) (a2) : (State.modRepl s a1 a2).pending = s.pending := by
  unfold State.modRepl
  simp
@[simp] theorem State.modRepl_mem (s) (a1) (a2) : (State.modRepl s a1 a2).mem = s.mem := by
  unfold State.modRepl
  simp

@[simp] theorem holdPartner_pending (a0) (s) : (holdPartner a0 s).pending = s.pending := by
  unfold holdPartner
  simp [*, apply_ite State.pending, apply_ite State.mem]
@[simp] theorem holdPartner_mem (a0) (s) : (holdPartner a0 s).mem = s.mem := by
  unfold holdPartner
  simp [*, apply_ite State.pending, apply_ite State.mem]

@[simp] theorem suspendChannel_pending (a0) (s) : (suspendChannel a0 s).pending = s.pending := by
  unfold suspendChannel
  simp
@[simp] theorem suspendChannel_mem (a0) (s) : (suspendChannel a0 s).mem = s.mem := by
  unfold suspendChannel
  simp

@[simp] theorem replaceDown_pending (a0) (s) : (replaceDown a0 s).pending = s.pending := by
  unfold replaceDown
  (try dsimp only)
  (repeat' split) <;> (try simp [*, apply_ite State.pending, apply_ite State.mem]) <;> (try (repeat' split) <;> simp [*, apply_ite State.pending, apply_ite State.mem])
theorem replaceDown_wf (a0) (s) (h : Memory.wf s.mem = true) : Memory.wf (replaceDown a0 s).mem = true := by
  unfold replaceDown
  (try dsimp only)
  (repeat' (first | with_reducible assumption | split | (with_reducible refine foldl_wf _ _ _ ?_ (fun t x h => ?_)) | (with_reducible refine slotOff_wf _ _ _ _ ?_))) <;> (try simp) <;>
    (repeat' (first | with_reducible assumption | split | (with_reducible refine foldl_wf _ _ _ ?_ (fun t x h => ?_)) | (with_reducible refine slotOff_wf _ _ _ _ ?_))) <;> (try simp) <;>
    (repeat' (first | with_reducible assumption | split | (with_reducible refine foldl_wf _ _ _ ?_ (fun t x h => ?_)) | (with_reducible refine slotOff_wf _ _ _ _ ?_))) <;> simp_all

@[simp] theorem failReplace_pending (a0) (a1) (s) : (failReplace a0 a1 s).pending = s.pending := by
  unfold failReplace
  simp
theorem failReplace_wf (a0) (a1) (s) (h : Memory.wf s.mem = true) : Memory.wf (failReplace a0 a1 s).mem = true := by
  unfold failReplace
  (try dsimp only)
  (repeat' (first | with_reducible assumption | split | (with_reducible refine foldl_wf _ _ _ ?_ (fun t x h => ?_)) | (with_reducible refine slotOff_wf _ _ _ _ ?_))) <;> (try simp) <;>
    (repeat' (first | with_reducible assumption | split | (with_reducible refine foldl_wf _ _ _ ?_ (fun t x h => ?_)) | (with_reducible refine slotOff_wf _ _ _ _ ?_))) <;> (try simp) <;>
    (repeat' (first | with_reducible assumption | split | (with_reducible refine foldl_wf _ _ _ ?_ (fun t x h => ?_)) | (with_reducible refine slotOff_wf _ _ _ _ ?_))) <;> simp_all

@[simp] theorem graceExpire_pending (a0) (s) : (graceExpire a0 s).pending = s.pending := by
  unfold graceExpire
  (try dsimp only)
  (repeat' split) <;> (try simp [*, apply_ite State.pending, apply_ite State.mem]) <;> (try (repeat' split) <;> simp [*, apply_ite State.pending, apply_ite State.mem])
theorem graceExpire_wf (a0) (s) (h : Memory.wf s.mem = true) : Memory.wf (graceExpire a0 s).mem = true := by
  unfold graceExpire
  (try dsimp only)
  (repeat' (first | with_reducible assumption | split | (with_reducible refine foldl_wf _ _ _ ?_ (fun t x h => ?_)) | (with_reducible refine fenceUnit_wf _ _ _ ?_) | (with_reducible refine recordLost_wf _ _ ?_))) <;> (try simp) <;>
    (repeat' (first | with_reducible assumption | split | (with_reducible refine foldl_wf _ _ _ ?_ (fun t x h => ?_)) | (with_reducible refine fenceUnit_wf _ _ _ ?_) | (with_reducible refine recordLost_wf _ _ ?_))) <;> (try simp) <;>
    (repeat' (first | with_reducible assumption | split | (with_reducible refine foldl_wf _ _ _ ?_ (fun t x h => ?_)) | (with_reducible refine fenceUnit_wf _ _ _ ?_) | (with_reducible refine recordLost_wf _ _ ?_))) <;> simp_all

@[simp] theorem heldRestore_pending (a0) (s) : (heldRestore a0 s).pending = s.pending := by
  unfold heldRestore
  simp [*, apply_ite State.pending, apply_ite State.mem]
@[simp] theorem heldRestore_mem (a0) (s) : (heldRestore a0 s).mem = s.mem := by
  unfold heldRestore
  simp [*, apply_ite State.pending, apply_ite State.mem]

@[simp] theorem removeLoss_pending (a0) (s) : (removeLoss a0 s).pending = s.pending := by
  unfold removeLoss
  simp [*, apply_ite State.pending, apply_ite State.mem]
@[simp] theorem removeLoss_mem (a0) (s) : (removeLoss a0 s).mem = s.mem := by
  unfold removeLoss
  simp [*, apply_ite State.pending, apply_ite State.mem]

@[simp] theorem zeroEntry_pending (a0) (s) : (zeroEntry a0 s).pending = s.pending := by
  unfold zeroEntry
  simp
theorem zeroEntry_wf (a0) (s) (h : Memory.wf s.mem = true) : Memory.wf (zeroEntry a0 s).mem = true := by
  unfold zeroEntry
  (try dsimp only)
  (repeat' (first | with_reducible assumption | split | (with_reducible refine foldl_wf _ _ _ ?_ (fun t x h => ?_)) | (with_reducible refine writeLineNow_wf _ _ _ _ ?_))) <;> (try simp) <;>
    (repeat' (first | with_reducible assumption | split | (with_reducible refine foldl_wf _ _ _ ?_ (fun t x h => ?_)) | (with_reducible refine writeLineNow_wf _ _ _ _ ?_))) <;> (try simp) <;>
    (repeat' (first | with_reducible assumption | split | (with_reducible refine foldl_wf _ _ _ ?_ (fun t x h => ?_)) | (with_reducible refine writeLineNow_wf _ _ _ _ ?_))) <;> simp_all

@[simp] theorem newRoot_pending (a0) (s) : (newRoot a0 s).2.pending = s.pending := by
  unfold newRoot
  (try dsimp only)
  (repeat' split) <;> (try simp [*, apply_ite State.pending, apply_ite State.mem]) <;> (try (repeat' split) <;> simp [*, apply_ite State.pending, apply_ite State.mem])
@[simp] theorem newRoot_mem (a0) (s) : (newRoot a0 s).2.mem = s.mem := by
  unfold newRoot
  (try dsimp only)
  (repeat' split) <;> (try simp [*, apply_ite State.pending, apply_ite State.mem]) <;> (try (repeat' split) <;> simp [*, apply_ite State.pending, apply_ite State.mem])

@[simp] theorem abortKeyOutings_pending (a0) (s) : (abortKeyOutings a0 s).pending = s.pending := by
  unfold abortKeyOutings
  (try dsimp only)
  (repeat' split) <;> (try simp [*, apply_ite State.pending, apply_ite State.mem]) <;> (try (repeat' split) <;> simp [*, apply_ite State.pending, apply_ite State.mem])
@[simp] theorem abortKeyOutings_mem (a0) (s) : (abortKeyOutings a0 s).mem = s.mem := by
  unfold abortKeyOutings
  (try dsimp only)
  (repeat' split) <;> (try simp [*, apply_ite State.pending, apply_ite State.mem]) <;> (try (repeat' split) <;> simp [*, apply_ite State.pending, apply_ite State.mem])

@[simp] theorem cryptoErase_pending (a0) (a1) (a2) (a3) (s) : (cryptoErase a0 a1 a2 a3 s).pending = s.pending := by
  unfold cryptoErase
  simp
@[simp] theorem cryptoErase_mem (a0) (a1) (a2) (a3) (s) : (cryptoErase a0 a1 a2 a3 s).mem = s.mem := by
  unfold cryptoErase
  simp

@[simp] theorem rekeyDevice_pending (s) : (rekeyDevice s).pending = s.pending := by
  unfold rekeyDevice
  simp
@[simp] theorem rekeyDevice_mem (s) : (rekeyDevice s).mem = s.mem := by
  unfold rekeyDevice
  simp

@[simp] theorem clearLossList_pending (s) : (clearLossList s).pending = s.pending := by
  unfold clearLossList
  simp
@[simp] theorem clearLossList_mem (s) : (clearLossList s).mem = s.mem := by
  unfold clearLossList
  simp

@[simp] theorem secureErase_pending (a0) (s) : (secureErase a0 s).pending = s.pending := by
  unfold secureErase
  simp
@[simp] theorem secureErase_mem (a0) (s) : (secureErase a0 s).mem = s.mem := by
  unfold secureErase
  simp

@[simp] theorem clearAll_pending (s) : (clearAll s).pending = s.pending := by
  unfold clearAll
  simp
theorem clearAll_wf (s : State) (_h : Memory.wf s.mem = true) : Memory.wf (clearAll s).mem = true := rfl

@[simp] theorem sanitizeDrive_pending (s) (a1) : (sanitizeDrive s a1).pending = s.pending := by
  unfold sanitizeDrive
  simp
@[simp] theorem sanitizeDrive_mem (s) (a1) : (sanitizeDrive s a1).mem = s.mem := by
  unfold sanitizeDrive
  simp

end Sys2Proof.Machine
end

