-- ==== Sys2Proof/Laws/FrameUnits.lean ====
section
/-! SUPPORT. Frames of the model's operations over drives, channels, commands and power-up: none touches the queue; memory is left alone or keeps its
canonical form. -/

set_option maxRecDepth 4000
set_option linter.unusedSimpArgs false

namespace Sys2Proof.Machine

@[simp] theorem State.modCmd_pending (s) (a1) (a2) (a3) : (State.modCmd s a1 a2 a3).pending = s.pending := by
  unfold State.modCmd
  simp
@[simp] theorem State.modCmd_mem (s) (a1) (a2) (a3) : (State.modCmd s a1 a2 a3).mem = s.mem := by
  unfold State.modCmd
  simp

@[simp] theorem driveError_pending (a0) (s) : (driveError a0 s).pending = s.pending := by
  unfold driveError
  simp [*, apply_ite State.pending, apply_ite State.mem]
theorem driveError_wf (a0) (s) (h : Memory.wf s.mem = true) : Memory.wf (driveError a0 s).mem = true := by
  unfold driveError
  (try dsimp only)
  (repeat' (first | with_reducible assumption | split | (with_reducible refine foldl_wf _ _ _ ?_ (fun t x h => ?_)) | (with_reducible refine fenceUnit_wf _ _ _ ?_))) <;> (try simp) <;>
    (repeat' (first | with_reducible assumption | split | (with_reducible refine foldl_wf _ _ _ ?_ (fun t x h => ?_)) | (with_reducible refine fenceUnit_wf _ _ _ ?_))) <;> (try simp) <;>
    (repeat' (first | with_reducible assumption | split | (with_reducible refine foldl_wf _ _ _ ?_ (fun t x h => ?_)) | (with_reducible refine fenceUnit_wf _ _ _ ?_))) <;> simp_all

@[simp] theorem dredgeFailed_pending (a0) (a1) (s) : (dredgeFailed a0 a1 s).pending = s.pending := by
  unfold dredgeFailed
  simp [*, apply_ite State.pending, apply_ite State.mem]
@[simp] theorem dredgeFailed_mem (a0) (a1) (s) : (dredgeFailed a0 a1 s).mem = s.mem := by
  unfold dredgeFailed
  simp [*, apply_ite State.pending, apply_ite State.mem]

@[simp] theorem originalEnds_pending (a0) (a1) (s) : (originalEnds a0 a1 s).pending = s.pending := by
  unfold originalEnds
  (try dsimp only)
  (repeat' split) <;> (try simp [*, apply_ite State.pending, apply_ite State.mem]) <;> (try (repeat' split) <;> simp [*, apply_ite State.pending, apply_ite State.mem])
theorem originalEnds_wf (a0) (a1) (s) (h : Memory.wf s.mem = true) : Memory.wf (originalEnds a0 a1 s).mem = true := by
  unfold originalEnds
  (try dsimp only)
  (repeat' (first | with_reducible assumption | split | (with_reducible refine foldl_wf _ _ _ ?_ (fun t x h => ?_)) | (with_reducible refine blockVerdict_wf _ _ _ _ _ _ _ _ ?_) | (with_reducible refine blockArrives_wf _ _ _ _ _ _ ?_))) <;> (try simp) <;>
    (repeat' (first | with_reducible assumption | split | (with_reducible refine foldl_wf _ _ _ ?_ (fun t x h => ?_)) | (with_reducible refine blockVerdict_wf _ _ _ _ _ _ _ _ ?_) | (with_reducible refine blockArrives_wf _ _ _ _ _ _ ?_))) <;> (try simp) <;>
    (repeat' (first | with_reducible assumption | split | (with_reducible refine foldl_wf _ _ _ ?_ (fun t x h => ?_)) | (with_reducible refine blockVerdict_wf _ _ _ _ _ _ _ _ ?_) | (with_reducible refine blockArrives_wf _ _ _ _ _ _ ?_))) <;> simp_all

@[simp] theorem tagEnds_pending (a0) (a1) (s) : (tagEnds a0 a1 s).pending = s.pending := by
  unfold tagEnds
  (try dsimp only)
  (repeat' split) <;> (try simp [*, apply_ite State.pending, apply_ite State.mem]) <;> (try (repeat' split) <;> simp [*, apply_ite State.pending, apply_ite State.mem])
theorem tagEnds_wf (a0) (a1) (s) (h : Memory.wf s.mem = true) : Memory.wf (tagEnds a0 a1 s).mem = true := by
  unfold tagEnds
  (try dsimp only)
  (repeat' (first | with_reducible assumption | split | (with_reducible refine foldl_wf _ _ _ ?_ (fun t x h => ?_)) | (with_reducible refine originalEnds_wf _ _ _ ?_))) <;> (try simp) <;>
    (repeat' (first | with_reducible assumption | split | (with_reducible refine foldl_wf _ _ _ ?_ (fun t x h => ?_)) | (with_reducible refine originalEnds_wf _ _ _ ?_))) <;> (try simp) <;>
    (repeat' (first | with_reducible assumption | split | (with_reducible refine foldl_wf _ _ _ ?_ (fun t x h => ?_)) | (with_reducible refine originalEnds_wf _ _ _ ?_))) <;> simp_all

@[simp] theorem State.modWrite_pending (s) (a1) (a2) : (State.modWrite s a1 a2).pending = s.pending := by
  unfold State.modWrite
  simp
@[simp] theorem State.modWrite_mem (s) (a1) (a2) : (State.modWrite s a1 a2).mem = s.mem := by
  unfold State.modWrite
  simp

@[simp] theorem chunkEnds_pending (a0) (a1) (a2) (a3) (a4) (s) : (chunkEnds a0 a1 a2 a3 a4 s).pending = s.pending := by
  unfold chunkEnds
  simp [*, apply_ite State.pending, apply_ite State.mem]
@[simp] theorem chunkEnds_mem (a0) (a1) (a2) (a3) (a4) (s) : (chunkEnds a0 a1 a2 a3 a4 s).mem = s.mem := by
  unfold chunkEnds
  simp [*, apply_ite State.pending, apply_ite State.mem]

@[simp] theorem noteLatency_pending (a0) (a1) (a2) (s) : (noteLatency a0 a1 a2 s).pending = s.pending := by
  unfold noteLatency
  simp [*, apply_ite State.pending, apply_ite State.mem]
@[simp] theorem noteLatency_mem (a0) (a1) (a2) (s) : (noteLatency a0 a1 a2 s).mem = s.mem := by
  unfold noteLatency
  simp [*, apply_ite State.pending, apply_ite State.mem]

@[simp] theorem nvmeCompletion_pending (a0) (a1) (a2) (a3) (s) : (nvmeCompletion a0 a1 a2 a3 s).pending = s.pending := by
  unfold nvmeCompletion
  (try dsimp only)
  (repeat' split) <;> (try simp [*, apply_ite State.pending, apply_ite State.mem]) <;> (try (repeat' split) <;> simp [*, apply_ite State.pending, apply_ite State.mem])
theorem nvmeCompletion_wf (a0) (a1) (a2) (a3) (s) (h : Memory.wf s.mem = true) : Memory.wf (nvmeCompletion a0 a1 a2 a3 s).mem = true := by
  unfold nvmeCompletion
  (try dsimp only)
  (repeat' (first | with_reducible assumption | split | (with_reducible refine foldl_wf _ _ _ ?_ (fun t x h => ?_)) | (with_reducible refine driveError_wf _ _ ?_) | (with_reducible refine originalEnds_wf _ _ _ ?_) | (with_reducible refine tagEnds_wf _ _ _ ?_))) <;> (try simp) <;>
    (repeat' (first | with_reducible assumption | split | (with_reducible refine foldl_wf _ _ _ ?_ (fun t x h => ?_)) | (with_reducible refine driveError_wf _ _ ?_) | (with_reducible refine originalEnds_wf _ _ _ ?_) | (with_reducible refine tagEnds_wf _ _ _ ?_))) <;> (try simp) <;>
    (repeat' (first | with_reducible assumption | split | (with_reducible refine foldl_wf _ _ _ ?_ (fun t x h => ?_)) | (with_reducible refine driveError_wf _ _ ?_) | (with_reducible refine originalEnds_wf _ _ _ ?_) | (with_reducible refine tagEnds_wf _ _ _ ?_))) <;> simp_all

@[simp] theorem nvmeTimeout_pending (a0) (a1) (s) : (nvmeTimeout a0 a1 s).pending = s.pending := by
  unfold nvmeTimeout
  (try dsimp only)
  (repeat' split) <;> (try simp [*, apply_ite State.pending, apply_ite State.mem]) <;> (try (repeat' split) <;> simp [*, apply_ite State.pending, apply_ite State.mem])
theorem nvmeTimeout_wf (a0) (a1) (s) (h : Memory.wf s.mem = true) : Memory.wf (nvmeTimeout a0 a1 s).mem = true := by
  unfold nvmeTimeout
  (try dsimp only)
  (repeat' (first | with_reducible assumption | split | (with_reducible refine foldl_wf _ _ _ ?_ (fun t x h => ?_)) | (with_reducible refine driveError_wf _ _ ?_) | (with_reducible refine originalEnds_wf _ _ _ ?_) | (with_reducible refine tagEnds_wf _ _ _ ?_))) <;> (try simp) <;>
    (repeat' (first | with_reducible assumption | split | (with_reducible refine foldl_wf _ _ _ ?_ (fun t x h => ?_)) | (with_reducible refine driveError_wf _ _ ?_) | (with_reducible refine originalEnds_wf _ _ _ ?_) | (with_reducible refine tagEnds_wf _ _ _ ?_))) <;> (try simp) <;>
    (repeat' (first | with_reducible assumption | split | (with_reducible refine foldl_wf _ _ _ ?_ (fun t x h => ?_)) | (with_reducible refine driveError_wf _ _ ?_) | (with_reducible refine originalEnds_wf _ _ _ ?_) | (with_reducible refine tagEnds_wf _ _ _ ?_))) <;> simp_all

@[simp] theorem abortTimeout_pending (a0) (a1) (s) : (abortTimeout a0 a1 s).pending = s.pending := by
  unfold abortTimeout
  (try dsimp only)
  (repeat' split) <;> (try simp [*, apply_ite State.pending, apply_ite State.mem]) <;> (try (repeat' split) <;> simp [*, apply_ite State.pending, apply_ite State.mem])
theorem abortTimeout_wf (a0) (a1) (s) (h : Memory.wf s.mem = true) : Memory.wf (abortTimeout a0 a1 s).mem = true := by
  unfold abortTimeout
  (try dsimp only)
  (repeat' (first | with_reducible assumption | split | (with_reducible refine foldl_wf _ _ _ ?_ (fun t x h => ?_)) | (with_reducible refine fenceUnit_wf _ _ _ ?_))) <;> (try simp) <;>
    (repeat' (first | with_reducible assumption | split | (with_reducible refine foldl_wf _ _ _ ?_ (fun t x h => ?_)) | (with_reducible refine fenceUnit_wf _ _ _ ?_))) <;> (try simp) <;>
    (repeat' (first | with_reducible assumption | split | (with_reducible refine foldl_wf _ _ _ ?_ (fun t x h => ?_)) | (with_reducible refine fenceUnit_wf _ _ _ ?_))) <;> simp_all

@[simp] theorem hedgeExpire_pending (a0) (a1) (s) : (hedgeExpire a0 a1 s).pending = s.pending := by
  unfold hedgeExpire
  (try dsimp only)
  (repeat' split) <;> (try simp [*, apply_ite State.pending, apply_ite State.mem]) <;> (try (repeat' split) <;> simp [*, apply_ite State.pending, apply_ite State.mem])
theorem hedgeExpire_wf (a0) (a1) (s) (h : Memory.wf s.mem = true) : Memory.wf (hedgeExpire a0 a1 s).mem = true := by
  unfold hedgeExpire
  (try dsimp only)
  (repeat' (first | with_reducible assumption | split | (with_reducible refine foldl_wf _ _ _ ?_ (fun t x h => ?_)) | (with_reducible refine advanceBlock_wf _ _ _ _ _ _ ?_) | (with_reducible refine probe_wf _ _ _ ?_))) <;> (try simp) <;>
    (repeat' (first | with_reducible assumption | split | (with_reducible refine foldl_wf _ _ _ ?_ (fun t x h => ?_)) | (with_reducible refine advanceBlock_wf _ _ _ _ _ _ ?_) | (with_reducible refine probe_wf _ _ _ ?_))) <;> (try simp) <;>
    (repeat' (first | with_reducible assumption | split | (with_reducible refine foldl_wf _ _ _ ?_ (fun t x h => ?_)) | (with_reducible refine advanceBlock_wf _ _ _ _ _ _ ?_) | (with_reducible refine probe_wf _ _ _ ?_))) <;> simp_all

@[simp] theorem driveUnsuitable_pending (a0) (a1) (a2) (s) : (driveUnsuitable a0 a1 a2 s).pending = s.pending := by
  unfold driveUnsuitable
  simp [*, apply_ite State.pending, apply_ite State.mem]
theorem driveUnsuitable_wf (a0) (a1) (a2) (s) (h : Memory.wf s.mem = true) : Memory.wf (driveUnsuitable a0 a1 a2 s).mem = true := by
  unfold driveUnsuitable
  (try dsimp only)
  (repeat' (first | with_reducible assumption | split | (with_reducible refine foldl_wf _ _ _ ?_ (fun t x h => ?_)) | (with_reducible refine slotOff_wf _ _ _ _ ?_) | (with_reducible refine failReplace_wf _ _ _ ?_))) <;> (try simp) <;>
    (repeat' (first | with_reducible assumption | split | (with_reducible refine foldl_wf _ _ _ ?_ (fun t x h => ?_)) | (with_reducible refine slotOff_wf _ _ _ _ ?_) | (with_reducible refine failReplace_wf _ _ _ ?_))) <;> (try simp) <;>
    (repeat' (first | with_reducible assumption | split | (with_reducible refine foldl_wf _ _ _ ?_ (fun t x h => ?_)) | (with_reducible refine slotOff_wf _ _ _ _ ?_) | (with_reducible refine failReplace_wf _ _ _ ?_))) <;> simp_all

@[simp] theorem driveReady_pending (a0) (s) : (driveReady a0 s).pending = s.pending := by
  unfold driveReady
  simp [*, apply_ite State.pending, apply_ite State.mem]
@[simp] theorem driveReady_mem (a0) (s) : (driveReady a0 s).mem = s.mem := by
  unfold driveReady
  simp [*, apply_ite State.pending, apply_ite State.mem]

@[simp] theorem bringupStep_pending (a0) (a1) (s) : (bringupStep a0 a1 s).pending = s.pending := by
  unfold bringupStep
  (try dsimp only)
  (repeat' split) <;> (try simp [*, apply_ite State.pending, apply_ite State.mem]) <;> (try (repeat' split) <;> simp [*, apply_ite State.pending, apply_ite State.mem])
theorem bringupStep_wf (a0) (a1) (s) (h : Memory.wf s.mem = true) : Memory.wf (bringupStep a0 a1 s).mem = true := by
  unfold bringupStep
  (try dsimp only)
  (repeat' (first | with_reducible assumption | split | (with_reducible refine foldl_wf _ _ _ ?_ (fun t x h => ?_)) | (with_reducible refine driveUnsuitable_wf _ _ _ _ ?_))) <;> (try simp) <;>
    (repeat' (first | with_reducible assumption | split | (with_reducible refine foldl_wf _ _ _ ?_ (fun t x h => ?_)) | (with_reducible refine driveUnsuitable_wf _ _ _ _ ?_))) <;> (try simp) <;>
    (repeat' (first | with_reducible assumption | split | (with_reducible refine foldl_wf _ _ _ ?_ (fun t x h => ?_)) | (with_reducible refine driveUnsuitable_wf _ _ _ _ ?_))) <;> simp_all

@[simp] theorem presenceLost_pending (a0) (s) : (presenceLost a0 s).pending = s.pending := by
  unfold presenceLost
  simp
theorem presenceLost_wf (a0) (s) (h : Memory.wf s.mem = true) : Memory.wf (presenceLost a0 s).mem = true := by
  unfold presenceLost
  (try dsimp only)
  (repeat' (first | with_reducible assumption | split | (with_reducible refine foldl_wf _ _ _ ?_ (fun t x h => ?_)) | (with_reducible refine fenceUnit_wf _ _ _ ?_) | (with_reducible refine slotOff_wf _ _ _ _ ?_))) <;> (try simp) <;>
    (repeat' (first | with_reducible assumption | split | (with_reducible refine foldl_wf _ _ _ ?_ (fun t x h => ?_)) | (with_reducible refine fenceUnit_wf _ _ _ ?_) | (with_reducible refine slotOff_wf _ _ _ _ ?_))) <;> (try simp) <;>
    (repeat' (first | with_reducible assumption | split | (with_reducible refine foldl_wf _ _ _ ?_ (fun t x h => ?_)) | (with_reducible refine fenceUnit_wf _ _ _ ?_) | (with_reducible refine slotOff_wf _ _ _ _ ?_))) <;> simp_all

@[simp] theorem presenceStable_pending (a0) (s) : (presenceStable a0 s).pending = s.pending := by
  unfold presenceStable
  simp [*, apply_ite State.pending, apply_ite State.mem]
@[simp] theorem presenceStable_mem (a0) (s) : (presenceStable a0 s).mem = s.mem := by
  unfold presenceStable
  simp [*, apply_ite State.pending, apply_ite State.mem]

@[simp] theorem useChanInject_pending (a0) (a1) (s) : (useChanInject a0 a1 s).pending = s.pending := by
  unfold useChanInject
  (try dsimp only)
  (repeat' split) <;> (try simp [*, apply_ite State.pending, apply_ite State.mem]) <;> (try (repeat' split) <;> simp [*, apply_ite State.pending, apply_ite State.mem])
@[simp] theorem useChanInject_mem (a0) (a1) (s) : (useChanInject a0 a1 s).mem = s.mem := by
  unfold useChanInject
  (try dsimp only)
  (repeat' split) <;> (try simp [*, apply_ite State.pending, apply_ite State.mem]) <;> (try (repeat' split) <;> simp [*, apply_ite State.pending, apply_ite State.mem])

@[simp] theorem startReplay_pending (a0) (s) : (startReplay a0 s).pending = s.pending := by
  unfold startReplay
  simp
@[simp] theorem startReplay_mem (a0) (s) : (startReplay a0 s).mem = s.mem := by
  unfold startReplay
  simp

@[simp] theorem fenceChannel_pending (a0) (a1) (s) : (fenceChannel a0 a1 s).pending = s.pending := by
  unfold fenceChannel
  simp
theorem fenceChannel_wf (a0) (a1) (s) (h : Memory.wf s.mem = true) : Memory.wf (fenceChannel a0 a1 s).mem = true := by
  unfold fenceChannel
  (try dsimp only)
  (repeat' (first | with_reducible assumption | split | (with_reducible refine foldl_wf _ _ _ ?_ (fun t x h => ?_)) | (with_reducible refine fenceUnit_wf _ _ _ ?_))) <;> (try simp) <;>
    (repeat' (first | with_reducible assumption | split | (with_reducible refine foldl_wf _ _ _ ?_ (fun t x h => ?_)) | (with_reducible refine fenceUnit_wf _ _ _ ?_))) <;> (try simp) <;>
    (repeat' (first | with_reducible assumption | split | (with_reducible refine foldl_wf _ _ _ ?_ (fun t x h => ?_)) | (with_reducible refine fenceUnit_wf _ _ _ ?_))) <;> simp_all

@[simp] theorem dramAlert_pending (a0) (a1) (s) : (dramAlert a0 a1 s).pending = s.pending := by
  unfold dramAlert
  simp [*, apply_ite State.pending, apply_ite State.mem]
theorem dramAlert_wf (a0) (a1) (s) (h : Memory.wf s.mem = true) : Memory.wf (dramAlert a0 a1 s).mem = true := by
  unfold dramAlert
  (try dsimp only)
  (repeat' (first | with_reducible assumption | split | (with_reducible refine foldl_wf _ _ _ ?_ (fun t x h => ?_)) | (with_reducible refine fenceChannel_wf _ _ _ ?_))) <;> (try simp) <;>
    (repeat' (first | with_reducible assumption | split | (with_reducible refine foldl_wf _ _ _ ?_ (fun t x h => ?_)) | (with_reducible refine fenceChannel_wf _ _ _ ?_))) <;> (try simp) <;>
    (repeat' (first | with_reducible assumption | split | (with_reducible refine foldl_wf _ _ _ ?_ (fun t x h => ?_)) | (with_reducible refine fenceChannel_wf _ _ _ ?_))) <;> simp_all

@[simp] theorem refreshDue_pending (a0) (a1) (a2) (s) : (refreshDue a0 a1 a2 s).pending = s.pending := by
  unfold refreshDue
  simp [*, apply_ite State.pending, apply_ite State.mem]
@[simp] theorem refreshDue_mem (a0) (a1) (a2) (s) : (refreshDue a0 a1 a2 s).mem = s.mem := by
  unfold refreshDue
  simp [*, apply_ite State.pending, apply_ite State.mem]

@[simp] theorem srIdleExpire_pending (a0) (s) : (srIdleExpire a0 s).pending = s.pending := by
  unfold srIdleExpire
  simp [*, apply_ite State.pending, apply_ite State.mem]
@[simp] theorem srIdleExpire_mem (a0) (s) : (srIdleExpire a0 s).mem = s.mem := by
  unfold srIdleExpire
  simp [*, apply_ite State.pending, apply_ite State.mem]

@[simp] theorem applyTemp_pending (a0) (a1) (a2) (s) : (applyTemp a0 a1 a2 s).pending = s.pending := by
  unfold applyTemp
  simp [*, apply_ite State.pending, apply_ite State.mem]
@[simp] theorem applyTemp_mem (a0) (a1) (a2) (s) : (applyTemp a0 a1 a2 s).mem = s.mem := by
  unfold applyTemp
  simp [*, apply_ite State.pending, apply_ite State.mem]

@[simp] theorem pollPos_pending (a0) (a1) (a2) (s) : (pollPos a0 a1 a2 s).pending = s.pending := by
  unfold pollPos
  (try dsimp only)
  (repeat' split) <;> (try simp [*, apply_ite State.pending, apply_ite State.mem]) <;> (try (repeat' split) <;> simp [*, apply_ite State.pending, apply_ite State.mem])
@[simp] theorem pollPos_mem (a0) (a1) (a2) (s) : (pollPos a0 a1 a2 s).mem = s.mem := by
  unfold pollPos
  (try dsimp only)
  (repeat' split) <;> (try simp [*, apply_ite State.pending, apply_ite State.mem]) <;> (try (repeat' split) <;> simp [*, apply_ite State.pending, apply_ite State.mem])

@[simp] theorem pmicFault_pending (a0) (a1) (a2) (s) : (pmicFault a0 a1 a2 s).pending = s.pending := by
  unfold pmicFault
  simp [*, apply_ite State.pending, apply_ite State.mem]
theorem pmicFault_wf (a0) (a1) (a2) (s) (h : Memory.wf s.mem = true) : Memory.wf (pmicFault a0 a1 a2 s).mem = true := by
  unfold pmicFault
  (try dsimp only)
  (repeat' (first | with_reducible assumption | split | (with_reducible refine foldl_wf _ _ _ ?_ (fun t x h => ?_)) | (with_reducible refine fenceUnit_wf _ _ _ ?_))) <;> (try simp) <;>
    (repeat' (first | with_reducible assumption | split | (with_reducible refine foldl_wf _ _ _ ?_ (fun t x h => ?_)) | (with_reducible refine fenceUnit_wf _ _ _ ?_))) <;> (try simp) <;>
    (repeat' (first | with_reducible assumption | split | (with_reducible refine foldl_wf _ _ _ ?_ (fun t x h => ?_)) | (with_reducible refine fenceUnit_wf _ _ _ ?_))) <;> simp_all

@[simp] theorem tempPoll_pending (a0) (a1) (a2) (a3) (a4) (s) : (tempPoll a0 a1 a2 a3 a4 s).pending = s.pending := by
  unfold tempPoll
  (try dsimp only)
  (repeat' split) <;> (try simp [*, apply_ite State.pending, apply_ite State.mem]) <;> (try (repeat' split) <;> simp [*, apply_ite State.pending, apply_ite State.mem])
theorem tempPoll_wf (a0) (a1) (a2) (a3) (a4) (s) (h : Memory.wf s.mem = true) : Memory.wf (tempPoll a0 a1 a2 a3 a4 s).mem = true := by
  unfold tempPoll
  (try dsimp only)
  (repeat' (first | with_reducible assumption | split | (with_reducible refine foldl_wf _ _ _ ?_ (fun t x h => ?_)) | (with_reducible refine pmicFault_wf _ _ _ _ ?_))) <;> (try simp) <;>
    (repeat' (first | with_reducible assumption | split | (with_reducible refine foldl_wf _ _ _ ?_ (fun t x h => ?_)) | (with_reducible refine pmicFault_wf _ _ _ _ ?_))) <;> (try simp) <;>
    (repeat' (first | with_reducible assumption | split | (with_reducible refine foldl_wf _ _ _ ?_ (fun t x h => ?_)) | (with_reducible refine pmicFault_wf _ _ _ _ ?_))) <;> simp_all

@[simp] theorem storeSet_pending (a0) (s) : (storeSet a0 s).pending = s.pending := by
  unfold storeSet
  simp
@[simp] theorem storeSet_mem (a0) (s) : (storeSet a0 s).mem = s.mem := by
  unfold storeSet
  simp

@[simp] theorem loadDelays_pending (a0) (a1) (s) : (loadDelays a0 a1 s).pending = s.pending := by
  unfold loadDelays
  simp
@[simp] theorem loadDelays_mem (a0) (a1) (s) : (loadDelays a0 a1 s).mem = s.mem := by
  unfold loadDelays
  simp

@[simp] theorem channelUp_pending (a0) (s) : (channelUp a0 s).pending = s.pending := by
  unfold channelUp
  simp [*, apply_ite State.pending, apply_ite State.mem]
@[simp] theorem channelUp_mem (a0) (s) : (channelUp a0 s).mem = s.mem := by
  unfold channelUp
  simp [*, apply_ite State.pending, apply_ite State.mem]

@[simp] theorem channelOut_pending (a0) (s) : (channelOut a0 s).pending = s.pending := by
  unfold channelOut
  simp [*, apply_ite State.pending, apply_ite State.mem]
@[simp] theorem channelOut_mem (a0) (s) : (channelOut a0 s).mem = s.mem := by
  unfold channelOut
  simp [*, apply_ite State.pending, apply_ite State.mem]

@[simp] theorem trainLost_pending (a0) (a1) (s) : (trainLost a0 a1 s).pending = s.pending := by
  unfold trainLost
  simp [*, apply_ite State.pending, apply_ite State.mem]
theorem trainLost_wf (a0) (a1) (s) (h : Memory.wf s.mem = true) : Memory.wf (trainLost a0 a1 s).mem = true := by
  unfold trainLost
  (try dsimp only)
  (repeat' (first | with_reducible assumption | split | (with_reducible refine foldl_wf _ _ _ ?_ (fun t x h => ?_)) | (with_reducible refine slotOff_wf _ _ _ _ ?_))) <;> (try simp) <;>
    (repeat' (first | with_reducible assumption | split | (with_reducible refine foldl_wf _ _ _ ?_ (fun t x h => ?_)) | (with_reducible refine slotOff_wf _ _ _ _ ?_))) <;> (try simp) <;>
    (repeat' (first | with_reducible assumption | split | (with_reducible refine foldl_wf _ _ _ ?_ (fun t x h => ?_)) | (with_reducible refine slotOff_wf _ _ _ _ ?_))) <;> simp_all

@[simp] theorem trainedAtPowerUp_pending (a0) (a1) (s) : (trainedAtPowerUp a0 a1 s).pending = s.pending := by
  unfold trainedAtPowerUp
  (try dsimp only)
  (repeat' split) <;> (try simp [*, apply_ite State.pending, apply_ite State.mem]) <;> (try (repeat' split) <;> simp [*, apply_ite State.pending, apply_ite State.mem])
theorem trainedAtPowerUp_wf (a0) (a1) (s) (h : Memory.wf s.mem = true) : Memory.wf (trainedAtPowerUp a0 a1 s).mem = true := by
  unfold trainedAtPowerUp
  (try dsimp only)
  (repeat' (first | with_reducible assumption | split | (with_reducible refine foldl_wf _ _ _ ?_ (fun t x h => ?_)) | (with_reducible refine trainLost_wf _ _ _ ?_))) <;> (try simp) <;>
    (repeat' (first | with_reducible assumption | split | (with_reducible refine foldl_wf _ _ _ ?_ (fun t x h => ?_)) | (with_reducible refine trainLost_wf _ _ _ ?_))) <;> (try simp) <;>
    (repeat' (first | with_reducible assumption | split | (with_reducible refine foldl_wf _ _ _ ?_ (fun t x h => ?_)) | (with_reducible refine trainLost_wf _ _ _ ?_))) <;> simp_all

@[simp] theorem replaceTrained_pending (a0) (a1) (a2) (a3) (a4) (s) : (replaceTrained a0 a1 a2 a3 a4 s).pending = s.pending := by
  unfold replaceTrained
  (try dsimp only)
  (repeat' split) <;> (try simp [*, apply_ite State.pending, apply_ite State.mem]) <;> (try (repeat' split) <;> simp [*, apply_ite State.pending, apply_ite State.mem])
@[simp] theorem replaceTrained_mem (a0) (a1) (a2) (a3) (a4) (s) : (replaceTrained a0 a1 a2 a3 a4 s).mem = s.mem := by
  unfold replaceTrained
  (try dsimp only)
  (repeat' split) <;> (try simp [*, apply_ite State.pending, apply_ite State.mem]) <;> (try (repeat' split) <;> simp [*, apply_ite State.pending, apply_ite State.mem])

@[simp] theorem trainedInService_pending (a0) (a1) (a2) (a3) (s) : (trainedInService a0 a1 a2 a3 s).pending = s.pending := by
  unfold trainedInService
  (try dsimp only)
  (repeat' split) <;> (try simp [*, apply_ite State.pending, apply_ite State.mem]) <;> (try (repeat' split) <;> simp [*, apply_ite State.pending, apply_ite State.mem])
theorem trainedInService_wf (a0) (a1) (a2) (a3) (s) (h : Memory.wf s.mem = true) : Memory.wf (trainedInService a0 a1 a2 a3 s).mem = true := by
  unfold trainedInService
  (try dsimp only)
  (repeat' (first | with_reducible assumption | split | (with_reducible refine foldl_wf _ _ _ ?_ (fun t x h => ?_)) | (with_reducible refine failReplace_wf _ _ _ ?_))) <;> (try simp) <;>
    (repeat' (first | with_reducible assumption | split | (with_reducible refine foldl_wf _ _ _ ?_ (fun t x h => ?_)) | (with_reducible refine failReplace_wf _ _ _ ?_))) <;> (try simp) <;>
    (repeat' (first | with_reducible assumption | split | (with_reducible refine foldl_wf _ _ _ ?_ (fun t x h => ?_)) | (with_reducible refine failReplace_wf _ _ _ ?_))) <;> simp_all

@[simp] theorem trainingDone_pending (a0) (a1) (a2) (s) : (trainingDone a0 a1 a2 s).pending = s.pending := by
  unfold trainingDone
  (try dsimp only)
  (repeat' split) <;> (try simp [*, apply_ite State.pending, apply_ite State.mem]) <;> (try (repeat' split) <;> simp [*, apply_ite State.pending, apply_ite State.mem])
theorem trainingDone_wf (a0) (a1) (a2) (s) (h : Memory.wf s.mem = true) : Memory.wf (trainingDone a0 a1 a2 s).mem = true := by
  unfold trainingDone
  (try dsimp only)
  (repeat' (first | with_reducible assumption | split | (with_reducible refine foldl_wf _ _ _ ?_ (fun t x h => ?_)) | (with_reducible refine trainedAtPowerUp_wf _ _ _ ?_) | (with_reducible refine trainedInService_wf _ _ _ _ _ ?_))) <;> (try simp) <;>
    (repeat' (first | with_reducible assumption | split | (with_reducible refine foldl_wf _ _ _ ?_ (fun t x h => ?_)) | (with_reducible refine trainedAtPowerUp_wf _ _ _ ?_) | (with_reducible refine trainedInService_wf _ _ _ _ _ ?_))) <;> (try simp) <;>
    (repeat' (first | with_reducible assumption | split | (with_reducible refine foldl_wf _ _ _ ?_ (fun t x h => ?_)) | (with_reducible refine trainedAtPowerUp_wf _ _ _ ?_) | (with_reducible refine trainedInService_wf _ _ _ _ _ ?_))) <;> simp_all

@[simp] theorem setOutingState_pending (a0) (a1) (s) : (setOutingState a0 a1 s).pending = s.pending := by
  unfold setOutingState
  simp [*, apply_ite State.pending, apply_ite State.mem]
@[simp] theorem setOutingState_mem (a0) (a1) (s) : (setOutingState a0 a1 s).mem = s.mem := by
  unfold setOutingState
  simp [*, apply_ite State.pending, apply_ite State.mem]

@[simp] theorem replaceStuck_pending (a0) (s) : (replaceStuck a0 s).pending = s.pending := by
  unfold replaceStuck
  (try dsimp only)
  (repeat' split) <;> (try simp [*, apply_ite State.pending, apply_ite State.mem]) <;> (try (repeat' split) <;> simp [*, apply_ite State.pending, apply_ite State.mem])
theorem replaceStuck_wf (a0) (s) (h : Memory.wf s.mem = true) : Memory.wf (replaceStuck a0 s).mem = true := by
  unfold replaceStuck
  (try dsimp only)
  (repeat' (first | with_reducible assumption | split | (with_reducible refine foldl_wf _ _ _ ?_ (fun t x h => ?_)) | (with_reducible refine failReplace_wf _ _ _ ?_))) <;> (try simp) <;>
    (repeat' (first | with_reducible assumption | split | (with_reducible refine foldl_wf _ _ _ ?_ (fun t x h => ?_)) | (with_reducible refine failReplace_wf _ _ _ ?_))) <;> (try simp) <;>
    (repeat' (first | with_reducible assumption | split | (with_reducible refine foldl_wf _ _ _ ?_ (fun t x h => ?_)) | (with_reducible refine failReplace_wf _ _ _ ?_))) <;> simp_all

@[simp] theorem deliverBg_pending (a0) (s) : (deliverBg a0 s).pending = s.pending := by
  unfold deliverBg
  (try dsimp only)
  (repeat' split) <;> (try simp [*, apply_ite State.pending, apply_ite State.mem]) <;> (try (repeat' split) <;> simp [*, apply_ite State.pending, apply_ite State.mem])
@[simp] theorem deliverBg_mem (a0) (s) : (deliverBg a0 s).mem = s.mem := by
  unfold deliverBg
  (try dsimp only)
  (repeat' split) <;> (try simp [*, apply_ite State.pending, apply_ite State.mem]) <;> (try (repeat' split) <;> simp [*, apply_ite State.pending, apply_ite State.mem])

@[simp] theorem startPhaseEnd_pending (a0) (s) : (startPhaseEnd a0 s).pending = s.pending := by
  unfold startPhaseEnd
  (try dsimp only)
  (repeat' split) <;> (try simp [*, apply_ite State.pending, apply_ite State.mem]) <;> (try (repeat' split) <;> simp [*, apply_ite State.pending, apply_ite State.mem])
theorem startPhaseEnd_wf (a0) (s) (h : Memory.wf s.mem = true) : Memory.wf (startPhaseEnd a0 s).mem = true := by
  unfold startPhaseEnd
  (try dsimp only)
  (repeat' (first | with_reducible assumption | split | (with_reducible refine foldl_wf _ _ _ ?_ (fun t x h => ?_)) | (with_reducible refine replaceStuck_wf _ _ ?_))) <;> (try simp) <;>
    (repeat' (first | with_reducible assumption | split | (with_reducible refine foldl_wf _ _ _ ?_ (fun t x h => ?_)) | (with_reducible refine replaceStuck_wf _ _ ?_))) <;> (try simp) <;>
    (repeat' (first | with_reducible assumption | split | (with_reducible refine foldl_wf _ _ _ ?_ (fun t x h => ?_)) | (with_reducible refine replaceStuck_wf _ _ ?_))) <;> simp_all

@[simp] theorem State.modSpdm_pending (s) (a1) (a2) : (State.modSpdm s a1 a2).pending = s.pending := by
  unfold State.modSpdm
  simp [*, apply_ite State.pending, apply_ite State.mem]
@[simp] theorem State.modSpdm_mem (s) (a1) (a2) : (State.modSpdm s a1 a2).mem = s.mem := by
  unfold State.modSpdm
  simp [*, apply_ite State.pending, apply_ite State.mem]

@[simp] theorem spdmError_pending (a0) (a1) (s) : (spdmError a0 a1 s).pending = s.pending := by
  unfold spdmError
  simp
@[simp] theorem spdmError_mem (a0) (a1) (s) : (spdmError a0 a1 s).mem = s.mem := by
  unfold spdmError
  simp

@[simp] theorem spdmSay_pending (a0) (a1) (a2) (a3) (s) : (spdmSay a0 a1 a2 a3 s).pending = s.pending := by
  unfold spdmSay
  simp
@[simp] theorem spdmSay_mem (a0) (a1) (a2) (a3) (s) : (spdmSay a0 a1 a2 a3 s).mem = s.mem := by
  unfold spdmSay
  simp

theorem spdmReady_pending (who : Nat) (k s : State) (h : k.pending = s.pending) : (spdmReady who k s).pending = s.pending := by
  unfold spdmReady; (repeat' split) <;> simp [h]
theorem spdmReady_mem (who : Nat) (k s : State) (h : k.mem = s.mem) : (spdmReady who k s).mem = s.mem := by
  unfold spdmReady; (repeat' split) <;> simp [h]

@[simp] theorem measurements_pending (a0) (a1) (a2) (s) : (measurements a0 a1 a2 s).pending = s.pending := by
  unfold measurements
  simp [*, apply_ite State.pending, apply_ite State.mem]
@[simp] theorem measurements_mem (a0) (a1) (a2) (s) : (measurements a0 a1 a2 s).mem = s.mem := by
  unfold measurements
  simp [*, apply_ite State.pending, apply_ite State.mem]

theorem inSession_pending (who n : Nat) (k s : State) (h : k.pending = s.pending) : (inSession who n k s).pending = s.pending := by
  unfold inSession; (repeat' split) <;> simp [h]
theorem inSession_mem (who n : Nat) (k s : State) (h : k.mem = s.mem) : (inSession who n k s).mem = s.mem := by
  unfold inSession; (repeat' split) <;> simp [h]

@[simp] theorem bar2Own_pending (a0) (a1) (s) : (bar2Own a0 a1 s).pending = s.pending := by
  unfold bar2Own
  simp [*, apply_ite State.pending, apply_ite State.mem]
@[simp] theorem bar2Own_mem (a0) (a1) (s) : (bar2Own a0 a1 s).mem = s.mem := by
  unfold bar2Own
  simp [*, apply_ite State.pending, apply_ite State.mem]

@[simp] theorem maskVector_pending (a0) (a1) (a2) (s) : (maskVector a0 a1 a2 s).pending = s.pending := by
  unfold maskVector
  simp [*, apply_ite State.pending, apply_ite State.mem]
@[simp] theorem maskVector_mem (a0) (a1) (a2) (s) : (maskVector a0 a1 a2 s).mem = s.mem := by
  unfold maskVector
  simp [*, apply_ite State.pending, apply_ite State.mem]

@[simp] theorem bar0Own_pending (a0) (a1) (a2) (s) : (bar0Own a0 a1 a2 s).pending = s.pending := by
  unfold bar0Own
  simp [*, apply_ite State.pending, apply_ite State.mem]
@[simp] theorem bar0Own_mem (a0) (a1) (a2) (s) : (bar0Own a0 a1 a2 s).mem = s.mem := by
  unfold bar0Own
  simp [*, apply_ite State.pending, apply_ite State.mem]

@[simp] theorem withoutAux_pending (s) : (withoutAux s).pending = s.pending := by
  unfold withoutAux
  simp
theorem withoutAux_wf (s : State) (_h : Memory.wf s.mem = true) : Memory.wf (withoutAux s).mem = true := rfl

@[simp] theorem coldReset_pending (a0) (a1) (s) : (coldReset a0 a1 s).pending = s.pending := by
  unfold coldReset
  simp [*, apply_ite State.pending, apply_ite State.mem]
theorem coldReset_wf (a0) (a1) (s) (h : Memory.wf s.mem = true) : Memory.wf (coldReset a0 a1 s).mem = true := by
  unfold coldReset
  (try dsimp only)
  (repeat' (first | with_reducible assumption | split | (with_reducible refine foldl_wf _ _ _ ?_ (fun t x h => ?_)) | (with_reducible refine withoutAux_wf _ ?_))) <;> (try simp) <;>
    (repeat' (first | with_reducible assumption | split | (with_reducible refine foldl_wf _ _ _ ?_ (fun t x h => ?_)) | (with_reducible refine withoutAux_wf _ ?_))) <;> (try simp) <;>
    (repeat' (first | with_reducible assumption | split | (with_reducible refine foldl_wf _ _ _ ?_ (fun t x h => ?_)) | (with_reducible refine withoutAux_wf _ ?_))) <;> simp_all

@[simp] theorem startSequence_pending (s) : (startSequence s).pending = s.pending := by
  unfold startSequence
  simp
@[simp] theorem startSequence_mem (s) : (startSequence s).mem = s.mem := by
  unfold startSequence
  simp

@[simp] theorem railsGood_pending (s) : (railsGood s).pending = s.pending := by
  unfold railsGood
  simp
@[simp] theorem railsGood_mem (s) : (railsGood s).mem = s.mem := by
  unfold railsGood
  simp

@[simp] theorem bringupPower_pending (a0) (s) : (bringupPower a0 s).pending = s.pending := by
  unfold bringupPower
  (try dsimp only)
  (repeat' split) <;> (try simp [*, apply_ite State.pending, apply_ite State.mem]) <;> (try (repeat' split) <;> simp [*, apply_ite State.pending, apply_ite State.mem])
@[simp] theorem bringupPower_mem (a0) (s) : (bringupPower a0 s).mem = s.mem := by
  unfold bringupPower
  (try dsimp only)
  (repeat' split) <;> (try simp [*, apply_ite State.pending, apply_ite State.mem]) <;> (try (repeat' split) <;> simp [*, apply_ite State.pending, apply_ite State.mem])

@[simp] theorem startBatch_pending (a0) (s) : (startBatch a0 s).pending = s.pending := by
  unfold startBatch
  simp
@[simp] theorem startBatch_mem (a0) (s) : (startBatch a0 s).mem = s.mem := by
  unfold startBatch
  simp

@[simp] theorem keeperStart_pending (s) : (keeperStart s).pending = s.pending := by
  unfold keeperStart
  simp
@[simp] theorem keeperStart_mem (s) : (keeperStart s).mem = s.mem := by
  unfold keeperStart
  simp

@[simp] theorem setPopulation_pending (a0) (a1) (a2) (s) : (setPopulation a0 a1 a2 s).pending = s.pending := by
  unfold setPopulation
  (try dsimp only)
  (repeat' split) <;> (try simp [*, apply_ite State.pending, apply_ite State.mem]) <;> (try (repeat' split) <;> simp [*, apply_ite State.pending, apply_ite State.mem])
@[simp] theorem setPopulation_mem (a0) (a1) (a2) (s) : (setPopulation a0 a1 a2 s).mem = s.mem := by
  unfold setPopulation
  (try dsimp only)
  (repeat' split) <;> (try simp [*, apply_ite State.pending, apply_ite State.mem]) <;> (try (repeat' split) <;> simp [*, apply_ite State.pending, apply_ite State.mem])

@[simp] theorem spdDone_pending (s) : (spdDone s).pending = s.pending := by
  unfold spdDone
  (try dsimp only)
  (repeat' split) <;> (try simp [*, apply_ite State.pending, apply_ite State.mem]) <;> (repeat' split) <;> (try simp [*, apply_ite State.pending, apply_ite State.mem]) <;>
    (refine foldl_p _ _ _ ?_; intro t x; (try dsimp only); (repeat' split) <;> simp [*, apply_ite State.pending, apply_ite State.mem])
@[simp] theorem spdDone_mem (s) : (spdDone s).mem = s.mem := by
  unfold spdDone
  (try dsimp only)
  (repeat' split) <;> (try simp [*, apply_ite State.pending, apply_ite State.mem]) <;> (repeat' split) <;> (try simp [*, apply_ite State.pending, apply_ite State.mem]) <;>
    (refine foldl_m _ _ _ ?_; intro t x; (try dsimp only); (repeat' split) <;> simp [*, apply_ite State.pending, apply_ite State.mem])

@[simp] theorem dimmBatchDone_pending (a0) (s) : (dimmBatchDone a0 s).pending = s.pending := by
  unfold dimmBatchDone
  (try dsimp only)
  (repeat' split) <;> (try simp [*, apply_ite State.pending, apply_ite State.mem]) <;> (repeat' split) <;> (try simp [*, apply_ite State.pending, apply_ite State.mem]) <;>
    (refine foldl_p _ _ _ ?_; intro t x; (try dsimp only); (repeat' split) <;> simp [*, apply_ite State.pending, apply_ite State.mem])
@[simp] theorem dimmBatchDone_mem (a0) (s) : (dimmBatchDone a0 s).mem = s.mem := by
  unfold dimmBatchDone
  (try dsimp only)
  (repeat' split) <;> (try simp [*, apply_ite State.pending, apply_ite State.mem]) <;> (repeat' split) <;> (try simp [*, apply_ite State.pending, apply_ite State.mem]) <;>
    (refine foldl_m _ _ _ ?_; intro t x; (try dsimp only); (repeat' split) <;> simp [*, apply_ite State.pending, apply_ite State.mem])

@[simp] theorem batchDone_pending (a0) (a1) (s) : (batchDone a0 a1 s).pending = s.pending := by
  unfold batchDone
  simp [*, apply_ite State.pending, apply_ite State.mem]
@[simp] theorem batchDone_mem (a0) (a1) (s) : (batchDone a0 a1 s).mem = s.mem := by
  unfold batchDone
  simp [*, apply_ite State.pending, apply_ite State.mem]

@[simp] theorem brownoutReset_pending (a0) (a1) (s) : (brownoutReset a0 a1 s).pending = s.pending := by
  unfold brownoutReset
  simp
theorem brownoutReset_wf (a b : Nat) (s : State) (_h : Memory.wf s.mem = true) : Memory.wf (brownoutReset a b s).mem = true := rfl

@[simp] theorem brownout_pending (a0) (a1) (s) : (brownout a0 a1 s).pending = s.pending := by
  unfold brownout
  simp [*, apply_ite State.pending, apply_ite State.mem]
theorem brownout_wf (a0) (a1) (s) (h : Memory.wf s.mem = true) : Memory.wf (brownout a0 a1 s).mem = true := by
  unfold brownout
  (try dsimp only)
  (repeat' (first | with_reducible assumption | split | (with_reducible refine foldl_wf _ _ _ ?_ (fun t x h => ?_)) | (with_reducible refine brownoutReset_wf _ _ _ ?_))) <;> (try simp) <;>
    (repeat' (first | with_reducible assumption | split | (with_reducible refine foldl_wf _ _ _ ?_ (fun t x h => ?_)) | (with_reducible refine brownoutReset_wf _ _ _ ?_))) <;> (try simp) <;>
    (repeat' (first | with_reducible assumption | split | (with_reducible refine foldl_wf _ _ _ ?_ (fun t x h => ?_)) | (with_reducible refine brownoutReset_wf _ _ _ ?_))) <;> simp_all

@[simp] theorem pldmUpdate_pending (a0) (s) : (pldmUpdate a0 s).pending = s.pending := by
  unfold pldmUpdate
  simp [*, apply_ite State.pending, apply_ite State.mem]
theorem pldmUpdate_wf (a0) (s) (h : Memory.wf s.mem = true) : Memory.wf (pldmUpdate a0 s).mem = true := by
  unfold pldmUpdate
  (try dsimp only)
  (repeat' (first | with_reducible assumption | split | (with_reducible refine foldl_wf _ _ _ ?_ (fun t x h => ?_)) | (with_reducible refine coldReset_wf _ _ _ ?_))) <;> (try simp) <;>
    (repeat' (first | with_reducible assumption | split | (with_reducible refine foldl_wf _ _ _ ?_ (fun t x h => ?_)) | (with_reducible refine coldReset_wf _ _ _ ?_))) <;> (try simp) <;>
    (repeat' (first | with_reducible assumption | split | (with_reducible refine foldl_wf _ _ _ ?_ (fun t x h => ?_)) | (with_reducible refine coldReset_wf _ _ _ ?_))) <;> simp_all

@[simp] theorem drainChan_pending (a0) (s) : (drainChan a0 s).pending = s.pending := by
  unfold drainChan
  simp [*, apply_ite State.pending, apply_ite State.mem]
@[simp] theorem drainChan_mem (a0) (s) : (drainChan a0 s).mem = s.mem := by
  unfold drainChan
  simp [*, apply_ite State.pending, apply_ite State.mem]

@[simp] theorem quiesce_pending (s) : (quiesce s).pending = s.pending := by
  unfold quiesce
  simp
@[simp] theorem quiesce_mem (s) : (quiesce s).mem = s.mem := by
  unfold quiesce
  simp

@[simp] theorem deviceReset_pending (s) : (deviceReset s).pending = s.pending := by
  unfold deviceReset
  simp [*, apply_ite State.pending, apply_ite State.mem]
theorem deviceReset_wf (s) (h : Memory.wf s.mem = true) : Memory.wf (deviceReset s).mem = true := by
  unfold deviceReset
  (try dsimp only)
  (repeat' (first | with_reducible assumption | split | (with_reducible refine foldl_wf _ _ _ ?_ (fun t x h => ?_)) | (with_reducible refine headDown_wf _ _ _ ?_) | (with_reducible refine enterDown_wf _ _ _ ?_))) <;> (try simp) <;>
    (repeat' (first | with_reducible assumption | split | (with_reducible refine foldl_wf _ _ _ ?_ (fun t x h => ?_)) | (with_reducible refine headDown_wf _ _ _ ?_) | (with_reducible refine enterDown_wf _ _ _ ?_))) <;> (try simp) <;>
    (repeat' (first | with_reducible assumption | split | (with_reducible refine foldl_wf _ _ _ ?_ (fun t x h => ?_)) | (with_reducible refine headDown_wf _ _ _ ?_) | (with_reducible refine enterDown_wf _ _ _ ?_))) <;> simp_all

@[simp] theorem deviceResume_pending (s) : (deviceResume s).pending = s.pending := by
  unfold deviceResume
  simp [*, apply_ite State.pending, apply_ite State.mem]
@[simp] theorem deviceResume_mem (s) : (deviceResume s).mem = s.mem := by
  unfold deviceResume
  simp [*, apply_ite State.pending, apply_ite State.mem]

end Sys2Proof.Machine
end

