-- ==== Sys2Proof/Laws/Link.lean ====
section
/-! SUPPORT. What the operations on a Stechaisk port's receive buffer leave alone. -/

namespace Sys2Proof.Machine

theorem sendCredits_outside (p : Nat) (s : State) : ∃ k x, sendCredits p s = { s with skl := k, tx := x } := ⟨_, _, rfl⟩

theorem freeTracker_outside (p v : Nat) (s : State) : ∃ k x, freeTracker p v s = { s with skl := k, tx := x } := by
  unfold freeTracker
  dsimp only
  split
  · exact ⟨_, _, rfl⟩
  · exact ⟨_, _, rfl⟩

theorem flowState_outside (p : Nat) (s : State) : ∃ k x, flowState p s = { s with skl := k, tx := x } := by
  unfold flowState
  dsimp only
  (repeat' split) <;> exact ⟨_, _, rfl⟩

/-- Taking a frame out of the buffer touches the ports and what is sent, nothing else. -/
theorem consume_outside (p : Nat) (f : Frame) (s : State) : ∃ k x, consume p f s = { s with skl := k, tx := x } := by
  unfold consume
  split
  · dsimp only
    split
    · obtain ⟨k, x, h⟩ := freeTracker_outside p f.vc
        (s.modPort p fun x => { x with rx := x.rx.erase f, free := x.free + frameBytes f })
      rw [h]
      obtain ⟨k', x', h'⟩ := flowState_outside p
        { (s.modPort p fun x => { x with rx := x.rx.erase f, free := x.free + frameBytes f }) with skl := k, tx := x }
      exact ⟨k', x', h'⟩
    · obtain ⟨k', x', h'⟩ := flowState_outside p
        (s.modPort p fun x => { x with rx := x.rx.erase f, free := x.free + frameBytes f })
      exact ⟨k', x', h'⟩
  · exact ⟨s.skl, s.tx, rfl⟩

/-- The same of the frame that a maintenance message came in. -/
theorem consumeOp_outside (p o : Nat) (s : State) : ∃ k x, consumeOp p o s = { s with skl := k, tx := x } := by
  unfold consumeOp
  split
  · exact consume_outside p _ s
  · exact ⟨s.skl, s.tx, rfl⟩

end Sys2Proof.Machine
end

