-- ==== Sys2Proof/Laws/FrameCommand.lean ====
section
/-! SUPPORT. Frames of mailbox commands, by what their own work leaves alone. -/

namespace Sys2Proof.Machine

/-- A Crity command keeps what its own work keeps, for a property that sees only the queue and memory. -/
theorem runCrity_keeps {spec : CmdSpec} {m : Mb} {p : List Byte} {own : State → CmdRes} {s : State} (P : State → Prop)
    (hP : ∀ a b : State, a.pending = b.pending → a.mem = b.mem → P b → P a) (h : P s)
    (hok : ∀ o t, own s = .ok o t → P t) (hdone : ∀ rc w o t, own s = .done rc w o t → P t)
    (hbg : ∀ op t, own s = .bg op t → P t) (hbgd : ∀ op o t, own s = .bgDone op o t → P t)
    (hw : ∀ t, own s = .wait t → P t) : P (runCrity spec m p own s) := by
  have hs : ∀ a : State, a.pending = s.pending → a.mem = s.mem → P a := fun a x y => hP a s x y h
  unfold runCrity
  split
  · exact h
  split
  · exact hs _ (by simp) (by simp)
  split
  · exact hs _ rfl rfl
  split
  · exact hs _ (by simp) (by simp)
  cases e : own s
  case ok o t => dsimp only; (repeat' split) <;> first | (refine hP _ _ ?_ ?_ (hok _ _ e) <;> simp <;> done) | (refine hs _ ?_ ?_ <;> simp)
  case fail => exact hs _ (by simp) (by simp)
  case std => exact hs _ (by simp) (by simp)
  case done => dsimp only; split <;> exact hP _ _ (by simp) (by simp) (hdone _ _ _ _ e)
  case bg => dsimp only; split <;> first | (refine hP _ _ ?_ ?_ (hbg _ _ e) <;> simp <;> done) | (refine hs _ ?_ ?_ <;> simp)
  case bgDone => dsimp only; split <;> first | (refine hP _ _ ?_ ?_ (hbgd _ _ _ e) <;> simp <;> done) | (refine hs _ ?_ ?_ <;> simp)
  case wait t => exact hP _ t rfl rfl (hw t e)

/-- The same of a standard command. -/
theorem runStd_keeps {spec : StdSpec} {m : Mb} {p : List Byte} {own : State → CmdRes} {s : State} (P : State → Prop)
    (hP : ∀ a b : State, a.pending = b.pending → a.mem = b.mem → P b → P a) (h : P s)
    (hok : ∀ o t, own s = .ok o t → P t) (hdone : ∀ rc w o t, own s = .done rc w o t → P t)
    (hbg : ∀ op t, own s = .bg op t → P t) (hbgd : ∀ op o t, own s = .bgDone op o t → P t)
    (hw : ∀ t, own s = .wait t → P t) : P (runStd spec m p own s) := by
  have hs : ∀ a : State, a.pending = s.pending → a.mem = s.mem → P a := fun a x y => hP a s x y h
  unfold runStd
  split
  · exact h
  split
  · exact hs _ (by simp) (by simp)
  split
  · exact hs _ (by simp) (by simp)
  split
  · exact hs _ rfl rfl
  split
  · exact hs _ (by simp) (by simp)
  cases e : own s
  case ok o t => dsimp only; (repeat' split) <;> first | (refine hP _ _ ?_ ?_ (hok _ _ e) <;> simp <;> done) | (refine hs _ ?_ ?_ <;> simp)
  case fail => exact hs _ (by simp) (by simp)
  case std => exact hs _ (by simp) (by simp)
  case done => exact hP _ _ (by simp) (by simp) (hdone _ _ _ _ e)
  case bg => dsimp only; split <;> first | (refine hP _ _ ?_ ?_ (hbg _ _ e) <;> simp <;> done) | (refine hs _ ?_ ?_ <;> simp)
  case bgDone => dsimp only; split <;> first | (refine hP _ _ ?_ ?_ (hbgd _ _ _ e) <;> simp <;> done) | (refine hs _ ?_ ?_ <;> simp)
  case wait t => exact hP _ t rfl rfl (hw t e)

end Sys2Proof.Machine
end

