-- ==== Sys2Proof/Laws/Lists.lean ====
section
/-! SUPPORT. Small facts about lists that the laws and proofs share. -/

namespace Sys2Proof.Laws

/-- Modifying an element that exists sets it. -/
theorem modify_eq_set {α : Type} (l : List α) (i : Nat) (f : α → α) (d : α) (h : i < l.length) :
    l.modify i f = l.set i (f (l.getD i d)) := by
  induction l generalizing i with
  | nil => simp at h
  | cons x l ih =>
    cases i with
    | zero => rfl
    | succ i =>
      have := ih i (by simpa using h)
      simpa using this

end Sys2Proof.Laws
end

