-- ==== Sys2Proof/Laws/Mailbox.lean ====
section
/-! SUPPORT. What a mailbox command comes to, by the result of its own work. -/

namespace Sys2Proof.Machine

/-- Every way an accepted Crity command ends. -/
theorem runCrity_of_accepts {spec : CmdSpec} {s : State} {m : Mb} {p : List Byte} {own : State → CmdRes}
    (h : accepts spec s m p = true) :
    runCrity spec m p own s = match own s with
      | .ok out t =>
        if limitOf s m.src < out.length then failCmd spec m 0x0004 0xFFFF s
        else if haltsItself s t && !spec.read then failCmd spec m 0x0006 0xFFFF t
        else if spec.read then reply m spec.opcode .success 0 out t
        else logCommand spec.opcode m.src .success 0 (outingStarted s (reply m spec.opcode .success 0 out t))
          (reply m spec.opcode .success 0 out t)
      | .fail w d => failCmd spec m w d s
      | .std rc w => reply m spec.opcode rc w [] s
      | .done rc w out t =>
        if spec.read then reply m spec.opcode rc w out t
        else logCommand spec.opcode m.src rc w 0xFFFFFFFF (reply m spec.opcode rc w out t)
      | .bg op t => if (bgOf s m.src).busy then busyCmd spec m s else started spec.opcode m op t
      | .bgDone op out t =>
        if (bgOf s m.src).busy then busyCmd spec m s
        else (reply m spec.opcode .backgroundStarted 0 [] t).modBg m.src fun _ =>
          { opcode := spec.opcode, busy := true, percent := 0, sec := m.sec, op := some op,
            result := some (.success, 0, out) }
      | .wait t => { t with crity := { t.crity with waiting := some (m, spec.opcode, p, t.time.elapsed) } } := by
  simp only [accepts, Bool.and_eq_true, Bool.not_eq_true', Bool.or_eq_true, Bool.and_eq_false_iff, Bool.not_eq_false',
    Option.isNone_iff_eq_none] at h
  obtain ⟨⟨⟨h1, h2⟩, h3⟩, h4⟩ := h
  unfold runCrity
  have g2 : ¬ (m.src = 8 ∧ keeperOff s = true ∧ spec.lmOwn = false) := by
    rintro ⟨a, b, c⟩
    rcases h2 with (h | h) | h <;> simp_all
  rw [if_neg (by simp [h1]), if_neg g2, if_neg (by rcases h3 with h | h <;> simp_all), h4]
  cases own s <;> simp [started]
  all_goals split <;> rfl

theorem outingStarted_reply (s t : State) (m : Mb) (o : Nat) (rc : Rc) (w : Nat) (out : List Byte)
    (h : t.crity.nextOuting = s.crity.nextOuting) : outingStarted s (reply m o rc w out t) = 0xFFFFFFFF := by
  have : (reply m o rc w out t).crity.nextOuting = t.crity.nextOuting := by
    unfold reply
    split
    · rfl
    · dsimp only
      have e : ∀ f, (t.modMailbox m f).crity.nextOuting = t.crity.nextOuting := by
        intro f; unfold State.modMailbox; (repeat' split) <;> rfl
      split
      · have : ∀ h v (u : State), (fire h v u).crity.nextOuting = u.crity.nextOuting := by
          intro h v u; unfold fire; split <;> rfl
        rw [this, e]
      · exact e _
  simp [outingStarted, this, h]

/-- A command that answers with an output that outFits. -/
theorem runCrity_ok {spec : CmdSpec} {s t : State} {m : Mb} {p : List Byte} {own : State → CmdRes} {out : List Byte}
    (h : accepts spec s m p = true) (ho : own s = .ok out t) (hf : outFits s m out = true)
    (hn : t.crity.nextOuting = s.crity.nextOuting) (hr : spec.read = false)
    (hh : t.flt.halted = s.flt.halted := by rfl) :
    runCrity spec m p own s = done spec.opcode m out t := by
  have : ¬ limitOf s m.src < out.length := by simpa [outFits] using hf
  rw [runCrity_of_accepts h, ho]
  simp [this, hr, outingStarted_reply _ _ _ _ _ _ _ hn, done, haltsItself, hh]

/-- A command that may start an outing. -/
theorem runCrity_fin {spec : CmdSpec} {s t : State} {m : Mb} {p : List Byte} {own : State → CmdRes} {out : List Byte}
    (h : accepts spec s m p = true) (ho : own s = .ok out t) (hf : outFits s m out = true) (hr : spec.read = false) :
    runCrity spec m p own s = finished spec.opcode m out s t := by
  have : ¬ limitOf s m.src < out.length := by simpa [outFits] using hf
  rw [runCrity_of_accepts h, ho]
  simp [this, hr, finished, failCmd, rcOf]

/-- A read command. -/
theorem runCrity_read {spec : CmdSpec} {s t : State} {m : Mb} {p : List Byte} {own : State → CmdRes} {out : List Byte}
    (h : accepts spec s m p = true) (ho : own s = .ok out t) (hf : outFits s m out = true) (hr : spec.read = true) :
    runCrity spec m p own s = reply m spec.opcode .success 0 out t := by
  have : ¬ limitOf s m.src < out.length := by simpa [outFits] using hf
  rw [runCrity_of_accepts h, ho]
  simp [this, hr]

/-- A background command whose issuer's slot is free. -/
theorem runCrity_bg {spec : CmdSpec} {s t : State} {m : Mb} {p : List Byte} {own : State → CmdRes} {op : BgOp}
    (h : accepts spec s m p = true) (ho : own s = .bg op t) (hb : (bgOf s m.src).busy = false) :
    runCrity spec m p own s = started spec.opcode m op t := by
  rw [runCrity_of_accepts h, ho]
  simp [hb]

/-- A background command whose answer is known when it starts. -/
theorem runCrity_bgDone {spec : CmdSpec} {s t : State} {m : Mb} {p : List Byte} {own : State → CmdRes} {op : BgOp}
    {out : List Byte} (h : accepts spec s m p = true) (ho : own s = .bgDone op out t) (hb : (bgOf s m.src).busy = false) :
    runCrity spec m p own s = startedDone spec.opcode m op out t := by
  rw [runCrity_of_accepts h, ho]
  simp [hb, startedDone]

/-- A command that waits for an answer from the chain. -/
theorem runCrity_wait {spec : CmdSpec} {s t : State} {m : Mb} {p : List Byte} {own : State → CmdRes}
    (h : accepts spec s m p = true) (ho : own s = .wait t) :
    runCrity spec m p own s = { t with crity := { t.crity with waiting := some (m, spec.opcode, p, t.time.elapsed) } } := by
  rw [runCrity_of_accepts h, ho]

/-- Every way an accepted standard command ends, where it succeeds with an output that outFits. -/
theorem runStd_ok {spec : StdSpec} {s t : State} {m : Mb} {p : List Byte} {own : State → CmdRes} {out : List Byte}
    (h : acceptsStd spec s m = true) (ho : own s = .ok out t) (hf : outFits s m out = true) :
    runStd spec m p own s = reply m spec.opcode .success 0 out t := by
  simp only [acceptsStd, Bool.and_eq_true, Bool.not_eq_true', Bool.or_eq_true, Bool.and_eq_false_iff, Bool.not_eq_false'] at h
  obtain ⟨⟨⟨⟨h1, h2⟩, h3⟩, h4⟩, h5⟩ := h
  have hl : ¬ limitOf s m.src < out.length := by simpa [outFits] using hf
  unfold runStd
  have g3 : ¬ (m.src = 8 ∧ keeperOff s = true ∧ spec.lmOwn = false) := by
    rintro ⟨a, b, c⟩
    rcases h3 with (h | h) | h <;> simp_all
  have g2 : ¬ (m.src = 8 ∧ spec.sb = false) := by
    rintro ⟨a, b⟩
    rcases h2 with h | h <;> simp_all
  rw [if_neg (by simp [h1]), if_neg g2, if_neg g3, if_neg (by rcases h4 with h | h <;> simp_all),
    if_neg (by rcases h5 with (h | h) | h <;> simp_all), ho]
  simp [hl]

/-- A standard background command. -/
theorem runStd_bg {spec : StdSpec} {s t : State} {m : Mb} {p : List Byte} {own : State → CmdRes} {op : BgOp}
    (h : acceptsStd spec s m = true) (ho : own s = .bg op t) (hb : (bgOf s m.src).busy = false) :
    runStd spec m p own s = started spec.opcode m op t := by
  simp only [acceptsStd, Bool.and_eq_true, Bool.not_eq_true', Bool.or_eq_true, Bool.and_eq_false_iff, Bool.not_eq_false'] at h
  obtain ⟨⟨⟨⟨h1, h2⟩, h3⟩, h4⟩, h5⟩ := h
  unfold runStd
  have g3 : ¬ (m.src = 8 ∧ keeperOff s = true ∧ spec.lmOwn = false) := by
    rintro ⟨a, b, c⟩
    rcases h3 with (h | h) | h <;> simp_all
  have g2 : ¬ (m.src = 8 ∧ spec.sb = false) := by
    rintro ⟨a, b⟩
    rcases h2 with h | h <;> simp_all
  rw [if_neg (by simp [h1]), if_neg g2, if_neg g3, if_neg (by rcases h4 with h | h <;> simp_all),
    if_neg (by rcases h5 with (h | h) | h <;> simp_all), ho]
  simp [hb, started]

/-- A standard command that answers with another return code and changes nothing else. -/
theorem runStd_std {spec : StdSpec} {s : State} {m : Mb} {p : List Byte} {own : State → CmdRes} {rc : Rc} {w : Nat}
    (h : acceptsStd spec s m = true) (ho : own s = .std rc w) :
    runStd spec m p own s = reply m spec.opcode rc w [] s := by
  simp only [acceptsStd, Bool.and_eq_true, Bool.not_eq_true', Bool.or_eq_true, Bool.and_eq_false_iff, Bool.not_eq_false'] at h
  obtain ⟨⟨⟨⟨h1, h2⟩, h3⟩, h4⟩, h5⟩ := h
  unfold runStd
  have g3 : ¬ (m.src = 8 ∧ keeperOff s = true ∧ spec.lmOwn = false) := by
    rintro ⟨a, b, c⟩
    rcases h3 with (h | h) | h <;> simp_all
  have g2 : ¬ (m.src = 8 ∧ spec.sb = false) := by
    rintro ⟨a, b⟩
    rcases h2 with h | h <;> simp_all
  rw [if_neg (by simp [h1]), if_neg g2, if_neg g3, if_neg (by rcases h4 with h | h <;> simp_all),
    if_neg (by rcases h5 with (h | h) | h <;> simp_all), ho]

/-- A standard command that answers with another return code and changes the state. -/
theorem runStd_done {spec : StdSpec} {s t : State} {m : Mb} {p : List Byte} {own : State → CmdRes} {rc : Rc} {w : Nat}
    {out : List Byte} (h : acceptsStd spec s m = true) (ho : own s = .done rc w out t) :
    runStd spec m p own s = reply m spec.opcode rc w out t := by
  simp only [acceptsStd, Bool.and_eq_true, Bool.not_eq_true', Bool.or_eq_true, Bool.and_eq_false_iff, Bool.not_eq_false'] at h
  obtain ⟨⟨⟨⟨h1, h2⟩, h3⟩, h4⟩, h5⟩ := h
  unfold runStd
  have g3 : ¬ (m.src = 8 ∧ keeperOff s = true ∧ spec.lmOwn = false) := by
    rintro ⟨a, b, c⟩
    rcases h3 with (h | h) | h <;> simp_all
  have g2 : ¬ (m.src = 8 ∧ spec.sb = false) := by
    rintro ⟨a, b⟩
    rcases h2 with h | h <;> simp_all
  rw [if_neg (by simp [h1]), if_neg g2, if_neg g3, if_neg (by rcases h4 with h | h <;> simp_all),
    if_neg (by rcases h5 with (h | h) | h <;> simp_all), ho]

end Sys2Proof.Machine
end

