-- ==== Sys2Proof/Laws/State.lean ====
section
/-! SUPPORT. What one update of a part of the state leaves alone, field by field, and what the part then reads as. -/

namespace Sys2Proof.Machine

/-- An entry of a list after one entry was changed. -/
theorem getD_modify {α : Type} (l : List α) (i j : Nat) (f : α → α) (d : α) :
    (l.modify i f).getD j d = if i = j ∧ i < l.length then f (l.getD j d) else l.getD j d := by
  simp only [List.getD_eq_getElem?_getD, List.getElem?_modify]
  by_cases h : i = j
  · subst h
    by_cases hl : i < l.length
    · simp [hl]
    · simp [hl]
  · simp [h]

/-! ### The part that was updated -/

theorem dom_modDom (s : State) (i j : Nat) (f : Domain → Domain) :
    (s.modDom i f).dom j = if i = j ∧ i < s.power.doms.length then f (s.dom j) else s.dom j :=
  getD_modify _ _ _ _ _

@[simp] theorem dom_modDom_self (s : State) (i : Nat) (f : Domain → Domain) (h : i < s.power.doms.length) :
    (s.modDom i f).dom i = f (s.dom i) := by simp [dom_modDom, h]

@[simp] theorem dom_modDom_ne (s : State) (i j : Nat) (f : Domain → Domain) (h : i ≠ j) :
    (s.modDom i f).dom j = s.dom j := by simp [dom_modDom, h]

theorem slot_modSlot (s : State) (i j : Nat) (f : Slot → Slot) :
    (s.modSlot i f).slot j = if i = j ∧ i < s.slots.slots.length then f (s.slot j) else s.slot j :=
  getD_modify _ _ _ _ _

@[simp] theorem slot_modSlot_self (s : State) (i : Nat) (f : Slot → Slot) (h : i < s.slots.slots.length) :
    (s.modSlot i f).slot i = f (s.slot i) := by simp [slot_modSlot, h]

@[simp] theorem slot_modSlot_ne (s : State) (i j : Nat) (f : Slot → Slot) (h : i ≠ j) :
    (s.modSlot i f).slot j = s.slot j := by simp [slot_modSlot, h]

theorem head_modHead (s : State) (i j : Nat) (f : Head → Head) :
    (s.modHead i f).head j = if i = j ∧ i < s.host.heads.length then f (s.head j) else s.head j :=
  getD_modify _ _ _ _ _

@[simp] theorem head_modHead_self (s : State) (i : Nat) (f : Head → Head) (h : i < s.host.heads.length) :
    (s.modHead i f).head i = f (s.head i) := by simp [head_modHead, h]

@[simp] theorem head_modHead_ne (s : State) (i j : Nat) (f : Head → Head) (h : i ≠ j) :
    (s.modHead i f).head j = s.head j := by simp [head_modHead, h]

theorem mon_modMon (s : State) (i j : Nat) (f : Monitor → Monitor) :
    (s.modMon i f).mon j = if i = j ∧ i < s.power.mons.length then f (s.mon j) else s.mon j :=
  getD_modify _ _ _ _ _

@[simp] theorem mon_modMon_self (s : State) (i : Nat) (f : Monitor → Monitor) (h : i < s.power.mons.length) :
    (s.modMon i f).mon i = f (s.mon i) := by simp [mon_modMon, h]

@[simp] theorem mon_modMon_ne (s : State) (i j : Nat) (f : Monitor → Monitor) (h : i ≠ j) :
    (s.modMon i f).mon j = s.mon j := by simp [mon_modMon, h]

theorem unit_modUnit (s : State) (i j : Nat) (f : UnitSt → UnitSt) :
    (s.modUnit i f).unit j = if i = j ∧ i < s.dur.units.length then f (s.unit j) else s.unit j :=
  getD_modify _ _ _ _ _

@[simp] theorem unit_modUnit_self (s : State) (i : Nat) (f : UnitSt → UnitSt) (h : i < s.dur.units.length) :
    (s.modUnit i f).unit i = f (s.unit i) := by simp [unit_modUnit, h]

@[simp] theorem unit_modUnit_ne (s : State) (i j : Nat) (f : UnitSt → UnitSt) (h : i ≠ j) :
    (s.modUnit i f).unit j = s.unit j := by simp [unit_modUnit, h]

theorem range_modRange (s : State) (i j : Nat) (f : KeyRange → KeyRange) :
    (s.modRange i f).range j = if i = j ∧ (i = 16 ∨ i < s.keys.ranges.length) then f (s.range j) else s.range j := by
  simp only [State.modRange, State.range]
  by_cases hi : i = 16 <;> by_cases hj : j = 16
  · simp [hi, hj]
  · have : ¬ 16 = j := fun h => hj h.symm
    simp [hi, hj, this]
  · subst hj; simp [hi]
  · rw [if_neg hi]; simp only [if_neg hj, getD_modify, hi, false_or]

@[simp] theorem range_modRange_self (s : State) (i : Nat) (f : KeyRange → KeyRange) (h : i = 16 ∨ i < s.keys.ranges.length) :
    (s.modRange i f).range i = f (s.range i) := by simp [range_modRange, h]

@[simp] theorem range_modRange_ne (s : State) (i j : Nat) (f : KeyRange → KeyRange) (h : i ≠ j) :
    (s.modRange i f).range j = s.range j := by simp [range_modRange, h]

theorem drive_modDrive (s : State) (i j : Nat) (f : Drive → Drive) :
    (s.modDrive i f).drive j = if i = j ∧ i < s.drives.drives.length then f (s.drive j) else s.drive j :=
  getD_modify _ _ _ _ _

@[simp] theorem drive_modDrive_self (s : State) (i : Nat) (f : Drive → Drive) (h : i < s.drives.drives.length) :
    (s.modDrive i f).drive i = f (s.drive i) := by simp [drive_modDrive, h]

@[simp] theorem drive_modDrive_ne (s : State) (i j : Nat) (f : Drive → Drive) (h : i ≠ j) :
    (s.modDrive i f).drive j = s.drive j := by simp [drive_modDrive, h]

theorem chan_modChan (s : State) (i j : Nat) (f : Chan → Chan) :
    (s.modChan i f).chan j = if i = j ∧ i < s.ddr.chans.length then f (s.chan j) else s.chan j :=
  getD_modify _ _ _ _ _

@[simp] theorem chan_modChan_self (s : State) (i : Nat) (f : Chan → Chan) (h : i < s.ddr.chans.length) :
    (s.modChan i f).chan i = f (s.chan i) := by simp [chan_modChan, h]

@[simp] theorem chan_modChan_ne (s : State) (i j : Nat) (f : Chan → Chan) (h : i ≠ j) :
    (s.modChan i f).chan j = s.chan j := by simp [chan_modChan, h]

theorem port_modPort (s : State) (i j : Nat) (f : Port → Port) :
    (s.modPort i f).port j = if i = j ∧ i < s.skl.ports.length then f (s.port j) else s.port j :=
  getD_modify _ _ _ _ _

@[simp] theorem port_modPort_self (s : State) (i : Nat) (f : Port → Port) (h : i < s.skl.ports.length) :
    (s.modPort i f).port i = f (s.port i) := by simp [port_modPort, h]

@[simp] theorem port_modPort_ne (s : State) (i j : Nat) (f : Port → Port) (h : i ≠ j) :
    (s.modPort i f).port j = s.port j := by simp [port_modPort, h]

theorem engine_modEngine (s : State) (i j : Nat) (f : Engine → Engine) :
    (s.modEngine i f).engine j = if i = j ∧ i < s.codec.engines.length then f (s.engine j) else s.engine j :=
  getD_modify _ _ _ _ _

@[simp] theorem engine_modEngine_self (s : State) (i : Nat) (f : Engine → Engine) (h : i < s.codec.engines.length) :
    (s.modEngine i f).engine i = f (s.engine i) := by simp [engine_modEngine, h]

@[simp] theorem engine_modEngine_ne (s : State) (i j : Nat) (f : Engine → Engine) (h : i ≠ j) :
    (s.modEngine i f).engine j = s.engine j := by simp [engine_modEngine, h]

theorem sluice_modSluice (s : State) (i j : Nat) (f : Sluice → Sluice) :
    (s.modSluice i f).sluice j = if i = j ∧ i < s.slu.sl.length then f (s.sluice j) else s.sluice j :=
  getD_modify _ _ _ _ _

@[simp] theorem sluice_modSluice_self (s : State) (i : Nat) (f : Sluice → Sluice) (h : i < s.slu.sl.length) :
    (s.modSluice i f).sluice i = f (s.sluice i) := by simp [sluice_modSluice, h]

@[simp] theorem sluice_modSluice_ne (s : State) (i j : Nat) (f : Sluice → Sluice) (h : i ≠ j) :
    (s.modSluice i f).sluice j = s.sluice j := by simp [sluice_modSluice, h]

/-! ### Every other part -/

section modHead
variable (s : State) (h : Nat) (f : Head → Head)

@[simp] theorem modHead_held : (s.modHead h f).held = s.held := rfl
@[simp] theorem modHead_tx : (s.modHead h f).tx = s.tx := rfl
@[simp] theorem modHead_free : (s.modHead h f).free = s.free := rfl
@[simp] theorem modHead_time : (s.modHead h f).time = s.time := rfl
@[simp] theorem modHead_flt : (s.modHead h f).flt = s.flt := rfl
@[simp] theorem modHead_crity : (s.modHead h f).crity = s.crity := rfl
@[simp] theorem modHead_power : (s.modHead h f).power = s.power := rfl
@[simp] theorem modHead_slots : (s.modHead h f).slots = s.slots := rfl
@[simp] theorem modHead_lm : (s.modHead h f).lm = s.lm := rfl
@[simp] theorem modHead_boot : (s.modHead h f).boot = s.boot := rfl
@[simp] theorem modHead_dur : (s.modHead h f).dur = s.dur := rfl
@[simp] theorem modHead_keys : (s.modHead h f).keys = s.keys := rfl
@[simp] theorem modHead_req : (s.modHead h f).req = s.req := rfl
@[simp] theorem modHead_map : (s.modHead h f).map = s.map := rfl
@[simp] theorem modHead_codec : (s.modHead h f).codec = s.codec := rfl
@[simp] theorem modHead_dir : (s.modHead h f).dir = s.dir := rfl
@[simp] theorem modHead_slu : (s.modHead h f).slu = s.slu := rfl
@[simp] theorem modHead_ddr : (s.modHead h f).ddr = s.ddr := rfl
@[simp] theorem modHead_drives : (s.modHead h f).drives = s.drives := rfl
@[simp] theorem modHead_skl : (s.modHead h f).skl = s.skl := rfl
@[simp] theorem modHead_chain : (s.modHead h f).chain = s.chain := rfl
@[simp] theorem modHead_pmc : (s.modHead h f).pmc = s.pmc := rfl
@[simp] theorem dom_modHead (k : Nat) : (s.modHead h f).dom k = s.dom k := rfl
@[simp] theorem slot_modHead (k : Nat) : (s.modHead h f).slot k = s.slot k := rfl
@[simp] theorem mon_modHead (k : Nat) : (s.modHead h f).mon k = s.mon k := rfl
@[simp] theorem unit_modHead (k : Nat) : (s.modHead h f).unit k = s.unit k := rfl
@[simp] theorem range_modHead (k : Nat) : (s.modHead h f).range k = s.range k := rfl
@[simp] theorem drive_modHead (k : Nat) : (s.modHead h f).drive k = s.drive k := rfl
@[simp] theorem chan_modHead (k : Nat) : (s.modHead h f).chan k = s.chan k := rfl
@[simp] theorem port_modHead (k : Nat) : (s.modHead h f).port k = s.port k := rfl
@[simp] theorem engine_modHead (k : Nat) : (s.modHead h f).engine k = s.engine k := rfl
@[simp] theorem sluice_modHead (k : Nat) : (s.modHead h f).sluice k = s.sluice k := rfl

end modHead

section modSlot
variable (s : State) (i : Nat) (f : Slot → Slot)

@[simp] theorem modSlot_held : (s.modSlot i f).held = s.held := rfl
@[simp] theorem modSlot_tx : (s.modSlot i f).tx = s.tx := rfl
@[simp] theorem modSlot_free : (s.modSlot i f).free = s.free := rfl
@[simp] theorem modSlot_time : (s.modSlot i f).time = s.time := rfl
@[simp] theorem modSlot_flt : (s.modSlot i f).flt = s.flt := rfl
@[simp] theorem modSlot_host : (s.modSlot i f).host = s.host := rfl
@[simp] theorem modSlot_crity : (s.modSlot i f).crity = s.crity := rfl
@[simp] theorem modSlot_power : (s.modSlot i f).power = s.power := rfl
@[simp] theorem modSlot_lm : (s.modSlot i f).lm = s.lm := rfl
@[simp] theorem modSlot_boot : (s.modSlot i f).boot = s.boot := rfl
@[simp] theorem modSlot_dur : (s.modSlot i f).dur = s.dur := rfl
@[simp] theorem modSlot_keys : (s.modSlot i f).keys = s.keys := rfl
@[simp] theorem modSlot_req : (s.modSlot i f).req = s.req := rfl
@[simp] theorem modSlot_map : (s.modSlot i f).map = s.map := rfl
@[simp] theorem modSlot_codec : (s.modSlot i f).codec = s.codec := rfl
@[simp] theorem modSlot_dir : (s.modSlot i f).dir = s.dir := rfl
@[simp] theorem modSlot_slu : (s.modSlot i f).slu = s.slu := rfl
@[simp] theorem modSlot_ddr : (s.modSlot i f).ddr = s.ddr := rfl
@[simp] theorem modSlot_drives : (s.modSlot i f).drives = s.drives := rfl
@[simp] theorem modSlot_skl : (s.modSlot i f).skl = s.skl := rfl
@[simp] theorem modSlot_chain : (s.modSlot i f).chain = s.chain := rfl
@[simp] theorem modSlot_pmc : (s.modSlot i f).pmc = s.pmc := rfl
@[simp] theorem dom_modSlot (k : Nat) : (s.modSlot i f).dom k = s.dom k := rfl
@[simp] theorem head_modSlot (k : Nat) : (s.modSlot i f).head k = s.head k := rfl
@[simp] theorem mon_modSlot (k : Nat) : (s.modSlot i f).mon k = s.mon k := rfl
@[simp] theorem unit_modSlot (k : Nat) : (s.modSlot i f).unit k = s.unit k := rfl
@[simp] theorem range_modSlot (k : Nat) : (s.modSlot i f).range k = s.range k := rfl
@[simp] theorem drive_modSlot (k : Nat) : (s.modSlot i f).drive k = s.drive k := rfl
@[simp] theorem chan_modSlot (k : Nat) : (s.modSlot i f).chan k = s.chan k := rfl
@[simp] theorem port_modSlot (k : Nat) : (s.modSlot i f).port k = s.port k := rfl
@[simp] theorem engine_modSlot (k : Nat) : (s.modSlot i f).engine k = s.engine k := rfl
@[simp] theorem sluice_modSlot (k : Nat) : (s.modSlot i f).sluice k = s.sluice k := rfl

end modSlot

section modDom
variable (s : State) (d : Nat) (f : Domain → Domain)

@[simp] theorem modDom_held : (s.modDom d f).held = s.held := rfl
@[simp] theorem modDom_tx : (s.modDom d f).tx = s.tx := rfl
@[simp] theorem modDom_free : (s.modDom d f).free = s.free := rfl
@[simp] theorem modDom_time : (s.modDom d f).time = s.time := rfl
@[simp] theorem modDom_flt : (s.modDom d f).flt = s.flt := rfl
@[simp] theorem modDom_host : (s.modDom d f).host = s.host := rfl
@[simp] theorem modDom_crity : (s.modDom d f).crity = s.crity := rfl
@[simp] theorem modDom_slots : (s.modDom d f).slots = s.slots := rfl
@[simp] theorem modDom_lm : (s.modDom d f).lm = s.lm := rfl
@[simp] theorem modDom_boot : (s.modDom d f).boot = s.boot := rfl
@[simp] theorem modDom_dur : (s.modDom d f).dur = s.dur := rfl
@[simp] theorem modDom_keys : (s.modDom d f).keys = s.keys := rfl
@[simp] theorem modDom_req : (s.modDom d f).req = s.req := rfl
@[simp] theorem modDom_map : (s.modDom d f).map = s.map := rfl
@[simp] theorem modDom_codec : (s.modDom d f).codec = s.codec := rfl
@[simp] theorem modDom_dir : (s.modDom d f).dir = s.dir := rfl
@[simp] theorem modDom_slu : (s.modDom d f).slu = s.slu := rfl
@[simp] theorem modDom_ddr : (s.modDom d f).ddr = s.ddr := rfl
@[simp] theorem modDom_drives : (s.modDom d f).drives = s.drives := rfl
@[simp] theorem modDom_skl : (s.modDom d f).skl = s.skl := rfl
@[simp] theorem modDom_chain : (s.modDom d f).chain = s.chain := rfl
@[simp] theorem modDom_pmc : (s.modDom d f).pmc = s.pmc := rfl
@[simp] theorem slot_modDom (k : Nat) : (s.modDom d f).slot k = s.slot k := rfl
@[simp] theorem head_modDom (k : Nat) : (s.modDom d f).head k = s.head k := rfl
@[simp] theorem mon_modDom (k : Nat) : (s.modDom d f).mon k = s.mon k := rfl
@[simp] theorem unit_modDom (k : Nat) : (s.modDom d f).unit k = s.unit k := rfl
@[simp] theorem range_modDom (k : Nat) : (s.modDom d f).range k = s.range k := rfl
@[simp] theorem drive_modDom (k : Nat) : (s.modDom d f).drive k = s.drive k := rfl
@[simp] theorem chan_modDom (k : Nat) : (s.modDom d f).chan k = s.chan k := rfl
@[simp] theorem port_modDom (k : Nat) : (s.modDom d f).port k = s.port k := rfl
@[simp] theorem engine_modDom (k : Nat) : (s.modDom d f).engine k = s.engine k := rfl
@[simp] theorem sluice_modDom (k : Nat) : (s.modDom d f).sluice k = s.sluice k := rfl

end modDom

section modMon
variable (s : State) (r : Nat) (f : Monitor → Monitor)

@[simp] theorem modMon_held : (s.modMon r f).held = s.held := rfl
@[simp] theorem modMon_tx : (s.modMon r f).tx = s.tx := rfl
@[simp] theorem modMon_free : (s.modMon r f).free = s.free := rfl
@[simp] theorem modMon_time : (s.modMon r f).time = s.time := rfl
@[simp] theorem modMon_flt : (s.modMon r f).flt = s.flt := rfl
@[simp] theorem modMon_host : (s.modMon r f).host = s.host := rfl
@[simp] theorem modMon_crity : (s.modMon r f).crity = s.crity := rfl
@[simp] theorem modMon_slots : (s.modMon r f).slots = s.slots := rfl
@[simp] theorem modMon_lm : (s.modMon r f).lm = s.lm := rfl
@[simp] theorem modMon_boot : (s.modMon r f).boot = s.boot := rfl
@[simp] theorem modMon_dur : (s.modMon r f).dur = s.dur := rfl
@[simp] theorem modMon_keys : (s.modMon r f).keys = s.keys := rfl
@[simp] theorem modMon_req : (s.modMon r f).req = s.req := rfl
@[simp] theorem modMon_map : (s.modMon r f).map = s.map := rfl
@[simp] theorem modMon_codec : (s.modMon r f).codec = s.codec := rfl
@[simp] theorem modMon_dir : (s.modMon r f).dir = s.dir := rfl
@[simp] theorem modMon_slu : (s.modMon r f).slu = s.slu := rfl
@[simp] theorem modMon_ddr : (s.modMon r f).ddr = s.ddr := rfl
@[simp] theorem modMon_drives : (s.modMon r f).drives = s.drives := rfl
@[simp] theorem modMon_skl : (s.modMon r f).skl = s.skl := rfl
@[simp] theorem modMon_chain : (s.modMon r f).chain = s.chain := rfl
@[simp] theorem modMon_pmc : (s.modMon r f).pmc = s.pmc := rfl
@[simp] theorem dom_modMon (k : Nat) : (s.modMon r f).dom k = s.dom k := rfl
@[simp] theorem slot_modMon (k : Nat) : (s.modMon r f).slot k = s.slot k := rfl
@[simp] theorem head_modMon (k : Nat) : (s.modMon r f).head k = s.head k := rfl
@[simp] theorem unit_modMon (k : Nat) : (s.modMon r f).unit k = s.unit k := rfl
@[simp] theorem range_modMon (k : Nat) : (s.modMon r f).range k = s.range k := rfl
@[simp] theorem drive_modMon (k : Nat) : (s.modMon r f).drive k = s.drive k := rfl
@[simp] theorem chan_modMon (k : Nat) : (s.modMon r f).chan k = s.chan k := rfl
@[simp] theorem port_modMon (k : Nat) : (s.modMon r f).port k = s.port k := rfl
@[simp] theorem engine_modMon (k : Nat) : (s.modMon r f).engine k = s.engine k := rfl
@[simp] theorem sluice_modMon (k : Nat) : (s.modMon r f).sluice k = s.sluice k := rfl

end modMon

section modUnit
variable (s : State) (i : Nat) (f : UnitSt → UnitSt)

@[simp] theorem modUnit_held : (s.modUnit i f).held = s.held := rfl
@[simp] theorem modUnit_tx : (s.modUnit i f).tx = s.tx := rfl
@[simp] theorem modUnit_free : (s.modUnit i f).free = s.free := rfl
@[simp] theorem modUnit_time : (s.modUnit i f).time = s.time := rfl
@[simp] theorem modUnit_flt : (s.modUnit i f).flt = s.flt := rfl
@[simp] theorem modUnit_host : (s.modUnit i f).host = s.host := rfl
@[simp] theorem modUnit_crity : (s.modUnit i f).crity = s.crity := rfl
@[simp] theorem modUnit_power : (s.modUnit i f).power = s.power := rfl
@[simp] theorem modUnit_slots : (s.modUnit i f).slots = s.slots := rfl
@[simp] theorem modUnit_lm : (s.modUnit i f).lm = s.lm := rfl
@[simp] theorem modUnit_boot : (s.modUnit i f).boot = s.boot := rfl
@[simp] theorem modUnit_keys : (s.modUnit i f).keys = s.keys := rfl
@[simp] theorem modUnit_req : (s.modUnit i f).req = s.req := rfl
@[simp] theorem modUnit_map : (s.modUnit i f).map = s.map := rfl
@[simp] theorem modUnit_codec : (s.modUnit i f).codec = s.codec := rfl
@[simp] theorem modUnit_dir : (s.modUnit i f).dir = s.dir := rfl
@[simp] theorem modUnit_slu : (s.modUnit i f).slu = s.slu := rfl
@[simp] theorem modUnit_ddr : (s.modUnit i f).ddr = s.ddr := rfl
@[simp] theorem modUnit_drives : (s.modUnit i f).drives = s.drives := rfl
@[simp] theorem modUnit_skl : (s.modUnit i f).skl = s.skl := rfl
@[simp] theorem modUnit_chain : (s.modUnit i f).chain = s.chain := rfl
@[simp] theorem modUnit_pmc : (s.modUnit i f).pmc = s.pmc := rfl
@[simp] theorem dom_modUnit (k : Nat) : (s.modUnit i f).dom k = s.dom k := rfl
@[simp] theorem slot_modUnit (k : Nat) : (s.modUnit i f).slot k = s.slot k := rfl
@[simp] theorem head_modUnit (k : Nat) : (s.modUnit i f).head k = s.head k := rfl
@[simp] theorem mon_modUnit (k : Nat) : (s.modUnit i f).mon k = s.mon k := rfl
@[simp] theorem range_modUnit (k : Nat) : (s.modUnit i f).range k = s.range k := rfl
@[simp] theorem drive_modUnit (k : Nat) : (s.modUnit i f).drive k = s.drive k := rfl
@[simp] theorem chan_modUnit (k : Nat) : (s.modUnit i f).chan k = s.chan k := rfl
@[simp] theorem port_modUnit (k : Nat) : (s.modUnit i f).port k = s.port k := rfl
@[simp] theorem engine_modUnit (k : Nat) : (s.modUnit i f).engine k = s.engine k := rfl
@[simp] theorem sluice_modUnit (k : Nat) : (s.modUnit i f).sluice k = s.sluice k := rfl

end modUnit

section modRange
variable (s : State) (r : Nat) (f : KeyRange → KeyRange)

@[simp] theorem modRange_held : (s.modRange r f).held = s.held := rfl
@[simp] theorem modRange_tx : (s.modRange r f).tx = s.tx := rfl
@[simp] theorem modRange_free : (s.modRange r f).free = s.free := rfl
@[simp] theorem modRange_time : (s.modRange r f).time = s.time := rfl
@[simp] theorem modRange_flt : (s.modRange r f).flt = s.flt := rfl
@[simp] theorem modRange_host : (s.modRange r f).host = s.host := rfl
@[simp] theorem modRange_crity : (s.modRange r f).crity = s.crity := rfl
@[simp] theorem modRange_power : (s.modRange r f).power = s.power := rfl
@[simp] theorem modRange_slots : (s.modRange r f).slots = s.slots := rfl
@[simp] theorem modRange_lm : (s.modRange r f).lm = s.lm := rfl
@[simp] theorem modRange_boot : (s.modRange r f).boot = s.boot := rfl
@[simp] theorem modRange_dur : (s.modRange r f).dur = s.dur := rfl
@[simp] theorem modRange_req : (s.modRange r f).req = s.req := rfl
@[simp] theorem modRange_map : (s.modRange r f).map = s.map := rfl
@[simp] theorem modRange_codec : (s.modRange r f).codec = s.codec := rfl
@[simp] theorem modRange_dir : (s.modRange r f).dir = s.dir := rfl
@[simp] theorem modRange_slu : (s.modRange r f).slu = s.slu := rfl
@[simp] theorem modRange_ddr : (s.modRange r f).ddr = s.ddr := rfl
@[simp] theorem modRange_drives : (s.modRange r f).drives = s.drives := rfl
@[simp] theorem modRange_skl : (s.modRange r f).skl = s.skl := rfl
@[simp] theorem modRange_chain : (s.modRange r f).chain = s.chain := rfl
@[simp] theorem modRange_pmc : (s.modRange r f).pmc = s.pmc := rfl
@[simp] theorem dom_modRange (k : Nat) : (s.modRange r f).dom k = s.dom k := rfl
@[simp] theorem slot_modRange (k : Nat) : (s.modRange r f).slot k = s.slot k := rfl
@[simp] theorem head_modRange (k : Nat) : (s.modRange r f).head k = s.head k := rfl
@[simp] theorem mon_modRange (k : Nat) : (s.modRange r f).mon k = s.mon k := rfl
@[simp] theorem unit_modRange (k : Nat) : (s.modRange r f).unit k = s.unit k := rfl
@[simp] theorem drive_modRange (k : Nat) : (s.modRange r f).drive k = s.drive k := rfl
@[simp] theorem chan_modRange (k : Nat) : (s.modRange r f).chan k = s.chan k := rfl
@[simp] theorem port_modRange (k : Nat) : (s.modRange r f).port k = s.port k := rfl
@[simp] theorem engine_modRange (k : Nat) : (s.modRange r f).engine k = s.engine k := rfl
@[simp] theorem sluice_modRange (k : Nat) : (s.modRange r f).sluice k = s.sluice k := rfl

end modRange

section modDrive
variable (s : State) (d : Nat) (f : Drive → Drive)

@[simp] theorem modDrive_held : (s.modDrive d f).held = s.held := rfl
@[simp] theorem modDrive_tx : (s.modDrive d f).tx = s.tx := rfl
@[simp] theorem modDrive_free : (s.modDrive d f).free = s.free := rfl
@[simp] theorem modDrive_time : (s.modDrive d f).time = s.time := rfl
@[simp] theorem modDrive_flt : (s.modDrive d f).flt = s.flt := rfl
@[simp] theorem modDrive_host : (s.modDrive d f).host = s.host := rfl
@[simp] theorem modDrive_crity : (s.modDrive d f).crity = s.crity := rfl
@[simp] theorem modDrive_power : (s.modDrive d f).power = s.power := rfl
@[simp] theorem modDrive_slots : (s.modDrive d f).slots = s.slots := rfl
@[simp] theorem modDrive_lm : (s.modDrive d f).lm = s.lm := rfl
@[simp] theorem modDrive_boot : (s.modDrive d f).boot = s.boot := rfl
@[simp] theorem modDrive_dur : (s.modDrive d f).dur = s.dur := rfl
@[simp] theorem modDrive_keys : (s.modDrive d f).keys = s.keys := rfl
@[simp] theorem modDrive_req : (s.modDrive d f).req = s.req := rfl
@[simp] theorem modDrive_map : (s.modDrive d f).map = s.map := rfl
@[simp] theorem modDrive_codec : (s.modDrive d f).codec = s.codec := rfl
@[simp] theorem modDrive_dir : (s.modDrive d f).dir = s.dir := rfl
@[simp] theorem modDrive_slu : (s.modDrive d f).slu = s.slu := rfl
@[simp] theorem modDrive_ddr : (s.modDrive d f).ddr = s.ddr := rfl
@[simp] theorem modDrive_skl : (s.modDrive d f).skl = s.skl := rfl
@[simp] theorem modDrive_chain : (s.modDrive d f).chain = s.chain := rfl
@[simp] theorem modDrive_pmc : (s.modDrive d f).pmc = s.pmc := rfl
@[simp] theorem dom_modDrive (k : Nat) : (s.modDrive d f).dom k = s.dom k := rfl
@[simp] theorem slot_modDrive (k : Nat) : (s.modDrive d f).slot k = s.slot k := rfl
@[simp] theorem head_modDrive (k : Nat) : (s.modDrive d f).head k = s.head k := rfl
@[simp] theorem mon_modDrive (k : Nat) : (s.modDrive d f).mon k = s.mon k := rfl
@[simp] theorem unit_modDrive (k : Nat) : (s.modDrive d f).unit k = s.unit k := rfl
@[simp] theorem range_modDrive (k : Nat) : (s.modDrive d f).range k = s.range k := rfl
@[simp] theorem chan_modDrive (k : Nat) : (s.modDrive d f).chan k = s.chan k := rfl
@[simp] theorem port_modDrive (k : Nat) : (s.modDrive d f).port k = s.port k := rfl
@[simp] theorem engine_modDrive (k : Nat) : (s.modDrive d f).engine k = s.engine k := rfl
@[simp] theorem sluice_modDrive (k : Nat) : (s.modDrive d f).sluice k = s.sluice k := rfl

end modDrive

section modChan
variable (s : State) (c : Nat) (f : Chan → Chan)

@[simp] theorem modChan_held : (s.modChan c f).held = s.held := rfl
@[simp] theorem modChan_tx : (s.modChan c f).tx = s.tx := rfl
@[simp] theorem modChan_free : (s.modChan c f).free = s.free := rfl
@[simp] theorem modChan_time : (s.modChan c f).time = s.time := rfl
@[simp] theorem modChan_flt : (s.modChan c f).flt = s.flt := rfl
@[simp] theorem modChan_host : (s.modChan c f).host = s.host := rfl
@[simp] theorem modChan_crity : (s.modChan c f).crity = s.crity := rfl
@[simp] theorem modChan_power : (s.modChan c f).power = s.power := rfl
@[simp] theorem modChan_slots : (s.modChan c f).slots = s.slots := rfl
@[simp] theorem modChan_lm : (s.modChan c f).lm = s.lm := rfl
@[simp] theorem modChan_boot : (s.modChan c f).boot = s.boot := rfl
@[simp] theorem modChan_dur : (s.modChan c f).dur = s.dur := rfl
@[simp] theorem modChan_keys : (s.modChan c f).keys = s.keys := rfl
@[simp] theorem modChan_req : (s.modChan c f).req = s.req := rfl
@[simp] theorem modChan_map : (s.modChan c f).map = s.map := rfl
@[simp] theorem modChan_codec : (s.modChan c f).codec = s.codec := rfl
@[simp] theorem modChan_dir : (s.modChan c f).dir = s.dir := rfl
@[simp] theorem modChan_slu : (s.modChan c f).slu = s.slu := rfl
@[simp] theorem modChan_drives : (s.modChan c f).drives = s.drives := rfl
@[simp] theorem modChan_skl : (s.modChan c f).skl = s.skl := rfl
@[simp] theorem modChan_chain : (s.modChan c f).chain = s.chain := rfl
@[simp] theorem modChan_pmc : (s.modChan c f).pmc = s.pmc := rfl
@[simp] theorem dom_modChan (k : Nat) : (s.modChan c f).dom k = s.dom k := rfl
@[simp] theorem slot_modChan (k : Nat) : (s.modChan c f).slot k = s.slot k := rfl
@[simp] theorem head_modChan (k : Nat) : (s.modChan c f).head k = s.head k := rfl
@[simp] theorem mon_modChan (k : Nat) : (s.modChan c f).mon k = s.mon k := rfl
@[simp] theorem unit_modChan (k : Nat) : (s.modChan c f).unit k = s.unit k := rfl
@[simp] theorem range_modChan (k : Nat) : (s.modChan c f).range k = s.range k := rfl
@[simp] theorem drive_modChan (k : Nat) : (s.modChan c f).drive k = s.drive k := rfl
@[simp] theorem port_modChan (k : Nat) : (s.modChan c f).port k = s.port k := rfl
@[simp] theorem engine_modChan (k : Nat) : (s.modChan c f).engine k = s.engine k := rfl
@[simp] theorem sluice_modChan (k : Nat) : (s.modChan c f).sluice k = s.sluice k := rfl

end modChan

section modPort
variable (s : State) (p : Nat) (f : Port → Port)

@[simp] theorem modPort_held : (s.modPort p f).held = s.held := rfl
@[simp] theorem modPort_tx : (s.modPort p f).tx = s.tx := rfl
@[simp] theorem modPort_free : (s.modPort p f).free = s.free := rfl
@[simp] theorem modPort_time : (s.modPort p f).time = s.time := rfl
@[simp] theorem modPort_flt : (s.modPort p f).flt = s.flt := rfl
@[simp] theorem modPort_host : (s.modPort p f).host = s.host := rfl
@[simp] theorem modPort_crity : (s.modPort p f).crity = s.crity := rfl
@[simp] theorem modPort_power : (s.modPort p f).power = s.power := rfl
@[simp] theorem modPort_slots : (s.modPort p f).slots = s.slots := rfl
@[simp] theorem modPort_lm : (s.modPort p f).lm = s.lm := rfl
@[simp] theorem modPort_boot : (s.modPort p f).boot = s.boot := rfl
@[simp] theorem modPort_dur : (s.modPort p f).dur = s.dur := rfl
@[simp] theorem modPort_keys : (s.modPort p f).keys = s.keys := rfl
@[simp] theorem modPort_req : (s.modPort p f).req = s.req := rfl
@[simp] theorem modPort_map : (s.modPort p f).map = s.map := rfl
@[simp] theorem modPort_codec : (s.modPort p f).codec = s.codec := rfl
@[simp] theorem modPort_dir : (s.modPort p f).dir = s.dir := rfl
@[simp] theorem modPort_slu : (s.modPort p f).slu = s.slu := rfl
@[simp] theorem modPort_ddr : (s.modPort p f).ddr = s.ddr := rfl
@[simp] theorem modPort_drives : (s.modPort p f).drives = s.drives := rfl
@[simp] theorem modPort_chain : (s.modPort p f).chain = s.chain := rfl
@[simp] theorem modPort_pmc : (s.modPort p f).pmc = s.pmc := rfl
@[simp] theorem dom_modPort (k : Nat) : (s.modPort p f).dom k = s.dom k := rfl
@[simp] theorem slot_modPort (k : Nat) : (s.modPort p f).slot k = s.slot k := rfl
@[simp] theorem head_modPort (k : Nat) : (s.modPort p f).head k = s.head k := rfl
@[simp] theorem mon_modPort (k : Nat) : (s.modPort p f).mon k = s.mon k := rfl
@[simp] theorem unit_modPort (k : Nat) : (s.modPort p f).unit k = s.unit k := rfl
@[simp] theorem range_modPort (k : Nat) : (s.modPort p f).range k = s.range k := rfl
@[simp] theorem drive_modPort (k : Nat) : (s.modPort p f).drive k = s.drive k := rfl
@[simp] theorem chan_modPort (k : Nat) : (s.modPort p f).chan k = s.chan k := rfl
@[simp] theorem engine_modPort (k : Nat) : (s.modPort p f).engine k = s.engine k := rfl
@[simp] theorem sluice_modPort (k : Nat) : (s.modPort p f).sluice k = s.sluice k := rfl

end modPort

section modChain
variable (s : State) (f : ChainState → ChainState)

@[simp] theorem modChain_held : (s.modChain f).held = s.held := rfl
@[simp] theorem modChain_tx : (s.modChain f).tx = s.tx := rfl
@[simp] theorem modChain_free : (s.modChain f).free = s.free := rfl
@[simp] theorem modChain_time : (s.modChain f).time = s.time := rfl
@[simp] theorem modChain_flt : (s.modChain f).flt = s.flt := rfl
@[simp] theorem modChain_host : (s.modChain f).host = s.host := rfl
@[simp] theorem modChain_crity : (s.modChain f).crity = s.crity := rfl
@[simp] theorem modChain_power : (s.modChain f).power = s.power := rfl
@[simp] theorem modChain_slots : (s.modChain f).slots = s.slots := rfl
@[simp] theorem modChain_lm : (s.modChain f).lm = s.lm := rfl
@[simp] theorem modChain_boot : (s.modChain f).boot = s.boot := rfl
@[simp] theorem modChain_dur : (s.modChain f).dur = s.dur := rfl
@[simp] theorem modChain_keys : (s.modChain f).keys = s.keys := rfl
@[simp] theorem modChain_req : (s.modChain f).req = s.req := rfl
@[simp] theorem modChain_map : (s.modChain f).map = s.map := rfl
@[simp] theorem modChain_codec : (s.modChain f).codec = s.codec := rfl
@[simp] theorem modChain_dir : (s.modChain f).dir = s.dir := rfl
@[simp] theorem modChain_slu : (s.modChain f).slu = s.slu := rfl
@[simp] theorem modChain_ddr : (s.modChain f).ddr = s.ddr := rfl
@[simp] theorem modChain_drives : (s.modChain f).drives = s.drives := rfl
@[simp] theorem modChain_skl : (s.modChain f).skl = s.skl := rfl
@[simp] theorem modChain_pmc : (s.modChain f).pmc = s.pmc := rfl
@[simp] theorem dom_modChain (k : Nat) : (s.modChain f).dom k = s.dom k := rfl
@[simp] theorem slot_modChain (k : Nat) : (s.modChain f).slot k = s.slot k := rfl
@[simp] theorem head_modChain (k : Nat) : (s.modChain f).head k = s.head k := rfl
@[simp] theorem mon_modChain (k : Nat) : (s.modChain f).mon k = s.mon k := rfl
@[simp] theorem unit_modChain (k : Nat) : (s.modChain f).unit k = s.unit k := rfl
@[simp] theorem range_modChain (k : Nat) : (s.modChain f).range k = s.range k := rfl
@[simp] theorem drive_modChain (k : Nat) : (s.modChain f).drive k = s.drive k := rfl
@[simp] theorem chan_modChain (k : Nat) : (s.modChain f).chan k = s.chan k := rfl
@[simp] theorem port_modChain (k : Nat) : (s.modChain f).port k = s.port k := rfl
@[simp] theorem engine_modChain (k : Nat) : (s.modChain f).engine k = s.engine k := rfl
@[simp] theorem sluice_modChain (k : Nat) : (s.modChain f).sluice k = s.sluice k := rfl

end modChain

section modEngine
variable (s : State) (e : Nat) (f : Engine → Engine)

@[simp] theorem modEngine_held : (s.modEngine e f).held = s.held := rfl
@[simp] theorem modEngine_tx : (s.modEngine e f).tx = s.tx := rfl
@[simp] theorem modEngine_free : (s.modEngine e f).free = s.free := rfl
@[simp] theorem modEngine_time : (s.modEngine e f).time = s.time := rfl
@[simp] theorem modEngine_flt : (s.modEngine e f).flt = s.flt := rfl
@[simp] theorem modEngine_host : (s.modEngine e f).host = s.host := rfl
@[simp] theorem modEngine_crity : (s.modEngine e f).crity = s.crity := rfl
@[simp] theorem modEngine_power : (s.modEngine e f).power = s.power := rfl
@[simp] theorem modEngine_slots : (s.modEngine e f).slots = s.slots := rfl
@[simp] theorem modEngine_lm : (s.modEngine e f).lm = s.lm := rfl
@[simp] theorem modEngine_boot : (s.modEngine e f).boot = s.boot := rfl
@[simp] theorem modEngine_dur : (s.modEngine e f).dur = s.dur := rfl
@[simp] theorem modEngine_keys : (s.modEngine e f).keys = s.keys := rfl
@[simp] theorem modEngine_req : (s.modEngine e f).req = s.req := rfl
@[simp] theorem modEngine_map : (s.modEngine e f).map = s.map := rfl
@[simp] theorem modEngine_dir : (s.modEngine e f).dir = s.dir := rfl
@[simp] theorem modEngine_slu : (s.modEngine e f).slu = s.slu := rfl
@[simp] theorem modEngine_ddr : (s.modEngine e f).ddr = s.ddr := rfl
@[simp] theorem modEngine_drives : (s.modEngine e f).drives = s.drives := rfl
@[simp] theorem modEngine_skl : (s.modEngine e f).skl = s.skl := rfl
@[simp] theorem modEngine_chain : (s.modEngine e f).chain = s.chain := rfl
@[simp] theorem modEngine_pmc : (s.modEngine e f).pmc = s.pmc := rfl
@[simp] theorem dom_modEngine (k : Nat) : (s.modEngine e f).dom k = s.dom k := rfl
@[simp] theorem slot_modEngine (k : Nat) : (s.modEngine e f).slot k = s.slot k := rfl
@[simp] theorem head_modEngine (k : Nat) : (s.modEngine e f).head k = s.head k := rfl
@[simp] theorem mon_modEngine (k : Nat) : (s.modEngine e f).mon k = s.mon k := rfl
@[simp] theorem unit_modEngine (k : Nat) : (s.modEngine e f).unit k = s.unit k := rfl
@[simp] theorem range_modEngine (k : Nat) : (s.modEngine e f).range k = s.range k := rfl
@[simp] theorem drive_modEngine (k : Nat) : (s.modEngine e f).drive k = s.drive k := rfl
@[simp] theorem chan_modEngine (k : Nat) : (s.modEngine e f).chan k = s.chan k := rfl
@[simp] theorem port_modEngine (k : Nat) : (s.modEngine e f).port k = s.port k := rfl
@[simp] theorem sluice_modEngine (k : Nat) : (s.modEngine e f).sluice k = s.sluice k := rfl

end modEngine

section modSluice
variable (s : State) (i : Nat) (f : Sluice → Sluice)

@[simp] theorem modSluice_held : (s.modSluice i f).held = s.held := rfl
@[simp] theorem modSluice_tx : (s.modSluice i f).tx = s.tx := rfl
@[simp] theorem modSluice_free : (s.modSluice i f).free = s.free := rfl
@[simp] theorem modSluice_time : (s.modSluice i f).time = s.time := rfl
@[simp] theorem modSluice_flt : (s.modSluice i f).flt = s.flt := rfl
@[simp] theorem modSluice_host : (s.modSluice i f).host = s.host := rfl
@[simp] theorem modSluice_crity : (s.modSluice i f).crity = s.crity := rfl
@[simp] theorem modSluice_power : (s.modSluice i f).power = s.power := rfl
@[simp] theorem modSluice_slots : (s.modSluice i f).slots = s.slots := rfl
@[simp] theorem modSluice_lm : (s.modSluice i f).lm = s.lm := rfl
@[simp] theorem modSluice_boot : (s.modSluice i f).boot = s.boot := rfl
@[simp] theorem modSluice_dur : (s.modSluice i f).dur = s.dur := rfl
@[simp] theorem modSluice_keys : (s.modSluice i f).keys = s.keys := rfl
@[simp] theorem modSluice_req : (s.modSluice i f).req = s.req := rfl
@[simp] theorem modSluice_map : (s.modSluice i f).map = s.map := rfl
@[simp] theorem modSluice_codec : (s.modSluice i f).codec = s.codec := rfl
@[simp] theorem modSluice_dir : (s.modSluice i f).dir = s.dir := rfl
@[simp] theorem modSluice_ddr : (s.modSluice i f).ddr = s.ddr := rfl
@[simp] theorem modSluice_drives : (s.modSluice i f).drives = s.drives := rfl
@[simp] theorem modSluice_skl : (s.modSluice i f).skl = s.skl := rfl
@[simp] theorem modSluice_chain : (s.modSluice i f).chain = s.chain := rfl
@[simp] theorem modSluice_pmc : (s.modSluice i f).pmc = s.pmc := rfl
@[simp] theorem dom_modSluice (k : Nat) : (s.modSluice i f).dom k = s.dom k := rfl
@[simp] theorem slot_modSluice (k : Nat) : (s.modSluice i f).slot k = s.slot k := rfl
@[simp] theorem head_modSluice (k : Nat) : (s.modSluice i f).head k = s.head k := rfl
@[simp] theorem mon_modSluice (k : Nat) : (s.modSluice i f).mon k = s.mon k := rfl
@[simp] theorem unit_modSluice (k : Nat) : (s.modSluice i f).unit k = s.unit k := rfl
@[simp] theorem range_modSluice (k : Nat) : (s.modSluice i f).range k = s.range k := rfl
@[simp] theorem drive_modSluice (k : Nat) : (s.modSluice i f).drive k = s.drive k := rfl
@[simp] theorem chan_modSluice (k : Nat) : (s.modSluice i f).chan k = s.chan k := rfl
@[simp] theorem port_modSluice (k : Nat) : (s.modSluice i f).port k = s.port k := rfl
@[simp] theorem engine_modSluice (k : Nat) : (s.modSluice i f).engine k = s.engine k := rfl

end modSluice

section emit
variable (s : State) (t : Tx)

@[simp] theorem emit_held : (s.emit t).held = s.held := rfl
@[simp] theorem emit_free : (s.emit t).free = s.free := rfl
@[simp] theorem emit_time : (s.emit t).time = s.time := rfl
@[simp] theorem emit_flt : (s.emit t).flt = s.flt := rfl
@[simp] theorem emit_host : (s.emit t).host = s.host := rfl
@[simp] theorem emit_crity : (s.emit t).crity = s.crity := rfl
@[simp] theorem emit_power : (s.emit t).power = s.power := rfl
@[simp] theorem emit_slots : (s.emit t).slots = s.slots := rfl
@[simp] theorem emit_lm : (s.emit t).lm = s.lm := rfl
@[simp] theorem emit_boot : (s.emit t).boot = s.boot := rfl
@[simp] theorem emit_dur : (s.emit t).dur = s.dur := rfl
@[simp] theorem emit_keys : (s.emit t).keys = s.keys := rfl
@[simp] theorem emit_req : (s.emit t).req = s.req := rfl
@[simp] theorem emit_map : (s.emit t).map = s.map := rfl
@[simp] theorem emit_codec : (s.emit t).codec = s.codec := rfl
@[simp] theorem emit_dir : (s.emit t).dir = s.dir := rfl
@[simp] theorem emit_slu : (s.emit t).slu = s.slu := rfl
@[simp] theorem emit_ddr : (s.emit t).ddr = s.ddr := rfl
@[simp] theorem emit_drives : (s.emit t).drives = s.drives := rfl
@[simp] theorem emit_skl : (s.emit t).skl = s.skl := rfl
@[simp] theorem emit_chain : (s.emit t).chain = s.chain := rfl
@[simp] theorem emit_pmc : (s.emit t).pmc = s.pmc := rfl
@[simp] theorem dom_emit (k : Nat) : (s.emit t).dom k = s.dom k := rfl
@[simp] theorem slot_emit (k : Nat) : (s.emit t).slot k = s.slot k := rfl
@[simp] theorem head_emit (k : Nat) : (s.emit t).head k = s.head k := rfl
@[simp] theorem mon_emit (k : Nat) : (s.emit t).mon k = s.mon k := rfl
@[simp] theorem unit_emit (k : Nat) : (s.emit t).unit k = s.unit k := rfl
@[simp] theorem range_emit (k : Nat) : (s.emit t).range k = s.range k := rfl
@[simp] theorem drive_emit (k : Nat) : (s.emit t).drive k = s.drive k := rfl
@[simp] theorem chan_emit (k : Nat) : (s.emit t).chan k = s.chan k := rfl
@[simp] theorem port_emit (k : Nat) : (s.emit t).port k = s.port k := rfl
@[simp] theorem engine_emit (k : Nat) : (s.emit t).engine k = s.engine k := rfl
@[simp] theorem sluice_emit (k : Nat) : (s.emit t).sluice k = s.sluice k := rfl

end emit

section modPage
variable (s : State) (p : Nat) (f : PageEnt → PageEnt)

@[simp] theorem modPage_held : (s.modPage p f).held = s.held := rfl
@[simp] theorem modPage_tx : (s.modPage p f).tx = s.tx := rfl
@[simp] theorem modPage_free : (s.modPage p f).free = s.free := rfl
@[simp] theorem modPage_time : (s.modPage p f).time = s.time := rfl
@[simp] theorem modPage_flt : (s.modPage p f).flt = s.flt := rfl
@[simp] theorem modPage_host : (s.modPage p f).host = s.host := rfl
@[simp] theorem modPage_crity : (s.modPage p f).crity = s.crity := rfl
@[simp] theorem modPage_power : (s.modPage p f).power = s.power := rfl
@[simp] theorem modPage_slots : (s.modPage p f).slots = s.slots := rfl
@[simp] theorem modPage_lm : (s.modPage p f).lm = s.lm := rfl
@[simp] theorem modPage_boot : (s.modPage p f).boot = s.boot := rfl
@[simp] theorem modPage_dur : (s.modPage p f).dur = s.dur := rfl
@[simp] theorem modPage_keys : (s.modPage p f).keys = s.keys := rfl
@[simp] theorem modPage_req : (s.modPage p f).req = s.req := rfl
@[simp] theorem modPage_codec : (s.modPage p f).codec = s.codec := rfl
@[simp] theorem modPage_dir : (s.modPage p f).dir = s.dir := rfl
@[simp] theorem modPage_slu : (s.modPage p f).slu = s.slu := rfl
@[simp] theorem modPage_ddr : (s.modPage p f).ddr = s.ddr := rfl
@[simp] theorem modPage_drives : (s.modPage p f).drives = s.drives := rfl
@[simp] theorem modPage_skl : (s.modPage p f).skl = s.skl := rfl
@[simp] theorem modPage_chain : (s.modPage p f).chain = s.chain := rfl
@[simp] theorem modPage_pmc : (s.modPage p f).pmc = s.pmc := rfl
@[simp] theorem dom_modPage (k : Nat) : (s.modPage p f).dom k = s.dom k := rfl
@[simp] theorem slot_modPage (k : Nat) : (s.modPage p f).slot k = s.slot k := rfl
@[simp] theorem head_modPage (k : Nat) : (s.modPage p f).head k = s.head k := rfl
@[simp] theorem mon_modPage (k : Nat) : (s.modPage p f).mon k = s.mon k := rfl
@[simp] theorem unit_modPage (k : Nat) : (s.modPage p f).unit k = s.unit k := rfl
@[simp] theorem range_modPage (k : Nat) : (s.modPage p f).range k = s.range k := rfl
@[simp] theorem drive_modPage (k : Nat) : (s.modPage p f).drive k = s.drive k := rfl
@[simp] theorem chan_modPage (k : Nat) : (s.modPage p f).chan k = s.chan k := rfl
@[simp] theorem port_modPage (k : Nat) : (s.modPage p f).port k = s.port k := rfl
@[simp] theorem engine_modPage (k : Nat) : (s.modPage p f).engine k = s.engine k := rfl
@[simp] theorem sluice_modPage (k : Nat) : (s.modPage p f).sluice k = s.sluice k := rfl

end modPage

section modGeo
variable (s : State) (f : Geometry → Geometry)

@[simp] theorem modGeo_held : (s.modGeo f).held = s.held := rfl
@[simp] theorem modGeo_tx : (s.modGeo f).tx = s.tx := rfl
@[simp] theorem modGeo_free : (s.modGeo f).free = s.free := rfl
@[simp] theorem modGeo_time : (s.modGeo f).time = s.time := rfl
@[simp] theorem modGeo_flt : (s.modGeo f).flt = s.flt := rfl
@[simp] theorem modGeo_host : (s.modGeo f).host = s.host := rfl
@[simp] theorem modGeo_crity : (s.modGeo f).crity = s.crity := rfl
@[simp] theorem modGeo_power : (s.modGeo f).power = s.power := rfl
@[simp] theorem modGeo_slots : (s.modGeo f).slots = s.slots := rfl
@[simp] theorem modGeo_lm : (s.modGeo f).lm = s.lm := rfl
@[simp] theorem modGeo_boot : (s.modGeo f).boot = s.boot := rfl
@[simp] theorem modGeo_dur : (s.modGeo f).dur = s.dur := rfl
@[simp] theorem modGeo_keys : (s.modGeo f).keys = s.keys := rfl
@[simp] theorem modGeo_req : (s.modGeo f).req = s.req := rfl
@[simp] theorem modGeo_codec : (s.modGeo f).codec = s.codec := rfl
@[simp] theorem modGeo_dir : (s.modGeo f).dir = s.dir := rfl
@[simp] theorem modGeo_slu : (s.modGeo f).slu = s.slu := rfl
@[simp] theorem modGeo_ddr : (s.modGeo f).ddr = s.ddr := rfl
@[simp] theorem modGeo_drives : (s.modGeo f).drives = s.drives := rfl
@[simp] theorem modGeo_skl : (s.modGeo f).skl = s.skl := rfl
@[simp] theorem modGeo_chain : (s.modGeo f).chain = s.chain := rfl
@[simp] theorem modGeo_pmc : (s.modGeo f).pmc = s.pmc := rfl
@[simp] theorem dom_modGeo (k : Nat) : (s.modGeo f).dom k = s.dom k := rfl
@[simp] theorem slot_modGeo (k : Nat) : (s.modGeo f).slot k = s.slot k := rfl
@[simp] theorem head_modGeo (k : Nat) : (s.modGeo f).head k = s.head k := rfl
@[simp] theorem mon_modGeo (k : Nat) : (s.modGeo f).mon k = s.mon k := rfl
@[simp] theorem unit_modGeo (k : Nat) : (s.modGeo f).unit k = s.unit k := rfl
@[simp] theorem range_modGeo (k : Nat) : (s.modGeo f).range k = s.range k := rfl
@[simp] theorem drive_modGeo (k : Nat) : (s.modGeo f).drive k = s.drive k := rfl
@[simp] theorem chan_modGeo (k : Nat) : (s.modGeo f).chan k = s.chan k := rfl
@[simp] theorem port_modGeo (k : Nat) : (s.modGeo f).port k = s.port k := rfl
@[simp] theorem engine_modGeo (k : Nat) : (s.modGeo f).engine k = s.engine k := rfl
@[simp] theorem sluice_modGeo (k : Nat) : (s.modGeo f).sluice k = s.sluice k := rfl

end modGeo

section modReq
variable (s : State) (i : Nat) (f : Req → Req)

@[simp] theorem modReq_held : (s.modReq i f).held = s.held := rfl
@[simp] theorem modReq_tx : (s.modReq i f).tx = s.tx := rfl
@[simp] theorem modReq_free : (s.modReq i f).free = s.free := rfl
@[simp] theorem modReq_time : (s.modReq i f).time = s.time := rfl
@[simp] theorem modReq_flt : (s.modReq i f).flt = s.flt := rfl
@[simp] theorem modReq_host : (s.modReq i f).host = s.host := rfl
@[simp] theorem modReq_crity : (s.modReq i f).crity = s.crity := rfl
@[simp] theorem modReq_power : (s.modReq i f).power = s.power := rfl
@[simp] theorem modReq_slots : (s.modReq i f).slots = s.slots := rfl
@[simp] theorem modReq_lm : (s.modReq i f).lm = s.lm := rfl
@[simp] theorem modReq_boot : (s.modReq i f).boot = s.boot := rfl
@[simp] theorem modReq_dur : (s.modReq i f).dur = s.dur := rfl
@[simp] theorem modReq_keys : (s.modReq i f).keys = s.keys := rfl
@[simp] theorem modReq_map : (s.modReq i f).map = s.map := rfl
@[simp] theorem modReq_codec : (s.modReq i f).codec = s.codec := rfl
@[simp] theorem modReq_dir : (s.modReq i f).dir = s.dir := rfl
@[simp] theorem modReq_slu : (s.modReq i f).slu = s.slu := rfl
@[simp] theorem modReq_ddr : (s.modReq i f).ddr = s.ddr := rfl
@[simp] theorem modReq_drives : (s.modReq i f).drives = s.drives := rfl
@[simp] theorem modReq_skl : (s.modReq i f).skl = s.skl := rfl
@[simp] theorem modReq_chain : (s.modReq i f).chain = s.chain := rfl
@[simp] theorem modReq_pmc : (s.modReq i f).pmc = s.pmc := rfl
@[simp] theorem dom_modReq (k : Nat) : (s.modReq i f).dom k = s.dom k := rfl
@[simp] theorem slot_modReq (k : Nat) : (s.modReq i f).slot k = s.slot k := rfl
@[simp] theorem head_modReq (k : Nat) : (s.modReq i f).head k = s.head k := rfl
@[simp] theorem mon_modReq (k : Nat) : (s.modReq i f).mon k = s.mon k := rfl
@[simp] theorem unit_modReq (k : Nat) : (s.modReq i f).unit k = s.unit k := rfl
@[simp] theorem range_modReq (k : Nat) : (s.modReq i f).range k = s.range k := rfl
@[simp] theorem drive_modReq (k : Nat) : (s.modReq i f).drive k = s.drive k := rfl
@[simp] theorem chan_modReq (k : Nat) : (s.modReq i f).chan k = s.chan k := rfl
@[simp] theorem port_modReq (k : Nat) : (s.modReq i f).port k = s.port k := rfl
@[simp] theorem engine_modReq (k : Nat) : (s.modReq i f).engine k = s.engine k := rfl
@[simp] theorem sluice_modReq (k : Nat) : (s.modReq i f).sluice k = s.sluice k := rfl

end modReq

section modTxn
variable (s : State) (r : Nat) (f : Txn → Txn)

@[simp] theorem modTxn_held : (s.modTxn r f).held = s.held := rfl
@[simp] theorem modTxn_tx : (s.modTxn r f).tx = s.tx := rfl
@[simp] theorem modTxn_free : (s.modTxn r f).free = s.free := rfl
@[simp] theorem modTxn_time : (s.modTxn r f).time = s.time := rfl
@[simp] theorem modTxn_flt : (s.modTxn r f).flt = s.flt := rfl
@[simp] theorem modTxn_host : (s.modTxn r f).host = s.host := rfl
@[simp] theorem modTxn_crity : (s.modTxn r f).crity = s.crity := rfl
@[simp] theorem modTxn_power : (s.modTxn r f).power = s.power := rfl
@[simp] theorem modTxn_slots : (s.modTxn r f).slots = s.slots := rfl
@[simp] theorem modTxn_lm : (s.modTxn r f).lm = s.lm := rfl
@[simp] theorem modTxn_boot : (s.modTxn r f).boot = s.boot := rfl
@[simp] theorem modTxn_dur : (s.modTxn r f).dur = s.dur := rfl
@[simp] theorem modTxn_keys : (s.modTxn r f).keys = s.keys := rfl
@[simp] theorem modTxn_req : (s.modTxn r f).req = s.req := rfl
@[simp] theorem modTxn_map : (s.modTxn r f).map = s.map := rfl
@[simp] theorem modTxn_codec : (s.modTxn r f).codec = s.codec := rfl
@[simp] theorem modTxn_slu : (s.modTxn r f).slu = s.slu := rfl
@[simp] theorem modTxn_ddr : (s.modTxn r f).ddr = s.ddr := rfl
@[simp] theorem modTxn_drives : (s.modTxn r f).drives = s.drives := rfl
@[simp] theorem modTxn_skl : (s.modTxn r f).skl = s.skl := rfl
@[simp] theorem modTxn_chain : (s.modTxn r f).chain = s.chain := rfl
@[simp] theorem modTxn_pmc : (s.modTxn r f).pmc = s.pmc := rfl
@[simp] theorem dom_modTxn (k : Nat) : (s.modTxn r f).dom k = s.dom k := rfl
@[simp] theorem slot_modTxn (k : Nat) : (s.modTxn r f).slot k = s.slot k := rfl
@[simp] theorem head_modTxn (k : Nat) : (s.modTxn r f).head k = s.head k := rfl
@[simp] theorem mon_modTxn (k : Nat) : (s.modTxn r f).mon k = s.mon k := rfl
@[simp] theorem unit_modTxn (k : Nat) : (s.modTxn r f).unit k = s.unit k := rfl
@[simp] theorem range_modTxn (k : Nat) : (s.modTxn r f).range k = s.range k := rfl
@[simp] theorem drive_modTxn (k : Nat) : (s.modTxn r f).drive k = s.drive k := rfl
@[simp] theorem chan_modTxn (k : Nat) : (s.modTxn r f).chan k = s.chan k := rfl
@[simp] theorem port_modTxn (k : Nat) : (s.modTxn r f).port k = s.port k := rfl
@[simp] theorem engine_modTxn (k : Nat) : (s.modTxn r f).engine k = s.engine k := rfl
@[simp] theorem sluice_modTxn (k : Nat) : (s.modTxn r f).sluice k = s.sluice k := rfl

end modTxn

section modJob
variable (s : State) (i : Nat) (f : Job → Job)

@[simp] theorem modJob_held : (s.modJob i f).held = s.held := rfl
@[simp] theorem modJob_tx : (s.modJob i f).tx = s.tx := rfl
@[simp] theorem modJob_free : (s.modJob i f).free = s.free := rfl
@[simp] theorem modJob_time : (s.modJob i f).time = s.time := rfl
@[simp] theorem modJob_flt : (s.modJob i f).flt = s.flt := rfl
@[simp] theorem modJob_host : (s.modJob i f).host = s.host := rfl
@[simp] theorem modJob_crity : (s.modJob i f).crity = s.crity := rfl
@[simp] theorem modJob_power : (s.modJob i f).power = s.power := rfl
@[simp] theorem modJob_slots : (s.modJob i f).slots = s.slots := rfl
@[simp] theorem modJob_lm : (s.modJob i f).lm = s.lm := rfl
@[simp] theorem modJob_boot : (s.modJob i f).boot = s.boot := rfl
@[simp] theorem modJob_dur : (s.modJob i f).dur = s.dur := rfl
@[simp] theorem modJob_keys : (s.modJob i f).keys = s.keys := rfl
@[simp] theorem modJob_req : (s.modJob i f).req = s.req := rfl
@[simp] theorem modJob_map : (s.modJob i f).map = s.map := rfl
@[simp] theorem modJob_dir : (s.modJob i f).dir = s.dir := rfl
@[simp] theorem modJob_slu : (s.modJob i f).slu = s.slu := rfl
@[simp] theorem modJob_ddr : (s.modJob i f).ddr = s.ddr := rfl
@[simp] theorem modJob_drives : (s.modJob i f).drives = s.drives := rfl
@[simp] theorem modJob_skl : (s.modJob i f).skl = s.skl := rfl
@[simp] theorem modJob_chain : (s.modJob i f).chain = s.chain := rfl
@[simp] theorem modJob_pmc : (s.modJob i f).pmc = s.pmc := rfl
@[simp] theorem dom_modJob (k : Nat) : (s.modJob i f).dom k = s.dom k := rfl
@[simp] theorem slot_modJob (k : Nat) : (s.modJob i f).slot k = s.slot k := rfl
@[simp] theorem head_modJob (k : Nat) : (s.modJob i f).head k = s.head k := rfl
@[simp] theorem mon_modJob (k : Nat) : (s.modJob i f).mon k = s.mon k := rfl
@[simp] theorem unit_modJob (k : Nat) : (s.modJob i f).unit k = s.unit k := rfl
@[simp] theorem range_modJob (k : Nat) : (s.modJob i f).range k = s.range k := rfl
@[simp] theorem drive_modJob (k : Nat) : (s.modJob i f).drive k = s.drive k := rfl
@[simp] theorem chan_modJob (k : Nat) : (s.modJob i f).chan k = s.chan k := rfl
@[simp] theorem port_modJob (k : Nat) : (s.modJob i f).port k = s.port k := rfl
@[simp] theorem sluice_modJob (k : Nat) : (s.modJob i f).sluice k = s.sluice k := rfl

end modJob

section modOuting
variable (s : State) (i : Nat) (f : Outing → Outing)

@[simp] theorem modOuting_held : (s.modOuting i f).held = s.held := rfl
@[simp] theorem modOuting_tx : (s.modOuting i f).tx = s.tx := rfl
@[simp] theorem modOuting_free : (s.modOuting i f).free = s.free := rfl
@[simp] theorem modOuting_time : (s.modOuting i f).time = s.time := rfl
@[simp] theorem modOuting_flt : (s.modOuting i f).flt = s.flt := rfl
@[simp] theorem modOuting_host : (s.modOuting i f).host = s.host := rfl
@[simp] theorem modOuting_power : (s.modOuting i f).power = s.power := rfl
@[simp] theorem modOuting_slots : (s.modOuting i f).slots = s.slots := rfl
@[simp] theorem modOuting_lm : (s.modOuting i f).lm = s.lm := rfl
@[simp] theorem modOuting_boot : (s.modOuting i f).boot = s.boot := rfl
@[simp] theorem modOuting_dur : (s.modOuting i f).dur = s.dur := rfl
@[simp] theorem modOuting_keys : (s.modOuting i f).keys = s.keys := rfl
@[simp] theorem modOuting_req : (s.modOuting i f).req = s.req := rfl
@[simp] theorem modOuting_map : (s.modOuting i f).map = s.map := rfl
@[simp] theorem modOuting_codec : (s.modOuting i f).codec = s.codec := rfl
@[simp] theorem modOuting_dir : (s.modOuting i f).dir = s.dir := rfl
@[simp] theorem modOuting_slu : (s.modOuting i f).slu = s.slu := rfl
@[simp] theorem modOuting_ddr : (s.modOuting i f).ddr = s.ddr := rfl
@[simp] theorem modOuting_drives : (s.modOuting i f).drives = s.drives := rfl
@[simp] theorem modOuting_skl : (s.modOuting i f).skl = s.skl := rfl
@[simp] theorem modOuting_chain : (s.modOuting i f).chain = s.chain := rfl
@[simp] theorem modOuting_pmc : (s.modOuting i f).pmc = s.pmc := rfl
@[simp] theorem dom_modOuting (k : Nat) : (s.modOuting i f).dom k = s.dom k := rfl
@[simp] theorem slot_modOuting (k : Nat) : (s.modOuting i f).slot k = s.slot k := rfl
@[simp] theorem head_modOuting (k : Nat) : (s.modOuting i f).head k = s.head k := rfl
@[simp] theorem mon_modOuting (k : Nat) : (s.modOuting i f).mon k = s.mon k := rfl
@[simp] theorem unit_modOuting (k : Nat) : (s.modOuting i f).unit k = s.unit k := rfl
@[simp] theorem range_modOuting (k : Nat) : (s.modOuting i f).range k = s.range k := rfl
@[simp] theorem drive_modOuting (k : Nat) : (s.modOuting i f).drive k = s.drive k := rfl
@[simp] theorem chan_modOuting (k : Nat) : (s.modOuting i f).chan k = s.chan k := rfl
@[simp] theorem port_modOuting (k : Nat) : (s.modOuting i f).port k = s.port k := rfl
@[simp] theorem engine_modOuting (k : Nat) : (s.modOuting i f).engine k = s.engine k := rfl
@[simp] theorem sluice_modOuting (k : Nat) : (s.modOuting i f).sluice k = s.sluice k := rfl

end modOuting

section modRemote
variable (s : State) (t : Nat) (f : Remote → Remote)

@[simp] theorem modRemote_held : (s.modRemote t f).held = s.held := rfl
@[simp] theorem modRemote_tx : (s.modRemote t f).tx = s.tx := rfl
@[simp] theorem modRemote_free : (s.modRemote t f).free = s.free := rfl
@[simp] theorem modRemote_time : (s.modRemote t f).time = s.time := rfl
@[simp] theorem modRemote_flt : (s.modRemote t f).flt = s.flt := rfl
@[simp] theorem modRemote_host : (s.modRemote t f).host = s.host := rfl
@[simp] theorem modRemote_crity : (s.modRemote t f).crity = s.crity := rfl
@[simp] theorem modRemote_power : (s.modRemote t f).power = s.power := rfl
@[simp] theorem modRemote_slots : (s.modRemote t f).slots = s.slots := rfl
@[simp] theorem modRemote_lm : (s.modRemote t f).lm = s.lm := rfl
@[simp] theorem modRemote_boot : (s.modRemote t f).boot = s.boot := rfl
@[simp] theorem modRemote_dur : (s.modRemote t f).dur = s.dur := rfl
@[simp] theorem modRemote_keys : (s.modRemote t f).keys = s.keys := rfl
@[simp] theorem modRemote_req : (s.modRemote t f).req = s.req := rfl
@[simp] theorem modRemote_map : (s.modRemote t f).map = s.map := rfl
@[simp] theorem modRemote_codec : (s.modRemote t f).codec = s.codec := rfl
@[simp] theorem modRemote_dir : (s.modRemote t f).dir = s.dir := rfl
@[simp] theorem modRemote_slu : (s.modRemote t f).slu = s.slu := rfl
@[simp] theorem modRemote_ddr : (s.modRemote t f).ddr = s.ddr := rfl
@[simp] theorem modRemote_drives : (s.modRemote t f).drives = s.drives := rfl
@[simp] theorem modRemote_skl : (s.modRemote t f).skl = s.skl := rfl
@[simp] theorem modRemote_pmc : (s.modRemote t f).pmc = s.pmc := rfl
@[simp] theorem dom_modRemote (k : Nat) : (s.modRemote t f).dom k = s.dom k := rfl
@[simp] theorem slot_modRemote (k : Nat) : (s.modRemote t f).slot k = s.slot k := rfl
@[simp] theorem head_modRemote (k : Nat) : (s.modRemote t f).head k = s.head k := rfl
@[simp] theorem mon_modRemote (k : Nat) : (s.modRemote t f).mon k = s.mon k := rfl
@[simp] theorem unit_modRemote (k : Nat) : (s.modRemote t f).unit k = s.unit k := rfl
@[simp] theorem range_modRemote (k : Nat) : (s.modRemote t f).range k = s.range k := rfl
@[simp] theorem drive_modRemote (k : Nat) : (s.modRemote t f).drive k = s.drive k := rfl
@[simp] theorem chan_modRemote (k : Nat) : (s.modRemote t f).chan k = s.chan k := rfl
@[simp] theorem port_modRemote (k : Nat) : (s.modRemote t f).port k = s.port k := rfl
@[simp] theorem engine_modRemote (k : Nat) : (s.modRemote t f).engine k = s.engine k := rfl
@[simp] theorem sluice_modRemote (k : Nat) : (s.modRemote t f).sluice k = s.sluice k := rfl

end modRemote

section modV
variable (s : State) (o : Nat) (f : VLine → VLine)

@[simp] theorem modV_held : (s.modV o f).held = s.held := rfl
@[simp] theorem modV_tx : (s.modV o f).tx = s.tx := rfl
@[simp] theorem modV_free : (s.modV o f).free = s.free := rfl
@[simp] theorem modV_time : (s.modV o f).time = s.time := rfl
@[simp] theorem modV_flt : (s.modV o f).flt = s.flt := rfl
@[simp] theorem modV_host : (s.modV o f).host = s.host := rfl
@[simp] theorem modV_crity : (s.modV o f).crity = s.crity := rfl
@[simp] theorem modV_power : (s.modV o f).power = s.power := rfl
@[simp] theorem modV_slots : (s.modV o f).slots = s.slots := rfl
@[simp] theorem modV_lm : (s.modV o f).lm = s.lm := rfl
@[simp] theorem modV_boot : (s.modV o f).boot = s.boot := rfl
@[simp] theorem modV_dur : (s.modV o f).dur = s.dur := rfl
@[simp] theorem modV_keys : (s.modV o f).keys = s.keys := rfl
@[simp] theorem modV_req : (s.modV o f).req = s.req := rfl
@[simp] theorem modV_map : (s.modV o f).map = s.map := rfl
@[simp] theorem modV_codec : (s.modV o f).codec = s.codec := rfl
@[simp] theorem modV_dir : (s.modV o f).dir = s.dir := rfl
@[simp] theorem modV_slu : (s.modV o f).slu = s.slu := rfl
@[simp] theorem modV_ddr : (s.modV o f).ddr = s.ddr := rfl
@[simp] theorem modV_drives : (s.modV o f).drives = s.drives := rfl
@[simp] theorem modV_skl : (s.modV o f).skl = s.skl := rfl
@[simp] theorem modV_pmc : (s.modV o f).pmc = s.pmc := rfl
@[simp] theorem dom_modV (k : Nat) : (s.modV o f).dom k = s.dom k := rfl
@[simp] theorem slot_modV (k : Nat) : (s.modV o f).slot k = s.slot k := rfl
@[simp] theorem head_modV (k : Nat) : (s.modV o f).head k = s.head k := rfl
@[simp] theorem mon_modV (k : Nat) : (s.modV o f).mon k = s.mon k := rfl
@[simp] theorem unit_modV (k : Nat) : (s.modV o f).unit k = s.unit k := rfl
@[simp] theorem range_modV (k : Nat) : (s.modV o f).range k = s.range k := rfl
@[simp] theorem drive_modV (k : Nat) : (s.modV o f).drive k = s.drive k := rfl
@[simp] theorem chan_modV (k : Nat) : (s.modV o f).chan k = s.chan k := rfl
@[simp] theorem port_modV (k : Nat) : (s.modV o f).port k = s.port k := rfl
@[simp] theorem engine_modV (k : Nat) : (s.modV o f).engine k = s.engine k := rfl
@[simp] theorem sluice_modV (k : Nat) : (s.modV o f).sluice k = s.sluice k := rfl

end modV

end Sys2Proof.Machine
end

