-- ==== Sys2Proof/Machine/Registers.lean ====
section
/-! DEFINITION. What a host reads: the Walben window of BAR2, BAR0, and a head's configuration space (00 R3-R5; 02 R58; 08 R243; 09 R247,
R251-R254; the register tables of 10, 12, 15-19). No row of the table reads these registers but for the two that latch; each value is a
function of the state. -/

namespace Sys2Proof.Machine

/-- The bits that a predicate sets, bit `i` for number `i`. -/
def bitsWhere (n : Nat) (f : Nat → Bool) : Nat := ((List.range n).map fun i => b2n (f i) * 2 ^ i).sum

/-- GLB_TEMP_MAX, GLB_THERM and GLB_TEMP(i) (17 R437). -/
def glbReg (s : State) (o : Nat) : Nat :=
  let i := (o - 0x100) / 4
  if o = 0x000 then glbIdent s
  else if o = 0x010 then twos 24 s.lm.tempMax + s.lm.tempPoint * 2 ^ 24
  else if o = 0x014 then s.lm.therm + s.lm.valid * 2 ^ 2
  else if 0x100 ≤ o ∧ i < 64 then twos 24 (s.lm.die.getD i 0) + b2n (s.lm.dieExcluded.getD i false) * 2 ^ 24
  else 0

/-- The CTB_ block; the high words of the two times are the reading head's latches (02 R58). -/
def ctbReg (s : State) (h o : Nat) : Nat :=
  let t := s.time
  let a := (o - 0x40) / 8
  if o = 0x000 then t.chain % 2 ^ 32
  else if o = 0x004 then t.nowHi.getD h 0
  else if o = 0x008 then ctbStatus s
  else if o = 0x00C then twos 24 t.offset
  else if o = 0x010 then twos 24 t.hostOfs
  else if o = 0x014 then t.w + t.wNext * 2 ^ 8
  else if o = 0x018 then t.elapsed % 2 ^ 32
  else if o = 0x01C then t.localHi.getD h 0
  else if o = 0x020 then t.coord.toNat % 2 ^ 32
  else if o = 0x024 then t.coord.toNat / 2 ^ 32
  else if 0x040 ≤ o ∧ a < 7 then
    let m := (t.berth.getD a 0).toNat
    if o % 8 = 0 then m % 2 ^ 32 else m / 2 ^ 32
  else 0

/-- The PWR_ block (15). -/
def pwrReg (s : State) (o : Nat) : Nat :=
  let d := (o - 0x100) / 4
  let r := (o - 0x200) / 8
  if o = 0x000 then b2n s.power.handshake + s.power.srIdle * 2 ^ 8 + s.power.skPower.toNat * 2 ^ 16
  else if o = 0x004 then braceBits s + bitsWhere 11 (fun i => monDipped (s.mon i) s.time.elapsed) * 2 ^ 4
  else if 0x100 ≤ o ∧ d < 44 then
    let x := s.dom d
    x.st.code + b2n x.padsHeld * 2 ^ 3 + b2n x.suspended * 2 ^ 4 + b2n (decide (2 ≤ d) && eligibleDom s d) * 2 ^ 5
      + x.votes.toNat * 2 ^ 8 + x.wakeFlag * 2 ^ 20
  else if 0x200 ≤ o ∧ r < 11 then (if o % 8 = 0 then (s.mon r).now else (s.mon r).min)
  else 0

/-- A slot that SLT_ALERT shows: LATCHED or FET_SHORT. -/
def slotAlert (s : State) (i : Nat) : Bool := (s.slot i).st == .latched || (s.slot i).st == .fetShort

/-- The SLT_ block (16). -/
def sltReg (s : State) (o : Nat) : Nat :=
  let i := (o - 0x100) / 16
  let x := s.slot i
  if o = 0x000 then bitsWhere 32 fun n => (s.slot n).pgood
  else if o = 0x004 then bitsWhere 16 fun n => (s.slot (32 + n)).pgood
  else if o = 0x008 then bitsWhere 32 (slotAlert s)
  else if o = 0x00C then bitsWhere 16 fun n => slotAlert s (32 + n)
  else if o < 0x100 ∨ 48 ≤ i then 0
  else match o % 16 with
    | 0 => x.st.code + b2n x.pgood * 2 ^ 4 + b2n x.limited * 2 ^ 5 + b2n x.timer * 2 ^ 6 + b2n x.warn * 2 ^ 7 + x.attempt * 2 ^ 8
        + x.cause * 2 ^ 12
    | 4 => x.vout
    | 8 => x.sense
    | 12 => min x.trips 0xFFF + min x.warnings 0xFFF * 2 ^ 12
    | _ => 0

/-- The FLT_ block (18). -/
def fltReg (s : State) (o : Nat) : Nat :=
  let f := s.flt
  let n := (o - 0x100) / 16
  let c := f.colls.getD n {}
  let src := (o - 0x1000) / 4
  let fault := bitsWhere 48 fun i => (f.colls.getD i {}).fault
  let ovf := bitsWhere 48 fun i => (f.colls.getD i {}).overflow
  if o = 0x000 then b2n f.halted + faultCount f * 2 ^ 6 + f.haltSource * 2 ^ 12
  else if o = 0x004 then fault % 2 ^ 32
  else if o = 0x008 then fault / 2 ^ 32
  else if o = 0x00C then ovf % 2 ^ 32
  else if o = 0x010 then ovf / 2 ^ 32
  else if o = 0x014 then f.eseq
  else if 0x1000 ≤ o then
    if src < 1536 then
      let d := (defaultClass src).getD 0
      classOf s src + d * 2 ^ 3 + classFloor d * 2 ^ 6 + b2n (defaultClass src).isNone * 2 ^ 9
    else 0
  else if o < 0x100 ∨ 48 ≤ n then 0
  else match o % 16 with
    | 0 => c.first + c.firstClass * 2 ^ 5 + b2n c.fault * 2 ^ 8 + b2n c.overflow * 2 ^ 9 + c.worst * 2 ^ 10 + c.quiet * 2 ^ 13
    | 4 => c.events
    | 8 => c.recoveries
    | 12 => c.pend.toNat
    | _ => 0

/-- The PMC_ block (19). -/
def pmcReg (s : State) (o : Nat) : Nat :=
  let p := s.pmc
  let n := (o - 0x1000) / 16
  let i := (o - 0x4000) / 32
  if o = 0x000 then b2n p.freeze
  else if 0x010 ≤ o ∧ o < 0x040 then (p.ovf.getD ((o - 0x010) / 4) 0).toNat
  else if o = 0x040 then p.sseq
  else if 0x4000 ≤ o then (if i < 256 then ofLe ((aget p.ring i).getD []) (o % 32 / 4 * 4) 4 else 0)
  else if o < 0x1000 ∨ 192 ≤ n then 0
  else match o % 16 with
    | 0 => p.cnt.getD n 0
    | 4 => p.sel.getD n 0
    | 8 => p.rld.getD n 0
    | _ => 0

/-- The PTB_ and INJ_ registers; those of a locked scope read zero (19 R477). -/
def testReg (s : State) (o : Nat) : Nat :=
  let p := s.pmc
  let e := p.ptb.getD ((o - 0x100) / 16) {}
  let a := p.armed[(o - 0x8100) / 16]?
  if o < 0x8000 then
    if p.scope.getLsbD 0 = false then 0
    else if o = 0 then p.scope.toNat + (p.unlockEnds - s.time.elapsed) / Config.second * 2 ^ 8
    else if o < 0x100 ∨ 16 ≤ (o - 0x100) / 16 then 0
    else match o % 16 with
      | 0 => e.kind + e.target * 2 ^ 4 + e.duty * 2 ^ 20
      | 4 => e.amount
      | 8 => (match e.ends with
        | some t => min ((t - s.time.elapsed) / 2 ^ 8) 0xFFFFFF
        | none => if e.kind = 0 then 0 else 0xFFFFFF)
      | 12 => e.applied
      | _ => 0
  else if p.scope.getLsbD 1 = false then 0
  else if o = 0x8000 then p.armed.length + p.replaced * 2 ^ 4
  else if o < 0x8100 then 0
  else match a with
    | some a => (match o % 16 with
      | 0 => a.checker + b2n a.scope1 * 2 ^ 4 + b2n a.replays * 2 ^ 5 + a.bits * 2 ^ 6 + a.unit * 2 ^ 8
      | 4 => a.left
      | 8 => a.page % 2 ^ 32
      | 12 => a.used
      | _ => 0)
    | none => 0

/-- The BWC_ block: the last completed regulation window (08 R243). -/
def bwcReg (s : State) (o : Nat) : Nat :=
  let x := s.slu.snap
  let i := (o - 0x100) / 16
  let c := x.counts.getD i (0, 0, 0, 0)
  if o = 0x000 then x.seq
  else if o = 0x004 then x.floor
  else if o = 0x008 then x.factor + x.shortRun * 2 ^ 24
  else if o = 0x00C then x.admitted
  else if o = 0x010 then x.budget
  else if o = 0x014 then x.hp
  else if o = 0x018 then x.status
  else if 0x020 ≤ o ∧ o < 0x030 then x.dramp.getD ((o - 0x020) / 4) 0
  else if o < 0x100 ∨ 128 ≤ i then 0
  else match o % 16 with
    | 0 => c.1
    | 4 => c.2.1
    | 8 => c.2.2.1
    | 12 => c.2.2.2
    | _ => 0

/-- STATE of DCT_CH_STATUS: ABSENT, OFF, TRAINING, ACTIVE, SELF_REFRESH, FENCED (10). -/
def chanState (s : State) (c : Nat) : Nat :=
  let x := s.chan c
  let u := [s.unit (2 * c), s.unit (2 * c + 1)].filter fun u => u.health != .absent
  if x.training then 2
  else if s.ddr.population.getLsbD c = false ∨ u.isEmpty = true then 0
  else if (s.dom (domDC c)).st = .off then 1
  else if u.all (·.fenced) then 5
  else if x.sr then 4 else 3

/-- Per-channel registers of the DCT_ block. -/
def dctChan (s : State) (c o : Nat) : Nat :=
  let x := s.chan c
  let pos := fun (f : UnitSt → Bool) => bitsWhere 2 fun k => f (s.unit (2 * c + k))
  if o = 0x000 then
    chanState s c + pos (·.health != .absent) * 2 ^ 3 + pos (·.health == .held) * 2 ^ 5 + pos (·.fenced) * 2 ^ 7 + b2n x.hot * 2 ^ 9
      + x.throttle * 2 ^ 10 + b2n x.replaying * 2 ^ 12
  else if o = 0x004 then s.ddr.rate.getD c 0 + b2n s.ddr.mrdimm * 2 ^ 16 + b2n s.ddr.twoDpc * 2 ^ 17
  else if o = 0x008 then x.temp.getD 0 0 % 256 + x.temp.getD 1 0 % 256 * 2 ^ 8
  else if o = 0x010 then x.capar
  else if o = 0x014 then x.wcrc
  else if o = 0x018 then x.replayCount
  else if o = 0x01C then x.retryCount
  else if o = 0x020 then x.srCount
  else if o = 0x024 then x.scrub
  else (aget x.delays o).getD 0

/-- The DCT_ block (10). -/
def dctReg (s : State) (o : Nat) : Nat :=
  let m := s.ddr.masks.getD ((o - 0x80000) / 8) 0
  if o < 0x80000 then dctChan s (o / 0x8000) (o % 0x8000)
  else if (o - 0x80000) / 8 < 12 then (if o % 8 = 0 then m % 2 ^ 32 / 2 ^ 6 * 2 ^ 6 else m / 2 ^ 32)
  else if o = 0x80080 then s.ddr.rowBits
  else if o = 0x80084 then s.ddr.hotBase
  else if o = 0x80088 then s.ddr.warmBase
  else if o = 0x8008C then s.ddr.frames
  else if o = 0x80090 then s.ddr.population.toNat
  else 0

/-- The Walben window as head `h` reads it; what no block claims is reserved and reads zero (00 R5; 09 R254, R255). -/
def bar2Reg (s : State) (h a : Nat) : Nat :=
  if a < 0x010000 then glbReg s a
  else if a < 0x020000 then ctbReg s h (a - 0x010000)
  else if a < 0x030000 then pwrReg s (a - 0x020000)
  else if a < 0x040000 then sltReg s (a - 0x030000)
  else if a < 0x080000 then fltReg s (a - 0x040000)
  else if a < 0x0C0000 then pmcReg s (a - 0x080000)
  else if a < 0x100000 then testReg s (a - 0x0C0000)
  else if a < 0x200000 then bwcReg s (a - 0x100000)
  else if a < 0x220000 then sklReg (s.port ((a - 0x200000) / 0x10000)) (a % 0x10000)
  else if 0x300000 ≤ a then dctReg s (a - 0x300000)
  else 0

/-- A word of BAR2, if the head's BAR2 answers (09 R251). -/
def bar2Read (s : State) (h a : Nat) : Option Nat := if canRead s h ∧ a < 0x400000 then some (bar2Reg s h (a / 4 * 4)) else none

/-- The regions of BAR0 (09 R254): component registers, device capabilities, the mailboxes, the MSI-X table and pending bits, reserved. -/
inductive Bar0Part where
  | component
  | device
  | mailbox (secondary : Bool)
  | msixTable
  | msixPending
  | reserved
  deriving DecidableEq, Repr

def bar0Part (a : Nat) : Bar0Part :=
  if a < 0x10000 then .component
  else if a < 0x20000 then .device
  else if a < 0x40000 then .mailbox false
  else if a < 0x60000 then .mailbox true
  else if a < 0x61000 then .msixTable
  else if a < 0x62000 then .msixPending
  else .reserved

/-- What BAR0 holds of the state: vector masks and pending bits of MSI-X, and zero where it is reserved (09 R254; 18 R466). The layouts of
the CXL and PCIe registers there are those standards' own. -/
def bar0Reg (s : State) (h a : Nat) : Option Nat :=
  let x := s.head h
  match bar0Part a with
  | .msixTable => if a % 16 = 12 then some (b2n (x.mask.getLsbD ((a - 0x60000) / 16))) else none
  | .msixPending => some (if a < 0x61008 then x.msiPend.toNat / 2 ^ (32 * ((a - 0x61000) / 4)) % 2 ^ 32 else 0)
  | .reserved => some 0
  | .component | .device | .mailbox _ => none

/-- Configuration space of a present head: Vendor and Device ID, class code (09 R247). -/
def configIds : Nat × Nat × Nat := (0x1D9A, Config.part, 0x050210)

/-- Memory_Active and Memory_Active_Timeout as a head's CXL DVSEC advertises them; 0b100 is 256 s (20 R495). -/
def memActiveInfo (s : State) (h : Nat) : Bool × Nat := ((s.head h).memActive, 4)

/-- WHD_HEAD and WHD_ALIAS(d), by their offset in the Walben head DVSEC (09). -/
def whdReg (s : State) (h o : Nat) : Nat :=
  let d := (s.head h).decoders.getD ((o - 0x10) / 4) {}
  if o = 0x0C then
    h + b2n (s.host.bifur.getD (portOf h) false) * 2 ^ 3 + b2n (isManaging s h) * 2 ^ 4 + b2n (s.head h).biActive * 2 ^ 5
      + b2n (s.head h).flit256 * 2 ^ 6
  else if 0x10 ≤ o ∧ o < 0x30 then d.alias2 + b2n d.committed * 2 ^ 2
  else 0

end Sys2Proof.Machine
end

