-- ==== Sys2Proof/Machine/Wires.lean ====
section
/-! DEFINITION. What the device's pins and wires carry as functions of the state: pin levels (15 R401, R405; 17 R432; 20 R500;
21 R511, R512), the symbols of a Stechaisk port (12 R319-R321, R324-R328), a DRAM burst (10 R277, R298), and the division of
the boot flash (17 R438). No command reads them; they say what a board sees. -/

namespace Sys2Proof.Machine

/-! ### Pins -/

/-- What a pin, or a group of transmitters, does. `asserted` and `released` are an open-drain pin's. -/
inductive PinLevel where
  | hiZ
  | low
  | high
  | idle
  | quiet
  | training
  | frames
  | prbs
  | echo
  | link
  | driven
  | active
  | closed
  | unlocked
  deriving DecidableEq, Repr

/-- The columns of the table of R500; bring-up and running differ by the domain's pads. -/
inductive PinPhase where
  | unpowered
  | auxOnly
  | main
  | halted
  | reset
  deriving DecidableEq, Repr

/-- The column in force (20 R500). -/
def pinPhase (s : State) : PinPhase :=
  match s.boot.phase with
  | .auxOff => .unpowered
  | _ =>
    if s.boot.pwrOk = false then .auxOnly
    else if s.flt.halted then .halted
    else if s.boot.devReset.isSome then .reset
    else .main

/-- The pads of a domain are released: it is On and Keeper firmware has released them (15 R401, R402). -/
def padsFree (s : State) (d : Nat) : Bool :=
  !(s.dom d).padsHeld && (match (s.dom d).st with
    | .on | .draining | .asking => true
    | .off | .poweringOff | .waking => false)

/-- HPn_TXP and HPn_TXN (15 R401; 20 R500). -/
def pinHostTx (s : State) (n : Nat) : PinLevel :=
  match pinPhase s with
  | .unpowered | .auxOnly => .hiZ
  | .main | .halted => if padsFree s (2 + n) then .link else .idle
  | .reset => .idle

/-- A host port's receivers present their terminations (15 R401; 21 R511). -/
def hostTerminated (s : State) (n : Nat) : Bool :=
  match pinPhase s with
  | .unpowered | .auxOnly => false
  | .main | .halted | .reset => padsFree s (2 + n)

/-- SKn_TXP and SKn_TXN (12 R330; 15 R401; 20 R500). -/
def pinSkTx (s : State) (n : Nat) : PinLevel :=
  match pinPhase s with
  | .unpowered | .auxOnly => .hiZ
  | .halted | .reset => .quiet
  | .main =>
    if padsFree s (42 + n) = false then .quiet
    else match (s.port n).st with
      | .off | .down => .quiet
      | .absent | .align | .deskew => .training
      | .handshake | .up => .frames
      | .loopSerial | .loopParallel | .loopFar => .prbs
      | .loopFarRemote => .echo

/-- DCc_CS_N (15 R401; 20 R500). -/
def pinCs (s : State) (c : Nat) : PinLevel :=
  match pinPhase s with
  | .unpowered | .auxOnly => .hiZ
  | .halted | .reset => .high
  | .main => if padsFree s (6 + c) && !(s.chan c).sr then .driven else .high

/-- DCc_RESET_N (15 R401; 20 R500): high whenever the device is powered, so that contents held in self-refresh are kept. -/
def pinDimmReset (s : State) (c : Nat) : PinLevel :=
  match pinPhase s with
  | .unpowered | .auxOnly => .hiZ
  | .halted | .reset => .high
  | .main => if padsFree s (6 + c) then .driven else .high

/-- DCc_SCL and DCc_SDA (15 R401; 20 R500). -/
def pinDimmI3c (s : State) (c : Nat) : PinLevel :=
  match pinPhase s with
  | .unpowered | .auxOnly | .reset => .hiZ
  | .halted => .idle
  | .main => if padsFree s (6 + c) then .driven else .hiZ

/-- DPn_TXP and DPn_TXN (15 R401; 20 R500). -/
def pinDriveTx (s : State) (n : Nat) : PinLevel :=
  match pinPhase s with
  | .unpowered | .auxOnly => .hiZ
  | .halted => .idle
  | .main | .reset => if padsFree s (22 + n) && (s.slot (32 + n)).st == .on then .link else .idle

/-- FSn_PERST_N (11 R301; 15 R401; 20 R500). -/
def pinDrivePerst (s : State) (n : Nat) : PinLevel :=
  match pinPhase s with
  | .unpowered | .auxOnly => .hiZ
  | .halted => .low
  | .main | .reset => if (s.slot (32 + n)).perst || (s.dom (22 + n)).padsHeld then .low else .high

/-- FSn_REFCLKP and FSn_REFCLKN: both low while the pads are held (15 R401; 21 R507). -/
def pinDriveClock (s : State) (n : Nat) : PinLevel :=
  match pinPhase s with
  | .unpowered | .auxOnly => .hiZ
  | .main | .halted | .reset => if padsFree s (22 + n) then .driven else .low

/-- FSn_PWRDIS lies in DOM_AON and is never held (15 R401; 20 R500). -/
def pinPwrdis (s : State) (n : Nat) : PinLevel :=
  match pinPhase s with
  | .unpowered => .hiZ
  | .auxOnly => .high
  | .main | .halted | .reset => if (s.slot (32 + n)).pwrdis then .high else .low

/-- The gate of a slot's transistor is on: also in the lead of a commanded off (16 R414, R422). -/
def slotGateOn (s : State) (i : Nat) : Bool :=
  (s.slot i).st.gateOn || ((s.slot i).st == .stopping && !(s.slot i).discharges s.time.elapsed)

/-- GATE of a slot: held low without power by 100 kΩ (16 R414; 20 R500; 21 R512). -/
def pinGate (s : State) (i : Nat) : PinLevel :=
  match pinPhase s with
  | .unpowered | .auxOnly => .low
  | .main | .halted | .reset => if slotGateOn s i then .driven else .low

/-- PGOOD of a slot: held low without power by 100 kΩ (16 R410; 20 R500; 21 R512). -/
def pinPgood (s : State) (i : Nat) : PinLevel :=
  match pinPhase s with
  | .unpowered | .auxOnly => .low
  | .main | .halted | .reset => if (s.slot i).pgood then .high else .low

/-- VGn_INWARN_N is open-drain: without auxiliary power it reads deasserted (15 R405; 20 R500; 21 R512). -/
def pinInwarn (s : State) (g : Nat) : PinLevel :=
  match pinPhase s with
  | .unpowered => .hiZ
  | .auxOnly | .main | .halted | .reset => if inwarn s g then .low else .hiZ

/-- SUP_EN[i] (20 R485, R500). -/
def pinSupEn (s : State) (i : Nat) : PinLevel :=
  match pinPhase s with
  | .unpowered => .hiZ
  | .auxOnly | .main | .halted | .reset => if s.boot.supEn.getLsbD i then .high else .low

/-- SYS_PWROK (20 R487, R500). -/
def pinPwrok (s : State) : PinLevel :=
  match pinPhase s with
  | .unpowered => .hiZ
  | .auxOnly | .main | .halted | .reset => if s.boot.pwrOk then .high else .low

/-- LM_ALERT_N: high-impedance on an I3C sideband (17 R432; 20 R500; 21 R512). -/
def pinAlert (s : State) : PinLevel :=
  match pinPhase s with
  | .unpowered => .hiZ
  | .auxOnly | .main | .halted | .reset => if s.lm.i3c then .hiZ else .active

/-- JTAG: closed unless debug was unlocked since cold reset, as measurement index 6 says (17 R449; 20 R500). -/
def pinJtag (s : State) : PinLevel :=
  match pinPhase s with
  | .unpowered => .hiZ
  | .auxOnly => .closed
  | .main | .halted | .reset => if s.lm.meas.getD 5 0 = 1 then .unlocked else .closed

/-! ### The symbols of a Stechaisk port (12 R319-R321, R325-R328) -/

/-- A symbol of a lane: the special ones of R319, or a data byte. -/
inductive Symbol where
  | comma
  | skip
  | marker
  | startData
  | startCtl
  | endFrame
  | data (b : Byte)
  deriving DecidableEq, Repr

/-- Column `n`, numbered from 1, is a marker column or a skip column (12 R320). -/
def isMarker (n : Nat) : Bool := n % 4096 == 0
def isSkip (n : Nat) : Bool := n % 1024 == 0 && !isMarker n

/-- The 8 bytes of a control frame (12 R327, R328): TYPE, SUB, BODY. -/
def ctlWord (type sub body : Nat) : List Byte := le 1 (type + 16 * sub) ++ le 7 body

/-- Four 12-bit fields, VC 0 lowest (12 R328). -/
def ctlCounts (a b c d : Nat) : Nat := a % 4096 + b % 4096 * 2 ^ 12 + c % 4096 * 2 ^ 24 + d % 4096 * 2 ^ 36

/-- The frames that a control frame is sent as: a TIME frame is a pair (12 R328, R329). -/
def ctlBytes : CtlFrame → List (List Byte)
  | .ack seq => [ctlWord 1 0 (seq % 4096)]
  | .nak seq => [ctlWord 2 0 (seq % 4096)]
  | .xon => [ctlWord 3 0 0]
  | .xoff => [ctlWord 4 0 0]
  | .credit a b c d => [ctlWord 5 0 (ctlCounts a b c d)]
  | .time sec frac w rank master hops =>
    [ctlWord 6 0 (sec % 2 ^ 40 + w % 32 * 2 ^ 40 + rank % 4 * 2 ^ 45),
     ctlWord 6 1 (frac % 2 ^ 24 + master % 4096 * 2 ^ 24 + hops % 256 * 2 ^ 36)]
  | .hello version headroom port rxReady =>
    [ctlWord 7 0 (b2n rxReady + version % 16 * 2 + port % 2 * 2 ^ 5 + headroom % 256 * 2 ^ 6)]
  | .echoReq time round => [ctlWord 7 1 (time % 2 ^ 32 + round % 8 * 2 ^ 32)]
  | .echoRsp time round turnaround =>
    [ctlWord 7 2 (time % 2 ^ 32 + round % 8 * 2 ^ 32 + turnaround % 2 ^ 21 * 2 ^ 35)]
  | .accepted seq valid => [ctlWord 7 3 (seq % 4096 + b2n valid * 2 ^ 12)]
  | .creditAbs a b c d => [ctlWord 7 4 (ctlCounts a b c d)]
  | .ready => [ctlWord 7 5 0]
  | .loopback enter => [ctlWord 7 6 (b2n enter)]

/-- A frame under its start symbol: its bytes, then its CRC, least significant byte first (12 R325, R327). -/
def ctlSymbols (bs : List Byte) : List Symbol := .startCtl :: (bs ++ le 2 (crc16 bs)).map .data
def dataSymbols (bs : List Byte) : List Symbol := .startData :: (bs ++ le 4 (crc32 bs)).map .data

/-- The symbols of a data frame, and of its extension frame directly after it (12 R325, R326). -/
def frameSymbols (f : Frame) : List Symbol :=
  dataSymbols (wireBytes f) ++ (if f.ext then dataSymbols (extensionBytes f) else [])

/-- A run of frames: each start symbol closes the frame before it, K29.7 the last (12 R321). -/
def runSymbols (frames : List (List Symbol)) : List Symbol :=
  if frames.isEmpty then [] else frames.flatten ++ [.endFrame]

/-- The symbol on lane `l` of the `k`-th column that carries the stream, idle where the stream has ended (12 R321). -/
def laneSymbol (stream : List Symbol) (l k : Nat) : Symbol := stream.getD (16 * k + l) .comma

/-- Columns sent before column `n` that carry the stream, neither marker nor skip (12 R320). -/
def streamColumns (n : Nat) : Nat := (n - 1) - (n - 1) / 1024

/-- What lane `l` sends in column `n` of a stream that starts in column 1 (12 R320, R321). -/
def wireSymbol (stream : List Symbol) (l n : Nat) : Symbol :=
  if isMarker n then .marker else if isSkip n then .skip else laneSymbol stream l (streamColumns n)

/-- The lane training pattern of lane `l`: K28.5, the byte of the lane, 14 symbols D10.2 (12, lane alignment). -/
def trainingSymbol (l k : Nat) : Symbol :=
  if k % 16 = 0 then .comma else if k % 16 = 1 then .data (BitVec.ofNat 8 l) else .data 0x4A

/-- One step of the PRBS-31 sequence x^31 + x^28 + 1 (12 R324). -/
def prbsStep (v : Nat) : Nat := v * 2 % 2 ^ 31 + (v / 2 ^ 30 + v / 2 ^ 27) % 2

/-- The register of lane `l` after `k` steps (12 R324). -/
def prbsReg (l : Nat) : Nat → Nat
  | 0 => (0x40000000 + l) % 2 ^ 31
  | k + 1 => prbsStep (prbsReg l k)

/-- The `k`-th PRBS byte of lane `l` (12 R324). DESIGN CHOICE: a byte is the low 8 bits of the register, and 8 steps lie between two
bytes; the rule gives the polynomial and the seed only (log 30). -/
def prbsByte (l k : Nat) : Byte := BitVec.ofNat 8 (prbsReg l (8 * k))

/-! ### A DRAM burst (10 R277, R298; 04 R101; 06 R169) -/

/-- The symbols of the ten devices in the reserve and Tier H regions. -/
def hotBurst (ct : List Byte) (side : LineSide) : List (BitVec 64) := lineSymbols ct side

/-- The symbols of the ten devices in the warm region: device 8 the XOR of devices 0-7, device 9 zero. -/
def warmBurst (chunk : List Byte) : List (BitVec 64) :=
  let data := (List.range 8).map fun d => BitVec.ofNat 64 (ofLe chunk (8 * d) 8)
  data ++ [chipParity data, 0]

/-- The check that scrub makes of a warm burst (10 R298). -/
def warmBurstOk (symbols : List (BitVec 64)) : Bool := chipParity (symbols.take 9) == 0

/-! ### The boot flash (17 R438) -/

/-- Offset and size of the regions: header, image slots A and B, training sets, slot settings, log ring. -/
def flashRegions : List (Nat × Nat) :=
  [(0x00000000, 64 * 2 ^ 10), (0x00010000, 96 * 2 ^ 20), (0x06010000, 96 * 2 ^ 20), (0x0C010000, 15 * 2 ^ 20),
   (0x0CF10000, 960 * 2 ^ 10), (0x0D000000, 48 * 2 ^ 20)]

/-- Flash offset of log record SEQ: records of 64 bytes, 786,432 of them (17 R438, R439). -/
def logOffset (seq : Nat) : Nat := 0x0D000000 + 64 * (seq % 786432)

/-- Flash offset of the n-th training set, one 64 KiB sector each (17 R438; 20 R491). -/
def trainingOffset (n : Nat) : Nat := 0x0C010000 + 64 * 2 ^ 10 * n

end Sys2Proof.Machine
end

