-- ==== Sys2Proof/Tests/Bench.lean ====
section
/-! SUPPORT. A running device, small enough to compute with: the state that the witnesses start from. -/

namespace Sys2Proof.Machine

/-- A DIMM as the bench's SPDs describe it. -/
def benchSpd (i : Nat) : SpdRead := ⟨i, true, true, 256, 1, 32, 2, 8800, i⟩

/-- A unit that works. -/
def benchUnit (i : Nat) : UnitSt := { health := .healthy, spd := if i < 32 then benchSpd i else ⟨0, false, false, 0, 0, 0, 0, 0, 0⟩ }

/-- A head with its link up. -/
def benchHead : Head := { present := true, up := true, width := 16, rate := 64, biEnable := true, biId := true, memActive := true }

/-- A device that is ready: 16 channels, 16 drives, every link up, 64 GiB offered, key range 0 over all of it. -/
def bench : State := {
  boot := { phase := .ready, supEn := 0x3F, pwrOk := true, mbReady := true, mediaReady := true, dimmBatch := 4, driveBatch := 2 }
  power := { doms := List.replicate 44 { st := .on, padsHeld := false, eligible := true, votes := 0x400 } }
  host := { heads := List.replicate 8 benchHead, perst := [false, false, false, false] }
  crity := { managing := some 0 }
  lm := { cores := 0xFF, keeperVer := 1, lmVer := 1, codecVer := 1 }
  time := { chain := 2 ^ 30, elapsed := 2 ^ 40, untimed := false, hostSet := true }
  dur := { units := (List.range 48).map benchUnit }
  slots := { slots := List.replicate 48 {
    st := .on, pgood := true, present := true, commanded := true, discharging := none, pwrdis := false, perst := false } }
  ddr := {
    population := 0xFFFF, rate := List.replicate 16 8800, rateMts := 8800, mrdimm := true, twoDpc := true, gib := 256
    hotBase := 1048576, warmBase := 34340864, frames := 134217728 }
  drives := { drives := List.replicate 16 { lbas := 1000000, width := 4, rate := 32 } }
  codec := { engines := List.replicate 32 { st := .inService } }
  keys := {
    ranges := { valid := true, mask := 0xFF, baseGib := 0, sizeGib := 64, keyed := true } :: List.replicate 15 {}
    device := { valid := true, keyed := true } }
  map := { geo := {
    low := [0, 1, 2, 3, 4, 5, 6, 7], drives := List.range 16, lMin := 1000000, offeredGib := 64, uHot := 2 ^ 34, uWarm := 2 ^ 35
    uCold := 2 ^ 35, hotFrames := 266338304, warmBarges := 99876864, coldBarges := 125000 } }
  skl := { ports := [{ st := .up, fromAbsent := false, avail := [64, 64, 64, 64] }, { st := .up, fromAbsent := false, avail := [64, 64, 64, 64] }] }
  chain := { id := 5, gen := 1, n := 3, forwarding := true, lowest := 4, highest := 6, eastEnd := 6, westEnd := 4
             neighbours := [some ⟨6, 1, 77, 1⟩, some ⟨4, 1, 78, 0⟩] } }

/-- The bench with head 0's first HDM decoder over the whole offered space. -/
def benchMapped : State := bench.modHead 0 fun x => { x with decoders := x.decoders.set 0 { size := 2 ^ 36, committed := true } }

/-- A read of line 77 of device 6, by window 0, for request 3. -/
def benchReq : Req := { id := 3, kind := .rd, mv := .invalid, head := 0, cls := 0, line := 77 }

def benchRemote : Remote := {
  tag := 3, why := .req benchReq, opcode := 0x01, home := 6, line := 77, own := 77, window := 0, wtag := 0, cls := 0, data := 0
  mask := 0, poison := false, since := 5, sent := some 5, naks := 0, retryAt := none, held := none }

/-- The first mailbox of head 0, which manages the bench. -/
def mb : Mb := ⟨0, false⟩

/-- A payload of zero bytes. -/
def zeroBytes (n : Nat) : List Byte := List.replicate n 0

end Sys2Proof.Machine
end

