-- ==== Sys2Proof/Tests/Slice0.lean ====
section
/-! SUPPORT. Tests: ill-formed commands are refused, the spec's worked examples, and a state and operands that meet the premises
of every statement. -/

set_option Elab.async false
set_option maxRecDepth 20000

open Sys2Proof Sys2Proof.Machine

/-! ### Ill-formed commands -/

theorem test_noSuchPort : (Instr.timeFrameReceive 2 0 0 0 0 0 0 true).wf = false := by decide
theorem test_noSuchHostPort : (Instr.hpPerstAssert 4).wf = false := by decide
theorem test_noSuchHead : (Instr.memRdData 8 0).wf = false := by decide
theorem test_noSuchSlot : (Instr.unitRecordLost 48).wf = false := by decide
theorem test_noSuchDimmSlot : (Instr.heldDimmRestore 32).wf = false := by decide
theorem test_noSuchResponder : (Instr.spdmGetVersion 9).wf = false := by decide
theorem test_noSuchChannel : (Instr.retryBufferRetire 16).wf = false := by decide
theorem test_noSuchDomain : (Instr.domainDrainDone 44).wf = false := by decide
theorem test_noSuchEngine : (Instr.codecWatchdogExpire 32).wf = false := by decide
theorem test_noSuchRange : (Instr.keySoftLimit 17).wf = false := by decide
theorem test_noSuchCluster : (Instr.clusterRollDone 4 0).wf = false := by decide
theorem test_noSuchMonitor : (Instr.supplyWarning 10 0).wf = false := by decide
theorem test_noSuchCounter : (Instr.counterOverflow 192 0 ⟨0, 0, 0, 0, false, 0, 0, 0, false, 0, false⟩).wf = false := by decide
theorem test_noSuchDiePoint : (Instr.dieTempCrossing 64 0 false).wf = false := by decide
theorem test_noSuchCore : (Instr.keeperCoreWatchdog 8 0).wf = false := by decide
theorem test_noSuchDrive : (Instr.nvmeCompletion 16 0 0 .good).wf = false := by decide
theorem test_noSuchIssuer : (Instr.backgroundStartPhaseEnd 9).wf = false := by decide
theorem test_noSuchCollector : (Instr.quietTimerExpire 48).wf = false := by decide
theorem test_noSuchEntry : (Instr.perturbExpire 16).wf = false := by decide
theorem test_noSuchMailbox : (Instr.getChainTime ⟨9, false⟩ []).wf = false := by decide
theorem test_lastUnits : (Instr.memRdData 7 0).wf = true ∧ (Instr.unitRecordLost 47).wf = true ∧ (Instr.keySoftLimit 16).wf = true
    ∧ (Instr.getChainTime ⟨8, false⟩ []).wf = true := by decide

/-! ### The spec's worked examples -/

/-- 00, the table of GLB_IDENT: a DM9720-12 and a DM9720-10 of revision B0, read at offset 0 of BAR2. -/
theorem test_glbIdent : bar2Reg State.reset 0 0 = 0x9720CB00
    ∧ bar2Reg { State.reset with boot := { State.reset.boot with grade := 0xA } } 0 0 = 0x9720AB00 := by decide

/-- 05, the example of R159: the nine bytes 0x31 to 0x39. -/
theorem test_crc32c : crc32c ((List.range 9).map fun i => BitVec.ofNat 8 (0x31 + i)) = 0xE3069283 := by decide +kernel

/-- 05, the same bytes in two jobs: 0x31 to 0x34, then 0x35 to 0x39 with PRIOR. -/
theorem test_crc32cContinues :
    crcOver 32 0x82F63B78 (crcOver 32 0x82F63B78 0 [0x31, 0x32, 0x33, 0x34]) [0x35, 0x36, 0x37, 0x38, 0x39] = 0xE3069283 := by
  decide +kernel

/-- 05, the example of R157 and R158: the coefficients and the two parities of 1, 2, 3, 4. -/
theorem test_reedSolomon : ((List.range 2).map fun i => (List.range 4).map (gfCoef i))
      = [[0xAD, 0x9D, 0xDD, 0x98], [0x9D, 0xAD, 0x98, 0xDD]]
    ∧ (List.range 2).map (fun i => gfDot (gfRow 4 (4 + i)) [1, 2, 3, 4]) = [0xAA, 0x3C] := by decide +kernel

/-- 06, the example of R167: block 2 of line 43 of page 0x345_6789, at major 7 and minor 63. -/
theorem test_counterBlock : counterBlock 0 0x3456789 7 43 63 2 = 0x0000D159E24000000000_01EBFC000002 := by decide +kernel

/-- 02, the example of R39: Set Timestamp with 1,700,000,000,777,000,000 ns. -/
theorem test_setTimestamp : ofNanos 1700000000777000000 = 0x006553F100C6E978 := by decide +kernel

/-- 18, the worked alert: source 801 is DC5's write-CRC alert, in group 45 and collector 25, at offset 1. -/
theorem test_alertSource : srcChannel 5 1 = 801 ∧ groupOf 801 = 45 ∧ 801 / 32 = 25 ∧ 801 % 32 = 1 := by decide

/-- 10, the example of R286: line 43 of frame 0x12_3453 behind 4 GiB, on eight channel pairs. -/
theorem test_frameAddr : frameAddr bench 0x123453 43 = 0x12468AAC0 ∧ frameLow bench 0x123453 = 3 := by decide +kernel

/-- 09, the example of R252: decoder 1 with one alias bit, two-way interleave of 4 KiB at position 1 behind 256 GiB. -/
theorem test_decodeHost :
    let ds : List Decoder := [{ base := 0, size := 2 ^ 38, committed := true },
      { base := 0x200000000000, size := 2 ^ 41, iw := 2, ig := 4096, pos := 1, alias2 := 1, committed := true }]
    decodeHost ds 3 0x210000005A40 = some (1, 1, 0x4000002A40) ∧ decodeHost ds 3 0x200000005A40 = some (1, 0, 0x4000002A40) := by
  decide +kernel

/-- 08, the example of R233: four x16 heads at 64 GT/s, no Stechaisk port up, WRITE_FRACTION 25, 16 channels at 8,800 MT/s. -/
theorem test_floor :
    let s := { bench with
      skl := {}
      slu := { bench.slu with cfg := { bench.slu.cfg with writeFraction := 25 } }
      host := { bench.host with heads := List.replicate 4 benchHead ++ List.replicate 4 {} } }
    fDram s = 788480 ∧ floorOf s = 716666 := by decide +kernel

/-- 03, the example of R59 and R61: the standard configuration offers 642,048 GiB. -/
theorem test_offered :
    let s := { bench with drives := { bench.drives with drives := List.replicate 16 { lbas := 15000000000, width := 4, rate := 32 } } }
    (geometryOf s 25 12 4).offeredGib = 642048 := by decide +kernel

/-! ### Premises of the statements about the whole device -/

/-- GET_CHAIN_TIME, its doorbell set while Keeper firmware was paused. -/
def benchHeld : HeldCmd := ⟨0xC010, mb, [], none⟩

theorem witness_StepRunsFront : (bench.pending = [] ∧ bench.held = [])
    ∧ (let s := { bench with crity := { bench.crity with waiting := some (mb, 0xC402, [], 0) } }
      s.pending = [] ∧ mustWait s = true)
    ∧ (let s := { bench with held := [benchHeld] }
      s.pending = [] ∧ mustWait s = false ∧ s.held = [benchHeld]
        ∧ ∃ t, runHeld benchHeld { s with held := [], crity := { s.crity with releasing := true } } = .next t) :=
  ⟨by decide, by decide, by decide, by decide, by decide, _, rfl⟩

theorem witness_MemoryStaysCanonical :
    let s := { bench with mem := [(0, 1), (65, 7)], pending := [Instr.trefEdge] }
    Memory.wf s.mem = true ∧ ∃ t, step s = .next t := ⟨by decide, _, rfl⟩

theorem witness_CommandsStopOnUnitsAlone : (Instr.memRdData 7 0).wf = true
    ∧ (Instr.memRdData 8 0).target = .unit .head 8 ∧ (Instr.memRdData 8 0).wf = false
    ∧ exec (Instr.memRdData 8 0) bench = .fault .noSuchUnit := ⟨by decide, by decide, by decide, rfl⟩

theorem witness_QueueUntouched : let s := { bench with pending := [Instr.trefLost] }
    ∃ t, exec .trefEdge s = .next t := ⟨_, rfl⟩

theorem witness_MemoryFrame : mayChangeMemory (.memRdData 0 64) = false ∧ ∃ t, exec (.memRdData 0 64) benchMapped = .next t :=
  ⟨by decide, _, rfl⟩

theorem witness_StoredLine : Memory.wf bench.mem = true ∧ ({ benchReq with erased := true } : Req).erased = true
    ∧ benchReq.erased = false ∧ ((0 : Nat) < 64 ∧ (63 : Nat) < 64)
    ∧ (64 * benchReq.line - 1 < 64 * benchReq.line ∧ 64 * benchReq.line + 64 ≤ 64 * benchReq.line + 64) := by decide

/-- An event, and a group whose newest entry it can join in window 9. -/
def benchEvent : EventRec := ⟨5, 801, 1, false, 0, 0xFF, 100, []⟩
def benchGroup : Group := { entries := [⟨4, 801, 1, false, 0, 0xFF, 1, 90, 9⟩] }

theorem witness_EventRecording :
    (({ bench with flt := { bench.flt with halted := true } } : State).flt.halted = true)
    ∧ classOf { bench with flt := { bench.flt with react := [(801, 0)] } } 801 = 0
    ∧ (bench.flt.halted = false ∧ classOf bench 801 ≠ 0 ∧ 801 / 32 < bench.flt.colls.length)
    ∧ (∃ e rest, benchGroup.entries = e :: rest ∧ e.source = benchEvent.source ∧ e.kind = benchEvent.kind ∧ e.window = 9)
    ∧ (∃ e rest, benchGroup.entries = e :: rest ∧ ¬ (e.source = benchEvent.source ∧ e.kind = benchEvent.kind ∧ e.window = 10)
        ∧ benchGroup.entries.length ≤ 8)
    ∧ (classOf { bench with flt := { bench.flt with react := [(801, 4)] } } 801 = 4 ∧ bench.flt.halted = false) :=
  ⟨by decide, by decide +kernel, by decide +kernel, ⟨_, _, rfl, by decide⟩, ⟨_, _, rfl, by decide⟩, by decide +kernel⟩

theorem witness_HotReadChannel :
    let busy := ({ bench with req := { bench.req with reqs := [{ benchReq with st := .line 3 1 [] false }] } }).modChan 3 fun x =>
      { x with ports := [⟨4, true, benchReq.id, 0⟩] }
    copyReadable bench (frameLow bench 3) 3 = true ∧ copyReadable bench (frameLow bench 3 + 8) 3 = true
    ∧ queuedReads busy (frameLow busy 3 + 8) < queuedReads busy (frameLow busy 3)
    ∧ queuedReads bench (frameLow bench 3) ≤ queuedReads bench (frameLow bench 3 + 8) := by decide +kernel

/-- The bench with one frame to device 6 that port 0 holds and has sent. -/
def benchSent (count : Nat) : State :=
  bench.modPort 0 fun x => { x with
    held := [{ frame := { dst := 6, payload := 0 }, sent := true, credit := true }], timerAt := 0, count := count }

theorem witness_ReplayCount : (∀ count ∈ [2, 3, 7, 9], let s := benchSent count
      (s.port 0).st = .up ∧ (s.port 0).outstanding ≠ [] ∧ (s.port 0).timerAt + 34 ≤ s.time.elapsed ∧ (s.port 0).xoffHeld = false)
    ∧ ((benchSent 3).port 0).count + 1 = 4 ∧ 8 ≤ ((benchSent 7).port 0).count + 1
    ∧ (((benchSent 2).port 0).count + 1 ≠ 4 ∧ ((benchSent 2).port 0).count + 1 < 8 ∧ (benchSent 2).pmc.armed = []
      ∧ ((benchSent 2).pmc.sel.all fun v => v == 0) = true ∧ 0 < (benchSent 2).skl.ports.length) := by decide +kernel

theorem witness_CreditOnce :
    (let s := bench.modPort 0 fun x => { x with held := [{ frame := { dst := 6 }, sent := false, credit := false }] }
      let f := ((s.port 0).held.getD 0 { frame := {} }).frame
      (s.port 0).st = .up ∧ (s.port 0).xoffHeld = false ∧ (s.port 0).nextUnsent = some 0 ∧ s.pmc.armed = []
      ∧ needsCredit s 0 f = true ∧ 0 < (s.port 0).avail.getD f.vc 0 ∧ (s.port 0).seqs + seqSpan f ≤ 2047)
    ∧ (let s := benchSent 2
      s.pmc.armed = [] ∧ (s.port 0).xoffHeld = false ∧ (s.port 0).count + 1 ≠ 4 ∧ (s.port 0).count + 1 < 8)
    ∧ (let f : Frame := { seq := 4000 }
      (bench.port 0).st = .up ∧ bench.pmc.armed = [] ∧ 2048 < seqDiff f.seq (bench.port 0).rxExpected
      ∧ frameCrcOk f { base := crc32 (wireBytes f) } = true)
    ∧ (1 < bench.skl.ports.length ∧ (bench.port 1).held.length < 1024 ∧ (bench.port 1).backlog = []) := by decide +kernel

/-- SET_REMOTE_WINDOW: window 0, an import of 4 GiB at 8 GiB from device `peer`. -/
def windowPayload (peer : Nat) : List Byte :=
  [0, 0, 1, 0] ++ le 4 8 ++ le 4 4 ++ le 2 peer ++ zeroBytes 18

theorem witness_HopLimit :
    (accepts setHopLimitSpec bench mb [1, 0, 0, 0] = true ∧ accepts setHopLimitSpec bench mb [255, 0, 0, 0] = true)
    ∧ byteAt [0, 0, 0, 0] 0 = 0
    ∧ (∃ msg : TopoMsg, bench.flt.halted = false ∧ assigned bench = true ∧ bench.chain.gen = msg.gen
        ∧ bench.chain.hopLimit ≠ msg.hopLimit)
    ∧ (assigned bench = true ∧ (direction bench 6).isSome = true)
    ∧ (let s := bench.modChain fun c => { c with hopLimit := 0 }
      let p := windowPayload 6
      accepts setRemoteWindowSpec s mb p = true ∧ bitAt p 2 0 = true ∧ byteAt p 1 = 0 ∧ spanOk s (ofLe p 4 4) (ofLe p 8 4) = true
      ∧ spanUsed s (ofLe p 4 4 * 2 ^ 18) (ofLe p 8 4 * 2 ^ 18) = false ∧ aget s.chain.imports (byteAt p 0) = none
      ∧ ((s.chain.imports ++ s.chain.exports).any fun x => x.2.overlaps (ofLe p 4 4) (ofLe p 8 4)) = false
      ∧ peerCheck s (ofLe p 12 2) ≠ 0)
    ∧ (let s := { (bench.modChain fun c => { c with hopLimit := 0, wait := some ⟨.tandem 0 0, 6, 0⟩ }) with
        crity := { bench.crity with waiting := some (mb, 0xC402, zeroBytes 8, 0) } }
      let t := (consumeOp 0 0x37 s).modChain fun c => { c with wait := none }
      s.flt.halted = false ∧ s.chain.wait = some ⟨.tandem 0 0, 6, 0⟩ ∧ s.crity.waiting = some (mb, 0xC402, zeroBytes 8, 0)
      ∧ tandemGib s 0 + (s.range 0).sizeGib ≤ 16384 ∧ withinHops t 6 = false)
    ∧ (let f : Frame := { hops := 16 }
      f.hops = bench.chain.hopLimit) :=
  ⟨by decide +kernel, by decide, ⟨⟨1, 3, false, true, 9, 4, 6, 6, 4⟩, by decide⟩, by decide +kernel, by decide +kernel, by decide +kernel,
    by decide +kernel⟩

theorem witness_ManagingHandover :
    (accepts managingSpec bench mb [7, 0, 0, 0] = true ∧ (bench.head 7).present = true ∧ headUp bench 7 = true)
    ∧ (let s := bench.modHead 1 fun x => { x with up := false }
      accepts managingSpec s mb [1, 0, 0, 0] = true ∧ headUp s 1 = false)
    ∧ (let m : Mb := ⟨1, false⟩
      m.src ≠ 8 ∧ canIssue bench m = true ∧ mustWait bench = false ∧ ([1, 0, 0, 0] : List Byte).length = 4
        ∧ isManaging bench m.src = false ∧ managingSpec.mgt = true ∧ managingSpec.any = false
        ∧ managingSpec.adm bench m.src [1, 0, 0, 0] = false ∧ managingSpec.len 4 = true) := by decide +kernel

/-- The bench with slot 4 in a state that it entered `ago` ticks ago. -/
def benchSlot (st : SlotSt) (ago : Nat) : State := bench.modSlot 4 fun x => { x with st := st, entered := 2 ^ 40 - ago }

theorem witness_StartFailure :
    let r := 2 * ((benchSlot .ramp 0).slot 4).rampTicks + 167772;
    (let s := benchSlot .ramp r;
      (s.slot 4).st = .ramp ∧ (s.slot 4).entered + 2 * (s.slot 4).rampTicks + 167772 ≤ s.time.elapsed)
    ∧ (let s := benchSlot .qualify 335544;
      (s.slot 4).st = .qualify ∧ (s.slot 4).entered + 335544 ≤ s.time.elapsed)
    ∧ (let s := benchSlot .ramp (r - 1);
      (s.slot 4).st = .ramp ∧ s.time.elapsed < (s.slot 4).entered + 2 * (s.slot 4).rampTicks + 167772)
    ∧ (let s := benchSlot .qualify 335543;
      (s.slot 4).st = .qualify ∧ s.time.elapsed < (s.slot 4).entered + 335544)
    ∧ ((bench.slot 4).st ≠ .ramp ∧ (bench.slot 4).st ≠ .qualify) := by decide +kernel

theorem witness_CommandFailure :
    let m : Mb := ⟨1, false⟩
    canIssue bench m = true ∧ headUp bench m.src = true ∧ m.src ≠ 8 ∧ m.src < bench.host.heads.length ∧ mustWait bench = false
      ∧ precheck managingSpec bench m [1, 0, 0, 0] = some (0x0001, 0xFFFF) := by decide +kernel

/-! ### The wires (12 R320, R328; 20 R500) -/

theorem test_columns : wireSymbol [.startCtl] 0 1 = .startCtl ∧ wireSymbol [.startCtl] 1 1 = .comma
    ∧ wireSymbol [] 3 1024 = .skip ∧ wireSymbol [] 3 4096 = .marker := by decide +kernel
theorem test_nakWord : ctlBytes (.nak 0xABC) = [[0x02, 0xBC, 0x0A, 0, 0, 0, 0, 0]] := by decide +kernel
theorem test_pinsDark : pinPwrok State.reset = .hiZ ∧ pinGate State.reset 0 = .low ∧ pinPgood State.reset 0 = .low := by decide +kernel

/-! ### Premises of the statements about commands -/

/-- Premises of HostRequests are met. -/
theorem witness_HostRequests :
  (let head : Nat := 0; let addr : Nat := 64; let dec : Nat := 0; let cls : Nat := 0; let dpa : Nat := 64;
    let s : State := benchMapped;
    head < 8 ∧ headUp s head = true ∧ s.flt.halted = false ∧ decodeHost (s.head head).decoders
    (s.slu.cfg.defClass.getD head 0) addr = some (dec, cls, dpa) ∧ violation s head dpa = none)
  ∧ (let head : Nat := 0; let addr : Nat := 2 ^ 35; let dec : Nat := 0; let cls : Nat := 0; let dpa : Nat := 2 ^ 35;
    let why : Nat := 1;
    let s : State := { benchMapped with map := { benchMapped.map with geo := { benchMapped.map.geo with offeredGib := 16 } } };
    headUp s head = true ∧ s.flt.halted = false ∧ decodeHost (s.head head).decoders (s.slu.cfg.defClass.getD head 0)
    addr = some (dec, cls, dpa) ∧ violation s head dpa = some why)
  ∧ (let head : Nat := 0; let addr : Nat := 2 ^ 60; let s : State := benchMapped;
    headUp s head = true ∧ s.flt.halted = false ∧ decodeHost (s.head head).decoders (s.slu.cfg.defClass.getD head 0)
    addr = none)
  ∧ (let head : Nat := 0;
    head < 8)
  ∧ (let head : Nat := 0; let addr : Nat := 64; let dec : Nat := 0; let cls : Nat := 0; let dpa : Nat := 64;
    let s : State := benchMapped;
    head < 8 ∧ headUp s head = true ∧ decodeHost (s.head head).decoders (s.slu.cfg.defClass.getD head 0) addr = some
    (dec, cls, dpa) ∧ (s.req.reqs.any fun r => r.head == head && r.line == dpa / 64 && !r.kind.isWrite && orderedReq
    s r) = false) := by decide +kernel

/-- Premises of RequestPath are met. -/
theorem witness_RequestPath :
  (let i : Nat := 0; let t : Nat := 2; let q : QEnt := ⟨0, 64, 1⟩; let rest : List QEnt := [];
    let r : Req := { id := 0, kind := .rd, mv := .any, head := 0, cls := 0, line := 1, since := bench.time.elapsed };
    let s : State := (addReq { id := 0, kind := .rd, mv := .any, head := 0, cls := 0, line := 1 } { bench with slu := { bench.slu with budget := 100000 } }).modSluice 0 (fun x => { x with queue := [⟨0, 64, 1⟩], tier := some 2 });
    let u : State := { (addReq { id := 0, kind := .rd, mv := .any, head := 0, cls := 0, line := 1 } { bench with slu := { bench.slu with budget := 100000 } }).modSluice 0 (fun x => { x with queue := [⟨0, 64, 1⟩], tier := some 2 }) with free := bench.free + 1 };
    s.flt.halted = false ∧ s.boot.devReset = none ∧ u = { s with free := s.free + 1 } ∧ choose u = some (i, t) ∧ (u.sluice i).queue = q :: rest ∧ u.req? q.rid = some r ∧ u.slu.waiting = [] ∧ pendingOpen u 0 r = true ∧ (r.kind.isWrite = true → u.req.ifwt.length + writesInside u < 4096) ∧ choose (takeFront i t u) = none)
  ∧ (let l : Nat := 1; let q : PqEnt := ⟨0, 1, false, none⟩;
    let r : Req := { id := 0, kind := .rd, mv := .any, head := 0, cls := 0, line := 1, since := bench.time.elapsed };
    let s : State := let t := addReq { id := 0, kind := .rd, mv := .any, head := 0, cls := 0, line := 1 } bench; { t with dir := { t.dir with pq := [⟨0, 1, false, none⟩] } };
    (s.dir.pq.find? fun q => q.line == l) = some q ∧ q.setWait = false ∧ s.req? q.rid = some r ∧ lineBusy s l =
    false ∧ reservedOther s r = false)
  ∧ (let set : Nat := dirSet 1; let q : PqEnt := ⟨0, 1, true, none⟩;
    let r : Req := { id := 0, kind := .rd, mv := .any, head := 0, cls := 0, line := 1, since := bench.time.elapsed };
    let s : State := let t := addReq { id := 0, kind := .rd, mv := .any, head := 0, cls := 0, line := 1 } bench; { t with dir := { t.dir with pq := [⟨0, 1, true, none⟩] } };
    (s.dir.pq.find? fun q => q.setWait && dirSet q.line == set) = some q ∧ ((wayEnts s set).length < 16 ∨ ((victim s
    set).isSome = true ∧ s.dir.evict.length < 512)) ∧ s.req? q.rid = some r ∧ lineBusy s q.line = false ∧
    reservedOther s r = false)
  ∧ (let page : Nat := 0;
    let s : State := addReq { id := 0, kind := .rd, mv := .any, head := 0, cls := 0, line := 1, st := .walk } bench;
    (s.req.reqs.any fun r => r.st == .walk && r.line / 64 == page) = true ∧ walking s page = false ∧ cached
    (loadEntry page s) page = true)
  ∧ (let rid : Nat := 0; let c : Nat := 3;
    let r : Req := { id := 0, kind := .rd, mv := .any, head := 0, cls := 0, line := 1, st := .line 3 1 [] false, since := bench.time.elapsed };
    let bad : List Nat := []; let missing : Bool := false;
    let s : State := addReq { id := 0, kind := .rd, mv := .any, head := 0, cls := 0, line := 1, st := .line 3 1 [] false } bench;
    s.pmc.armed = [] ∧ s.req? rid = some r ∧ readWaits s rid = false ∧ r.st = .line c 1 bad missing)
  ∧ (let rid : Nat := 0; let c : Nat := 3; let n : Nat := 2;
    let r : Req := { id := 0, kind := .rd, mv := .any, head := 0, cls := 0, line := 1, st := .line 3 2 [11] false, since := bench.time.elapsed };
    let bad : List Nat := [11]; let missing : Bool := false;
    let s : State := addReq { id := 0, kind := .rd, mv := .any, head := 0, cls := 0, line := 1, st := .line 3 2 [11] false } bench;
    s.req? rid = some r ∧ r.st = .line c n bad missing ∧ readWaits s rid = false ∧ 2 ≤ n)
  ∧ (let rid : Nat := 0; let minor : Nat := 1; let f : Nat := 3; let ovl : Bool := false;
    let r : Req := { id := 0, kind := .wr, mv := .any, head := 0, cls := 0, line := 1, st := .write false 1 3, since := bench.time.elapsed };
    let s : State := addReq { id := 0, kind := .wr, mv := .any, head := 0, cls := 0, line := 1, st := .write false 1 3 } bench;
    s.pmc.armed = [] ∧ s.req? rid = some r ∧ r.st = .write ovl minor f ∧ acceptOpen s f = true ∧ r.isChain = false)
  ∧ (let c : Nat := 3; let k : DramCmd := ⟨0, false, 9, 0⟩; let rest : List DramCmd := [];
    let s : State := bench.modChan 3 fun x => { x with retry := [⟨0, false, 9, 0⟩] };
    c < 16 ∧ (s.chan c).replaying = false ∧ (s.chan c).retry = k :: rest ∧ k.read = false ∧ k.key < 2 ^ 60)
  ∧ (let c : Nat := 3; let k : DramCmd := ⟨0, true, 9, 0⟩; let rest : List DramCmd := [];
    let s : State := bench.modChan 3 fun x => { x with retry := [⟨0, true, 9, 0⟩] };
    c < 16 ∧ (s.chan c).replaying = false ∧ (s.chan c).retry = k :: rest ∧ k.read = true)
  ∧ (let c : Nat := 3; let k : DramCmd := ⟨0, false, 2 ^ 60, 0⟩; let rest : List DramCmd := [];
    let s : State := bench.modChan 3 fun x => { x with retry := [⟨0, false, 2 ^ 60, 0⟩] };
    c < 16 ∧ (s.chan c).replaying = false ∧ (s.chan c).retry = k :: rest ∧ k.read = false ∧ 2 ^ 60 ≤ k.key)
  ∧ (let s : State := bench;
    overlayCount s < ovlHardLimit s)
  ∧ (let head : Nat := 0; let line : Nat := 1; let x : SnoopOut := ⟨0, 1, .inv, 0, false⟩;
    let s : State := { bench with dir := { bench.dir with snoops := [⟨0, 1, .inv, 0, false⟩] } };
    head < 8 ∧ (s.dir.snoops.find? fun x => x.head == head && x.line == line) = some x ∧ remoteLine s line = false)
  ∧ (let head : Nat := 0; let line : Nat := 1; let x : SnoopOut := ⟨0, 1, .inv, 0, false⟩;
    let s : State := { bench with dir := { bench.dir with snoops := [⟨0, 1, .inv, 0, false⟩] } };
    head < 8 ∧ (s.dir.snoops.find? fun x => x.head == head && x.line == line) = some x ∧ x.since + 2 ^
    s.slu.cfg.snoopLimit.getD head 17 ≤ s.time.elapsed) := by
  refine ⟨?_, ?_, ?_, ?_, ?_, ?_, ?_, ?_, ?_, ?_, ?_, ?_, ?_⟩ <;> decide +kernel

/-- Premises of ChainTime are met. -/
theorem witness_ChainTime :
  (let s : State := bench;
    s.boot.phase ≠ .auxOff)
  ∧ (let head : Nat := 3; let s : State := bench;
    head < 8 ∧ canRead s head = true)
  ∧ (let s : State := bench;
    s.boot.phase ≠ .auxOff ∧ s.time.enTref = true ∧ edgeValid s.time = true)
  ∧ (let s : State := { bench with time := { bench.time with firstEdge := false, chain := 2 ^ 23 } };
    s.boot.phase ≠ .auxOff ∧ s.time.enTref = true ∧ s.time.firstEdge = false ∧ 256 < (edgeOffset
    s.time.chain).natAbs)
  ∧ (let s : State := { bench with time := { bench.time with trefHeld := true, elapsed := 2 ^ 26 + 2 ^ 9 } };
    s.time.trefHeld = true ∧ s.time.enTref = true ∧ 3 ≤ missedEdges s.time)
  ∧ (let l : Nat := 5; let s : State := { bench with time := { bench.time with lostAt := some 5 } };
    s.time.lostAt = some l ∧ l + 1073741824 ≤ s.time.elapsed)
  ∧ (let s : State := { bench with time := { bench.time with hostSet := true } };
    s.boot.phase ≠ .auxOff ∧ s.flt.halted = false ∧ atMultiple s.time 14 = true ∧ s.time.following = false ∧
    s.time.rank ≠ 0)
  ∧ (let port : Nat := 0; let w : Nat := 10; let rank : Nat := 3; let master : Nat := 4; let hops : Nat := 0;
    let s : State := { bench with chain := { bench.chain with id := 7 } };
    port < 2 ∧ (s.port port).st = .up ∧ s.time.enChain = true ∧ s.flt.halted = false ∧ w = s.time.w ∧ frameYields
    s.time = false ∧ follows s port rank master hops = true)
  ∧ (let port : Nat := 0;
    port < 2)
  ∧ (let port : Nat := 0; let w : Nat := 10;
    let s : State := { bench with time := { bench.time with edgeAt := some bench.time.elapsed } };
    port < 2 ∧ w = s.time.w ∧ s.time.edgeAt = some s.time.elapsed)
  ∧ (let s : State := { bench with time := { bench.time with following := true } };
    s.time.following = true ∧ s.time.lastFrame + 65536 ≤ s.time.elapsed)
  ∧ (let s : State := bench;
    s.boot.phase.keeper = true ∧ atMultiple s.time s.time.w = true ∧ s.time.lastWindow ≠ s.time.chain ∧ s.flt.halted
    = false) := by
  refine ⟨?_, ?_, ?_, ?_, ?_, ?_, ?_, ?_, ?_, ?_, ?_, ?_⟩ <;> decide +kernel

/-- Premises of TimeAndBandwidthCommands are met. -/
theorem witness_TimeAndBandwidthCommands :
  (let m : Mb := mb; let p : List Byte := [0, 0, 0, 64, 0, 0, 0, 0];
    let s : State := { bench with time := { bench.time with master := true } };
    accepts setChainTimeSpec s m p = true ∧ settable s.time = true)
  ∧ (let m : Mb := mb; let p : List Byte := [7, 0, 0, 0]; let s : State := bench;
    accepts setTimeSourceSpec s m p = true)
  ∧ (let m : Mb := mb; let p : List Byte := []; let s : State := bench;
    accepts getChainTimeSpec s m p = true ∧ 24 ≤ limitOf s m.src)
  ∧ (let m : Mb := ⟨1, false⟩; let p : List Byte := [0, 0, 0, 64, 0, 0, 0, 0]; let s : State := bench;
    acceptsStd { opcode := 0x0301 } s m = true ∧ p.length = 8 ∧ m.src < 8 ∧ isManaging s m.src = false)
  ∧ (let m : Mb := mb; let s : State := bench;
    acceptsStd { opcode := 0x0300 } s m = true ∧ 8 ≤ limitOf s m.src)
  ∧ (let m : Mb := mb; let p : List Byte := [0, 0, 8, 9] ++ zeroBytes 20;
    let c : SlConfig := setSluiceCfg ([0, 0, 8, 9] ++ zeroBytes 20) bench.slu.next;
    let s : State := { bench with slu := { bench.slu with floor := some 1000000 } };
    accepts setSluiceSpec s m p = true ∧ c = setSluiceCfg p s.slu.next ∧ parsOk c (byteAt p 0) = true ∧ admissible s
    c = true)
  ∧ (let m : Mb := mb; let p : List Byte := [0, 0xFF] ++ zeroBytes 34;
    let s : State := { bench with slu := { bench.slu with floor := some 1000000 } };
    accepts setGuaranteeSpec s m p = true ∧ parsOk (setGuaranteeCfg p s.slu.next) (byteAt p 0) = true ∧ admissible s
    (setGuaranteeCfg p s.slu.next) = true)
  ∧ (let m : Mb := mb; let p : List Byte := [0, 2, 0, 0, 0, 0, 0, 0, 3, 0, 0, 0, 0, 0, 0, 0];
    let c : SlConfig := setAttrCfg 0 2 3 bench.slu.next;
    let s : State := { bench with slu := { bench.slu with floor := some 1000000 } };
    accepts setMasterAttrSpec s m p = true ∧ c = setAttrCfg (byteAt p 0) (byteAt p 1) (ofLe p 8 8) s.slu.next ∧ (¬
    (byteAt p 1 = 3 ∧ byteAt p 0 = 17 ∧ ofLe p 8 8 = 0)) ∧ parsOk c (byteAt p 0) = true ∧ anyRekeyTooSlow s c =
    false ∧ admissible s c = true)
  ∧ (let m : Mb := mb; let p : List Byte := [17, 3, 0, 0, 0, 0, 0, 0, 0, 0, 0, 0, 0, 0, 0, 0]; let s : State := bench;
    accepts setMasterAttrSpec s m p = true ∧ (byteAt p 1 = 3 ∧ byteAt p 0 = 17 ∧ ofLe p 8 8 = 0))
  ∧ (let m : Mb := mb; let p : List Byte := [3, 1, 0, 0]; let s : State := bench;
    accepts getSluiceSpec s m p = true ∧ outFits s m (sluiceBytes s (byteAt p 0) (byteAt p 1)) = true)
  ∧ (let m : Mb := mb; let p : List Byte := [0, 1, 0, 0];
    let out : List Byte := le 4 0 ++ le 8 0 ++ le 4 (bwcFactor {}) ++ le 4 0 ++ le 4 0 ++ le 4 0 ++ ((({} : BwcSnap).dramp.map (le 4)).flatten) ++ le 4 0 ++ bwcCounts {} 0;
    let s : State := bench;
    accepts getBwCountersSpec s m p = true ∧ (out = le 4 s.slu.snap.seq ++ le 8 s.slu.snap.start ++ le 4 (bwcFactor s.slu.snap) ++ le 4 s.slu.snap.floor
      ++ le 4 s.slu.snap.budget ++ le 4 s.slu.snap.hp ++ (s.slu.snap.dramp.map (le 4)).flatten ++ le 4 s.slu.snap.status
      ++ ((List.range (byteAt p 1)).map fun i => bwcCounts s.slu.snap (byteAt p 0 + i)).flatten) ∧ outFits s m out = true)
  ∧ (let m : Mb := mb; let p : List Byte := []; let s : State := bench;
    accepts getFloorSpec s m p = true ∧ outFits s m (floorBytes s) = true) := by
  refine ⟨?_, ?_, ?_, ?_, ?_, ?_, ?_, ?_, ?_, ?_, ?_, ?_⟩ <;> decide +kernel

/-- Premises of MoversAndBerths are met. -/
theorem witness_MoversAndBerths :
  (let page : Nat := 3;
    let l : Lock := { page := 3, kind := .demote, tier := 1, outing := 0, snap := 0, wm := 0, tEpoch := 0, tMajor := 0, reading := true };
    let s : State := { bench with map := { bench.map with locks := [{ page := 3, kind := .demote, tier := 1, outing := 0, snap := 0, wm := 0, tEpoch := 0, tMajor := 0, reading := true }] } };
    s.flt.halted = false ∧ lockOf s page = some l ∧ l.reading = true ∧ (keyRangeOf s (4096 * l.page)).isSome = true
    ∧ l.kind ≠ .dredge ∧ l.kind ≠ .rebuild ∧ overlayWrites s l.page = false ∧ zeroResult s l = true)
  ∧ (let page : Nat := 3; let d : MoveDest := ⟨1, 0, 5, 0, false⟩;
    let l : Lock := { page := 3, kind := .demote, tier := 1, outing := 0, snap := 0, wm := 0, tEpoch := 0, tMajor := 0, reading := true, block := some ⟨5, 0, 0, false, 0, []⟩ };
    let s : State := { bench with map := { bench.map with locks := [{ page := 3, kind := .demote, tier := 1, outing := 0, snap := 0, wm := 0, tEpoch := 0, tMajor := 0, reading := true, block := some ⟨5, 0, 0, false, 0, []⟩ }], pages := [(3, { zero := false, loc := 7 })] }, mem := [(4096 * 3, 1)], dur := { bench.dur with warm := [(0, { members := 0xFFFF, live := true, blocks := [⟨3, 0, 5, 0⟩] })] } };
    s.flt.halted = false ∧ lockOf s page = some l ∧ l.reading = true ∧ (keyRangeOf s (4096 * l.page)).isSome = true
    ∧ l.kind ≠ .dredge ∧ l.kind ≠ .rebuild ∧ overlayWrites s l.page = false ∧ zeroResult s l = false ∧ blockReady s
    l d = true)
  ∧ (let page : Nat := 3; let d : MoveDest := ⟨1, 16, 5, 0, false⟩;
    let l : Lock := { page := 3, kind := .dredge, tier := 1, outing := 0, snap := 0, wm := 0, tEpoch := 0, tMajor := 0, reading := true };
    let s : State := { bench with map := { bench.map with locks := [{ page := 3, kind := .dredge, tier := 1, outing := 0, snap := 0, wm := 0, tEpoch := 0, tMajor := 0, reading := true }], pages := [(3, { zero := false, tier := 1, loc := 900, size := 5 })] }, dur := { bench.dur with warm := [(0, { members := 0xFFFF, live := true, blocks := [⟨3, 16, 5, 0⟩] })] } };
    s.flt.halted = false ∧ lockOf s page = some l ∧ l.reading = true ∧ (keyRangeOf s (4096 * l.page)).isSome = true
    ∧ l.kind = .dredge ∧ blockReady s l d = true)
  ∧ (let t : Nat := 2; let b : Nat := 2;
    let w : BargeWrite := { barge := 2, tier := 2, waiting := [], abandoned := false };
    let s : State := { bench with drives := { bench.drives with writes := [{ barge := 2, tier := 2, waiting := [], abandoned := false }] } };
    s.flt.halted = false ∧ (s.drives.writes.find? fun w => w.tier == t && w.barge == b) = some w ∧ w.waiting = [] ∧
    w.abandoned = false)
  ∧ (let t : Nat := 2; let b : Nat := 2;
    let w : BargeWrite := { barge := 2, tier := 2, waiting := [], abandoned := true };
    let s : State := { bench with drives := { bench.drives with writes := [{ barge := 2, tier := 2, waiting := [], abandoned := true }] } };
    s.flt.halted = false ∧ (s.drives.writes.find? fun w => w.tier == t && w.barge == b) = some w ∧ w.waiting = [] ∧
    w.abandoned = true)
  ∧ (let s : State := { bench with time := { bench.time with lastBerth := 0 } };
    s.boot.phase = .ready ∧ s.flt.halted = false ∧ s.time.chain / 262144 ≠ s.time.lastBerth / 262144)
  ∧ (let s : State := { bench with time := { bench.time with lastBerth := 2 ^ 30 } };
    s.time.chain / 262144 = s.time.lastBerth / 262144)
  ∧ (let s : State := { bench with time := { bench.time with lastCycle := 0 } };
    s.boot.phase = .ready ∧ s.flt.halted = false ∧ seconds s.time.chain ≠ seconds s.time.lastCycle)
  ∧ (let s : State := bench;
    keeperOff s = false ∧ keeperPaused s = false)
  ∧ (let slot : Nat := 3; let s : State := bench.modUnit 3 fun u => { u with fenced := true };
    slot < 32 ∧ (keeperOff s = false ∧ keeperPaused s = false) ∧ (s.unit slot).fenced = true ∧ (s.unit slot).health
    = .healthy ∧ (s.slot slot).st ≠ .fetShort) := by
  refine ⟨?_, ?_, ?_, ?_, ?_, ?_, ?_, ?_, ?_, ?_⟩ <;> decide +kernel

/-- Premises of PlacementCommands are met. -/
theorem witness_PlacementCommands :
  (let m : Mb := mb; let p : List Byte := [0, 0, 0, 2, 6, 4, 1, 1, 90, 80, 90, 80, 4, 50, 0, 0, 16, 0, 0, 0];
    let s : State := { bench with map := { bench.map with geo := { bench.map.geo with offeredGib := 0 } } };
    accepts setTierGeometrySpec s m p = true ∧ bitAt p 3 0 = false ∧ bitAt p 3 1 = true ∧ s.map.geo.offeredGib = 0)
  ∧ (let m : Mb := mb; let p : List Byte := [25, 8, 2, 1, 6, 4, 1, 1, 90, 80, 90, 80, 4, 50, 0, 0, 16, 0, 0, 0];
    let g : Geometry := geometryOf bench 25 8 2; let s : State := bench;
    accepts setTierGeometrySpec s m p = true ∧ bitAt p 3 0 = true ∧ bitAt p 3 1 = false ∧ g = geometryOf s (byteAt p
    0) (byteAt p 1) (byteAt p 2) ∧ allZero s = true ∧ byteAt p 1 + byteAt p 2 ≤ (healthyDrives s).length ∧
    populationOk s = true ∧ reserveOk s g (s.map.polNext.getD s.map.pol).ovlSoft = true)
  ∧ (let m : Mb := mb; let p : List Byte := []; let s : State := bench;
    accepts getCapacitySpec s m p = true ∧ outFits s m (capacityBytes s) = true)
  ∧ (let m : Mb := mb; let p : List Byte := [1, 0, 0, 0, 0, 0, 0, 0, 2, 0, 0, 0, 0, 0, 0, 0, 3, 0, 0, 0, 0, 0, 0, 0];
    let s : State := bench;
    (accepts (pageSpec 0xC202 fun v => decide (3 ≤ v ∧ v ≤ 6)) s m p = true) ∧ pinsFit s (setPin (ofLe p 0 8) (ofLe
    p 8 8) (byteAt p 16) s.map.pins) = true)
  ∧ (let m : Mb := mb; let p : List Byte := [1, 0, 0, 0, 0, 0, 0, 0, 2, 0, 0, 0, 0, 0, 0, 0, 1, 0, 0, 0, 0, 0, 0, 0];
    let s : State := bench;
    accepts (pageSpec 0xC203 fun v => v == 1 || v == 2 || v == 7) s m p = true ∧ pinsFit s (setPin (ofLe p 0 8)
    (ofLe p 8 8) (byteAt p 16) s.map.pins) = true)
  ∧ (let m : Mb := mb; let p : List Byte := [1, 0, 0, 0, 0, 0, 0, 0, 2, 0, 0, 0, 0, 0, 0, 0, 0, 0, 0, 0, 0, 0, 0, 0];
    let s : State := bench;
    accepts (pageSpec 0xC204 fun _ => true) s m p = true)
  ∧ (let m : Mb := mb; let p : List Byte := [1, 0, 0, 0, 0, 0, 0, 0, 2, 0, 0, 0, 0, 0, 0, 0, 1, 0, 0, 0, 0, 0, 0, 0];
    let work : List Nat := []; let s : State := bench;
    accepts (pageSpec 0xC205 fun v => decide (v ≤ 2)) s m p = true ∧ (s.crity.outings.countP fun o => o.open_ && o.kind == 0x0A) < 64 ∧ 4 ≤ limitOf s m.src ∧ (work = (s.map.pages.filter fun x => decide ((spanOf p).1 ≤ x.1) && decide (x.1 < (spanOf p).1 + (spanOf p).2) && x.2.outside (byteAt p 16)
        && pinAllows (pinOf s x.1) (byteAt p 16)).map (·.1)))
  ∧ (let m : Mb := mb; let p : List Byte := [1, 0, 0, 0, 0, 0, 0, 0, 2, 0, 0, 0, 0, 0, 0, 0]; let s : State := bench;
    accepts getHeatSpec s m p = true ∧ outFits s m (getHeatBytes p s) = true) := by
  refine ⟨?_, ?_, ?_, ?_, ?_, ?_, ?_, ?_⟩ <;> decide +kernel

/-- Premises of Replacements are met. -/
theorem witness_Replacements :
  (let m : Mb := mb; let p : List Byte := [35, 1, 0, 0]; let s : State := bench;
    accepts beginReplaceSpec s m p = true ∧ 32 ≤ byteAt p 0 ∧ bitAt p 1 0 = true)
  ∧ (let m : Mb := mb; let p : List Byte := [35, 0, 0, 0];
    let r : Replacement := { slot := 35, grace := 0, reprotect := false, expired := true, spd := benchSpd 0 };
    let s : State := { bench.modSlot 35 (fun x => { x with st := .off }) with dur := { bench.dur with repl := [{ slot := 35, grace := 0, reprotect := false, expired := true, spd := benchSpd 0 }] } };
    (accepts { beginReplaceSpec with
      opcode := 0xCA05, checks := fun p _ => [⟨0, decide (byteAt p 0 ≤ 47), 0x0007⟩] } s m p = true) ∧ replOf s (byteAt p 0) = some r ∧ r.ending = false ∧ (s.slot (byteAt p 0)).present = true ∧ (s.slot (byteAt p 0)).st = .off ∧ (bgOf s m.src).busy = false)
  ∧ (let slot : Nat := 3;
    let r : Replacement := { slot := 3, grace := 0, reprotect := true, expired := false, spd := benchSpd 0 };
    let s : State := { bench with dur := { bench.dur with repl := [{ slot := 3, grace := 0, reprotect := true, expired := false, spd := benchSpd 0 }] } };
    slot < 32 ∧ (s.flt.halted = false ∧ s.boot.phase.keeper = true) ∧ replOf s slot = some r ∧ r.expired = false ∧
    r.reprotect = true ∧ r.grace ≤ s.time.elapsed ∧ (s.unit (otherSlot slot)).health = .healthy)
  ∧ (let slot : Nat := 3;
    let r : Replacement := { slot := 3, grace := 0, reprotect := false, expired := false, spd := benchSpd 0 };
    let s : State := { bench.modUnit 3 (fun u => { u with health := .lost }) with dur := { (bench.modUnit 3 (fun u => { u with health := .lost })).dur with repl := [{ slot := 3, grace := 0, reprotect := false, expired := false, spd := benchSpd 0 }] } };
    slot < 32 ∧ (s.flt.halted = false ∧ s.boot.phase.keeper = true) ∧ replOf s slot = some r ∧ r.expired = false ∧
    r.reprotect = false ∧ r.grace ≤ s.time.elapsed ∧ (s.unit (otherSlot slot)).health = .healthy ∧ (s.unit
    slot).health = .lost)
  ∧ (let slot : Nat := 3; let s : State := bench.modUnit 3 fun u => { u with health := .held };
    slot < 32 ∧ s.flt.halted = false ∧ keeperPaused s = false ∧ ((s.unit slot).health = .held ∧ (s.unit slot).fenced
    = false) ∧ ((s.dom (domDC (slotChannel slot))).st = .on ∧ (s.dom (domDC (slotChannel slot))).padsHeld = false) ∧
    s.dur.repl = [] ∧ s.crity.outings = [])
  ∧ (let m : Mb := mb; let p : List Byte := [0, 0, 0, 0, 16, 0, 0, 0]; let s : State := bench;
    accepts getLossListSpec s m p = true ∧ outFits s m (lossList m.src p s) = true)
  ∧ (let m : Mb := mb; let p : List Byte := [7, 0, 0, 0, 0, 0, 0, 0];
    let e : LossEntry := { seq := 7, cause := 1, tier := 0, map := false, unit := 3, page := 9, mask := 1, time := 0 };
    let s : State := { bench with dur := { bench.dur with loss := [{ seq := 7, cause := 1, tier := 0, map := false, unit := 3, page := 9, mask := 1, time := 0 }] } };
    accepts clearLossEntrySpec s m p = true ∧ s.dur.loss.find? (·.seq == ofLe p 0 4) = some e ∧ isManaging s m.src =
    true ∧ e.cause ≠ 5) := by
  refine ⟨?_, ?_, ?_, ?_, ?_, ?_, ?_⟩ <;> decide +kernel

/-- Premises of CodecEngines are met. -/
theorem witness_CodecEngines :
  (let e : Nat := 3; let i : Item := ⟨false, 9, 9, none⟩;
    let s : State := bench.modEngine 3 fun x => { x with now := some ⟨false, 9, 9, none⟩ };
    e < 32 ∧ stalled s e = false ∧ (s.engine e).now = some i ∧ i.dec = false ∧ armedFor 0x0B e i.page (freeEngine e
    s) = none)
  ∧ (let e : Nat := 3; let i : Item := ⟨false, 9, 9, none⟩;
    let a : Armed := ⟨0x0B, false, false, 0, 0xFFFF, false, 0, 1, 0⟩;
    let s : State := { (bench.modEngine 3 fun x => { x with now := some ⟨false, 9, 9, none⟩ }) with pmc := { bench.pmc with armed := [⟨0x0B, false, false, 0, 0xFFFF, false, 0, 1, 0⟩] } };
    e < 32 ∧ stalled s e = false ∧ (s.engine e).now = some i ∧ i.dec = false ∧ armedFor 0x0B e i.page (freeEngine e
    s) = some a)
  ∧ (let e : Nat := 3; let i : Item := ⟨false, 9, 9, none⟩;
    let s : State := bench.modEngine 3 fun x => { x with now := some ⟨false, 9, 9, none⟩ };
    e < 32 ∧ stalled s e = false ∧ (s.engine e).now = some i ∧ i.dec = false)
  ∧ (let e : Nat := 3; let i : Item := ⟨true, 9, 9, none⟩;
    let s : State := bench.modEngine 3 fun x => { x with now := some ⟨true, 9, 9, none⟩ };
    e < 32 ∧ stalled s e = false ∧ (s.engine e).now = some i ∧ i.dec = true)
  ∧ (let e : Nat := 3; let i : Item := ⟨true, 9, 9, none⟩;
    let s : State := bench.modEngine 3 fun x => { x with now := some ⟨true, 9, 9, none⟩ };
    e < 32 ∧ (s.engine e).st = .inService ∧ (s.engine e).now = some i)
  ∧ (let e : Nat := 3; let j : Nat := 5; let s : State := bench.modEngine 3 fun x => { x with seg := some 5 };
    e < 32 ∧ (s.engine e).st = .inService ∧ (s.engine e).now = none ∧ (s.engine e).seg = some j)
  ∧ (let e : Nat := 3; let s : State := bench;
    e < 32 ∧ (s.engine e).now = none ∧ (s.engine e).seg = none)
  ∧ (let e : Nat := 3; let s : State := bench.modEngine 3 fun x => { x with st := .suspect };
    e < 32 ∧ (s.engine e).st = .suspect ∧ keeperOff s = false)
  ∧ (let e : Nat := 3; let s : State := bench.modEngine 3 fun x => { x with st := .testing };
    e < 32 ∧ (s.engine e).st = .testing) := by
  refine ⟨?_, ?_, ?_, ?_, ?_, ?_, ?_, ?_, ?_⟩ <;> decide +kernel

/-- Premises of BulkJobs are met. -/
theorem witness_BulkJobs :
  (let m : Mb := mb;
    let p : List Byte := [0x20, 0, 0, 0, 0, 0, 0, 0, 0, 16, 0, 0, 0, 0, 0, 0, 0, 16, 0, 0, 0, 0, 0, 0] ++ zeroBytes 40;
    let s : State := bench;
    accepts submitJobSpec s m p = true ∧ hamperBad s m.src (hamperOf p s.codec.nextJob s.time.chain) = none ∧
    s.codec.nextJob ≠ 0xFFFFFFFF ∧ 4 ≤ limitOf s m.src)
  ∧ (let e : Nat := 3; let id : Nat := 5;
    let j : Job := { id := 5, issuer := 0, func := 0x20, cls := 0, notify := false, srcAddr := 4096, srcLen := 64, dstAddr := 0, dstLen := 0, p0 := 0, p1 := 0, tag := 0, st := .running };
    let u : State := (let t : State := { bench with slu := { bench.slu with budget := 100000, cfg := { bench.slu.cfg with bulk := 0xFFFFFFFF } }, codec := { bench.codec with jobs := [{ id := 5, issuer := 0, func := 0x20, cls := 0, notify := false, srcAddr := 4096, srcLen := 64, dstAddr := 0, dstLen := 0, p0 := 0, p1 := 0, tag := 0, st := .running }] } }; (beginWork 3 ((chargeSluiceAt 112 64 t).modEngine 3 fun x => { x with seg := some 5 })).modJob 5 fun j => { j with engine := 3 });
    let s : State := { bench with slu := { bench.slu with budget := 100000, cfg := { bench.slu.cfg with bulk := 0xFFFFFFFF } }, codec := { bench.codec with jobs := [{ id := 5, issuer := 0, func := 0x20, cls := 0, notify := false, srcAddr := 4096, srcLen := 64, dstAddr := 0, dstLen := 0, p0 := 0, p1 := 0, tag := 0, st := .running }] } };
    e < 32 ∧ s.job? id = some j ∧ (j.st = .running ∨ j.st = .queued) ∧ j.cancel = none ∧ j.denied = false ∧ jobOnEngine s id = false ∧ s.flt.halted = false ∧ jobStop j = none ∧ mayRunBulk s e = true ∧ sluicePassesAt s j.sluice (spanSum j.srcSpans) = true ∧ (linesOf j.srcSpans).filter (fun l => !(importOf s l).isSome && jobHeld s false l) = [] ∧ (linesOf j.srcSpans).filter (fun l => (importOf s l).isSome && (aget s.codec.fetched l).isNone) = [] ∧ (u = (beginWork e ((chargeSluiceAt j.sluice (spanSum j.srcSpans) s).modEngine e fun x => { x with seg := some id })).modJob id fun j =>
        { j with engine := e }))
  ∧ (let e : Nat := 3; let id : Nat := 5;
    let j : Job := { id := 5, issuer := 0, func := 0x20, cls := 0, notify := false, srcAddr := 4096, srcLen := 64, dstAddr := 0, dstLen := 0, p0 := 0, p1 := 0, tag := 0, st := .running };
    let x : Job := { id := 5, issuer := 0, func := 0x20, cls := 0, notify := false, srcAddr := 4096, srcLen := 64, dstAddr := 0, dstLen := 0, p0 := 0, p1 := 0, tag := 0, st := .running, result := crcNext { id := 5, issuer := 0, func := 0x20, cls := 0, notify := false, srcAddr := 4096, srcLen := 64, dstAddr := 0, dstLen := 0, p0 := 0, p1 := 0, tag := 0, st := .running } (zeros 64), used := 64 };
    let ws : List (Nat × List Byte) := [];
    let s : State := { bench.modEngine 3 (fun x => { x with seg := some 5 }) with slu := { bench.slu with budget := 100000 }, codec := { (bench.modEngine 3 (fun x => { x with seg := some 5 })).codec with jobs := [{ id := 5, issuer := 0, func := 0x20, cls := 0, notify := false, srcAddr := 4096, srcLen := 64, dstAddr := 0, dstLen := 0, p0 := 0, p1 := 0, tag := 0, st := .running }] } };
    e < 32 ∧ stalled s e = false ∧ (s.engine e).seg = some id ∧ s.job? id = some j ∧ (linesOf j.srcSpans).any
    (jobPoison s) = false ∧ segAdvance s j = some (x, ws) ∧ (linesOf (ws.map fun y => (y.1, y.2.length))).filter
    (fun l => (importOf s l).isNone && jobHeld s true l) = [] ∧ sluicePassesAt s j.sluice (spanSum (ws.map fun y =>
    (y.1, y.2.length))) = true)
  ∧ (let j : Job := { id := 5, issuer := 0, func := 0x20, cls := 0, notify := false, srcAddr := 4096, srcLen := 64, dstAddr := 0, dstLen := 0, p0 := 0, p1 := 0, tag := 0, st := .running };
    (j.isStream = false ∧ j.isRs = false))
  ∧ (let e : Nat := 3; let id : Nat := 5;
    let j : Job := { id := 5, issuer := 0, func := 0x20, cls := 0, notify := false, srcAddr := 4096, srcLen := 64, dstAddr := 0, dstLen := 0, p0 := 0, p1 := 0, tag := 0, st := .running };
    let s : State := { bench.modEngine 3 (fun x => { x with seg := some 5 }) with dur := { bench.dur with hostPoison := [64] }, codec := { (bench.modEngine 3 (fun x => { x with seg := some 5 })).codec with jobs := [{ id := 5, issuer := 0, func := 0x20, cls := 0, notify := false, srcAddr := 4096, srcLen := 64, dstAddr := 0, dstLen := 0, p0 := 0, p1 := 0, tag := 0, st := .running }] } };
    e < 32 ∧ stalled s e = false ∧ (s.engine e).seg = some id ∧ s.job? id = some j ∧ (linesOf j.srcSpans).any
    (jobPoison s) = true)
  ∧ (let id : Nat := 5;
    let j : Job := { id := 5, issuer := 0, func := 0x20, cls := 0, notify := false, srcAddr := 4096, srcLen := 64, dstAddr := 0, dstLen := 0, p0 := 0, p1 := 0, tag := 0, st := .done };
    let s : State := { bench with codec := { bench.codec with jobs := [{ id := 5, issuer := 0, func := 0x20, cls := 0, notify := false, srcAddr := 4096, srcLen := 64, dstAddr := 0, dstLen := 0, p0 := 0, p1 := 0, tag := 0, st := .done }] } };
    s.job? id = some j ∧ j.open_ = false ∧ j.stopped + 67108864 ≤ s.time.elapsed)
  ∧ (let m : Mb := mb; let p : List Byte := [5, 0, 0, 0, 0, 0, 0, 0];
    let j : Job := { id := 5, issuer := 0, func := 0x20, cls := 0, notify := false, srcAddr := 4096, srcLen := 64, dstAddr := 0, dstLen := 0, p0 := 0, p1 := 0, tag := 0, st := .done };
    let s : State := { bench with codec := { bench.codec with jobs := [{ id := 5, issuer := 0, func := 0x20, cls := 0, notify := false, srcAddr := 4096, srcLen := 64, dstAddr := 0, dstLen := 0, p0 := 0, p1 := 0, tag := 0, st := .done }] } };
    accepts getJobSpec s m p = true ∧ 64 ≤ limitOf s m.src ∧ s.job? (ofLe p 0 4) = some j ∧ ofLe p 0 4 ≠ 0xFFFFFFFF)
  ∧ (let m : Mb := mb; let p : List Byte := [5, 0, 0, 0, 0, 0, 0, 0, 0, 0, 1, 0, 0, 0, 0, 0, 0, 1, 0, 0, 0, 0, 0, 0];
    let j : Job := { id := 5, issuer := 0, func := 1, cls := 0, notify := false, srcAddr := 4096, srcLen := 64, dstAddr := 0, dstLen := 0, p0 := 0, p1 := 0, tag := 0, st := .resumable };
    let s : State := { bench with codec := { bench.codec with jobs := [{ id := 5, issuer := 0, func := 1, cls := 0, notify := false, srcAddr := 4096, srcLen := 64, dstAddr := 0, dstLen := 0, p0 := 0, p1 := 0, tag := 0, st := .resumable }] } };
    accepts resumeJobSpec s m p = true ∧ s.job? (ofLe p 0 4) = some j ∧ j.st = .resumable ∧ dstBad s { j with dstAddr := ofLe p 8 8, dstLen := ofLe p 16 8, outSeg := 0 } 8 = none)
  ∧ (let m : Mb := mb; let p : List Byte := [5, 0, 0, 0, 0, 0, 0, 0];
    let j : Job := { id := 5, issuer := 0, func := 1, cls := 0, notify := false, srcAddr := 4096, srcLen := 64, dstAddr := 0, dstLen := 0, p0 := 0, p1 := 0, tag := 0, st := .resumable };
    let s : State := { bench with codec := { bench.codec with jobs := [{ id := 5, issuer := 0, func := 1, cls := 0, notify := false, srcAddr := 4096, srcLen := 64, dstAddr := 0, dstLen := 0, p0 := 0, p1 := 0, tag := 0, st := .resumable }] } };
    (accepts { resumeJobSpec with
      opcode := 0xC603, len := fun n => n == 8, resv := [(4, 0xFFFFFFFF)], checks := fun _ _ => [] } s m p = true) ∧ s.job? (ofLe p 0 4) = some j ∧ j.open_ = true ∧ jobOnEngine s (ofLe p 0 4) = false) := by
  refine ⟨?_, ?_, ?_, ?_, ?_, ?_, ?_, ?_, ?_⟩ <;> decide +kernel

/-- Premises of KeyRangeCommands are met. -/
theorem witness_KeyRangeCommands :
  (let m : Mb := mb; let p : List Byte := [1, 1, 255, 0, 0, 0, 0, 0, 1, 0, 0, 0] ++ zeroBytes 52;
    let s : State := { bench with keys := { bench.keys with ranges := List.replicate 16 {} } };
    accepts setKeyRangeSpec s m p = true ∧ (s.range (byteAt p 0 % 16)).valid = false ∧ (s.range (byteAt p 0 % 16)).deleted = false ∧ (s.range (byteAt p 0 % 16)).rekey = none ∧ bitAt p 1 0 = true ∧ ofLe p 4 4 + ofLe p 8 4 ≤ s.map.geo.offeredGib ∧ (bitAt p 1 2 = true → oneBit (byteAt p 2) = true) ∧ (bitAt p 1 5 = true → bitAt p 1 1 = false) ∧ (((List.range 16).any fun j => j != byteAt p 0 % 16 && (s.range j).valid
      && decide (ofLe p 4 4 < (s.range j).baseGib + (s.range j).sizeGib) && decide ((s.range j).baseGib < ofLe p 4 4 + ofLe p 8 4)) = false) ∧ heldOut s (ofLe p 4 4) (ofLe p 8 4) = false ∧ transportOk s m.src p = true ∧ rekeyTooSlow s s.slu.next (ofLe p 8 4 * gib) = false)
  ∧ (let m : Mb := mb; let p : List Byte := [0, 1, 15, 0, 0, 0, 0, 0, 64, 0, 0, 0] ++ zeroBytes 52;
    let s : State := bench;
    accepts setKeyRangeSpec s m p = true ∧ (s.range (byteAt p 0 % 16)).valid = true ∧ (s.range (byteAt p 0 % 16)).deleted = false ∧ (bitAt p 1 0 = true ∧ bitAt p 1 4 = false ∧ bitAt p 1 5 = false) ∧ structural p (s.range (byteAt p 0 % 16)) = false ∧ withAttrs p (s.range (byteAt p 0 % 16)) ≠ s.range (byteAt p 0 % 16) ∧ ofLe p 4 4 + ofLe p 8 4 ≤ s.map.geo.offeredGib ∧ (bitAt p 1 2 = true → oneBit (byteAt p 2) = true) ∧ (((List.range 16).any fun j => j != byteAt p 0 % 16 && (s.range j).valid
      && decide (ofLe p 4 4 < (s.range j).baseGib + (s.range j).sizeGib) && decide ((s.range j).baseGib < ofLe p 4 4 + ofLe p 8 4)) = false) ∧ rekeyTooSlow s s.slu.next (ofLe p 8 4 * gib) = false)
  ∧ (let m : Mb := mb; let p : List Byte := [0, 16] ++ zeroBytes 62; let s : State := bench;
    accepts setKeyRangeSpec s m p = true ∧ (s.range (byteAt p 0 % 16)).valid = true ∧ (s.range (byteAt p 0 %
    16)).deleted = false ∧ (bitAt p 1 0 = false ∧ bitAt p 1 4 = true ∧ bitAt p 1 5 = false))
  ∧ (let m : Mb := mb; let p : List Byte := zeroBytes 4; let s : State := bench;
    (accepts { setKeyRangeSpec with
      opcode := 0xC102, len := fun n => n == 4
      resv := [(0, 0xF0), (1, 0xFFFFFF)], checks := fun _ _ => [] } s m p = true) ∧ (s.range (byteAt p 0)).valid = true ∧ (s.range (byteAt p 0)).live = 1 ∧ (s.range (byteAt p 0)).erase = none ∧ (s.range (byteAt p 0)).epoch < 0xF00000 ∧ (bgOf s m.src).busy = false)
  ∧ (let m : Mb := mb; let p : List Byte := zeroBytes 64; let s : State := bench;
    (accepts { setKeyRangeSpec with
      opcode := 0xC103, resv := [(0, 0xF0), (1, 0xDF), (2, 0xFF), (3, 0xFF), (4, 0xFFFFFFFF), (8, 0xFFFFFFFF), (12, 2 ^ 160 - 1)]
      checks := fun p _ => [⟨32, rootKeyZero p, 0x0003⟩] } s m p = true) ∧ (s.range (byteAt p 0)).valid = true ∧ (bitAt p 1 5 = true → (s.range (byteAt p 0)).bypass = false) ∧ transportOk s m.src p = true ∧ (bgOf s m.src).busy = false)
  ∧ (let m : Mb := mb; let p : List Byte := zeroBytes 4; let s : State := bench;
    accepts getKeyRangeSpec s m p = true ∧ outFits s m (keyRangeBytes (byteAt p 0) s) = true)
  ∧ (let m : Mb := mb; let s : State := bench;
    acceptsStd { opcode := 0x4401, managing := true } s m = true ∧ s.flt.halted = false)
  ∧ (let m : Mb := mb; let s : State := bench;
    acceptsStd { opcode := 0x4400, managing := true } s m = true ∧ s.flt.halted = false ∧ s.keys.sanitize = none ∧ (bgOf s m.src).busy = false) := by
  refine ⟨?_, ?_, ?_, ?_, ?_, ?_, ?_, ?_⟩ <;> decide +kernel

/-- Premises of KeyUseLimits are met. -/
theorem witness_KeyUseLimits :
  (let r : Nat := 0; let s : State := bench.modRange 0 fun k => { k with useNew := 2 ^ 55 };
    r < 17 ∧ s.flt.halted = false ∧ ((s.range r).valid = true ∨ r = 16) ∧ (s.range r).live = 1 ∧ 2 ^ 55 ≤ (s.range
    r).useNew)
  ∧ (let r : Nat := 0; let s : State := bench.modRange 0 fun k => { k with live := 2, useOld := 2 ^ 56 };
    r < 17 ∧ s.flt.halted = false ∧ ((s.range r).valid = true ∨ r = 16) ∧ (s.range r).live = 2 ∧ (2 ^ 56 ≤ (s.range
    r).useNew ∨ 2 ^ 56 ≤ (s.range r).useOld))
  ∧ (let r : Nat := 0; let s : State := bench.modRange 0 fun k => { k with live := 2, useNew := 2 ^ 54 };
    r < 17 ∧ s.flt.halted = false ∧ ((s.range r).valid = true ∨ r = 16) ∧ (s.range r).live = 2 ∧ (s.range
    r).lateRaised = false ∧ 2 ^ 54 ≤ (s.range r).useNew) := by decide +kernel

/-- Premises of HeadRegisters are met. -/
theorem witness_HeadRegisters :
  (let head : Nat := 0; let i : Nat := 0; let c : HdmCfg := ⟨0, 2 ^ 36, 1, 256, 0, 0, false, true⟩;
    let s : State := bench;
    head < 8 ∧ i < 8 ∧ bar0On s head = true ∧ ((s.head head).decoders.getD i {}).committed = false ∧ (commitFails s head i { ((s.head head).decoders.getD i {}) with
      base := c.base, size := c.size, iw := c.iw, ig := c.ig, pos := c.pos, skip := c.skip, lock := c.lock, committed := true, notCommitted := false } c.cxlOk = none))
  ∧ (let head : Nat := 0; let i : Nat := 0; let k : Nat := 2;
    let c : HdmCfg := ⟨0, 2 ^ 38, 1, 256, 0, 0, false, true⟩; let s : State := bench;
    head < 8 ∧ i < 8 ∧ bar0On s head = true ∧ ((s.head head).decoders.getD i {}).committed = false ∧ (commitFails s head i { ((s.head head).decoders.getD i {}) with
      base := c.base, size := c.size, iw := c.iw, ig := c.ig, pos := c.pos, skip := c.skip, lock := c.lock, committed := true, notCommitted := false } c.cxlOk = some k))
  ∧ (let head : Nat := 0; let i : Nat := 0; let s : State := benchMapped;
    head < 8 ∧ i < 8 ∧ bar0On s head = true ∧ ((s.head head).decoders.getD i {}).committed = true ∧ ((s.head head).decoders.getD i {}).lock = false)
  ∧ (let head : Nat := 0; let i : Nat := 0; let s : State := bench;
    head < 8 ∧ i < 8 ∧ headUp s head = true ∧ (s.head head).resetting = false ∧ ((s.head head).decoders.getD i {}).committed = false)
  ∧ (let head : Nat := 0; let i : Nat := 0; let s : State := benchMapped;
    head < 8 ∧ ((s.head head).decoders.getD i {}).committed = true)
  ∧ (let head : Nat := 0; let s : State := bench.modHead 0 fun x => { x with biEnable := false };
    head < 8 ∧ bar0On s head = true ∧ (s.head head).biActive = false)
  ∧ (let head : Nat := 0; let enable : Bool := false; let biId : Bool := true;
    let u : State := bench.modHead 0 (fun x => { x with biEnable := false }); let s : State := bench;
    head < 8 ∧ bar0On s head = true ∧ (s.head head).biActive = true ∧ u = s.modHead head fun x => { x with biEnable := enable, biId := biId })
  ∧ (let head : Nat := 0; let n : Nat := 3; let s : State := bench;
    head < 8 ∧ n < 192 ∧ headUp s head = true ∧ (s.head head).d3 = false ∧ (s.head head).resetting = false ∧
    isManaging s head = true)
  ∧ (let head : Nat := 0; let v : Nat := 3; let s : State := bench;
    head < 8 ∧ v < 64 ∧ bar0On s head = true)
  ∧ (let head : Nat := 0; let addr : Nat := 0x10000; let s : State := bench;
    head < 8 ∧ isManaging s head = true ∧ (addr < 0x81000 ∨ 0x81C00 ≤ addr))
  ∧ (let head : Nat := 1; let s : State := bench;
    head < 8 ∧ headUp s head = true ∧ (s.head head).d3 = false ∧ (s.head head).resetting = false ∧ isManaging s head
    = false) := by
  refine ⟨?_, ?_, ?_, ?_, ?_, ?_, ?_, ?_, ?_, ?_, ?_⟩ <;> decide +kernel

/-- Premises of HeadLinks are met. -/
theorem witness_HeadLinks :
  (let head : Nat := 0; let s : State := bench;
    head < 8 ∧ headUp s head = true)
  ∧ (let head : Nat := 0; let s : State := bench;
    head < 8 ∧ (s.head head).present = true ∧ (s.head head).up = true)
  ∧ (let head : Nat := 0; let s : State := bench.modHead 0 fun x => { x with up := false };
    head < 8 ∧ (s.head head).present = true ∧ (s.head head).up = false)
  ∧ (let port : Nat := 0;
    port < 4)
  ∧ (let port : Nat := 0;
    let s : State := { bench with host := { bench.host with perst := [true, true, true, true] } };
    port < 4 ∧ s.host.perst.getD port true = true)
  ∧ (let head : Nat := 0; let width : Nat := 16; let rate : Nat := 64; let full : Nat := 16;
    let u : State := raiseHead 0 2 (le 1 16 ++ le 1 64 ++ le 1 1) (((bench.modHead 0 fun x => { x with up := false }).modHead 0 fun x => { x with up := true, width := 16, rate := 64, pme := false, memActive := true }).emit (.credits 0));
    let s : State := bench.modHead 0 fun x => { x with up := false };
    head < 8 ∧ mayTrain s head = true ∧ (s.head head).up = false ∧ (full = (if s.host.bifur.getD (portOf head) false then 8 else 16)) ∧ linkShape full width rate = true ∧ (u = raiseHead head 2 (le 1 width ++ le 1 rate ++ le 1 (b2n (rate == 64)))
        ((s.modHead head fun x => { x with
          up := true, width := width, rate := rate, pme := false, memActive := s.boot.mediaReady && s.boot.devReset.isNone }).emit (.credits head))) ∧ head < s.host.heads.length)
  ∧ (let head : Nat := 0; let s : State := bench;
    head < 8 ∧ (s.head head).up = true)
  ∧ (let head : Nat := 0; let s : State := bench.modHead 0 fun x => { x with d3 := true };
    head < 8 ∧ headUp s head = true) := by
  refine ⟨?_, ?_, ?_, ?_, ?_, ?_, ?_, ?_⟩ <;> decide +kernel

/-- Premises of StandardReads are met. -/
theorem witness_StandardReads :
  (let m : Mb := mb; let s : State := bench;
    acceptsStd { opcode := 0x0001 } s m = true ∧ outFits s m (le 2 0x1D9A ++ le 2 0x9720 ++ openBytes 0x0001 4 4 ++ le 8 s.boot.serial ++ le 1 16 ++ le 1 3) = true)
  ∧ (let m : Mb := mb; let s : State := bench;
    acceptsStd { opcode := 0x0002 } s m = true ∧ 8 ≤ limitOf s m.src)
  ∧ (let m : Mb := mb; let s : State := bench;
    acceptsStd { opcode := 0x0003 } s m = true ∧ 1 ≤ limitOf s m.src)
  ∧ (let m : Mb := mb; let p : List Byte := [1]; let s : State := bench;
    acceptsStd { opcode := 0x0100, sb := false } s m = true ∧ outFits s m (eventLogBytes s m.src (byteAt p 0)) = true ∧ p.length = 1 ∧ byteAt p 0 ≤ 3)
  ∧ (let m : Mb := mb; let s : State := bench;
    acceptsStd { opcode := 0x0102, sb := false } s m = true ∧ 4 ≤ limitOf s m.src)
  ∧ (let m : Mb := mb; let s : State := bench;
    acceptsStd { opcode := 0x0200, lmOwn := true } s m = true ∧ 80 ≤ limitOf s m.src)
  ∧ (let m : Mb := mb; let s : State := bench;
    acceptsStd { opcode := 0x0400 } s m = true ∧ 68 ≤ limitOf s m.src)
  ∧ (let m : Mb := mb; let p : List Byte := be 16 uuidOutings ++ [0, 0, 0, 0, 4, 0, 0, 0];
    let l : List Byte := outingLog bench; let s : State := bench;
    acceptsStd { opcode := 0x0401 } s m = true ∧ outFits s m ((l.drop (ofLe p 16 4)).take (ofLe p 20 4)) = true ∧ p.length = 24 ∧ logByUuid s (p.take 16) = some l ∧ ofLe p 16 4 + ofLe p 20 4 ≤ l.length)
  ∧ (let m : Mb := mb; let p : List Byte := zeroBytes 8; let s : State := bench;
    acceptsStd { opcode := 0x0500 } s m = true ∧ 8 ≤ limitOf s m.src ∧ p.length = 8)
  ∧ (let m : Mb := mb; let s : State := bench;
    acceptsStd { opcode := 0x4000 } s m = true ∧ 69 ≤ limitOf s m.src)
  ∧ (let m : Mb := mb; let s : State := bench;
    acceptsStd { opcode := 0x4200 } s m = true ∧ outFits s m (healthInfo s) = true)
  ∧ (let m : Mb := mb; let s : State := bench;
    acceptsStd { opcode := 0x4201 } s m = true ∧ 16 ≤ limitOf s m.src)
  ∧ (let m : Mb := mb; let p : List Byte := zeroBytes 16; let s : State := bench;
    acceptsStd { opcode := 0x4300 } s m = true ∧ outFits s m (poisonList m.src p s) = true ∧ p.length = 16) := by
  refine ⟨?_, ?_, ?_, ?_, ?_, ?_, ?_, ?_, ?_, ?_, ?_, ?_, ?_⟩ <;> decide +kernel

/-- Premises of StandardWrites are met. -/
theorem witness_StandardWrites :
  (let m : Mb := mb; let p : List Byte := [12]; let s : State := bench;
    acceptsStd { opcode := 0x0004 } s m = true ∧ p.length = 1 ∧ (8 ≤ byteAt p 0 ∧ byteAt p 0 ≤ 16) ∧ m.src < 8 ∧ 1 ≤ limitOf s m.src)
  ∧ (let m : Mb := mb; let p : List Byte := [1, 1, 50, 0, 0, 0, 0, 0, 0, 0, 0, 0]; let s : State := bench;
    acceptsStd { opcode := 0x4202, managing := true } s m = true ∧ p.length = 12 ∧ byteAt p 0 ≤ 31)
  ∧ (let m : Mb := mb; let p : List Byte := [1, 1, 0, 0, 0, 0]; let s : State := bench;
    acceptsStd { opcode := 0x0101, sb := false } s m = true ∧ p.length = 6 ∧ byteAt p 2 = 0 ∧ byteAt p 0 ≤ 3 ∧ bitAt p 1 0 = true)
  ∧ (let m : Mb := mb; let p : List Byte := [1, 0, 0, 0, 0, 0]; let s : State := bench;
    acceptsStd { opcode := 0x0101, sb := false } s m = true ∧ p.length = 6 + 2 * byteAt p 2 ∧ byteAt p 0 ≤ 3 ∧ bitAt p 1 0 = false ∧ ((((List.range (byteAt p 2)).map fun k => ofLe p (6 + 2 * k) 2).any fun x =>
      !(((s.head m.src).logs.getD (byteAt p 0) {}).records.any fun r => eventHandle r == x)) = false))
  ∧ (let m : Mb := mb; let p : List Byte := [1, 0, 1, 0]; let s : State := bench;
    acceptsStd { opcode := 0x0103, sb := false } s m = true ∧ (p.length = 4 ∨ p.length = 5) ∧ ((List.range 4).any fun i => decide (2 ≤ byteAt p i % 4)) = false)
  ∧ (let m : Mb := mb; let part : FwPart := ⟨true, false, false, 1, true, 0, 1, 1, 1, 0⟩; let s : State := bench;
    acceptsStd { opcode := 0x0201, managing := true, lmOwn := true } s m = true ∧ mustWait s = false ∧ (part.first = true ∧ part.last = false ∧ part.abort = false) ∧ s.lm.transfer = none ∧ ((part.slot == 1) == s.lm.activeB && !(s.boot.phase == .recovery)) = false)
  ∧ (let m : Mb := mb; let s : State := bench;
    acceptsStd { opcode := 0x0201, managing := true, lmOwn := true } s m = true ∧ mustWait s = false)
  ∧ (let m : Mb := mb; let p : List Byte := [1, 2]; let s : State := bench;
    acceptsStd { opcode := 0x0202, managing := true } s m = true ∧ p.length = 2 ∧ byteAt p 0 = 1 ∧ (byteAt p 1 = 1 ∨ byteAt p 1 = 2) ∧ (s.lm.image (byteAt p 1 == 2)).valid = true ∧ s.lm.activation = none)
  ∧ (let m : Mb := mb; let p : List Byte := [64, 0, 0, 0, 0, 0, 0, 0]; let s : State := bench;
    acceptsStd { opcode := 0x4301, sb := false } s m = true ∧ p.length = 8 ∧ s.flt.halted = false ∧ ofLe p 0 8 < s.map.geo.offeredGib * gib ∧ (rangeAt s (ofLe p 0 8)).isSome = true ∧ (isManaging s m.src || admits s m.src (ofLe p 0 8)) = true ∧ s.dur.loss.countP (·.cause == 6) < 1024)
  ∧ (let m : Mb := mb; let p : List Byte := [64, 0, 0, 0, 0, 0, 0, 0] ++ zeroBytes 64; let s : State := bench;
    acceptsStd { opcode := 0x4302, sb := false } s m = true ∧ p.length = 72 ∧ s.flt.halted = false ∧ ofLe p 0 8 < s.map.geo.offeredGib * gib ∧ (rangeAt s (ofLe p 0 8)).isSome = true ∧ (isManaging s m.src || admits s m.src (ofLe p 0 8)) = true)
  ∧ (let m : Mb := mb; let opcode : Nat := 0xBEEF; let s : State := bench;
    listed opcode = false ∧ acceptsStd { opcode := opcode } s m = true) := by
  refine ⟨?_, ?_, ?_, ?_, ?_, ?_, ?_, ?_, ?_, ?_, ?_⟩ <;> decide +kernel

/-- Premises of DramChannels are met. -/
theorem witness_DramChannels :
  (let c : Nat := 3; let s : State := bench.modChan 3 fun x => { x with replays := 1 };
    c < 16 ∧ chanRuns s c = true ∧ (0 < (s.chan c).replays ∧ (s.chan c).replays < 3) ∧ c < s.ddr.chans.length)
  ∧ (let c : Nat := 3; let s : State := bench.modChan 3 fun x => { x with replays := 3 };
    c < 16 ∧ chanRuns s c = true ∧ 3 ≤ (s.chan c).replays ∧ c < s.ddr.chans.length)
  ∧ (let c : Nat := 3; let wcrc : Bool := true; let u : State := bench.modChan 3 (fun x => { x with wcrc := 1 });
    let s : State := bench;
    c < 16 ∧ chanRuns s c = true ∧ (s.chan c).replays = 0 ∧ (u = (useChanInject c wcrc s).modChan c fun x => if wcrc then { x with wcrc := addSat 24 x.wcrc 1 } else { x with capar := addSat 24 x.capar 1 }))
  ∧ (let c : Nat := 3;
    let u : State := issueAll 3 ((bench.modChan 3 fun x => { x with replaying := true }).modChan 3 fun x => { x with replaying := false, replays := 0 });
    let s : State := bench.modChan 3 fun x => { x with replaying := true };
    c < 16 ∧ (s.chan c).replaying = true ∧ u = issueAll c (s.modChan c fun x => { x with replaying := false, replays := 0 }))
  ∧ (let c : Nat := 3; let k : Nat := 1; let s : State := bench.modChan 3 fun x => { x with sr := false };
    c < 16 ∧ chanRuns s c = true ∧ (s.chan c).sr = false ∧ (s.chan c).postponed.getD k 0 < 4)
  ∧ (let c : Nat := 3; let s : State := bench.modChan 3 fun x => { x with sr := false };
    c < 16 ∧ chanRuns s c = true ∧ s.power.srIdle ≠ 0 ∧ ((s.chan c).sr = false ∧ (s.chan c).training = false ∧
    (s.chan c).replaying = false) ∧ chanItems s c = 0 ∧ (s.chan c).idleAt + 2 ^ s.power.srIdle ≤ s.time.elapsed ∧
    (s.chan c).postponed.any (4 ≤ ·) = false ∧ (s.dom (domDC c)).votes &&& ~~~ (BitVec.ofNat 12 1024) = 0)
  ∧ (let c : Nat := 3;
    let s : State := (bench.modChan 3 fun x => { x with sr := false }).modDom (domDC 3) fun x => { x with votes := 1 };
    c < 16 ∧ chanRuns s c = true ∧ s.power.srIdle ≠ 0 ∧ ((s.chan c).sr = false ∧ (s.chan c).training = false ∧
    (s.chan c).replaying = false) ∧ chanItems s c = 0 ∧ (s.chan c).idleAt + 2 ^ s.power.srIdle ≤ s.time.elapsed ∧
    (s.chan c).postponed.any (4 ≤ ·) = false ∧ (s.dom (domDC c)).votes &&& ~~~ (BitVec.ofNat 12 1024) ≠ 0)
  ∧ (let c : Nat := 3; let k : Nat := 1; let s : State := bench;
    c < 16 ∧ k < 2 ∧ chanRuns s c = true) := by
  refine ⟨?_, ?_, ?_, ?_, ?_, ?_, ?_, ?_⟩ <;> decide +kernel

/-- Premises of DimmsAndTraining are met. -/
theorem witness_DimmsAndTraining :
  (let c : Nat := 3; let s : State := bench;
    c < 16 ∧ chanRuns s c = true ∧ (s.chan c).lastPoll + 16384 ≤ s.time.elapsed)
  ∧ (let c : Nat := 3; let pos : Nat := 1; let s : State := bench;
    (s.slot (2 * c + pos)).pgood = true ∧ (s.chan c).missed.getD pos 0 = 0)
  ∧ (let c : Nat := 3; let pos : Nat := 1; let s : State := bench;
    c < 16 ∧ pos < 2 ∧ chanRuns s c = true ∧ (s.slot (2 * c + pos)).pgood = true)
  ∧ (let c : Nat := 3;
    let s : State := { bench.modChan 3 (fun x => { x with training := true }) with boot := { bench.boot with phase := .bringup } };
    c < 16 ∧ chanRuns s c = true ∧ keeperPaused s = false ∧ s.boot.phase = .bringup ∧ (s.chan c).training = true)
  ∧ (let c : Nat := 3; let t : TrainingSet := ⟨3, 8800, true, [6, 7], []⟩;
    let s : State := { bench.modChan 3 (fun x => { x with training := true }) with boot := { bench.boot with phase := .bringup }, lm := { bench.lm with training := [⟨3, 8800, true, [6, 7], []⟩] } };
    c < 16 ∧ chanRuns s c = true ∧ keeperPaused s = false ∧ s.boot.phase = .bringup ∧ (s.chan c).training = true ∧
    s.lm.training.find? (setMatches s c) = some t)
  ∧ (let c : Nat := 3; let pos : Nat := 1;
    let s : State := { bench.modChan 3 (fun x => { x with training := true }) with boot := { bench.boot with phase := .bringup } };
    c < 16 ∧ chanRuns s c = true ∧ keeperPaused s = false ∧ s.boot.phase = .bringup ∧ (s.chan c).training = true ∧
    pos < 2 ∧ (s.unit (2 * c + pos)).spd.occupied = true ∧ (s.unit (2 * c + pos)).health ≠ .lost) := by
  refine ⟨?_, ?_, ?_, ?_, ?_, ?_⟩ <;> decide +kernel

/-- Premises of DriveCommands are met. -/
theorem witness_DriveCommands :
  (let d : Nat := 3; let cid : Nat := 7;
    let c : NvmeCmd := { cid := 7, why := .chunk 2 false, qp := 20, lba := 8, since := 0 };
    let u : State := (let t : State := bench.modDrive 3 fun x => { x with cmds := [{ cid := 7, why := .chunk 2 false, qp := 20, lba := 8, since := 0 }] }; (noteLatency 3 { cid := 7, why := .chunk 2 false, qp := 20, lba := 8, since := 0 } 0 (endCmd 3 7 t)).modDrive 3 fun x => { x with errors := 0 });
    let s : State := bench.modDrive 3 fun x => { x with cmds := [{ cid := 7, why := .chunk 2 false, qp := 20, lba := 8, since := 0 }] };
    d < 16 ∧ cmdOf s d cid = some c ∧ c.waiting = false ∧ c.abort = none ∧ u = (noteLatency d c (latencyUs s c) (endCmd d cid s)).modDrive d fun x => { x with errors := 0 })
  ∧ (let d : Nat := 3; let cid : Nat := 7; let st : Nat := 5;
    let c : NvmeCmd := { cid := 7, why := .dealloc, qp := 20, lba := 8, since := 0 };
    let u : State := (let t : State := bench.modDrive 3 fun x => { x with cmds := [{ cid := 7, why := .dealloc, qp := 20, lba := 8, since := 0 }] }; raiseAll (srcDrive 3 1) 0 (le 1 0x09 ++ le 2 5 ++ le 8 8) (noteLatency 3 { cid := 7, why := .dealloc, qp := 20, lba := 8, since := 0 } 0 (endCmd 3 7 t)));
    let s : State := bench.modDrive 3 fun x => { x with cmds := [{ cid := 7, why := .dealloc, qp := 20, lba := 8, since := 0 }] };
    d < 16 ∧ cmdOf s d cid = some c ∧ c.waiting = false ∧ c.abort = none ∧ st ≠ 0 ∧ (u = raiseAll (srcDrive d 1) 0 (le 1 (nvmeOpcode c.why) ++ le 2 st ++ le 8 c.lba)
      (noteLatency d c (latencyUs s c) (endCmd d cid s))))
  ∧ (let d : Nat := 3; let cid : Nat := 7; let at_ : Nat := 9;
    let c : NvmeCmd := { cid := 7, why := .dealloc, qp := 20, lba := 8, since := 0, abort := some 9 };
    let s : State := bench.modDrive 3 fun x => { x with cmds := [{ cid := 7, why := .dealloc, qp := 20, lba := 8, since := 0, abort := some 9 }] };
    d < 16 ∧ cmdOf s d cid = some c ∧ c.waiting = false ∧ c.abort = some at_)
  ∧ (let d : Nat := 3; let cid : Nat := 7;
    let c : NvmeCmd := { cid := 7, why := .dealloc, qp := 20, lba := 8, since := 0 };
    let u : State := (let t : State := bench.modDrive 3 fun x => { x with cmds := [{ cid := 7, why := .dealloc, qp := 20, lba := 8, since := 0 }] }; raiseAll (srcDrive 3 2) 0 (le 1 0x09 ++ le 1 20 ++ le 8 8) ((noteLatency 3 { cid := 7, why := .dealloc, qp := 20, lba := 8, since := 0 } 100000 (t.modCmd 3 7 fun c => { c with abort := some t.time.elapsed })).emit (.nvme 3 7 0x08 0 0)));
    let s : State := bench.modDrive 3 fun x => { x with cmds := [{ cid := 7, why := .dealloc, qp := 20, lba := 8, since := 0 }] };
    d < 16 ∧ cmdOf s d cid = some c ∧ c.waiting = false ∧ c.abort = none ∧ c.since + 1677721 ≤ s.time.elapsed ∧ (u = raiseAll (srcDrive d 2) 0 (le 1 (nvmeOpcode c.why) ++ le 1 c.qp ++ le 8 c.lba)
      ((noteLatency d c 100000 (s.modCmd d cid fun c => { c with abort := some s.time.elapsed })).emit (.nvme d cid 0x08 0 0))))
  ∧ (let d : Nat := 3; let cid : Nat := 7; let at_ : Nat := 5;
    let c : NvmeCmd := { cid := 7, why := .dealloc, qp := 1, lba := 8, since := 0, abort := some 5 };
    let s : State := bench.modDrive 3 fun x => { x with cmds := [{ cid := 7, why := .dealloc, qp := 1, lba := 8, since := 0, abort := some 5 }] };
    d < 16 ∧ cmdOf s d cid = some c ∧ c.abort = some at_ ∧ at_ + 1677721 ≤ s.time.elapsed)
  ∧ (let d : Nat := 3; let cid : Nat := 7; let rid : Nat := 1; let probe : Bool := false;
    let c : NvmeCmd := { cid := 7, why := .read 1 false, qp := 1, lba := 8, since := 0 };
    let u : State := ((bench.modDrive 3 fun x => { x with cmds := [{ cid := 7, why := .read 1 false, qp := 1, lba := 8, since := 0 }] }).modCmd 3 7 fun c => { c with hedged := true }).modDrive 3 (fun x => { x with hedges := x.hedges + 1 });
    let s : State := bench.modDrive 3 fun x => { x with cmds := [{ cid := 7, why := .read 1 false, qp := 1, lba := 8, since := 0 }] };
    d < 16 ∧ cmdOf s d cid = some c ∧ c.why = .read rid probe ∧ c.waiting = false ∧ c.hedged = false ∧ c.abort = none ∧ c.since + hedgeDelay (s.drive d) ≤ s.time.elapsed ∧ (u = (s.modCmd d cid fun c => { c with hedged := true }).modDrive d fun x =>
      if probe then { x with probeHedges := x.probeHedges + 1 } else { x with hedges := x.hedges + 1 })) := by
  refine ⟨?_, ?_, ?_, ?_, ?_, ?_⟩ <;> decide +kernel

/-- Premises of DriveBringUp are met. -/
theorem witness_DriveBringUp :
  (let d : Nat := 3;
    d < 16)
  ∧ (let d : Nat := 3;
    let s : State := { bench.modSlot 35 (fun x => { x with present := false }) with boot := { bench.boot with phase := .bringup, driveBatch := 0 } };
    d < 16 ∧ (s.slot (32 + d)).present = false ∧ s.boot.phase = .bringup ∧ s.boot.driveBatch = 0)
  ∧ (let d : Nat := 3; let s : State := bench;
    d < 16 ∧ (s.drive d).step = 0)
  ∧ (let d : Nat := 3; let lbas : Nat := 1000000; let queues : Nat := 32; let entries : Nat := 256;
    let format : Bool := true; let dealloc : Bool := true; let sanitize : Bool := true; let version : Bool := true;
    let s : State := bench.modDrive 3 fun x => { x with step := 6 };
    d < 16 ∧ keeperOff s = false ∧ keeperPaused s = false ∧ (s.drive d).step = 6 ∧ requirementMissed s d lbas queues
    entries format dealloc sanitize version = none)
  ∧ (let d : Nat := 3; let s : State := bench.modDrive 3 fun x => { x with step := 8 };
    d < 16 ∧ keeperOff s = false ∧ keeperPaused s = false ∧ ((s.drive d).step = 4 ∨ (s.drive d).step = 8))
  ∧ (let d : Nat := 3; let s : State := bench.modDrive 3 fun x => { x with step := 9, stepAt := 2 ^ 40 };
    d < 16 ∧ keeperOff s = false ∧ keeperPaused s = false ∧ (s.drive d).step = 9 ∧ stepLate s (s.drive d) = false)
  ∧ (let d : Nat := 3; let s : State := bench.modDrive 3 fun x => { x with step := 6 };
    d < 16 ∧ keeperOff s = false ∧ keeperPaused s = false ∧ (s.drive d).step ≠ 0 ∧ stepLate s (s.drive d) = false)
  ∧ (let d : Nat := 3; let s : State := bench.modDrive 3 fun x => { x with step := 5, stepAt := 0 };
    d < 16 ∧ keeperOff s = false ∧ keeperPaused s = false ∧ (s.drive d).step ≠ 0 ∧ stepLate s (s.drive d) = true)
  ∧ (let d : Nat := 3; let s : State := bench.modDrive 3 fun x => { x with sanitizing := true };
    d < 16 ∧ (s.drive d).sanitizing = true ∧ s.flt.halted = false) := by
  refine ⟨?_, ?_, ?_, ?_, ?_, ?_, ?_, ?_, ?_⟩ <;> decide +kernel

/-- Premises of LinkTraining are met. -/
theorem witness_LinkTraining :
  (let port : Nat := 0; let s : State := bench.modPort 0 fun x => { x with st := .absent };
    port < 2 ∧ (s.port port).st = .absent ∧ s.flt.halted = false)
  ∧ (let port : Nat := 0; let res : List LaneResult := List.replicate 16 ⟨3, false, 0⟩;
    let s : State := bench.modPort 0 fun x => { x with st := .align };
    port < 2 ∧ (s.port port).st = .align ∧ ((List.range 16).find? fun i => (res.getD i ⟨0, false, 0⟩).fail != 0) =
    none)
  ∧ (let port : Nat := 1; let i : Nat := 1; let res : List LaneResult := [⟨3, false, 0⟩, ⟨3, false, 2⟩];
    let s : State := bench.modPort 1 fun x => { x with st := .align };
    port < 2 ∧ (s.port port).st = .align ∧ ((List.range 16).find? fun i => (res.getD i ⟨0, false, 0⟩).fail != 0) =
    some i)
  ∧ (let port : Nat := 0; let depths : List Nat := List.replicate 16 32;
    let s : State := bench.modPort 0 fun x => { x with st := .deskew };
    port < 2 ∧ (s.port port).st = .deskew ∧ depths.all (· ≤ 32) = true)
  ∧ (let port : Nat := 0; let s : State := bench.modPort 0 fun x => { x with st := .handshake };
    port < 2 ∧ (s.port port).st = .handshake ∧ (s.port port).helloAt + 33 ≤ s.time.elapsed)
  ∧ (let port : Nat := 0; let s : State := bench.modPort 0 fun x => { x with st := .handshake };
    port < 2 ∧ (s.port port).st = .handshake ∧ (s.port port).helloRx = false)
  ∧ (let port : Nat := 0; let s : State := bench;
    port < 2 ∧ (s.port port).st = .up)
  ∧ (let port : Nat := 0; let s : State := bench.modPort 0 fun x => { x with st := .handshake };
    port < 2 ∧ (s.port port).st = .handshake)
  ∧ (let port : Nat := 0; let round : Nat := 0; let s : State := bench.modPort 0 fun x => { x with st := .handshake };
    port < 2 ∧ (s.port port).st = .handshake ∧ (round < 8 ∧ (s.port port).rounds.contains round = false) ∧ (s.port
    port).rounds.length < 7)
  ∧ (let port : Nat := 0; let round : Nat := 7;
    let s : State := bench.modPort 0 fun x => { x with st := .handshake, rounds := [6, 5, 4, 3, 2, 1, 0] };
    port < 2 ∧ port < s.skl.ports.length ∧ (s.port port).st = .handshake ∧ (round < 8 ∧ (s.port
    port).rounds.contains round = false) ∧ (s.port port).rounds.length = 7)
  ∧ (let port : Nat := 0;
    let s : State := bench.modPort 0 fun x => { x with st := .handshake, rounds := [7, 6, 5, 4, 3, 2, 1, 0], accepted := some (0, false) };
    port < 2 ∧ (s.port port).st = .handshake)
  ∧ (let port : Nat := 0;
    let s : State := bench.modPort 0 fun x => { x with st := .handshake, rounds := [7, 6, 5, 4, 3, 2, 1, 0], accepted := some (0, false), credits := true, readySent := true };
    port < 2 ∧ port < s.skl.ports.length ∧ (s.port port).st = .handshake ∧ (s.port port).readySent = true)
  ∧ (let port : Nat := 0; let s : State := bench;
    port < 2 ∧ ((s.port port).st = .up ∨ (s.port port).st = .handshake))
  ∧ (let port : Nat := 0; let e : Nat := 5;
    let s : State := bench.modPort 0 fun x => { x with st := .loopSerial, quiet := some 5 };
    port < 2 ∧ (s.port port).quiet = some e ∧ e ≤ s.time.elapsed) := by
  refine ⟨?_, ?_, ?_, ?_, ?_, ?_, ?_, ?_, ?_, ?_, ?_, ?_, ?_, ?_⟩ <;> decide +kernel

/-- Premises of LinkFrames are met. -/
theorem witness_LinkFrames :
  (let port : Nat := 0; let i : Nat := 0; let s : State := hold 0 { opcode := 0x33, pl := true } bench;
    port < 2 ∧ ((s.port port).st = .up ∧ (s.port port).xoffHeld = false) ∧ (s.port port).nextUnsent = some i ∧ (needsCredit s port (((s.port port).held.getD i { frame := {} }).frame) = true → (s.port port).avail.getD (((s.port port).held.getD i { frame := {} }).frame.vc) 0 ≠ 0) ∧ (s.port port).seqs + seqSpan (((s.port port).held.getD i { frame := {} }).frame) ≤ 2047)
  ∧ (let port : Nat := 0; let i : Nat := 0;
    let s : State := (hold 0 { opcode := 0x01, dst := 6 } bench).modPort 0 fun x => { x with avail := [0, 1, 1, 1] };
    port < 2 ∧ (s.port port).nextUnsent = some i ∧ needsCredit s port (((s.port port).held.getD i { frame := {} }).frame) = true ∧ (s.port port).avail.getD (((s.port port).held.getD i { frame := {} }).frame.vc) 0 = 0)
  ∧ (let port : Nat := 0; let f : Frame := { opcode := 0x01, dst := 6 };
    let crc : FrameCrc := { base := crc32 (wireBytes { opcode := 0x01, dst := 6 }) }; let s : State := bench;
    port < 2 ∧ (s.port port).st = .up ∧ frameCrcOk f crc = true ∧ seqDiff f.seq (s.port port).rxExpected = 0 ∧
    frameBytes f ≤ (s.port port).free)
  ∧ (let port : Nat := 0; let f : Frame := { opcode := 0x01, dst := 6 };
    let crc : FrameCrc := { base := crc32 (wireBytes { opcode := 0x01, dst := 6 }) + 1 }; let s : State := bench;
    port < 2 ∧ (s.port port).st = .up ∧ frameCrcOk f crc = false)
  ∧ (let port : Nat := 0; let f : Frame := { opcode := 0x01, dst := 6, seq := 4095 };
    let crc : FrameCrc := { base := crc32 (wireBytes { opcode := 0x01, dst := 6, seq := 4095 }) };
    let s : State := bench;
    port < 2 ∧ (s.port port).st = .up ∧ frameCrcOk f crc = true ∧ 2048 < seqDiff f.seq (s.port port).rxExpected)
  ∧ (let port : Nat := 0; let f : Frame := { opcode := 0x01, dst := 6, seq := 2048 };
    let crc : FrameCrc := { base := crc32 (wireBytes { opcode := 0x01, dst := 6, seq := 2048 }) };
    let s : State := bench;
    port < 2 ∧ (s.port port).st = .up ∧ frameCrcOk f crc = true ∧ (0 < seqDiff f.seq (s.port port).rxExpected ∧
    seqDiff f.seq (s.port port).rxExpected ≤ 2048))
  ∧ (let port : Nat := 0; let f : Frame := { opcode := 0x01, dst := 6 };
    let crc : FrameCrc := { base := crc32 (wireBytes { opcode := 0x01, dst := 6 }) };
    let s : State := bench.modPort 0 fun x => { x with free := 0 };
    port < 2 ∧ (s.port port).st = .up ∧ frameCrcOk f crc = true ∧ seqDiff f.seq (s.port port).rxExpected = 0 ∧
    (s.port port).free < frameBytes f)
  ∧ (let port : Nat := 0; let seq : Nat := 0; let i : Nat := 0;
    let s : State := bench.modPort 0 fun x => { x with held := [{ frame := { opcode := 0x33, pl := true }, sent := true }], txNext := 1 };
    port < 2 ∧ (s.port port).st = .up ∧ (s.port port).find seq = some i)
  ∧ (let port : Nat := 0; let seq : Nat := 9;
    let s : State := bench.modPort 0 fun x => { x with held := [{ frame := { opcode := 0x33, pl := true }, sent := true }], txNext := 1 };
    port < 2 ∧ (s.port port).st = .up ∧ (s.port port).find seq = none)
  ∧ (let port : Nat := 0;
    let s : State := bench.modPort 0 fun x => { x with held := [{ frame := { opcode := 0x33, pl := true }, sent := true }], txNext := 1 };
    port < 2 ∧ (s.port port).st = .up ∧ (s.port port).outstanding ≠ [] ∧ (s.port port).timerAt + 34 ≤ s.time.elapsed)
  ∧ (let port : Nat := 1; let s : State := bench;
    port < 2 ∧ (s.port port).st = .up)
  ∧ (let port : Nat := 1; let s : State := bench.modPort 1 fun x => { x with unacked := 1 };
    port < 2 ∧ (s.port port).st = .up ∧ 0 < (s.port port).unacked ∧ (s.port port).unackedAt + 2 ≤ s.time.elapsed)
  ∧ (let port : Nat := 1; let e : Nat := 5;
    let s : State := bench.modPort 1 fun x => { x with returnAt := some 5, returns := [1, 0, 0, 0] };
    port < 2 ∧ (s.port port).st = .up ∧ (s.port port).returnAt = some e ∧ e + 2 ≤ s.time.elapsed)
  ∧ (let port : Nat := 1; let crc : Nat := 0; let bytes : List Byte := zeroBytes 8; let s : State := bench;
    port < 2 ∧ ((s.port port).st = .up ∨ (s.port port).st = .handshake) ∧ crc16 bytes ≠ crc)
  ∧ (let port : Nat := 1; let crc : Nat := 0; let bytes : List Byte := zeroBytes 8; let s : State := bench;
    port < 2 ∧ ((s.port port).st = .up ∨ (s.port port).st = .handshake) ∧ crc16 bytes ≠ crc ∧ (((s.modPort port fun x => { x with leak := addSat 24 x.leak 1, ctrlDrop := addSat 24 x.ctrlDrop 1 }).port port).leak
        ≠ ((s.modPort port fun x => { x with leak := addSat 24 x.leak 1, ctrlDrop := addSat 24 x.ctrlDrop 1 }).port port).leakLimit))
  ∧ (let port : Nat := 1; let crc : Nat := 0; let bytes : List Byte := zeroBytes 8;
    let s : State := bench.modPort 1 fun x => { x with leak := x.leakLimit - 1, leakRetrain := true };
    port < 2 ∧ port < s.skl.ports.length ∧ (s.port port).st = .up ∧ crc16 bytes ≠ crc ∧ (s.port port).leakRetrain =
    true ∧ addSat 24 (s.port port).leak 1 = (s.port port).leakLimit) := by
  refine ⟨?_, ?_, ?_, ?_, ?_, ?_, ?_, ?_, ?_, ?_, ?_, ?_, ?_, ?_, ?_, ?_⟩ <;> decide +kernel

/-- Premises of LinkLimitsAndCommands are met. -/
theorem witness_LinkLimitsAndCommands :
  (let port : Nat := 0; let lane : Nat := 15;
    port < 2 ∧ lane < 16)
  ∧ (let port : Nat := 0;
    port < 2)
  ∧ (let port : Nat := 0; let s : State := bench.modPort 0 fun x => { x with st := .align, retraining := true };
    port < 2 ∧ (s.port port).retraining = true ∧ (s.port port).trainAt + 167772 ≤ s.time.elapsed)
  ∧ (let port : Nat := 0; let s : State := bench;
    port < 2 ∧ (s.port port).st = .up)
  ∧ (let port : Nat := 0; let s : State := bench.modPort 0 fun x => { x with st := .down };
    port < 2 ∧ (s.port port).st = .down ∧ (s.port port).disabled = false ∧ s.flt.halted = false ∧ (s.port
    port).downAt + 2 ^ 24 ≤ s.time.elapsed)
  ∧ (let m : Mb := mb; let p : List Byte := zeroBytes 4; let s : State := bench;
    accepts getLinkStatusSpec s m p = true ∧ (outFits s m (((List.range 16).map fun i => le 4 (sklReg (s.port (byteAt p 0)) (4 * i))).flatten
        ++ ((List.range 32).map fun i => le 4 (sklReg (s.port (byteAt p 0)) (0x100 + 4 * i))).flatten) = true))
  ∧ (let m : Mb := mb; let p : List Byte := [0, 1, 0, 16, 0, 0, 0, 0]; let s : State := bench;
    accepts retrainLinkSpec s m p = true ∧ actionAllowed (s.port (byteAt p 0)).st (byteAt p 1) = 2)
  ∧ (let m : Mb := mb; let p : List Byte := [0, 1, 0, 0, 0, 0, 0, 0];
    let s : State := bench.modPort 0 fun x => { x with st := .align };
    accepts retrainLinkSpec s m p = true ∧ actionAllowed (s.port (byteAt p 0)).st (byteAt p 1) = 1)
  ∧ (let m : Mb := mb; let p : List Byte := [0, 3, 0, 0, 0, 0, 0, 0]; let s : State := bench;
    accepts retrainLinkSpec s m p = true ∧ actionAllowed (s.port (byteAt p 0)).st (byteAt p 1) = 0) := by
  refine ⟨?_, ?_, ?_, ?_, ?_, ?_, ?_, ?_, ?_⟩ <;> decide +kernel

/-- Premises of ChainMessages are met. -/
theorem witness_ChainMessages :
  (let port : Nat := 0; let f : Frame := { opcode := 1, dst := 5, src := 6, cls := 3, line := 77 };
    let s : State := bench.modChain fun c => { c with exports := [(0, ⟨0, 8, 6, 0, false, false⟩)] };
    port < 2 ∧ (s.flt.halted = false ∧ assigned s = true ∧ f.dst = s.chain.id) ∧ exportAdmits s f.src f.line = true)
  ∧ (let port : Nat := 0; let f : Frame := { opcode := 2, dst := 5, src := 6, cls := 3, line := 77 };
    let s : State := bench.modChain fun c => { c with exports := [(0, ⟨0, 8, 6, 0, false, false⟩)] };
    port < 2 ∧ (s.flt.halted = false ∧ assigned s = true ∧ f.dst = s.chain.id) ∧ exportAdmits s f.src f.line = true)
  ∧ (let port : Nat := 0; let f : Frame := { opcode := 3, dst := 5, src := 6, cls := 3, line := 77 };
    let s : State := bench.modChain fun c => { c with exports := [(0, ⟨0, 8, 6, 0, false, false⟩)] };
    port < 2 ∧ (s.flt.halted = false ∧ assigned s = true ∧ f.dst = s.chain.id) ∧ exportAdmits s f.src f.line = true)
  ∧ (let port : Nat := 0; let f : Frame := { opcode := 6, dst := 5, src := 6, cls := 3, line := 77 };
    let s : State := bench.modChain fun c => { c with exports := [(0, ⟨0, 8, 6, 0, false, false⟩)] };
    port < 2 ∧ (s.flt.halted = false ∧ assigned s = true ∧ f.dst = s.chain.id) ∧ exportAdmits s f.src f.line = true)
  ∧ (let port : Nat := 0; let f : Frame := { opcode := 4, dst := 5, src := 6, cls := 3, line := 77, wtag := 9 };
    let s : State := bench.modChain fun c => { c with exports := [(0, ⟨0, 8, 6, 0, false, false⟩)] };
    port < 2 ∧ (s.flt.halted = false ∧ assigned s = true ∧ f.dst = s.chain.id) ∧ (s.chain.dups.any fun d => d.1 ==
    f.src && d.2.1 == f.wtag) = false ∧ exportAdmits s f.src f.line = true)
  ∧ (let port : Nat := 0; let f : Frame := { opcode := 5, dst := 5, src := 6, cls := 3, line := 77, wtag := 9 };
    let s : State := bench.modChain fun c => { c with exports := [(0, ⟨0, 8, 6, 0, false, false⟩)] };
    port < 2 ∧ (s.flt.halted = false ∧ assigned s = true ∧ f.dst = s.chain.id) ∧ (s.chain.dups.any fun d => d.1 ==
    f.src && d.2.1 == f.wtag) = false ∧ exportAdmits s f.src f.line = true)
  ∧ (let port : Nat := 0; let f : Frame := { opcode := 1, dst := 5, src := 6, cls := 3, line := 77 };
    let s : State := bench;
    port < 2 ∧ (s.flt.halted = false ∧ assigned s = true ∧ f.dst = s.chain.id) ∧ exportAdmits s f.src f.line = false)
  ∧ (let port : Nat := 0; let f : Frame := { opcode := 4, dst := 5, src := 6, cls := 3, line := 77, wtag := 9 };
    let s : State := bench.modChain fun c => { c with dups := [(6, 9, 4)] };
    port < 2 ∧ (s.flt.halted = false ∧ assigned s = true ∧ f.dst = s.chain.id) ∧ (s.chain.dups.any fun d => d.1 ==
    f.src && d.2.1 == f.wtag) = true)
  ∧ (let port : Nat := 0; let f : Frame := { opcode := 0x10, dst := 5, src := 6, line := 77 }; let s : State := bench;
    port < 2 ∧ (s.flt.halted = false ∧ assigned s = true ∧ f.dst = s.chain.id))
  ∧ (let port : Nat := 0; let f : Frame := { opcode := 0x10, dst := 5, src := 6, line := 77 };
    let x : Remote := benchRemote; let s : State := bench.modChain fun c => { c with remotes := [benchRemote] };
    port < 2 ∧ (s.flt.halted = false ∧ assigned s = true ∧ f.dst = s.chain.id) ∧ (s.chain.remotes.find? fun x =>
    !x.isWrite && x.home == f.src && x.line == f.line) = some x)
  ∧ (let port : Nat := 0; let f : Frame := { opcode := 0x20, dst := 5, src := 6, line := 77, tag := 3, code := 1 };
    let x : Remote := benchRemote; let s : State := bench.modChain fun c => { c with remotes := [benchRemote] };
    port < 2 ∧ (s.flt.halted = false ∧ assigned s = true ∧ f.dst = s.chain.id) ∧ (s.chain.remotes.find? fun x =>
    !x.isWrite && x.tag == f.tag && x.home == f.src && x.line == f.line) = some x)
  ∧ (let port : Nat := 0; let f : Frame := { opcode := 0x20, dst := 5, src := 6, line := 77, tag := 4, code := 1 };
    let s : State := bench.modChain fun c => { c with remotes := [benchRemote] };
    port < 2 ∧ (s.flt.halted = false ∧ assigned s = true ∧ f.dst = s.chain.id) ∧ (s.chain.remotes.find? fun x =>
    !x.isWrite && x.tag == f.tag && x.home == f.src && x.line == f.line) = none)
  ∧ (let port : Nat := 0; let f : Frame := { opcode := 0x21, dst := 5, src := 4, line := 77, tag := 3, code := 1 };
    let x : Remote := benchRemote; let s : State := bench.modChain fun c => { c with remotes := [benchRemote] };
    port < 2 ∧ (s.flt.halted = false ∧ assigned s = true ∧ f.dst = s.chain.id) ∧ (s.chain.remotes.find? fun x =>
    !x.isWrite && x.tag == f.tag && x.line == f.line) = some x)
  ∧ (let port : Nat := 0; let f : Frame := { opcode := 0x22, dst := 5, src := 6, wtag := 9 };
    let x : Remote := { benchRemote with opcode := 0x04, wtag := 9, tag := 4105 };
    let s : State := bench.modChain fun c => { c with remotes := [{ benchRemote with opcode := 0x04, wtag := 9, tag := 4105 }] };
    port < 2 ∧ (s.flt.halted = false ∧ assigned s = true ∧ f.dst = s.chain.id) ∧ (s.chain.remotes.find? fun x =>
    x.isWrite && x.wtag == f.wtag && x.home == f.src) = some x)
  ∧ (let port : Nat := 0; let f : Frame := { opcode := 0x23, dst := 5, src := 6, line := 77, tag := 3, code := 1 };
    let x : Remote := benchRemote; let s : State := bench.modChain fun c => { c with remotes := [benchRemote] };
    port < 2 ∧ (s.flt.halted = false ∧ assigned s = true ∧ f.dst = s.chain.id) ∧ (s.chain.remotes.find? fun x =>
    x.headerTag == f.tag && x.home == f.src && x.line == f.line) = some x ∧ f.code ≠ 3)
  ∧ (let port : Nat := 0; let f : Frame := { opcode := 0x23, dst := 5, src := 6, line := 77, tag := 3, code := 3 };
    let x : Remote := benchRemote; let s : State := bench.modChain fun c => { c with remotes := [benchRemote] };
    port < 2 ∧ (s.flt.halted = false ∧ assigned s = true ∧ f.dst = s.chain.id) ∧ (s.chain.remotes.find? fun x =>
    x.headerTag == f.tag && x.home == f.src && x.line == f.line) = some x ∧ f.code = 3)
  ∧ (let port : Nat := 0; let f : Frame := { opcode := 0x38, dst := 5, src := 6 };
    let s : State := bench.modChain fun c => { c with fenced := [0, 6] };
    port < 2 ∧ (s.flt.halted = false ∧ assigned s = true ∧ f.dst = s.chain.id))
  ∧ (let port : Nat := 0; let f : Frame := { opcode := 1 };
    let s : State := { bench with flt := { bench.flt with halted := true } };
    port < 2 ∧ (s.flt.halted = true ∨ assigned s = false ∨ f.dst ≠ s.chain.id)) := by
  refine ⟨?_, ?_, ?_, ?_, ?_, ?_, ?_, ?_, ?_, ?_, ?_, ?_, ?_, ?_, ?_, ?_, ?_, ?_⟩ <;> decide +kernel

/-- Premises of ChainLimits are met. -/
theorem witness_ChainLimits :
  (let rid : Nat := 3; let e : Nat := 5; let x : Remote := { benchRemote with retryAt := some 5 };
    let s : State := bench.modChain fun c => { c with remotes := [{ benchRemote with retryAt := some 5 }] };
    s.remote? rid = some x ∧ x.retryAt = some e ∧ e ≤ s.time.elapsed ∧ mayResend s x = true ∧ s.flt.halted = false)
  ∧ (let rid : Nat := 4105;
    let x : Remote := { benchRemote with opcode := 0x04, wtag := 9, tag := 4105, sent := some 0 };
    let s : State := bench.modChain fun c => { c with remotes := [{ benchRemote with opcode := 0x04, wtag := 9, tag := 4105, sent := some 0 }] };
    s.remote? rid = some x ∧ mayResend s x = false)
  ∧ (let rid : Nat := 4105;
    let x : Remote := { benchRemote with opcode := 0x04, wtag := 9, tag := 4105, sent := some 0 };
    let r : Req := benchReq;
    let s : State := bench.modChain fun c => { c with remotes := [{ benchRemote with opcode := 0x04, wtag := 9, tag := 4105, sent := some 0 }] };
    s.remote? rid = some x ∧ x.why = .req r ∧ x.isWrite = true ∧ x.since + 2 ^ 15 ≤ s.time.elapsed ∧ s.flt.halted =
    false)
  ∧ (let rid : Nat := 4105; let range : Nat := 0; let q : Nat := 7;
    let x : Remote := { benchRemote with opcode := 0x04, wtag := 9, tag := 4105, why := .tandem 0 7 };
    let s : State := bench.modChain fun c => { c with remotes := [{ benchRemote with opcode := 0x04, wtag := 9, tag := 4105, why := .tandem 0 7 }] };
    s.remote? rid = some x ∧ x.why = .tandem range q ∧ x.since + 2 ^ 15 ≤ s.time.elapsed ∧ s.flt.halted = false)
  ∧ (let rid : Nat := 4105; let range : Nat := 0; let page : Nat := 7;
    let x : Remote := { benchRemote with opcode := 0x04, wtag := 9, tag := 4105, why := .resync 0 7 };
    let s : State := bench.modChain fun c => { c with remotes := [{ benchRemote with opcode := 0x04, wtag := 9, tag := 4105, why := .resync 0 7 }] };
    s.remote? rid = some x ∧ x.why = .resync range page ∧ x.since + 2 ^ 15 ≤ s.time.elapsed ∧ s.flt.halted = false)
  ∧ (let m : Mb := mb; let p : List Byte := zeroBytes 16; let since : Nat := 5;
    let s : State := { bench with crity := { bench.crity with waiting := some (mb, 0xC208, zeroBytes 16, 5) } };
    s.crity.waiting = some (m, 0xC208, p, since) ∧ since + 2 ^ 15 ≤ s.time.elapsed)
  ∧ (let dev : Nat := 6; let line : Nat := 77; let x : ChainSnoop := ⟨6, 77, 0x10, 5, false, 0, 0, 0⟩;
    let s : State := { bench with dir := { bench.dir with chSnoops := [⟨6, 77, 0x10, 5, false, 0, 0, 0⟩] } };
    (s.dir.chSnoops.find? fun x => x.dev == dev && x.line == line) = some x ∧ x.since + 2 ^ 23 ≤ s.time.elapsed ∧
    (direction s dev).isSome = true) := by
  refine ⟨?_, ?_, ?_, ?_, ?_, ?_, ?_⟩ <;> decide +kernel

/-- Premises of ChainRoutes are met. -/
theorem witness_ChainRoutes :
  (let port : Nat := 0; let chainId : Nat := 6; let cutPort : Nat := 0; let s : State := bench;
    port < 2 ∧ (s.flt.halted = false ∧ assigned s = true) ∧ (chainId ≠ s.chain.id ∧ (s.chain.cuts.any fun c => c.2
    == (chainId, cutPort)) = false))
  ∧ (let port : Nat := 0; let chainId : Nat := 6; let cutPort : Nat := 0;
    let s : State := bench.modChain fun c => { c with cuts := [(0, 6, 0)] };
    port < 2 ∧ (s.flt.halted = false ∧ assigned s = true) ∧ (chainId ≠ s.chain.id ∧ (s.chain.cuts.any fun c => c.2
    == (chainId, cutPort)) = true))
  ∧ (let port : Nat := 0; let chainId : Nat := 6; let gen : Nat := 1; let bootId : Nat := 78;
    let s : State := bench.modChain fun c => { c with id := 0xFFF };
    port < 2 ∧ s.flt.halted = false ∧ (s.dur.tandem.filter fun t => t.buddy == chainId && t.bootId != bootId) = [] ∧
    (assigned s = false ∨ chainId = 0xFFF ∨ gen ≠ s.chain.gen))
  ∧ (let port : Nat := 0; let chainId : Nat := 6; let gen : Nat := 1; let bootId : Nat := 78; let s : State := bench;
    port < 2 ∧ (s.flt.halted = false ∧ assigned s = true) ∧ (s.dur.tandem.filter fun t => t.buddy == chainId &&
    t.bootId != bootId) = [] ∧ (chainId ≠ 0xFFF ∧ gen = s.chain.gen) ∧ ((consumeOp port 0x33 s).port port).st = .up)
  ∧ (let port : Nat := 1; let msg : ProbeMsg := ⟨0, 7, false, 0, 4, 4, false, false⟩; let s : State := bench;
    port < 2 ∧ s.flt.halted = false ∧ (port = (if msg.west then 0 else 1)) ∧ (s.chain.discovery = none ∧
    s.chain.probed = none) ∧ (msg.mode = 0 ∧ chainUsed s = false) ∧ msg.nextId ≤ 0xFFE ∧ ((consumeOp port 0x30
    s).port (1 - port)).st = .up)
  ∧ (let port : Nat := 1; let msg : ProbeMsg := ⟨0, 7, false, 0, 4, 4, false, false⟩;
    let s : State := bench.modPort 0 fun x => { x with st := .down };
    port < 2 ∧ s.flt.halted = false ∧ (port = (if msg.west then 0 else 1)) ∧ (s.chain.discovery = none ∧
    s.chain.probed = none) ∧ (msg.mode = 0 ∧ chainUsed s = false) ∧ msg.nextId ≤ 0xFFE ∧ ((consumeOp port 0x30
    s).port (1 - port)).st ≠ .up)
  ∧ (let port : Nat := 1; let msg : ProbeMsg := ⟨0, 7, false, 0, 4, 4, false, false⟩; let q : Nat × Nat := (9, 7);
    let s : State := bench.modChain fun c => { c with probed := some (9, 7) };
    port < 2 ∧ s.flt.halted = false ∧ (port = (if msg.west then 0 else 1)) ∧ s.chain.discovery = none ∧
    s.chain.probed = some q ∧ q.1 ≠ msg.initiator)
  ∧ (let port : Nat := 0; let msg : ProbeMsg := ⟨0, 7, false, 0, 4, 4, false, false⟩; let s : State := bench;
    port < 2 ∧ s.flt.halted = false ∧ s.chain.discovery = none ∧ (msg.busy = false ∧ msg.conflict = false ∧
    msg.nextId ≤ 0xFFF))
  ∧ (let port : Nat := 0; let msg : ProbeMsg := ⟨0, 7, false, 0, 5, 4, true, false⟩;
    let d : Discovery := ⟨false, 4, 0, 5, false, 3, 5⟩;
    let s : State := bench.modChain fun c => { c with discovery := some ⟨false, 4, 0, 5, false, 3, 5⟩ };
    port < 2 ∧ s.flt.halted = false ∧ s.chain.discovery = some d ∧ msg.busy = true)
  ∧ (let port : Nat := 1; let q : Nat × Nat := (4, 5);
    let s : State := bench.modChain fun c => { c with id := 0xFFF, probed := some (4, 5) };
    port < 2 ∧ s.flt.halted = false ∧ assigned s = false ∧ s.chain.probed = some q)
  ∧ (let port : Nat := 1; let msg : TopoMsg := ⟨1, 3, false, true, 16, 4, 6, 6, 4⟩; let s : State := bench;
    port < 2 ∧ s.flt.halted = false ∧ assigned s = true ∧ (s.chain.gen = msg.gen ∧ s.chain.hopLimit = msg.hopLimit))
  ∧ (let m : Mb := mb; let p : List Byte := [1, 0, 0, 0]; let s : State := bench;
    accepts chainDiscoverSpec s m p = true ∧ (bgOf s m.src).busy = false ∧ (s.chain.discovery = none ∧
    s.chain.probed = none) ∧ byteAt p 0 = 1 ∧ (m.src = 8 ∨ m.src < s.host.heads.length))
  ∧ (let m : Mb := mb; let p : List Byte := [8, 0, 0, 0]; let s : State := bench;
    accepts setHopLimitSpec s m p = true) := by
  refine ⟨?_, ?_, ?_, ?_, ?_, ?_, ?_, ?_, ?_, ?_, ?_, ?_, ?_⟩ <;> decide +kernel

/-- Premises of ChainWindows are met. -/
theorem witness_ChainWindows :
  (let m : Mb := mb; let p : List Byte := [0, 1, 1, 0, 8, 0, 0, 0, 4, 0, 0, 0, 6, 0, 0, 0] ++ zeroBytes 16;
    let s : State := bench;
    accepts setRemoteWindowSpec s m p = true ∧ (bitAt p 2 0 = true ∧ byteAt p 1 = 1) ∧ spanOk s (ofLe p 4 4) (ofLe p
    8 4) = true ∧ aget s.chain.exports (byteAt p 0) = none ∧ ((s.chain.exports ++ s.chain.imports).any fun x =>
    x.2.overlaps (ofLe p 4 4) (ofLe p 8 4)) = false ∧ (ofLe p 12 2 = 0xFFF ∨ peerCheck s (ofLe p 12 2) = 0))
  ∧ (let m : Mb := mb; let p : List Byte := [0, 0, 1, 0, 8, 0, 0, 0, 4, 0, 0, 0, 6, 0, 0, 0] ++ zeroBytes 16;
    let s : State := bench;
    accepts setRemoteWindowSpec s m p = true ∧ (bitAt p 2 0 = true ∧ byteAt p 1 = 0) ∧ spanOk s (ofLe p 4 4) (ofLe p
    8 4) = true ∧ spanUsed s (ofLe p 4 4 * 2 ^ 18) (ofLe p 8 4 * 2 ^ 18) = false ∧ aget s.chain.imports (byteAt p 0)
    = none ∧ ((s.chain.imports ++ s.chain.exports).any fun x => x.2.overlaps (ofLe p 4 4) (ofLe p 8 4)) = false ∧
    peerCheck s (ofLe p 12 2) = 0)
  ∧ (let m : Mb := mb; let p : List Byte := [0, 1, 0, 0, 8, 0, 0, 0, 4, 0, 0, 0, 6, 0, 0, 0] ++ zeroBytes 16;
    let x : Window := ⟨8, 4, 6, 0, false, false⟩;
    let s : State := bench.modChain fun c => { c with exports := [(0, ⟨8, 4, 6, 0, false, false⟩)] };
    accepts setRemoteWindowSpec s m p = true ∧ (bitAt p 2 0 = false ∧ byteAt p 1 = 1) ∧ aget s.chain.exports (byteAt
    p 0) = some x)
  ∧ (let m : Mb := mb; let p : List Byte := [0, 0, 0, 0, 0, 0, 0, 0]; let s : State := bench;
    accepts setTandemSpec s m p = true ∧ bitAt p 1 0 = false)
  ∧ (let m : Mb := mb; let p : List Byte := [0, 1, 0, 0, 0, 0, 0, 0]; let b : Nat := 6; let s : State := bench;
    accepts setTandemSpec s m p = true ∧ bitAt p 1 0 = true ∧ (s.range (byteAt p 0)).valid = true ∧ eastOf s.chain =
    some b ∧ (direction s b).isSome = true)
  ∧ (let port : Nat := 0;
    let s : State := bench.modChain fun c => { c with exports := [(0, ⟨0, 8, 6, 0, false, false⟩)] };
    port < 2 ∧ (s.flt.halted = false ∧ assigned s = true))
  ∧ (let port : Nat := 0; let idx : Nat := 2; let since : Nat := 5; let peer : Nat := 6; let at_ : Nat := 5;
    let x : Window := ⟨8, 4, 6, 0, false, false⟩; let m : Mb := mb; let p : List Byte := zeroBytes 32;
    let s : State := { (bench.modChain fun c => { c with wait := some ⟨.window 2 ⟨8, 4, 6, 0, false, false⟩, 6, 5⟩ }) with crity := { bench.crity with waiting := some (mb, 0xC401, zeroBytes 32, 5) } };
    port < 2 ∧ s.flt.halted = false ∧ s.chain.wait = some ⟨.window idx x, peer, since⟩ ∧ s.crity.waiting = some (m,
    0xC401, p, at_))
  ∧ (let port : Nat := 0; let result : Nat := 1; let idx : Nat := 2; let since : Nat := 5; let peer : Nat := 6;
    let at_ : Nat := 5; let x : Window := ⟨8, 4, 6, 0, false, false⟩; let m : Mb := mb;
    let p : List Byte := zeroBytes 32;
    let s : State := { (bench.modChain fun c => { c with wait := some ⟨.window 2 ⟨8, 4, 6, 0, false, false⟩, 6, 5⟩ }) with crity := { bench.crity with waiting := some (mb, 0xC401, zeroBytes 32, 5) } };
    port < 2 ∧ result ≠ 0 ∧ s.flt.halted = false ∧ s.chain.wait = some ⟨.window idx x, peer, since⟩ ∧
    s.crity.waiting = some (m, 0xC401, p, at_))
  ∧ (let v : WindowWait := ⟨.window 2 ⟨8, 4, 6, 0, false, false⟩, 6, 5⟩; let m : Mb := mb; let op : Nat := 0xC401;
    let at_ : Nat := 5; let p : List Byte := zeroBytes 32;
    let s : State := { (bench.modChain fun c => { c with wait := some ⟨.window 2 ⟨8, 4, 6, 0, false, false⟩, 6, 5⟩ }) with crity := { bench.crity with waiting := some (mb, 0xC401, zeroBytes 32, 5) } };
    s.chain.wait = some v ∧ s.crity.waiting = some (m, op, p, at_) ∧ v.since + 2 ^ 15 ≤ s.time.elapsed) := by
  refine ⟨?_, ?_, ?_, ?_, ?_, ?_, ?_, ?_, ?_⟩ <;> decide +kernel

/-- Premises of SpdmAndIde are met. -/
theorem witness_SpdmAndIde :
  (let who : Nat := 0; let s : State := bench;
    who < 9 ∧ responds s who = true)
  ∧ (let who : Nat := 0; let s : State := bench.modSpdm 0 fun c => { c with version := true };
    who < 9 ∧ responds s who = true ∧ (spdmOf s who).version = true)
  ∧ (let who : Nat := 0; let s : State := bench.modSpdm 0 fun c => { c with caps := true };
    who < 9 ∧ responds s who = true ∧ (spdmOf s who).caps = true)
  ∧ (let who : Nat := 0; let s : State := bench;
    who < 9 ∧ responds s who = true ∧ (spdmOf s who).algs = false)
  ∧ (let who : Nat := 0; let s : State := bench.modSpdm 0 fun c => { c with algs := true };
    who < 9 ∧ responds s who = true ∧ (spdmOf s who).algs = true)
  ∧ (let who : Nat := 0; let i : Nat := 3; let s : State := bench.modSpdm 0 fun c => { c with algs := true };
    who < 9 ∧ responds s who = true ∧ (spdmOf s who).algs = true ∧ (1 ≤ i ∧ i ≤ 6))
  ∧ (let who : Nat := 0; let session : Nat := 7; let s : State := bench.modSpdm 0 fun c => { c with algs := true };
    who < 9 ∧ responds s who = true ∧ (spdmOf s who).algs = true ∧ (spdmOf s who).sessions.any (·.id == session) =
    false ∧ ((spdmOf s who).sessions.length < (if who = 8 then 2 else 4)))
  ∧ (let who : Nat := 8; let session : Nat := 7;
    let s : State := bench.modSpdm 8 fun c => { c with algs := true, sessions := [⟨1, true⟩, ⟨2, true⟩] };
    who < 9 ∧ responds s who = true ∧ (spdmOf s who).algs = true ∧ (spdmOf s who).sessions.any (·.id == session) =
    false ∧ ((if who = 8 then 2 else 4) ≤ (spdmOf s who).sessions.length))
  ∧ (let who : Nat := 0; let session : Nat := 7;
    let s : State := bench.modSpdm 0 fun c => { c with algs := true, sessions := [⟨7, false⟩] };
    who < 9 ∧ responds s who = true ∧ (spdmOf s who).algs = true ∧ ((spdmOf s who).sessions.any fun x => x.id ==
    session && !x.open_) = true)
  ∧ (let who : Nat := 0; let session : Nat := 7;
    let s : State := bench.modSpdm 0 fun c => { c with algs := true, sessions := [⟨7, true⟩] };
    who < 9 ∧ responds s who = true ∧ sessionOpen s who session = true)
  ∧ (let who : Nat := 8; let session : Nat := 7;
    let s : State := bench.modSpdm 8 fun c => { c with algs := true, sessions := [⟨7, true⟩] };
    who < 9 ∧ responds s who = true ∧ sessionOpen s who session = true)
  ∧ (let who : Nat := 0; let session : Nat := 7;
    let s : State := bench.modSpdm 0 fun c => { c with algs := true, sessions := [⟨7, false⟩] };
    who < 9 ∧ responds s who = true ∧ sessionOpen s who session = false)
  ∧ (let head : Nat := 0; let session : Nat := 7; let op : IdeOp := .query;
    let x : Head := (bench.modSpdm 0 fun c => { c with algs := true, sessions := [⟨7, true⟩] }).head 0;
    let s : State := bench.modSpdm 0 fun c => { c with algs := true, sessions := [⟨7, true⟩] };
    head < 8 ∧ responds s head = true ∧ sessionOpen s head session = true ∧ ideStep op (s.head head) = some x)
  ∧ (let head : Nat := 0; let session : Nat := 7; let n : Nat := 3; let kind : IdeKind := .link;
    let s : State := bench.modSpdm 0 fun c => { c with algs := true, sessions := [⟨7, true⟩] };
    head < 8 ∧ responds s head = true ∧ sessionOpen s head session = true ∧ ((s.head head).ide.any fun x => x.stream
    == n && x.kind == kind) = false ∧ (((s.head head).ide.countP fun x => x.kind == kind) < (if kind = .selective
    then 4 else 1)))
  ∧ (let head : Nat := 0; let session : Nat := 7; let n : Nat := 3; let kind : IdeKind := .link;
    let s : State := (bench.modSpdm 0 fun c => { c with algs := true, sessions := [⟨7, true⟩] }).modHead 0 fun x => { x with ide := [⟨3, .link, false, true, false⟩] };
    head < 8 ∧ responds s head = true ∧ sessionOpen s head session = true ∧ ((s.head head).ide.any fun x =>
    (x.stream == n && x.kind == kind) && x.keyed) = true)
  ∧ (let head : Nat := 0; let session : Nat := 7; let n : Nat := 3; let kind : IdeKind := .link;
    let s : State := (bench.modSpdm 0 fun c => { c with algs := true, sessions := [⟨7, true⟩] }).modHead 0 fun x => { x with ide := [⟨3, .link, false, true, false⟩] };
    head < 8 ∧ responds s head = true ∧ sessionOpen s head session = true ∧ ((s.head head).ide.any fun x => x.stream
    == n && x.kind == kind) = true)
  ∧ (let head : Nat := 0; let session : Nat := 7; let op : IdeOp := .stop 3 .link;
    let s : State := bench.modSpdm 0 fun c => { c with algs := true, sessions := [⟨7, true⟩] };
    head < 8 ∧ responds s head = true ∧ sessionOpen s head session = true ∧ ideStep op (s.head head) = none)
  ∧ (let head : Nat := 0; let index : Nat := 3; let v : Nat := 0x1E98; let t : Nat := 2; let s : State := bench;
    head < 8 ∧ responds s head = true ∧ doeProtocols[index]? = some (v, t))
  ∧ (let head : Nat := 0; let entry : Nat := 1; let b : List Byte := ((cdat bench 0)[1]?).getD [];
    let s : State := bench;
    head < 8 ∧ responds s head = true ∧ (cdat s head)[entry]? = some b)
  ∧ (let head : Nat := 0; let s : State := bench;
    head < 8 ∧ responds s head = true) := by
  refine ⟨?_, ?_, ?_, ?_, ?_, ?_, ?_, ?_, ?_, ?_, ?_, ?_, ?_, ?_, ?_, ?_, ?_, ?_, ?_, ?_⟩ <;> decide +kernel

/-- Premises of CrityCommands are met. -/
theorem witness_CrityCommands :
  (let m : Mb := mb; let p : List Byte := []; let s : State := bench;
    accepts identifyWalbenSpec s m p = true ∧ outFits s m (identity m.src s) = true)
  ∧ (let m : Mb := mb; let p : List Byte := []; let s : State := bench;
    accepts { identifyWalbenSpec with opcode := 0xC001 } s m p = true ∧ outFits s m (healthSummary s) = true)
  ∧ (let m : Mb := mb; let p : List Byte := [3, 0, 0, 0]; let s : State := bench;
    (accepts { outingSpec with
      opcode := 0xC002, resv := [(1, 0xFFFFFF)], checks := fun p _ => [⟨0, decide (byteAt p 0 ≤ 7), 0x0007⟩] } s m p = true) ∧ (s.head (byteAt p 0)).present = true ∧ headUp s (byteAt p 0) = true)
  ∧ (let m : Mb := mb; let p : List Byte := [7, 0, 0, 0]; let o : Outing := { id := 7, kind := 1 };
    let s : State := { bench with crity := { bench.crity with outings := [{ id := 7, kind := 1 }] } };
    accepts getOutingSpec s m p = true ∧ outFits s m (outingBytes s o) = true ∧ findOuting s (ofLe p 0 4) = some o)
  ∧ (let m : Mb := mb; let p : List Byte := [0, 0, 0, 0, 0, 0, 9, 0]; let s : State := bench;
    (accepts { getOutingSpec with
      opcode := 0xC500, len := fun n => n == 8, resv := [(4, 0xFC), (5, 0xFF)]
      checks := fun p _ => [⟨6, decide (1 ≤ ofLe p 6 2 ∧ ofLe p 6 2 ≤ 1023), 0x0007⟩] } s m p = true) ∧ outFits s m (outingList m.src p s) = true)
  ∧ (let m : Mb := mb; let p : List Byte := [7, 0, 0, 0]; let o : Outing := { id := 7, kind := 1 };
    let s : State := { bench with crity := { bench.crity with outings := [{ id := 7, kind := 1 }] } };
    accepts outingSpec s m p = true ∧ findOuting s (ofLe p 0 4) = some o ∧ o.open_ = true ∧ pausable s o = true ∧
    o.state = 0)
  ∧ (let m : Mb := mb; let p : List Byte := [7, 0, 0, 0]; let o : Outing := { id := 7, kind := 1, state := 1 };
    let s : State := { bench with crity := { bench.crity with outings := [{ id := 7, kind := 1, state := 1 }] } };
    accepts { outingSpec with opcode := 0xC503 } s m p = true ∧ findOuting s (ofLe p 0 4) = some o ∧ o.open_ = true ∧ o.state = 1)
  ∧ (let m : Mb := mb; let p : List Byte := [7, 0, 0, 0]; let o : Outing := { id := 7, kind := 0x0A };
    let s : State := { bench with crity := { bench.crity with outings := [{ id := 7, kind := 0x0A }] } };
    accepts { outingSpec with opcode := 0xC504 } s m p = true ∧ findOuting s (ofLe p 0 4) = some o ∧ o.open_ = true ∧ abortable o = true)
  ∧ (let src : Nat := 0; let rc : Rc := .success; let wsc : Nat := 0; let out : List Byte := []; let r : Nat := 0;
    let id : Nat := 1;
    let s : State := bench.modBg 0 fun b => { b with op := some (.rekey 0 1), busy := true, result := some (.success, 0, []) };
    src < 9 ∧ (bgOf s src).op = some (.rekey r id) ∧ (bgOf s src).busy = true ∧ (bgOf s src).result = some (rc, wsc,
    out)) := by
  refine ⟨?_, ?_, ?_, ?_, ?_, ?_, ?_, ?_, ?_⟩ <;> decide +kernel

/-- Premises of DomainTransitions are met. -/
theorem witness_DomainTransitions :
  (let dom : Nat := 40; let s : State := bench.modDom 40 fun x => { x with st := .draining };
    dom < 44 ∧ (s.dom dom).st = .draining ∧ undrained s dom = 0)
  ∧ (let dom : Nat := 40; let s : State := bench.modDom 40 fun x => { x with st := .draining };
    dom < 44 ∧ (s.dom dom).st = .draining ∧ (s.dom dom).drainAt + 167772 ≤ s.time.elapsed)
  ∧ (let dom : Nat := 40; let s : State := bench.modDom 40 fun x => { x with st := .asking };
    dom < 44 ∧ (s.dom dom).st = .asking ∧ (s.dom dom).delayEnd = none ∧ blockRefuses s dom = false)
  ∧ (let dom : Nat := 40; let reply : HsReply := .refuse;
    let s : State := bench.modDom 40 fun x => { x with st := .asking };
    dom < 44 ∧ (s.dom dom).st = .asking ∧ (s.dom dom).delayEnd = none ∧ (reply = .refuse ∨ (reply = .accept ∧
    blockRefuses s dom = true)))
  ∧ (let dom : Nat := 40; let n : Nat := 5; let s : State := bench.modDom 40 fun x => { x with st := .asking };
    dom < 44 ∧ (s.dom dom).st = .asking ∧ (s.dom dom).delayEnd = none ∧ (s.dom dom).delays < 3 ∧ (1 ≤ n ∧ n ≤ 2 ^
    16))
  ∧ (let dom : Nat := 40; let n : Nat := 5;
    let s : State := bench.modDom 40 fun x => { x with st := .asking, delays := 3 };
    dom < 44 ∧ (s.dom dom).st = .asking ∧ (s.dom dom).delayEnd = none ∧ 3 ≤ (s.dom dom).delays ∧ (1 ≤ n ∧ n ≤ 2 ^
    16))
  ∧ (let dom : Nat := 40; let e : Nat := 5;
    let s : State := bench.modDom 40 fun x => { x with st := .asking, delayEnd := some 5 };
    dom < 44 ∧ (s.dom dom).st = .asking ∧ (s.dom dom).delayEnd = some e ∧ e ≤ s.time.elapsed)
  ∧ (let dom : Nat := 40; let s : State := bench.modDom 40 fun x => { x with st := .waking };
    dom < 44 ∧ (s.dom dom).st = .waking)
  ∧ (let dom : Nat := 40; let s : State := bench.modDom 40 fun x => { x with st := .waking };
    dom < 44 ∧ (dom < 6 ∨ 38 ≤ dom) ∧ (s.dom dom).st = .waking)
  ∧ (let d : Nat := 3; let s : State := bench.modDom 9 fun x => { x with st := .waking };
    d < 16 ∧ (s.dom (6 + d)).st = .waking)
  ∧ (let d : Nat := 3; let s : State := bench.modDom 25 fun x => { x with st := .waking };
    d < 16 ∧ (s.dom (22 + d)).st = .waking)
  ∧ (let dom : Nat := 40; let s : State := bench.modDom 40 fun x => { x with padsHeld := true };
    dom < 44 ∧ (s.dom dom).st = .on ∧ (s.dom dom).padsHeld = true ∧ s.boot.phase.keeper = true) := by
  refine ⟨?_, ?_, ?_, ?_, ?_, ?_, ?_, ?_, ?_, ?_, ?_, ?_⟩ <;> decide +kernel

/-- Premises of VotesAndModes are met. -/
theorem witness_VotesAndModes :
  (let m : Mb := mb; let p : List Byte := [40, 0, 0, 0]; let s : State := bench;
    accepts castVoteSpec s m p = true)
  ∧ (let m : Mb := mb; let p : List Byte := [40, 0, 0, 0]; let s : State := bench;
    accepts { castVoteSpec with opcode := 0xC701 } s m p = true)
  ∧ (let m : Mb := mb; let p : List Byte := [0xFF, 14, 0xFF, 0, 0, 0, 0, 0]; let s : State := bench;
    accepts setPowerModeSpec s m p = true)
  ∧ (let m : Mb := mb; let p : List Byte := [1, 0xFF, 0xFF, 0, 0, 0, 0, 0]; let s : State := bench;
    accepts setPowerModeSpec s m p = true ∧ (byteAt p 0 ≠ 0xFF ∧ byteAt p 1 = 0xFF ∧ byteAt p 2 = 0xFF))
  ∧ (let m : Mb := mb; let p : List Byte := [0xFF, 14, 0xFF, 0, 0, 0, 0, 0]; let s : State := bench;
    accepts setPowerModeSpec s m p = true ∧ (byteAt p 0 = 0xFF ∧ byteAt p 1 ≠ 0xFF ∧ byteAt p 2 = 0xFF))
  ∧ (let m : Mb := mb; let p : List Byte := [0xFF, 0xFF, 0x83, 0, 0, 0, 0, 0]; let s : State := bench;
    accepts setPowerModeSpec s m p = true ∧ (byteAt p 0 = 0xFF ∧ byteAt p 1 = 0xFF ∧ byteAt p 2 ≠ 0xFF ∧ bitAt p 2 7
    = true))
  ∧ (let m : Mb := mb; let p : List Byte := []; let s : State := bench;
    accepts getDomainStateSpec s m p = true ∧ 64 ≤ limitOf s m.src)
  ∧ (let m : Mb := mb; let p : List Byte := [40, 0, 0, 0]; let s : State := bench;
    accepts getWakeRecordSpec s m p = true ∧ 32 ≤ limitOf s m.src) := by
  refine ⟨?_, ?_, ?_, ?_, ?_, ?_, ?_, ?_⟩ <;> decide +kernel

/-- Premises of SupplyMonitors are met. -/
theorem witness_SupplyMonitors :
  (let r : Nat := 2; let sample : Nat := 10210000; let s : State := bench;
    r < 10 ∧ monitored s r = true ∧ sample < (monLevels r).1 ∧ (s.mon r).dipped = false)
  ∧ (let r : Nat := 2; let sample : Nat := 10210000;
    let s : State := bench.modMon 2 fun x => { x with dipped := true };
    r < 10 ∧ monitored s r = true ∧ sample < (monLevels r).1 ∧ (s.mon r).dipped = true)
  ∧ (let r : Nat := 2; let sample : Nat := 11100000;
    let s : State := bench.modMon 2 fun x => { x with below := true, dipped := true };
    r < 10 ∧ (s.mon r).below = true ∧ (monLevels r).1 + (monLevels r).2.2 < sample)
  ∧ (let s : State := { bench with power := { bench.power with brace := true } };
    settled s = true)
  ∧ (let r : Nat := 2; let sample : Nat := 9500000; let s : State := bench;
    r < 10 ∧ monitored s r = true ∧ sample ≤ (monLevels r).2.1)
  ∧ (let s : State := { bench with boot := { brownout := true, phase := .aux } };
    s.boot.brownout = true ∧ suppliesGood s = true ∧ maySequence s = true)
  ∧ (let sample : Nat := 3000000; let s : State := bench;
    s.boot.phase ≠ .auxOff ∧ sample < 3135000) := by
  refine ⟨?_, ?_, ?_, ?_, ?_, ?_, ?_⟩ <;> decide +kernel

/-- Premises of SlotPowerUp are met. -/
theorem witness_SlotPowerUp :
  (let slot : Nat := 3; let vout : Nat := 0; let s : State := bench.modSlot 3 fun x => { x with st := .starting };
    slot < 48 ∧ (s.slot slot).st = .starting ∧ (s.slot slot).entered + 167772 ≤ s.time.elapsed ∧ vout < 1000000)
  ∧ (let slot : Nat := 3; let s : State := bench.modSlot 3 fun x => { x with st := .ramp, vin := 12000000 };
    slot < 48 ∧ (s.slot slot).st = .ramp ∧ (s.slot slot).entered + (s.slot slot).vin * 2 ^ 24 / ((s.slot
    slot).cfg.rampRate * 10000000) ≤ s.time.elapsed)
  ∧ (let slot : Nat := 35; let s : State := bench.modSlot 35 fun x => { x with st := .qualify };
    slot < 48 ∧ (s.slot slot).st = .qualify ∧ (s.slot slot).timer = false ∧ (s.slot slot).qualAt + 16777 ≤
    s.time.elapsed)
  ∧ (let slot : Nat := 3; let s : State := bench.modSlot 3 fun x => { x with st := .qualify };
    slot < 48 ∧ startLate (s.slot slot) s.time.elapsed = true)
  ∧ (let slot : Nat := 3; let s : State := bench.modSlot 3 fun x => { x with st := .qualify };
    (s.slot slot).st = .qualify ∧ (s.slot slot).attempt = 0 ∧ (s.slot slot).cfg.retries = 3)
  ∧ (let slot : Nat := 3; let sense : Nat := 600000; let s : State := bench.modSlot 3 fun x => { x with st := .ramp };
    slot < 48 ∧ ((s.slot slot).st = .ramp ∨ (s.slot slot).st = .qualify) ∧ (s.slot slot).limit ≤ sense + slotOffset
    s slot)
  ∧ (let slot : Nat := 3; let s : State := bench;
    slot < 48 ∧ (s.slot slot).st = .on ∧ (s.slot slot).timer = false)
  ∧ (let slot : Nat := 3; let s : State := bench.modSlot 3 fun x => { x with timer := true };
    slot < 48 ∧ (s.slot slot).timer = true ∧ (s.slot slot).st.gateOn = true)
  ∧ (let slot : Nat := 3; let s : State := bench.modSlot 3 fun x => { x with timer := true };
    slot < 48 ∧ (s.slot slot).timer = true ∧ (s.slot slot).st.gateOn = true ∧ (s.slot slot).timerAt + tenthMs
    (s.slot slot).cfg.faultTime ≤ s.time.elapsed)
  ∧ (let slot : Nat := 3; let sense : Nat := 9000000; let s : State := bench;
    slot < 48 ∧ (s.slot slot).st.gateOn = true ∧ 3 * (s.slot slot).limit < sense + slotOffset s slot)
  ∧ (let slot : Nat := 3; let s : State := bench.modSlot 3 fun x => { x with st := .backoff, attempt := 1 };
    slot < 48 ∧ (s.slot slot).st = .backoff ∧ (s.slot slot).entered + tenthMs (1000 * 2 ^ ((s.slot slot).attempt -
    1)) ≤ s.time.elapsed ∧ s.power.brace = false)
  ∧ (let slot : Nat := 3;
    let s : State := { (bench.modSlot 3 fun x => { x with st := .backoff, attempt := 1 }) with power := { bench.power with brace := true } };
    slot < 48 ∧ (s.slot slot).st = .backoff ∧ (s.slot slot).entered + tenthMs (1000 * 2 ^ ((s.slot slot).attempt -
    1)) ≤ s.time.elapsed ∧ s.power.brace = true)
  ∧ (let slot : Nat := 3; let s : State := bench.modSlot 3 fun x => { x with st := .off, discharging := some 0 };
    slot < 48 ∧ (s.slot slot).discharges s.time.elapsed = true ∧ (s.slot slot).st = .off ∧ slot <
    s.slots.slots.length)
  ∧ (let slot : Nat := 3;
    let s : State := bench.modSlot 3 fun x => { x with st := .stopping, discharging := some 0, commanded := false };
    slot < 48 ∧ slot < s.slots.slots.length ∧ (s.slot slot).discharges s.time.elapsed = true ∧ (s.slot slot).st =
    .stopping ∧ (s.slot slot).commanded = false)
  ∧ (let slot : Nat := 3; let vout : Nat := 5000000; let s : State := bench.modSlot 3 fun x => { x with st := .off };
    slot < 48 ∧ (s.slot slot).st = .off ∧ (s.slot slot).discharging = none ∧ 1000000 < vout) := by
  refine ⟨?_, ?_, ?_, ?_, ?_, ?_, ?_, ?_, ?_, ?_, ?_, ?_, ?_, ?_, ?_⟩ <;> decide +kernel

/-- Premises of SlotCommands are met. -/
theorem witness_SlotCommands :
  (let m : Mb := mb; let p : List Byte := [3, 1, 0, 0];
    let s : State := bench.modSlot 3 fun x => { x with st := .off };
    accepts slotPowerSpec s m p = true ∧ byteAt p 1 = 1 ∧ (byteAt p 0 < 32 ∨ (s.slot (byteAt p 0)).present = true) ∧
    (s.slot (byteAt p 0)).st = .off)
  ∧ (let m : Mb := mb; let p : List Byte := [3, 0, 0, 0]; let s : State := bench;
    accepts slotPowerSpec s m p = true ∧ byteAt p 1 ≠ 1 ∧ losesData s [byteAt p 0] = false)
  ∧ (let m : Mb := mb; let p : List Byte := [3, 0, 2, 15, 250, 0, 50, 0, 20, 50, 50, 0, 0, 0, 0, 0];
    let s : State := bench;
    accepts slotConfigSpec s m p = true)
  ∧ (let m : Mb := mb; let p : List Byte := [3, 0, 2, 15, 250, 0, 50, 0, 20, 50, 50, 0, 0, 0, 0, 0];
    let s : State := bench;
    accepts slotConfigSpec s m p = true ∧ bitAt p 1 0 = false ∧ bitAt p 1 1 = false)
  ∧ (let m : Mb := mb; let p : List Byte := [3, 0, 0, 0];
    let s : State := bench.modSlot 3 fun x => { x with st := .latched };
    accepts slotClearLatchSpec s m p = true ∧ ((s.slot (byteAt p 0)).st = .latched ∨ ((s.slot (byteAt p 0)).st = .fetShort ∧ (s.slot (byteAt p 0)).vout < 1000000
        ∧ (s.slot (byteAt p 0)).lowAt + tenthMs 50 ≤ s.time.elapsed)))
  ∧ (let m : Mb := mb; let p : List Byte := [3, 0, 0, 0]; let s : State := bench;
    accepts { slotClearLatchSpec with opcode := 0xCA00, mgt := false, any := true, read := true } s m p = true ∧ 64 ≤ limitOf s m.src) := by
  refine ⟨?_, ?_, ?_, ?_, ?_, ?_⟩ <;> decide +kernel

/-- Premises of Sensors are met. -/
theorem witness_Sensors :
  (let point : Nat := 3; let temp : Int := 50000; let frozen : Bool := false; let s : State := bench;
    point < 64 ∧ lmRuns s = true ∧ (frozen = false ∨ dieUnchanged s point temp = true))
  ∧ (let s : State := stage 1 1 1 1 [] bench;
    s.boot.phase ≠ .auxOff ∧ s.lm.staged ≠ [])
  ∧ (let n : Nat := 5; let s : State := bench;
    lmRuns s = true ∧ (1 ≤ n ∧ n ≤ 1000))
  ∧ (let s : State := bench;
    s.boot.phase ≠ .auxOff ∧ s.lm.restarting = false)
  ∧ (let t : Nat := 9; let s : State := bench;
    s.boot.phase ≠ .auxOff ∧ t ∉ [0x00, 0x01, 0x05, 0x06, 0x08, 0x7E])
  ∧ (let s : State := { bench with lm := { bench.lm with i3c := true } };
    s.lm.i3c = true ∧ s.boot.phase ≠ .auxOff)
  ∧ (let sensor : Nat := 5; let s : State := bench;
    lmRuns s = true ∧ sensorExists sensor = true)
  ∧ (let sensor : Nat := 5; let r : Int := 10; let t : SensorThr := ⟨5, 1, 2, 3, 0, -1, -2⟩;
    let s : State := { bench with lm := { bench.lm with thresholds := [⟨5, 1, 2, 3, 0, -1, -2⟩] } };
    lmRuns s = true ∧ sensorExists sensor = true ∧ s.lm.thresholds.find? (·.sensor == sensor) = some t ∧ thrLevel t
    r ≠ 0)
  ∧ (let t : SensorThr := ⟨5, 1, 2, 3, 0, -1, -2⟩; let r : Int := 3;
    (t.fatalHigh ≤ r ∨ r ≤ t.fatalLow))
  ∧ (let sensor : Nat := 5; let s : State := bench;
    lmRuns s = true ∧ sensorExists sensor = true ∧ s.lm.thresholds.find? (·.sensor == sensor) = none) := by
  refine ⟨?_, ?_, ?_, ?_, ?_, ?_, ?_, ?_, ?_, ?_⟩ <;> decide +kernel

/-- Premises of FirmwareActivation are met. -/
theorem witness_FirmwareActivation :
  (let b : Bool := true; let s : State := bench;
    lmRuns s = true ∧ (s.lm.image b).valid = true ∧ s.lm.activation = none)
  ∧ (let b : Bool := true; let s : State := bench;
    lmRuns s = true ∧ (s.lm.image b).valid = true ∧ s.lm.activation = none ∧ (s.lm.image b).romDigest =
    s.lm.romDigest ∧ s.flt.halted = false ∧ s.boot.phase.keeper = true)
  ∧ (let a : Activation := { slotB := true, step := .lengthsman, who := none };
    let s : State := { bench with lm := { bench.lm with activation := some { slotB := true, step := .lengthsman, who := none } } };
    s.lm.activation = some a ∧ a.step = .lengthsman)
  ∧ (let a : Activation := { slotB := true, step := .keeper, who := none, reload := true };
    let s : State := { bench with lm := { bench.lm with activation := some { slotB := true, step := .keeper, who := none, reload := true } } };
    s.lm.activation = some a ∧ a.step = .keeper ∧ a.reload = true)
  ∧ (let a : Activation := { slotB := true, step := .keeper, who := none };
    let s : State := { bench with lm := { bench.lm with activation := some { slotB := true, step := .keeper, who := none } } };
    s.lm.activation = some a ∧ a.step = .keeper ∧ a.reload = false)
  ∧ (let a : Activation := { slotB := true, step := .keeper, who := none };
    let s : State := { bench with lm := { bench.lm with activation := some { slotB := true, step := .keeper, who := none } } };
    s.lm.activation = some a ∧ a.step = .keeper ∧ a.pauseAt + 20132659 ≤ s.time.elapsed)
  ∧ (let a : Activation := { slotB := true, step := .restoring, who := none };
    let s : State := { bench with lm := { bench.lm with activation := some { slotB := true, step := .restoring, who := none } } };
    s.lm.activation = some a ∧ a.step = .restoring ∧ a.reload = false)
  ∧ (let c : Nat := 2; let a : Activation := { slotB := true, step := .rolling 2, who := none };
    let s : State := { bench with lm := { bench.lm with activation := some { slotB := true, step := .rolling 2, who := none } } };
    c < 4 ∧ s.lm.activation = some a ∧ a.step = .rolling c)
  ∧ (let core : Nat := 3; let s : State := bench;
    core < 8 ∧ s.lm.cores.getLsbD core = true) := by
  refine ⟨?_, ?_, ?_, ?_, ?_, ?_, ?_, ?_, ?_⟩ <;> decide +kernel

/-- Premises of FaultCollectors are met. -/
theorem witness_FaultCollectors :
  (let coll : Nat := 3;
    let s : State := { bench with flt := { bench.flt with colls := bench.flt.colls.set 3 { fault := true, since := 0 } } };
    coll < 48 ∧ s.flt.halted = false ∧ quietDue s.time.elapsed (s.flt.colls.getD coll {}) = true ∧ coll < s.flt.colls.length)
  ∧ (let m : Mb := mb; let p : List Byte := [3, 2, 0, 0]; let s : State := bench;
    accepts getFaultStateSpec s m p = true ∧ outFits s m (faultStateBytes (byteAt p 0) (byteAt p 1) s) = true)
  ∧ (let m : Mb := mb; let p : List Byte := [3, 1, 0, 0, 0, 0, 0, 0]; let s : State := bench;
    accepts clearFaultSpec s m p = true)
  ∧ (let m : Mb := mb; let p : List Byte := zeroBytes 8; let s : State := bench;
    accepts getHistorySpec s m p = true ∧ outFits s m (historyBytes (byteAt p 0) s) = true)
  ∧ (let m : Mb := mb; let p : List Byte := [0, 0, 1, 0, 0xFF, 0, 0, 0]; let s : State := bench;
    accepts setReactionSpec s m p = true) := by decide +kernel

/-- Premises of CounterRegisters are met. -/
theorem witness_CounterRegisters :
  (let head : Nat := 0; let n : Nat := 5; let value : BitVec 32 := 0x01000007; let k : Nat := 2;
    let s : State := bench;
    head < 8 ∧ n < 192 ∧ headUp s head = true ∧ ((s.head head).d3 = false ∧ (s.head head).resetting = false) ∧
    isManaging s head = true ∧ n < s.pmc.cnt.length ∧ value.toNat % 2 ^ 24 + k < 2 ^ 24)
  ∧ (let head : Nat := 0; let n : Nat := 5; let value : BitVec 32 := 0x00FFFFFF; let k : Nat := 2;
    let s : State := bench;
    head < 8 ∧ n < 192 ∧ headUp s head = true ∧ ((s.head head).d3 = false ∧ (s.head head).resetting = false) ∧
    isManaging s head = true ∧ n < s.pmc.cnt.length ∧ 2 ^ 24 ≤ value.toNat % 2 ^ 24 + k ∧ selChain (s.pmc.sel.getD n
    0) = false ∧ selSample (s.pmc.sel.getD n 0) = false)
  ∧ (let head : Nat := 1; let n : Nat := 5; let s : State := bench;
    head < 8 ∧ n < 192 ∧ headUp s head = true ∧ ((s.head head).d3 = false ∧ (s.head head).resetting = false) ∧
    isManaging s head = false)
  ∧ (let head : Nat := 0; let bank : Nat := 5; let s : State := bench;
    head < 8 ∧ bank < 12 ∧ headUp s head = true ∧ ((s.head head).d3 = false ∧ (s.head head).resetting = false) ∧
    isManaging s head = true)
  ∧ (let head : Nat := 0; let s : State := bench;
    head < 8 ∧ headUp s head = true ∧ ((s.head head).d3 = false ∧ (s.head head).resetting = false) ∧ isManaging s
    head = true)
  ∧ (let n : Nat := 3; let inc : Nat := 7; let ev : PmcEvent := evOf 1 0 0;
    let s : State := { bench with pmc := { bench.pmc with sel := bench.pmc.sel.set 3 1, cnt := bench.pmc.cnt.set 3 0xFFFFFF } };
    n < 192 ∧ countsSelf s.pmc n = true ∧ selMatches (s.pmc.sel.getD n 0) ev = true ∧ 2 ^ 24 ≤ s.pmc.cnt.getD n 0 +
    inc ∧ selChain (s.pmc.sel.getD n 0) = false ∧ selSample (s.pmc.sel.getD n 0) = false)
  ∧ (let n : Nat := 3; let ev : PmcEvent := evOf 1 0 0; let x : PendSample := ⟨3, 1, 0, 0, 5⟩;
    let s : State := { bench with pmc := { bench.pmc with pend := [⟨3, 1, 0, 0, 5⟩] } };
    n < 192 ∧ s.pmc.pend.find? (fun y => y.top == n && y.master == ev.master && samePoint y.event ev.event &&
    (sampleKind ev.event != 3 || y.unit == ev.unit) && decide (y.skid ≤ 63)) = some x)
  ∧ (let n : Nat := 3; let ev : PmcEvent := evOf 1 0 0; let s : State := bench;
    n < 192 ∧ s.pmc.pend.find? (fun y => y.top == n && y.master == ev.master && samePoint y.event ev.event &&
    (sampleKind ev.event != 3 || y.unit == ev.unit) && decide (y.skid ≤ 63)) = none)
  ∧ (let n : Nat := 3;
    n < 192) := by
  refine ⟨?_, ?_, ?_, ?_, ?_, ?_, ?_, ?_, ?_⟩ <;> decide +kernel

/-- Premises of TestUnlocks are met. -/
theorem witness_TestUnlocks :
  (let m : Mb := mb; let s : State := bench;
    accepts testUnlockSpec s m [] = true ∧ 64 ≤ limitOf s m.src)
  ∧ (let m : Mb := mb; let p : List Byte := zeroBytes 40 ++ [1, 0, 0, 0, 1, 0, 0, 0] ++ zeroBytes 112;
    let n : BitVec 256 := 0; let t : Nat := 2 ^ 40;
    let s : State := { bench with pmc := { bench.pmc with nonce := some (0, 2 ^ 40) } };
    accepts testUnlockSpec s m p = true ∧ p ≠ [] ∧ s.pmc.nonce = some (n, t) ∧ (n.toNat = ofLe p 0 32 ∧
    s.time.elapsed < t + 60 * Config.second ∧ ofLe p 32 8 = s.boot.serial) ∧ (1 ≤ ofLe p 40 4 ∧ ofLe p 40 4 ≤ 3 ∧ 1
    ≤ ofLe p 44 4 ∧ ofLe p 44 4 ≤ 86400))
  ∧ (let n : BitVec 256 := 5; let t : Nat := 0;
    let s : State := { bench with pmc := { bench.pmc with nonce := some (5, 0) } };
    s.pmc.nonce = some (n, t) ∧ t + 60 * 2 ^ 24 ≤ s.time.elapsed)
  ∧ (let s : State := { bench with pmc := { bench.pmc with scope := 3 } };
    s.pmc.scope ≠ 0 ∧ s.pmc.unlockEnds ≤ s.time.elapsed)
  ∧ (let m : Mb := mb; let p : List Byte := [2, 6, 0, 0, 1, 0, 0, 0, 1, 0, 0, 0] ++ zeroBytes 20;
    let s : State := { bench with pmc := { bench.pmc with scope := 1 } };
    accepts setPerturbSpec s m p = true ∧ bitAt p 2 0 = false ∧ s.pmc.scope.getLsbD 0 = true ∧ byteAt p 1 ≠ 0)
  ∧ (let m : Mb := mb; let p : List Byte := [2, 0, 0, 0, 0, 0, 0, 0, 0, 0, 0, 0] ++ zeroBytes 20;
    let s : State := { bench with pmc := { bench.pmc with scope := 1 } };
    accepts setPerturbSpec s m p = true ∧ bitAt p 2 0 = false ∧ s.pmc.scope.getLsbD 0 = true ∧ byteAt p 1 = 0)
  ∧ (let m : Mb := mb; let p : List Byte := [0, 0, 1, 0, 0, 0, 0, 0, 0, 0, 0, 0] ++ zeroBytes 20;
    let s : State := { bench with pmc := { bench.pmc with scope := 1 } };
    accepts setPerturbSpec s m p = true ∧ bitAt p 2 0 = true)
  ∧ (let m : Mb := mb; let p : List Byte := [2, 6, 0, 0, 1, 0, 0, 0, 1, 0, 0, 0] ++ zeroBytes 20;
    let s : State := bench;
    accepts setPerturbSpec s m p = true ∧ bitAt p 2 0 = false ∧ s.pmc.scope.getLsbD 0 = false)
  ∧ (let entry : Nat := 2; let t : Nat := 7;
    let s : State := { bench with pmc := { bench.pmc with ptb := bench.pmc.ptb.set 2 { ends := some 7 } } };
    entry < 16 ∧ (s.pmc.ptb.getD entry {}).ends = some t ∧ t ≤ s.time.elapsed)
  ∧ (let m : Mb := mb; let p : List Byte := [1, 6, 4, 0, 0xFF, 0xFF, 1, 0] ++ zeroBytes 24;
    let s : State := { bench with pmc := { bench.pmc with scope := 2 } };
    accepts injectSpec s m p = true ∧ s.pmc.scope.getLsbD 1 = true ∧ byteAt p 0 = 1)
  ∧ (let m : Mb := mb; let p : List Byte := [0, 0, 0, 0xFF, 0xC8, 0x05, 0, 0] ++ zeroBytes 24;
    let s : State := { bench with pmc := { bench.pmc with scope := 2 } };
    accepts injectSpec s m p = true ∧ s.pmc.scope.getLsbD 1 = true ∧ byteAt p 0 = 0)
  ∧ (let m : Mb := mb; let p : List Byte := [2, 0, 0, 0, 0, 0, 0, 0] ++ zeroBytes 24;
    let s : State := { bench with pmc := { bench.pmc with scope := 2 } };
    accepts injectSpec s m p = true ∧ s.pmc.scope.getLsbD 1 = true ∧ byteAt p 0 = 2)
  ∧ (let m : Mb := mb; let p : List Byte := [1, 6, 4, 0, 0xFF, 0xFF, 1, 0] ++ zeroBytes 24; let s : State := bench;
    accepts injectSpec s m p = true ∧ s.pmc.scope.getLsbD 1 = false) := by
  refine ⟨?_, ?_, ?_, ?_, ?_, ?_, ?_, ?_, ?_, ?_, ?_, ?_, ?_⟩ <;> decide +kernel

/-- Premises of MainSequence are met. -/
theorem witness_MainSequence :
  (let f : FlashImage := ⟨{}, {}, false⟩; let s : State := {};
    s.boot.phase = .auxOff ∧ (imageIntact (if f.activeB then f.slotB else f.slotA) = true))
  ∧ (let f : FlashImage := ⟨{ romOk := false }, { lmOk := false }, false⟩; let s : State := {};
    s.boot.phase = .auxOff ∧ (imageIntact f.slotA = false ∧ imageIntact f.slotB = false))
  ∧ (let s : State := bench;
    s.boot.phase ≠ .auxOff)
  ∧ (let s : State := { bench with boot := { phase := .aux } };
    maySequence s = true ∧ s.boot.brownout = false ∧ s.boot.backoff = none ∧ (s.mon 3).settleAt + 1677721 ≤
    s.time.elapsed)
  ∧ (let step : Nat := 2; let s : State := { bench with boot := { phase := .sequence 2 } };
    (1 ≤ step ∧ step < 6) ∧ s.boot.phase = .sequence step)
  ∧ (let s : State := { bench with boot := { phase := .sequence 6 } };
    s.boot.phase = .sequence 6)
  ∧ (let step : Nat := 2; let s : State := { bench with boot := { phase := .sequence 2 } };
    s.boot.phase = .sequence step)
  ∧ (let e : Nat := 5; let s : State := { bench with boot := { phase := .aux, backoff := some 5 } };
    s.boot.backoff = some e ∧ maySequence s = true ∧ e ≤ s.time.elapsed) := by
  refine ⟨?_, ?_, ?_, ?_, ?_, ?_, ?_, ?_⟩ <;> decide +kernel

/-- Premises of BringUp are met. -/
theorem witness_BringUp :
  (let s : State := { bench with boot := { phase := .keepWake } };
    s.boot.phase = .keepWake ∧ (s.dom 1).st = .on ∧ lmRuns s = true ∧ s.flt.halted = false)
  ∧ (let s : State := { bench with boot := { bench.boot with phase := .bringup, driveBusy := true } };
    s.boot.phase = .bringup ∧ s.flt.halted = false ∧ s.boot.driveBusy = true ∧ s.boot.driveBatch = 2 ∧ (batchSlots s
    true 1).all (slotEnded s) = true)
  ∧ (let s : State := { bench with boot := { bench.boot with phase := .bringup, driveBusy := true, driveBatch := 1 } };
    s.boot.phase = .bringup ∧ s.flt.halted = false ∧ s.boot.driveBusy = true ∧ s.boot.driveBatch = 1 ∧ (batchSlots s
    true 0).all (slotEnded s) = true)
  ∧ (let s : State := { bench with boot := { bench.boot with phase := .bringup, dimmBusy := true } };
    s.boot.phase = .bringup ∧ s.flt.halted = false ∧ s.boot.dimmBusy = true ∧ (batchSlots s false (s.boot.dimmBatch
    - 1)).all (slotEnded s) = true)
  ∧ (let d : Nat := 3;
    let s : State := { bench.modDrive 3 (fun x => { x with step := 2 }) with boot := { bench.boot with phase := .bringup } };
    d < 16 ∧ s.boot.phase = .bringup ∧ s.flt.halted = false ∧ (s.drive d).step ≠ 0 ∧ s.boot.keeperAt + 3019898880 ≤
    s.time.elapsed)
  ∧ (let s : State := { bench with boot := { bench.boot with phase := .bringup } };
    s.boot.phase = .bringup ∧ bringupDone s = true ∧ populationOk s = true) := by
  refine ⟨?_, ?_, ?_, ?_, ?_, ?_⟩ <;> decide +kernel

/-- Premises of ReferencesAndReset are met. -/
theorem witness_ReferencesAndReset :
  (let s : State := bench;
    s.boot.pwrOk = true)
  ∧ (let s : State := bench;
    s.boot.phase ≠ .auxOff ∧ s.boot.internalOsc = false)
  ∧ (let s : State := { bench with boot := { bench.boot with internalOsc := true } };
    s.boot.internalOsc = true)
  ∧ (let s : State := { bench with power := { bench.power with brace := true } };
    lmRuns s = true ∧ resetRefused s = true)
  ∧ (let s : State := bench;
    lmRuns s = true ∧ resetRefused s = false)
  ∧ (let s : State := { bench with boot := { bench.boot with devReset := some 0 } };
    s.boot.devReset.isSome = true ∧ s.flt.halted = false ∧ lmRuns s = true)
  ∧ (let s : State := bench;
    lmRuns s = true ∧ s.boot.phase ≠ .recovery) := by
  refine ⟨?_, ?_, ?_, ?_, ?_, ?_, ?_⟩ <;> decide +kernel
end

section
/-! PROOF. The scope statements: what a step runs, where a command stops, and the reset state's memory. -/

namespace Sys2Proof.Machine

/-! ### The table and the reset state -/

@[simp] theorem decodeTableWord_eq_none (nbits w : Nat) : decodeTableWord nbits w = none := rfl

@[simp] theorem withFetchWord_eq_self (s : State) (nbits w : Nat) : s.withFetchWord nbits w = s := by
  simp [State.withFetchWord]

/-- Settles O2: no row of the table has bits, so there is no word to put in front of the queue. -/
theorem noWordSpells : Obligations.NoWordSpells := fun nbits w s =>
  ⟨decodeTableWord_eq_none nbits w, withFetchWord_eq_self s nbits w⟩

@[simp] theorem Memory.wf_nil : Memory.wf [] = true := rfl

@[simp] theorem mem_reset : State.reset.mem = [] := rfl

/-- Settles O4: memory lists no byte at reset. -/
theorem resetMemoryCanonical : Obligations.ResetMemoryCanonical := by
  rw [Obligations.ResetMemoryCanonical, mem_reset]
  exact Memory.wf_nil

/-! ### One step -/

theorem step_of_pending_cons {s : State} {c : Instr} {rest : List Instr} (h : s.pending = c :: rest) :
    step s = exec c { s with pending := rest } := by
  simp [step, h]

theorem step_of_pending_nil {s : State} (h : s.pending = []) : step s = releaseHeld s := by
  simp [step, h, idle]

theorem releaseHeld_of_mustWait {s : State} (h : mustWait s = true) : releaseHeld s = .next s := by
  simp [releaseHeld, h]

theorem releaseHeld_of_held_nil {s : State} (h : s.held = []) : releaseHeld s = .next s := by
  simp [releaseHeld, h]

theorem releaseHeld_of_runHeld_next {s t : State} {w : HeldCmd} {rest : List HeldCmd} (hm : mustWait s = false)
    (hh : s.held = w :: rest)
    (hr : runHeld w { s with held := rest, crity := { s.crity with releasing := true } } = .next t) :
    releaseHeld s = .next { t with crity := { t.crity with releasing := false } } := by
  simp [releaseHeld, hm, hh, hr]

/-- Settles O1: the queue decides between the front command and the mailbox commands that wait, and each clause is one
case of what those come to. -/
theorem stepRunsFront : Obligations.StepRunsFront := by
  refine ⟨?front, ?noneHeld, ?mustWait, ?released⟩
  case front => exact fun c rest s => step_of_pending_cons rfl
  case noneHeld => exact fun s hp hh => (step_of_pending_nil hp).trans (releaseHeld_of_held_nil hh)
  case mustWait => exact fun s hp hm => (step_of_pending_nil hp).trans (releaseHeld_of_mustWait hm)
  case released =>
    exact fun w rest s hp hm hh t hr => (step_of_pending_nil hp).trans (releaseHeld_of_runHeld_next hm hh hr)

/-! ### Where a command stops -/

/-- How a command to a target ends, if `t` is the state its meaning comes to: at a unit through `onUnit`, with the
number of such units; at a mailbox and at the device always in `t` (log 54). -/
def answerAt : Target → State → Out
  | .unit k n, t => onUnit n k.count t
  | .mailbox _, t => .next t
  | .device, t => .next t

theorem answerAt_of_ok {g : Target} (h : g.ok = true) (t : State) : answerAt g t = .next t := by
  cases g with
  | unit k n => exact if_pos (of_decide_eq_true h)
  | mailbox m => rfl
  | device => rfl

theorem answerAt_unit_of_not_ok {k : UnitKind} {n : Nat} (h : (Target.unit k n).ok = false) (t : State) :
    answerAt (.unit k n) t = .fault .noSuchUnit :=
  if_neg (of_decide_eq_false h)

/-- A command answers the next state or stops at a unit that does not exist. -/
theorem answerAt_cases (g : Target) (t : State) :
    answerAt g t = .next t ∨ answerAt g t = .fault .noSuchUnit ∧ g.ok = false := by
  cases g with
  | unit k n =>
    cases h : (Target.unit k n).ok with
    | true => exact .inl (answerAt_of_ok h t)
    | false => exact .inr ⟨answerAt_unit_of_not_ok h t, rfl⟩
  | mailbox m => exact .inl rfl
  | device => exact .inl rfl

/-- Every command ends as its target says: the bound that its meaning checks is the count of the units it names. -/
theorem exec_eq_answerAt (c : Instr) (s : State) : ∃ t, exec c s = answerAt c.target t := by
  cases c <;> exact ⟨_, rfl⟩

/-- Settles O6: every command ends as its target says, so it stops at a unit that does not exist and nowhere else. -/
theorem commandsStopOnUnitsAlone : Obligations.CommandsStopOnUnitsAlone := by
  intro c s
  obtain ⟨t, ht⟩ := exec_eq_answerAt c s
  rw [ht]
  refine ⟨?wellFormed, ?noSuchUnit, ?notRefused, ?stops⟩
  case wellFormed => exact fun h => ⟨t, answerAt_of_ok h t⟩
  case noSuchUnit =>
    intro k n hg hw
    rw [Instr.wf, hg] at hw
    rw [hg]
    exact answerAt_unit_of_not_ok hw t
  case notRefused =>
    intro r h
    obtain hn | ⟨hf, -⟩ := answerAt_cases c.target t
    · cases hn.symm.trans h
    · cases hf.symm.trans h
  case stops =>
    intro f h
    obtain hn | ⟨hf, hw⟩ := answerAt_cases c.target t
    · cases hn.symm.trans h
    · cases hf.symm.trans h
      exact ⟨rfl, hw⟩

end Sys2Proof.Machine
end

section
/-! PROOF. What an outcome and a mailbox command's own work hand on, as a property of every state they name. -/

namespace Sys2Proof.Machine

/-! ### Every state that an outcome, or a mailbox command's own work, hands on -/

/-- Every next state of an outcome has a property. -/
def NextAll (P : State → Prop) (o : Out) : Prop := ∀ t, o = .next t → P t

theorem nextAll_next {P : State → Prop} {t : State} (h : P t) : NextAll P (.next t) := by
  rintro _ ⟨⟩
  exact h

theorem nextAll_onUnit {P : State → Prop} {n bound : Nat} {t : State} (h : P t) : NextAll P (onUnit n bound t) := by
  unfold onUnit
  split
  · exact nextAll_next h
  · rintro _ ⟨⟩

/-- A message of the chain that this device does not take changes nothing. -/
theorem nextAll_onMsg {P : State → Prop} {port : Nat} {f : Frame} {own : State → State} {s : State} (hs : P s)
    (h : P (own (consume port f s))) : NextAll P (onMsg port f own s) := by
  refine nextAll_onUnit ?_
  split
  · exact hs
  · exact h

theorem nextAll_onMaint {P : State → Prop} {port opcode : Nat} {own : State → State} {s : State} (hs : P s)
    (h : P (own (consumeOp port opcode s))) : NextAll P (onMaint port opcode own s) := by
  refine nextAll_onUnit ?_
  split
  · exact hs
  · exact h

/-- Every state that a mailbox command's own work hands on has a property. -/
def CmdRes.All (P : State → Prop) : CmdRes → Prop
  | .ok _ t | .done _ _ _ t | .bg _ t | .bgDone _ _ t | .wait t => P t
  | .fail _ _ | .std _ _ => True

section
variable {P : State → Prop} {t : State} {out : List Byte} {rc : Rc} {w d : Nat} {op : BgOp}

@[simp] theorem CmdRes.all_ok : (CmdRes.ok out t).All P ↔ P t := Iff.rfl
@[simp] theorem CmdRes.all_done : (CmdRes.done rc w out t).All P ↔ P t := Iff.rfl
@[simp] theorem CmdRes.all_bg : (CmdRes.bg op t).All P ↔ P t := Iff.rfl
@[simp] theorem CmdRes.all_bgDone : (CmdRes.bgDone op out t).All P ↔ P t := Iff.rfl
@[simp] theorem CmdRes.all_wait : (CmdRes.wait t).All P ↔ P t := Iff.rfl
@[simp] theorem CmdRes.all_fail : (CmdRes.fail w d).All P := trivial
@[simp] theorem CmdRes.all_std : (CmdRes.std rc w).All P := trivial

theorem CmdRes.all_ite {c : Prop} [Decidable c] {a b : CmdRes} (ha : a.All P) (hb : b.All P) :
    (if c then a else b).All P := by
  split
  · exact ha
  · exact hb

theorem CmdRes.all_needLen {p : List Byte} {n : Nat} {r : CmdRes} (h : r.All P) : (needLen p n r).All P := by
  unfold needLen
  split
  · exact h
  · trivial

theorem CmdRes.all_onOuting {p : List Byte} {k : Outing → CmdRes} {s : State} (h : ∀ o, (k o).All P) :
    (onOuting p k s).All P := by
  unfold onOuting
  (repeat' split) <;> simp [h]

theorem CmdRes.all_poisonAddr {src : Nat} {p : List Byte} {s : State} {k : Nat → CmdRes} (h : ∀ l, (k l).All P) :
    (poisonAddr src p s k).All P := by
  unfold poisonAddr
  dsimp only
  (repeat' split) <;> simp [h]

end

/-- A Crity command leaves memory alone, or keeps its form, as its own work does. -/
theorem runCrity_mem {spec : CmdSpec} {m : Mb} {p : List Byte} {own : State → CmdRes} {s : State}
    (h : (own s).All (·.mem = s.mem)) : (runCrity spec m p own s).mem = s.mem := by
  refine runCrity_keeps (·.mem = s.mem) (fun a b _ hab hb => hab.trans hb) rfl ?_ ?_ ?_ ?_ ?_ <;> intros <;> simp_all

theorem runCrity_wf {spec : CmdSpec} {m : Mb} {p : List Byte} {own : State → CmdRes} {s : State}
    (hs : Memory.wf s.mem = true) (h : (own s).All (Memory.wf ·.mem = true)) :
    Memory.wf (runCrity spec m p own s).mem = true := by
  refine runCrity_keeps (Memory.wf ·.mem = true) (fun a b _ hab hb => hab ▸ hb) hs ?_ ?_ ?_ ?_ ?_ <;>
    intros <;> simp_all

theorem runStd_mem {spec : StdSpec} {m : Mb} {p : List Byte} {own : State → CmdRes} {s : State}
    (h : (own s).All (·.mem = s.mem)) : (runStd spec m p own s).mem = s.mem := by
  refine runStd_keeps (·.mem = s.mem) (fun a b _ hab hb => hab.trans hb) rfl ?_ ?_ ?_ ?_ ?_ <;> intros <;> simp_all

theorem runStd_wf {spec : StdSpec} {m : Mb} {p : List Byte} {own : State → CmdRes} {s : State}
    (hs : Memory.wf s.mem = true) (h : (own s).All (Memory.wf ·.mem = true)) :
    Memory.wf (runStd spec m p own s).mem = true := by
  refine runStd_keeps (Memory.wf ·.mem = true) (fun a b _ hab hb => hab ▸ hb) hs ?_ ?_ ?_ ?_ ?_ <;>
    intros <;> simp_all

theorem bar2Write_mem {h addr : Nat} {own : State → State} {s : State} (ho : (own s).mem = s.mem) :
    (bar2Write h addr own s).mem = s.mem := by
  unfold bar2Write
  (repeat' split) <;> simp [ho]

end Sys2Proof.Machine
end

section
/-! PROOF. What the own work of each mailbox command leaves of memory: all of it, or its canonical form. -/

namespace Sys2Proof.Machine

/-! ### Work that leaves memory alone -/

@[simp] theorem challenge_all_mem (s : State) : (challenge s).All (·.mem = s.mem) := by
  simp [challenge]

@[simp] theorem unlockOutcome_all_mem (p : List Byte) (bad : Option (Nat × Nat)) (s : State) :
    (unlockOutcome p bad s).All (·.mem = s.mem) := by
  unfold unlockOutcome
  cases bad <;> simp

@[simp] theorem unlockReply_all_mem (p : List Byte) (s : State) : (unlockReply p s).All (·.mem = s.mem) :=
  unlockOutcome_all_mem p _ s

@[simp] theorem inject_all_mem (p : List Byte) (s : State) : (inject p s).All (·.mem = s.mem) := by
  unfold inject
  (repeat' split) <;> simp

@[simp] theorem setSluice_all_mem (p : List Byte) (s : State) : (setSluice p s).All (·.mem = s.mem) := by
  unfold setSluice
  dsimp only
  (repeat' split) <;> simp

@[simp] theorem setMasterAttr_all_mem (p : List Byte) (s : State) : (setMasterAttr p s).All (·.mem = s.mem) := by
  unfold setMasterAttr
  dsimp only
  (repeat' split) <;> simp

@[simp] theorem setRemoteWindow_all_mem (p : List Byte) (s : State) : (setRemoteWindow p s).All (·.mem = s.mem) := by
  unfold setRemoteWindow
  dsimp only
  (repeat' split) <;> simp

@[simp] theorem setTandem_all_mem (p : List Byte) (s : State) : (setTandem p s).All (·.mem = s.mem) := by
  unfold setTandem
  dsimp only
  (repeat' split) <;> simp

@[simp] theorem slotClearLatch_all_mem (i : Nat) (s : State) : (slotClearLatch i s).All (·.mem = s.mem) := by
  unfold slotClearLatch
  dsimp only
  (repeat' split) <;> simp

@[simp] theorem activateFw_all_mem (m : Mb) (p : List Byte) (s : State) : (activateFw m p s).All (·.mem = s.mem) := by
  unfold activateFw
  dsimp only
  (repeat' split) <;> simp

@[simp] theorem submitJob_all_mem (m : Mb) (p : List Byte) (s : State) : (submitJob m p s).All (·.mem = s.mem) := by
  unfold submitJob
  dsimp only
  split <;> simp

@[simp] theorem getJob_all_mem (m : Mb) (p : List Byte) (s : State) : (getJob m p s).All (·.mem = s.mem) := by
  unfold getJob readNotice
  dsimp only
  (repeat' split) <;> simp

@[simp] theorem resumeJob_all_mem (p : List Byte) (s : State) : (resumeJob p s).All (·.mem = s.mem) := by
  unfold resumeJob
  dsimp only
  (repeat' split) <;> simp

@[simp] theorem cancelJob_all_mem (m : Mb) (p : List Byte) (s : State) : (cancelJob m p s).All (·.mem = s.mem) := by
  unfold cancelJob
  dsimp only
  (repeat' split) <;> simp

@[simp] theorem setTierGeometry_all_mem (p : List Byte) (s : State) : (setTierGeometry p s).All (·.mem = s.mem) := by
  unfold setTierGeometry
  dsimp only
  (repeat' split) <;> simp

@[simp] theorem pinCommand_all_mem (p : List Byte) (v : Nat) (limited : Bool) (s : State) :
    (pinCommand p v limited s).All (·.mem = s.mem) := by
  unfold pinCommand
  dsimp only
  split <;> simp

@[simp] theorem stagePages_all_mem (m : Mb) (p : List Byte) (s : State) : (stagePages m p s).All (·.mem = s.mem) := by
  unfold stagePages
  dsimp only
  split <;> simp

@[simp] theorem endReplace_all_mem (p : List Byte) (s : State) : (endReplace p s).All (·.mem = s.mem) := by
  unfold endReplace
  dsimp only
  (repeat' split) <;> simp

@[simp] theorem deleteRange_all_mem (r src : Nat) (p : List Byte) (s : State) :
    (deleteRange r src p s).All (·.mem = s.mem) := by
  unfold deleteRange
  dsimp only
  (repeat' split) <;> simp

@[simp] theorem setKeyRange_all_mem (src : Nat) (p : List Byte) (s : State) :
    (setKeyRange src p s).All (·.mem = s.mem) := by
  unfold setKeyRange
  extract_lets r k n others
  refine CmdRes.all_ite CmdRes.all_fail (CmdRes.all_ite (CmdRes.all_ite (deleteRange_all_mem r src p s) rfl) ?_)
  repeat refine CmdRes.all_ite CmdRes.all_fail ?_
  refine CmdRes.all_ite ?newKey (CmdRes.all_ite rfl ?attributes)
  case newKey =>
    dsimp only
    refine CmdRes.all_ite ?_ ?_
    · simp
    · cases k.rekey <;> simp
  case attributes => simp

@[simp] theorem rekeyRange_all_mem (src : Nat) (p : List Byte) (s : State) :
    (rekeyRange src p s).All (·.mem = s.mem) := by
  unfold rekeyRange
  dsimp only
  (repeat' split) <;> simp

@[simp] theorem eraseRange_all_mem (src : Nat) (p : List Byte) (s : State) :
    (eraseRange src p s).All (·.mem = s.mem) := by
  unfold eraseRange
  dsimp only
  (repeat' split) <;> simp

@[simp] theorem clearEvents_all_mem (h : Nat) (p : List Byte) (s : State) :
    (clearEvents h p s).All (·.mem = s.mem) := by
  unfold clearEvents
  dsimp only
  (repeat' split) <;> simp

/-! ### Work that keeps the canonical form -/

theorem chainDiscover_all_wf (p : List Byte) {s : State} (hs : Memory.wf s.mem = true) :
    (chainDiscover p s).All (Memory.wf ·.mem = true) := by
  unfold chainDiscover
  (repeat' split) <;> simp [hs]

/-- A unit that is withdrawn for a replacement is fenced and recorded LOST. -/
theorem recordLost_fenceUnit_wf (i cause : Nat) {s : State} (hs : Memory.wf s.mem = true) :
    Memory.wf (recordLost i (fenceUnit i cause s)).mem = true :=
  recordLost_wf i _ (fenceUnit_wf i cause s hs)

theorem beginReplace_all_wf (p : List Byte) {s : State} (hs : Memory.wf s.mem = true) :
    (beginReplace p s).All (Memory.wf ·.mem = true) := by
  unfold beginReplace
  dsimp only
  (repeat' split) <;> simp [hs, recordLost_fenceUnit_wf, slotOff_wf, replaceDown_wf]

theorem clearLossEntry_all_wf (src : Nat) (p : List Byte) {s : State} (hs : Memory.wf s.mem = true) :
    (clearLossEntry src p s).All (Memory.wf ·.mem = true) := by
  unfold clearLossEntry
  (repeat' split) <;> simp [hs, zeroEntry_wf]

theorem retrainLink_all_wf (p : List Byte) {s : State} (hs : Memory.wf s.mem = true) :
    (retrainLink p s).All (Memory.wf ·.mem = true) := by
  unfold retrainLink
  dsimp only
  (repeat' split) <;> simp [hs, linkAction_wf]

theorem slotPower_all_wf (p : List Byte) {s : State} (hs : Memory.wf s.mem = true) :
    (slotPower p s).All (Memory.wf ·.mem = true) := by
  unfold slotPower
  dsimp only
  (repeat' split) <;> simp [hs, slotOff_wf]

theorem injectPoison_all_wf (src : Nat) (p : List Byte) {s : State} (hs : Memory.wf s.mem = true) :
    (injectPoison src p s).All (Memory.wf ·.mem = true) := by
  refine CmdRes.all_poisonAddr fun l => CmdRes.all_ite CmdRes.all_std ?_
  simp [hs, writeLineNow_wf]

/-- Sanitize leaves no byte of memory. -/
theorem sanitize_all_wf (src : Nat) (s : State) : (sanitize src s).All (Memory.wf ·.mem = true) := by
  have cleared : Memory.wf (clearAll (secureErase src s)).mem = true := rfl
  simp [sanitize, cleared]

end Sys2Proof.Machine
end

section
/-! PROOF. Memory over one step: which commands leave it alone, and that every step keeps its canonical form. -/

namespace Sys2Proof.Machine

/-! ### Messages whose work is looked up first -/

/-- The work of DATA: the read of its tag, home and line takes it (13 R361). -/
def takeData (f : Frame) (s : State) : State :=
  match s.chain.remotes.find? fun x => !x.isWrite && x.tag == f.tag && x.home == f.src && x.line == f.line with
  | some x => deliverData x f s
  | none => s

/-- The work of FWD_DATA, which comes from another device than the home. -/
def takeFwdData (f : Frame) (s : State) : State :=
  match s.chain.remotes.find? fun x => !x.isWrite && x.tag == f.tag && x.line == f.line with
  | some x => deliverData x f s
  | none => s

/-- The work of WACK: the write of its write tag takes it (13 R362). -/
def takeWack (f : Frame) (s : State) : State :=
  match s.chain.remotes.find? fun x => x.isWrite && x.wtag == f.wtag && x.home == f.src with
  | some x => deliverWack x s
  | none => s

/-- The work of REJOIN: its sender's fence is lifted (07 R221). -/
def takeRejoin (f : Frame) (s : State) : State :=
  s.modChain fun c => { c with fenced := c.fenced.filter (· != f.payload.toNat % 2 ^ 12) }

section
variable (port : Nat) (f : Frame) (s : State)

theorem exec_data : exec (.data port f) s = onMsg port f (takeData f) s := rfl
theorem exec_fwdData : exec (.fwdData port f) s = onMsg port f (takeFwdData f) s := rfl
theorem exec_wack : exec (.wack port f) s = onMsg port f (takeWack f) s := rfl
theorem exec_rejoin : exec (.rejoin port f) s = onMsg port f (takeRejoin f) s := rfl

@[simp] theorem takeData_mem : (takeData f s).mem = s.mem := by
  unfold takeData
  split <;> simp

@[simp] theorem takeFwdData_mem : (takeFwdData f s).mem = s.mem := by
  unfold takeFwdData
  split <;> simp

@[simp] theorem takeWack_mem : (takeWack f s).mem = s.mem := by
  unfold takeWack
  split <;> simp

@[simp] theorem takeRejoin_mem : (takeRejoin f s).mem = s.mem :=
  State.modChain_mem s _

end

/-! ### One command -/

/-- A command that `mayChangeMemory` does not name leaves memory as it was: by the unit, the mailbox or the message that
carries it, what its meaning does is one of the operations that leave memory alone. -/
theorem exec_mem (c : Instr) (s : State) (h : mayChangeMemory c = false) : NextAll (·.mem = s.mem) (exec c s) := by
  cases c
  -- at a unit: the meaning splits into branches, each a chain of operations that leave memory alone
  case ctbNowLoRead | ctbLocalLoRead | whdAliasWrite | hdmDecoderCommit | hdmDecoderUncommit | d3hotEntry | d0Entry
      | hpPerstDeassert | headLinkUp | pmeTurnOff | viralReceived | memRd | memRdData | memInv | memInvNt
      | memSpecRd | memClnEvct | biConflict | memWr | memWrPtl | retryBufferRetire | codecSelfTestStart
      | codecSelfTestDone | timeFrameReceive | keySoftLimit | keyHardLimit | rekeyLate | heldDimmRestore
      | laneSignalDetect | helloResend | loopbackQuietEnd | dataFrameSend | dataFrameReceive | ack | xon | xoff
      | credit | ackTimer | creditReturnTimer | flowStateRepeat | downHoldExpire | replayComplete | refreshDue
      | srIdleExpire | delayCommit | drivePresenceStable | domainDrainTimeout | handshakeReply
      | handshakeDelayExpire | domainWakeDone | padRelease | supplyWarning | supplyRecover | slotStartingEnd
      | slotRampEnd | slotQualified | slotLimitReached | slotFaultTimerReset | slotBackoffEnd | slotDischargeEnd
      | dieTempCrossing | keeperCoreWatchdog | spdmGetVersion | spdmGetCapabilities | spdmNegotiateAlgorithms
      | doeDiscovery | cxlTableAccess | quietTimerExpire | counterOverflow | sampleCapture | sampleAbandon
      | perturbExpire =>
    refine nextAll_onUnit ?_
    (repeat' split) <;> simp [apply_ite State.mem]
  -- writes to BAR2
  case registerWrite | pmcCntWrite | pmcOvfClear | pmcFreezeWrite | pmcClearAll =>
    refine nextAll_onUnit ?_
    (repeat' split) <;> simp [bar2Write_mem]
  -- SPDM requests that need the algorithms agreed, or a session
  case spdmGetDigests | spdmGetCertificate | spdmChallenge | spdmGetMeasurements | spdmFinish | spdmEndSession
      | spdmKeyUpdate | spdmHeartbeat | ideKm =>
    refine nextAll_onUnit ?_
    (repeat' split) <;> simp [spdmReady_mem, inSession_mem]
  case spdmKeyExchange =>
    refine nextAll_onUnit (spdmReady_mem _ _ _ ?_)
    simp [apply_ite State.mem]
  -- at the device
  case jobRecordExpire | trefEdge | trefLost | holdoverExpire | timeFrameSend | upstreamLoss
      | regulationWindowBoundary | keeperStep | clearLossWackTimeout | tandemAckTimeout | reservationExpire
      | nakBackoffRetry | remoteResendWindowEnd | dupWriteExpire | undeliveredWrite | windowCheckTimeout
      | braceSettleEnd | brownoutRecovery | auxWarn | logCommit | logRead | mctpControl | mctpMessageDiscard
      | pldmActivateFirmware | setSensorThresholds | getSensorReading | deviceResetResume | lengthsmanRestartDone
      | keeperTakeoverDone | keeperTakeoverTimeout | nonceExpire | unlockExpire | mainSequenceStart | railGood
      | railTimeout | sequenceBackoffEnd | keeperStart | bringupBatchDone | geometryCommitDefault | mgmtrefLost
      | mrefInRestored | pllUnlock | localTick | sensorThresholdCrossing | dynamicAddressAssignment =>
    refine nextAll_next ?_
    (repeat' split) <;> simp
  -- Crity commands, then standard ones, by what their own work hands on
  case submitJob | getJob | resumeJob | cancelJob | setChainTime | setTimeSource | getChainTime | endReplace
      | getLossList | setTandem | setRemoteWindow | setHopLimit | getLinkStatus | castVote | withdrawVote
      | getDomainState | getWakeRecord | setPowerMode | slotConfig | slotClearLatch | slotStatus | identifyWalben
      | getHealthSummary | setManagingHead | setKeyRange | getKeyRange | rekeyRange | cryptoErase | setTierGeometry
      | getCapacity | placeHint | pinPages | unpinPages | stagePages | getHeat | setSluice | getSluice
      | setGuarantee | getBwCounters | getDeliverableFloor | setMasterAttr | listOutings | getOuting | getFaultState
      | clearFault | getHistory | setReaction | testUnlock | setPerturb | inject =>
    refine nextAll_next (runCrity_mem ?_)
    (repeat' split) <;> simp [apply_ite (CmdRes.All _)]
  case pauseOuting | resumeOuting | abortOuting =>
    exact nextAll_next (runCrity_mem (CmdRes.all_onOuting fun o => by simp [apply_ite (CmdRes.All _)]))
  case setTimestamp | getTimestamp | identify | backgroundOperationStatus | getResponseMessageLimit
      | setResponseMessageLimit | getEventRecords | clearEventRecords | getEventInterruptPolicy
      | setEventInterruptPolicy | getFwInfo | activateFw | getSupportedLogs | getLog | getSupportedFeatures
      | identifyMemoryDevice | getHealthInfo | getAlertConfig | setAlertConfig | getPoisonList | secureErase =>
    refine nextAll_next (runStd_mem ?_)
    (repeat' split) <;> simp [apply_ite (CmdRes.All _), CmdRes.all_needLen]
  -- standard commands that first look at the queue of waiting commands or at the opcode
  case transferFw | unsupportedCommand =>
    refine nextAll_next ?_
    split <;> simp [runStd_mem]
  -- messages of the chain
  case rds | rda | rdcur | wr | wrptl | evict | sinv | sdown | scur | sfwd | chainNak =>
    exact nextAll_onMsg rfl (by simp)
  case data port f => exact exec_data port f s ▸ nextAll_onMsg rfl (by simp)
  case fwdData port f => exact exec_fwdData port f s ▸ nextAll_onMsg rfl (by simp)
  case wack port f => exact exec_wack port f s ▸ nextAll_onMsg rfl (by simp)
  case rejoin port f => exact exec_rejoin port f s ▸ nextAll_onMsg rfl (by simp)
  case windowCheck | windowRsp =>
    refine nextAll_onMaint rfl ?_
    simp [apply_ite State.mem]
  -- the commands that `mayChangeMemory` names
  all_goals exact Bool.noConfusion h

/-- Settles O8: a command that the list does not name leaves memory itself as it was. -/
theorem memoryFrame : Obligations.MemoryFrame := by
  intro c s t hc ht a
  rw [exec_mem c s hc t ht]

/-- A command that `mayChangeMemory` names keeps memory's canonical form: so does each operation that stores a line,
clears a page or loses a unit's lines. -/
theorem exec_wf_of_mayChangeMemory (c : Instr) {s : State} (hs : Memory.wf s.mem = true)
    (h : mayChangeMemory c = true) : NextAll (Memory.wf ·.mem = true) (exec c s) := by
  cases c
  -- heads and their links
  case biEnableWrite | functionLevelReset | cxlReset | hotReset | linkDisable | headLinkDown | ideIntegrityFailure
      | snoopTimeout | biRsp | hpPerstAssert =>
    refine nextAll_onUnit ?_
    (repeat' split) <;> simp [hs, biEnable_wf, resetHead_wf, convReset_wf, headDown_wf, headRsp_wf]
  -- the path of a request
  case schedulerDispatch | pendingQueueGrant | setWaitRetry | mapWalkComplete | dramReadReturn | degradedFetchReturn
      | dramWriteAccepted | waitingWriteResume =>
    refine nextAll_next ?_
    (repeat' split) <;> simp [hs, dispatch_wf, grantWaiter_wf, retrySet_wf, walkDone_wf, dramReturn_wf,
      degradedReturn_wf, writeAccepted_wf, wakeWaiting_wf]
  -- codec engines and jobs
  case codecItemComplete | codecWatchdogExpire | jobSegmentDispatch | jobSegmentDone | clusterRollDone =>
    refine nextAll_onUnit ?_
    (repeat' split) <;> simp [hs, itemComplete_wf, watchdog_wf, segmentDispatch_wf, segmentDone_wf, rollDone_wf]
  -- movers
  case berthBoundary | berthCycleBoundary | moverCommit | bargeWriteCommit =>
    refine nextAll_next ?_
    simp [hs, berthBoundary_wf, cycleBoundary_wf, moverCommit_wf, bargeCommit_wf]
  -- units lost, and start phases that end
  case unitRecordLost | graceExpire | backgroundStartPhaseEnd =>
    refine nextAll_onUnit ?_
    (repeat' split) <;> simp [hs, recordLost_wf, graceExpire_wf, startPhaseEnd_wf]
  -- messages and limits of the chain
  case sackNone | sackS | sackD =>
    refine nextAll_onMsg hs ?_
    simp [hs, chainAnswer_wf]
  case probe | probeEnd | topo | neighbour | routeCut | routeJoin =>
    refine nextAll_onMaint hs ?_
    simp [hs, probe_wf, probeEnd_wf, topo_wf, neighbour_wf, routeCut_wf, routeJoin_wf]
  case chainSnoopTimeout =>
    refine nextAll_next ?_
    (repeat' split) <;> simp [hs, failSnoops_wf]
  -- Stechaisk ports
  case laneAlignDone | deskewDone | trainHello | trainEchoReq | trainEchoRsp | trainAccepted | trainCreditAbs
      | trainReady | trainLoopback | linkNak | controlFrameDrop | replayTimerExpire | laneErrorBurst
      | markerMisalign | retrainTimeout | allLanesSignalLoss =>
    refine nextAll_onUnit ?_
    (repeat' split) <;> simp [hs, alignDone_wf, deskewDone_wf, trainHello_wf, startRetrain_wf, trainFrame_wf,
      enterLoop_wf, replayFrames_wf, controlDrop_wf, laneBurst_wf, handshakeFail_wf, allLost_wf]
  -- channels, drives, domains and slots
  case dramAlert | tempPoll | pmicIbi | dimmTrainingDone =>
    refine nextAll_onUnit ?_
    (repeat' split) <;> simp [hs, dramAlert_wf, tempPoll_wf, pmicFault_wf, trainingDone_wf]
  case nvmeCompletion | nvmeCommandTimeout | nvmeAbortTimeout | hedgeDelayExpire | drivePresenceLost
      | driveFatalStatus | driveBringupStepDone | driveBringupTimeout | sanitizeDriveDone =>
    refine nextAll_onUnit ?_
    (repeat' split) <;> simp [hs, nvmeCompletion_wf, nvmeTimeout_wf, abortTimeout_wf, hedgeExpire_wf,
      presenceLost_wf, driveUnsuitable_wf, fenceUnit_wf, bringupStep_wf]
  case domainDrainDone | domainWakeFail | brownout =>
    refine nextAll_onUnit ?_
    (repeat' split) <;> simp [hs, replaceDown_wf, afterRoutes_wf, wakeFail_wf, brownout_wf]
  case slotStartFailure | slotTimerTrip | slotFastTrip | slotFetShort =>
    refine nextAll_onUnit ?_
    (repeat' split) <;> simp [hs, trip_wf, fetShort_wf]
  -- resets and references
  case pldmFwUpdate | deviceResetRequest | auxPowerOn | skrefLost | auxPowerLoss =>
    refine nextAll_next ?_
    (repeat' split) <;> simp [hs, pldmUpdate_wf, deviceReset_wf, coldReset_wf, enterDown_wf, withoutAux_wf]
  -- mailbox commands, by what their own work hands on
  case chainDiscover m p =>
    have ht : Memory.wf (runCrity chainDiscoverSpec m p (chainDiscover p) s).mem = true :=
      runCrity_wf hs (chainDiscover_all_wf p hs)
    refine nextAll_next ?_
    split
    · exact startDiscovery_wf _ _ ht
    · exact ht
  case beginReplace m p => exact nextAll_next (runCrity_wf hs (beginReplace_all_wf p hs))
  case clearLossEntry m p => exact nextAll_next (runCrity_wf hs (clearLossEntry_all_wf m.src p hs))
  case retrainLink m p => exact nextAll_next (runCrity_wf hs (retrainLink_all_wf p hs))
  case slotPower m p => exact nextAll_next (runCrity_wf hs (slotPower_all_wf p hs))
  case injectPoison m p =>
    exact nextAll_next (runStd_wf hs (CmdRes.all_needLen (injectPoison_all_wf m.src p hs)))
  case clearPoison m p =>
    exact nextAll_next (runStd_wf hs (CmdRes.all_needLen (CmdRes.all_poisonAddr fun l =>
      writeLineNow_wf l _ false s hs)))
  case sanitize m p =>
    refine nextAll_next (runStd_wf hs ?_)
    (repeat' split) <;> simp [sanitize_all_wf]
  -- the commands that `mayChangeMemory` does not name
  all_goals exact Bool.noConfusion h

theorem exec_wf (c : Instr) {s : State} (hs : Memory.wf s.mem = true) :
    NextAll (Memory.wf ·.mem = true) (exec c s) := by
  cases hc : mayChangeMemory c with
  | true => exact exec_wf_of_mayChangeMemory c hs hc
  | false =>
    intro t ht
    rw [exec_mem c s hc t ht]
    exact hs

/-! ### One step -/

/-- A mailbox command that waited does what the command does when it comes from the queue. -/
theorem runHeld_nextAll {P : State → Prop} {s : State} (c : HeldCmd) (hs : P s) (h : ∀ i, NextAll P (exec i s)) :
    NextAll P (runHeld c s) := by
  unfold runHeld
  split
  exacts [h (.identify ..), h (.backgroundOperationStatus ..), h (.getResponseMessageLimit ..),
    h (.setResponseMessageLimit ..), h (.getEventRecords ..), h (.clearEventRecords ..),
    h (.getEventInterruptPolicy ..), h (.setEventInterruptPolicy ..), h (.getFwInfo ..),
    by split; exacts [h (.transferFw ..), nextAll_next hs],
    h (.activateFw ..), h (.getTimestamp ..), h (.setTimestamp ..), h (.getSupportedLogs ..), h (.getLog ..),
    h (.getSupportedFeatures ..), h (.identifyMemoryDevice ..), h (.getHealthInfo ..), h (.getAlertConfig ..),
    h (.setAlertConfig ..), h (.getPoisonList ..), h (.injectPoison ..), h (.clearPoison ..), h (.sanitize ..),
    h (.secureErase ..), h (.identifyWalben ..), h (.getHealthSummary ..), h (.setManagingHead ..),
    h (.getChainTime ..), h (.setChainTime ..), h (.setTimeSource ..), h (.setKeyRange ..), h (.getKeyRange ..),
    h (.rekeyRange ..), h (.cryptoErase ..), h (.setTierGeometry ..), h (.getCapacity ..), h (.placeHint ..),
    h (.pinPages ..), h (.unpinPages ..), h (.stagePages ..), h (.getHeat ..), h (.getLossList ..),
    h (.clearLossEntry ..), h (.setSluice ..), h (.getSluice ..), h (.setGuarantee ..), h (.getBwCounters ..),
    h (.getDeliverableFloor ..), h (.setMasterAttr ..), h (.chainDiscover ..), h (.setRemoteWindow ..),
    h (.setTandem ..), h (.getLinkStatus ..), h (.retrainLink ..), h (.setHopLimit ..), h (.listOutings ..),
    h (.getOuting ..), h (.pauseOuting ..), h (.resumeOuting ..), h (.abortOuting ..), h (.submitJob ..),
    h (.getJob ..), h (.resumeJob ..), h (.cancelJob ..), h (.castVote ..), h (.withdrawVote ..),
    h (.getDomainState ..), h (.getWakeRecord ..), h (.setPowerMode ..), h (.getFaultState ..), h (.clearFault ..),
    h (.getHistory ..), h (.setReaction ..), h (.testUnlock ..), h (.setPerturb ..), h (.inject ..),
    h (.slotStatus ..), h (.slotPower ..), h (.slotConfig ..), h (.slotClearLatch ..), h (.beginReplace ..),
    h (.endReplace ..), h (.unsupportedCommand ..)]

theorem runHeld_wf (c : HeldCmd) {s : State} (hs : Memory.wf s.mem = true) :
    NextAll (Memory.wf ·.mem = true) (runHeld c s) :=
  runHeld_nextAll c hs fun i => exec_wf i hs

theorem releaseHeld_wf {s : State} (hs : Memory.wf s.mem = true) :
    NextAll (Memory.wf ·.mem = true) (releaseHeld s) := by
  unfold releaseHeld
  split
  · exact nextAll_next hs
  split
  · exact nextAll_next hs
  case h_2 c rest _ =>
    split
    · rename_i u hu
      refine nextAll_next (runHeld_wf c ?_ u hu)
      exact hs
    · rintro _ ⟨⟩
    · rintro _ ⟨⟩

theorem step_wf {s : State} (hs : Memory.wf s.mem = true) : NextAll (Memory.wf ·.mem = true) (step s) := by
  cases hp : s.pending with
  | nil =>
    rw [step_of_pending_nil hp]
    exact releaseHeld_wf hs
  | cons c rest =>
    rw [step_of_pending_cons hp]
    exact exec_wf c hs

/-- Settles O5: whatever the step runs, the front command or a mailbox command that waited, keeps the canonical form. -/
theorem memoryStaysCanonical : Obligations.MemoryStaysCanonical := fun _ t hs ht => step_wf hs t ht

end Sys2Proof.Machine
end

section
/-! PROOF. Host requests as they arrive, the line an accepted write stores, and the channel of a hot read. -/

namespace Sys2Proof.Machine

/-- A command that names a unit the device has comes to what its meaning comes to. -/
theorem onUnit_eq_next {n bound : Nat} {t u : State} (h : n < bound) (ht : t = u) : onUnit n bound t = .next u :=
  (if_pos h).trans (congrArg Host.Outcome.next ht)

/-! ### The line an accepted write stores (01 R20, R26; 06 R187) -/

theorem length_lineBytes (d : Line) : (lineBytes d).length = 64 := by
  simp [lineBytes]

theorem length_mergeLine (old new : Line) (mask : BitVec 64) : (mergeLine old new mask).length = 64 := by
  simp [mergeLine]

theorem getD_lineBytes (d : Line) {i : Nat} (h : i < 64) : (lineBytes d).getD i 0 = lineByte d i := by
  simp [lineBytes, h]

theorem getD_mergeLine (old new : Line) (mask : BitVec 64) {i : Nat} (h : i < 64) :
    (mergeLine old new mask).getD i 0 = if mask.getLsbD i then lineByte new i else lineByte old i := by
  simp [mergeLine, h]

theorem storeLine_mem (line : Nat) (bytes : List Byte) (poison full ovl : Bool) (minor : Nat) (s : State) :
    (storeLine line bytes poison full ovl minor s).mem = Memory.writeBytes s.mem (64 * line) bytes := by
  unfold storeLine
  dsimp only
  (repeat' split) <;> simp

/-- The bytes that an accepted write stores: its data, merged with what the line held under the mask of a
partial write. -/
def storedBytes (r : Req) (m : List Host.Cell) : List Byte :=
  if r.kind == .wr || r.mask == BitVec.allOnes 64 then lineBytes r.data
  else mergeLine (Memory.readLine m r.line) r.data r.mask

theorem length_storedBytes (r : Req) (m : List Host.Cell) : (storedBytes r m).length = 64 := by
  unfold storedBytes
  split
  · exact length_lineBytes _
  · exact length_mergeLine _ _ _

/-- A byte that is stored comes from the data where the write is full or its mask has the bit, else from memory. -/
theorem getD_storedBytes (r : Req) (m : List Host.Cell) {i : Nat} (h : i < 64) :
    (storedBytes r m).getD i 0
      = if r.kind = .wr ∨ r.mask.getLsbD i = true then lineByte r.data i else Memory.read m (64 * r.line + i) := by
  unfold storedBytes
  split
  next hfull =>
    have hbit : r.kind = .wr ∨ r.mask.getLsbD i = true := by
      rw [Bool.or_eq_true, beq_iff_eq, beq_iff_eq] at hfull
      exact hfull.imp id fun hm => by rw [hm, BitVec.getLsbD_allOnes, decide_eq_true h]
    rw [getD_lineBytes _ h, if_pos hbit]
  next hpart =>
    have hkind : ¬ r.kind = .wr := fun hk => hpart (by simp [hk])
    rw [getD_mergeLine _ _ _ h, lineByte_readLine _ _ _ h]
    simp only [hkind, false_or]

theorem acceptWrite_of_erased {r : Req} (h : r.erased = true) (ovl : Bool) (minor f : Nat) (s : State) :
    acceptWrite r ovl minor f s = s := by
  simp [acceptWrite, h]

theorem acceptWrite_mem_of_not_erased {r : Req} (h : r.erased = false) (ovl : Bool) (minor f : Nat) (s : State) :
    (acceptWrite r ovl minor f s).mem = Memory.writeBytes s.mem (64 * r.line) (storedBytes r s.mem) := by
  unfold acceptWrite
  rw [if_neg (by simp [h])]
  dsimp only
  split <;> simp [storeLine_mem, storedBytes]

/-- Settles O9: the stored bytes are written from the line's address upwards, and an erased write stores none. -/
theorem storedLine : Obligations.StoredLine := by
  intro r ovl minor f s hwf
  refine ⟨fun he => acceptWrite_of_erased he ovl minor f s, ?inside, ?outside⟩
  case inside =>
    intro he i hi
    rw [acceptWrite_mem_of_not_erased he, Memory.read_writeBytes _ _ _ _ hwf, length_storedBytes, if_pos (by omega),
      Nat.add_sub_cancel_left, getD_storedBytes r s.mem hi]
  case outside =>
    intro a ha
    cases he : r.erased with
    | true => rw [acceptWrite_of_erased he]
    | false =>
      rw [acceptWrite_mem_of_not_erased he, Memory.read_writeBytes _ _ _ _ hwf, length_storedBytes, if_neg (by omega)]

/-! ### The channel of a hot read (01 R18) -/

theorem chooseCopy_of_both {s : State} {f : Nat} (hlo : copyReadable s (frameLow s f) f = true)
    (hhi : copyReadable s (frameLow s f + 8) f = true) :
    chooseCopy s f = if queuedReads s (frameLow s f + 8) < queuedReads s (frameLow s f) then frameLow s f + 8
      else frameLow s f := by
  simp [chooseCopy, hlo, hhi]

theorem readFrame_of_both {r : Req} {s : State} {f : Nat} (hlo : copyReadable s (frameLow s f) f = true)
    (hhi : copyReadable s (frameLow s f + 8) f = true) :
    readFrame r f s = lineCmd r f (chooseCopy s f) (readOrder r) (s.modReq r.id fun r => { r with
      st := .line (chooseCopy s f) 1 [] false, src_ := some (0, f) }) := by
  simp [readFrame, frameReadable, hlo, hhi]

/-- Settles O52: with both copies readable the choice is between the two counts of queued reads. -/
theorem hotReadChannel : Obligations.HotReadChannel := by
  intro r f s hlo hhi
  refine ⟨chooseCopy s f, readFrame_of_both hlo hhi, fun h => ?_, fun h => ?_⟩
  · rw [chooseCopy_of_both hlo hhi, if_pos h]
  · rw [chooseCopy_of_both hlo hhi, if_neg (Nat.not_lt.2 h)]

/-! ### Host requests as they arrive (01 R11, R12; 07 R199, R200) -/

section
variable {head addr dec cls dpa : Nat} {kind : ReqKind} {mv : MetaVal} {d : Line} {mask : BitVec 64} {poison : Bool}
  {s : State}

/-- A request that a decoder maps is routed by what its mapped address is refused for. -/
theorem memRequest_of_mapped (hup : headUp s head = true) (hh : s.flt.halted = false)
    (hd : decodeHost (s.head head).decoders (s.slu.cfg.defClass.getD head 0) addr = some (dec, cls, dpa)) :
    memRequest head kind mv addr d mask poison s = routeReq (violation s head dpa) head addr dec cls {
      id := s.req.next, kind := kind, mv := mv, head := head, cls := cls, line := dpa / 64, data := d, mask := mask
      poison := poison, db := (s.head head).biActive, since := s.time.elapsed } s := by
  unfold memRequest
  simp only [hup, hh, hd, Bool.not_true, Bool.false_eq_true, if_false, Req.routed]

theorem memRequest_of_admitted (hup : headUp s head = true) (hh : s.flt.halted = false)
    (hd : decodeHost (s.head head).decoders (s.slu.cfg.defClass.getD head 0) addr = some (dec, cls, dpa))
    (hv : violation s head dpa = none) :
    memRequest head kind mv addr d mask poison s = arrive (8 * head + cls) ⟨s.req.next, kind.charge, dpa / 64⟩ (addReq {
      id := s.req.next, kind := kind, mv := mv, head := head, cls := cls, line := dpa / 64, data := d, mask := mask
      poison := poison, db := (s.head head).biActive, since := s.time.elapsed } s) := by
  rw [memRequest_of_mapped hup hh hd, hv]
  rfl

theorem memRequest_of_refused {why : Nat} (hup : headUp s head = true) (hh : s.flt.halted = false)
    (hd : decodeHost (s.head head).decoders (s.slu.cfg.defClass.getD head 0) addr = some (dec, cls, dpa))
    (hv : violation s head dpa = some why) :
    memRequest head kind mv addr d mask poison s
      = raiseHead head 0 (le 8 addr ++ le 1 dec ++ le 1 why) (refuseReq {
        id := s.req.next, kind := kind, mv := mv, head := head, cls := cls, line := dpa / 64, data := d, mask := mask
        poison := poison, db := (s.head head).biActive, since := s.time.elapsed } s) := by
  rw [memRequest_of_mapped hup hh hd, hv]
  rfl

theorem memRequest_of_unmapped (hup : headUp s head = true) (hh : s.flt.halted = false)
    (hd : decodeHost (s.head head).decoders (s.slu.cfg.defClass.getD head 0) addr = none) :
    memRequest head kind mv addr d mask poison s
      = raiseHead head 0 (le 8 addr ++ le 1 0xFF ++ le 1 0) (refuseReq {
        id := s.req.next, kind := kind, mv := mv, head := head, cls := 0, line := addr / 64, data := d, mask := mask
        poison := poison, db := (s.head head).biActive, since := s.time.elapsed } s) := by
  unfold memRequest
  simp only [hup, hh, hd, Bool.not_true, Bool.false_eq_true, if_false]

theorem biConflict_of_none_ordered (hup : headUp s head = true)
    (hd : decodeHost (s.head head).decoders (s.slu.cfg.defClass.getD head 0) addr = some (dec, cls, dpa))
    (hr : (s.req.reqs.any fun r => r.head == head && r.line == dpa / 64 && !r.kind.isWrite && orderedReq s r) = false) :
    biConflict head addr s = sendHead head (.ndr head (dpa / 64) .biConflictAck (devLoad s head)) s := by
  unfold biConflict
  simp only [hup, hd, hr, Bool.not_true, Bool.false_eq_true, if_false]

end

/-- Settles O11: the seven requests are one request of the head, by kind and operands; the rest is what refuses it. -/
theorem hostRequests : Obligations.HostRequests := by
  refine ⟨?memRd, ?memRdData, ?memInv, ?memInvNt, ?memClnEvct, ?memWr, ?memWrPtl, ?refused, ?unmapped, ?specRd,
    ?conflict⟩
  case memRd =>
    intro head mv addr dec cls dpa s h hup hh hd hv
    exact onUnit_eq_next h (memRequest_of_admitted hup hh hd hv)
  case memRdData =>
    intro head addr dec cls dpa s h hup hh hd hv
    exact onUnit_eq_next h (memRequest_of_admitted hup hh hd hv)
  case memInv =>
    intro head mv addr dec cls dpa s h hup hh hd hv
    exact onUnit_eq_next h (memRequest_of_admitted hup hh hd hv)
  case memInvNt =>
    intro head addr dec cls dpa s h hup hh hd hv
    exact onUnit_eq_next h (memRequest_of_admitted hup hh hd hv)
  case memClnEvct =>
    intro head addr dec cls dpa s h hup hh hd hv
    exact onUnit_eq_next h (memRequest_of_admitted hup hh hd hv)
  case memWr =>
    intro head mv addr data poison dec cls dpa s h hup hh hd hv
    exact onUnit_eq_next h (memRequest_of_admitted hup hh hd hv)
  case memWrPtl =>
    intro head mv addr data mask dec cls dpa s h hup hh hd hv
    exact onUnit_eq_next h (memRequest_of_admitted hup hh hd hv)
  case refused =>
    intro head kind mv addr d mask poison dec cls dpa why s hup hh hd hv
    exact memRequest_of_refused hup hh hd hv
  case unmapped =>
    intro head kind mv addr d mask poison s hup hh hd
    exact memRequest_of_unmapped hup hh hd
  case specRd => exact fun head addr s h => onUnit_eq_next h rfl
  case conflict =>
    intro head addr dec cls dpa s h hup hd hr
    exact onUnit_eq_next h (biConflict_of_none_ordered hup hd hr)

end Sys2Proof.Machine
end

section
/-! PROOF. The path of a request: dispatch, grants, walks, reads and writes of the media. -/

namespace Sys2Proof.Machine

/-! ### Dispatch (01 R14; 07 R202; 08 R229-R231) -/

theorem id_of_req?_eq_some {s : State} {id : Nat} {r : Req} (h : s.req? id = some r) : r.id = id := by
  simpa using List.find?_some h

theorem dispatchOne_of_choose_none {s : State} (k : Nat) (h : choose s = none) : dispatchOne k s = (none, s) := by
  simp [dispatchOne, h]

/-- The scheduler takes the front of the sluice it chooses, where its request is known and has room. -/
theorem dispatchOne_of_room {s : State} {k i t : Nat} {q : QEnt} {rest : List QEnt} {r : Req}
    (hc : choose s = some (i, t)) (hq : (s.sluice i).queue = q :: rest) (hr : s.req? q.rid = some r)
    (hp : pendingOpen s k r = true) (hw : r.kind.isWrite = true → s.req.ifwt.length + writesInside s + k < 4096) :
    dispatchOne k s = (some r, takeFront i t s) := by
  have room : ¬ (pendingOpen s k r = false ∨ r.kind.isWrite ∧ 4096 ≤ s.req.ifwt.length + writesInside s + k) := by
    rintro (h | ⟨h, hfull⟩)
    · simp [hp] at h
    · exact absurd (hw h) (Nat.not_lt.2 hfull)
  simp only [dispatchOne, hc, hq, hr, if_neg room]

/-- With nothing left to choose, further dispatches of the cycle bring nothing. -/
theorem cycleRequests_of_choose_none {s : State} (h : choose s = none) (n : Nat) (rs : List Req) :
    cycleRequests n rs s = (rs, s) := by
  cases n with
  | zero => rfl
  | succ n => simp [cycleRequests, dispatchOne_of_choose_none _ h]

/-- One of ten positions is the distance from the pointer to a head. -/
theorem range_filter_pointer (ptr h : Nat) (hh : h < 10) :
    ∃ k, (List.range 10).filter (fun k => h == (ptr + k) % 10) = [k] := by
  have key : ∀ p < 10, ∀ h < 10, ∃ k < 10, (List.range 10).filter (fun k => h == (p + k) % 10) = [k] := by decide
  obtain ⟨k, -, hk⟩ := key (ptr % 10) (Nat.mod_lt _ (by decide)) h hh
  exact ⟨k, by simpa using hk⟩

theorem pointerOrder_nil (ptr : Nat) : pointerOrder ptr [] = [] := by
  simp [pointerOrder]

/-- Keeping one element where a condition on the position holds gives it once for each such position. -/
theorem flatten_map_filter_singleton {α : Type} (x : α) (p : Nat → Bool) (l : List Nat) :
    (l.map fun k => [x].filter fun _ => p k).flatten = (l.filter p).map fun _ => x := by
  induction l with
  | nil => rfl
  | cons k l ih =>
    rw [List.map_cons, List.flatten_cons, ih]
    cases h : p k <;> simp [h]

theorem pointerOrder_singleton (ptr : Nat) (r : Req) : pointerOrder ptr [r] = [r] := by
  have heads : ((List.range 10).map fun k => [r].filter fun r => r.head == (ptr + k) % 10).flatten
      = ((List.range 10).filter fun k => r.head == (ptr + k) % 10).map fun _ => r :=
    flatten_map_filter_singleton r (fun k => r.head == (ptr + k) % 10) _
  rw [pointerOrder, heads]
  by_cases h : r.head < 10
  · obtain ⟨k, hk⟩ := range_filter_pointer ptr r.head h
    simp [hk, Nat.not_le.2 h]
  · have none : (List.range 10).filter (fun k => r.head == (ptr + k) % 10) = [] := by
      simp only [List.filter_eq_nil_iff, beq_iff_eq]
      omega
    simp [none, Nat.not_lt.1 h]

/-- A request alone in its cycle is the whole order of the cycle. -/
theorem cycleOrder_singleton (s : State) (r : Req) : cycleOrder s [r] = [r] := by
  cases h : isWriteback s r <;> simp [cycleOrder, h, pointerOrder_nil, pointerOrder_singleton]

theorem dispatch_of_one {s : State} {i t : Nat} {q : QEnt} {rest : List QEnt} {r : Req} (more : Nat)
    (hc : choose s = some (i, t)) (hq : (s.sluice i).queue = q :: rest) (hr : s.req? q.rid = some r)
    (hwait : s.slu.waiting = []) (hp : pendingOpen s 0 r = true)
    (hw : r.kind.isWrite = true → s.req.ifwt.length + writesInside s < 4096) (hlast : choose (takeFront i t s) = none) :
    dispatch more s = enterPath r (takeFront i t s) := by
  have hcycle : cycleRequests (1 + more) [] s = ([r], takeFront i t s) := by
    rw [Nat.add_comm, cycleRequests, List.length_nil, dispatchOne_of_room hc hq hr hp hw]
    exact cycleRequests_of_choose_none hlast more [r]
  have hknown : (takeFront i t s).req? r.id = some r := by
    rw [id_of_req?_eq_some hr]
    simpa [State.req?, Sys2Proof.Laws.takeFront_req i t s hwait] using hr
  simp only [dispatch, hcycle, cycleOrder_singleton, List.foldl_cons, List.foldl_nil, hknown, Option.isSome_some,
    if_true]

/-! ### Grants (07 R203, R206) -/

theorem grantWaiter_of_free {s : State} {l : Nat} {q : PqEnt} {r : Req}
    (hq : (s.dir.pq.find? fun q => q.line == l) = some q) (hset : q.setWait = false) (hr : s.req? q.rid = some r)
    (hb : lineBusy s l = false) (ho : reservedOther s r = false) :
    grantWaiter l s = grantWithWay r (dequeue q.rid s) := by
  simp [grantWaiter, hq, hset, hr, hb, ho]

theorem retrySet_of_free {s : State} {set : Nat} {q : PqEnt} {r : Req}
    (hq : (s.dir.pq.find? fun q => q.setWait && dirSet q.line == set) = some q)
    (hfree : (wayEnts s set).length < 16 ∨ ((victim s set).isSome = true ∧ s.dir.evict.length < 512))
    (hr : s.req? q.rid = some r) (hb : lineBusy s q.line = false) (ho : reservedOther s r = false) :
    retrySet set s = grantWithWay r (dequeue q.rid s) := by
  have free : (decide ((wayEnts s set).length < 16)
      || ((victim s set).isSome && decide (s.dir.evict.length < 512))) = true := by
    simpa using hfree
  simp only [retrySet, hq, free, hr, hb, ho, Bool.not_true, Bool.or_self, Bool.false_eq_true, if_false]

/-! ### The media (01 R15, R20, R21; 04 R104; 10 R292) -/

theorem armedFor_of_none_armed {s : State} (h : s.pmc.armed = []) (c u page : Nat) : armedFor c u page s = none := by
  simp [armedFor, h]

theorem eccOp_of_none_armed {s : State} (h : s.pmc.armed = []) (c : Nat) (ce : Option Nat) (ue : Nat)
    (contents : List Byte) : eccOp c ce ue contents s = s := by
  simp [eccOp, armedFor_of_none_armed h]

theorem injectLine_of_none_armed {s : State} (h : s.pmc.armed = []) (slot page : Nat) (out : ReadOutcome) :
    injectLine slot page out s = (out, s) := by
  cases out <;> simp [injectLine, armedFor_of_none_armed h]

theorem dramReturn_of_line {s : State} {rid c : Nat} {r : Req} {bad : List Nat} {missing : Bool} (out : ReadOutcome)
    (ha : s.pmc.armed = []) (hr : s.req? rid = some r) (hw : readWaits s rid = false)
    (hst : r.st = .line c 1 bad missing) :
    dramReturn rid out s = lineReturn r c 1 bad missing out s := by
  simp [dramReturn, eccOp_of_none_armed ha, injectLine_of_none_armed ha, hr, hw, hst, Option.filter]

theorem degradedReturn_of_line {s : State} {rid c n : Nat} {r : Req} {bad : List Nat} {missing : Bool}
    (out : ReadOutcome) (hr : s.req? rid = some r) (hw : readWaits s rid = false) (hst : r.st = .line c n bad missing) (hn : 2 ≤ n) :
    degradedReturn rid out s = lineReturn r c n bad missing out s := by
  simp [degradedReturn, hr, hw, hst, hn, Option.filter]

theorem writeAccepted_of_host {s : State} {rid minor f : Nat} {ovl : Bool} {r : Req} (ha : s.pmc.armed = [])
    (hr : s.req? rid = some r) (hst : r.st = .write ovl minor f) (hopen : acceptOpen s f = true)
    (hhost : r.isChain = false) :
    writeAccepted rid s = wakeOrdered r.line (finishWrite r (acceptWrite r ovl minor f s)) := by
  simp [writeAccepted, eccOp_of_none_armed ha, hr, hst, hopen, isDup, hhost]

/-- The oldest command of a retry buffer leaves it, with what the rest of the device notes of it. -/
theorem retireRetry_of_cons {s : State} {c : Nat} {k : DramCmd} {rest : List DramCmd}
    (h : (s.chan c).retry = k :: rest) :
    retireRetry c s = drainFixes (issueAll c
      (if k.read then s.modChan c fun x => { x with retry := rest }
      else if 2 ^ 60 ≤ k.key then chunkArrived c (k.key - 2 ^ 60) (s.modChan c fun x => { x with retry := rest })
      else releaseEntry c k.key (s.modChan c fun x => { x with retry := rest }))) := by
  unfold retireRetry
  rw [h]

theorem exec_retryBufferRetire_of_not_replaying {s : State} {c : Nat} (hc : c < 16)
    (hr : (s.chan c).replaying = false) :
    exec (.retryBufferRetire c) s = .next (retireRetry c s) :=
  onUnit_eq_next hc (if_neg (by simp [hr]))

/-- Settles O12: each command takes the one branch of its meaning that its premises select. -/
theorem requestPath : Obligations.RequestPath := by
  refine ⟨?dispatch, ?grant, ?setRetry, ?walk, ?read, ?degraded, ?write, ?retireLine, ?retireRead, ?retireChunk,
    ?resume, ?biRsp, ?snoopLate⟩
  case dispatch =>
    intro i t q rest r s u hh hd hu hc hq hr hwait hp hw hlast
    subst hu
    refine congrArg Host.Outcome.next ?_
    rw [if_neg (by simp [hh, hd])]
    exact dispatch_of_one _ hc hq hr hwait hp hw hlast
  case grant => exact fun l q r s hq hset hr hb ho => congrArg _ (grantWaiter_of_free hq hset hr hb ho)
  case setRetry => exact fun set q r s hq hfree hr hb ho => congrArg _ (retrySet_of_free hq hfree hr hb ho)
  case walk =>
    intro page s hr hw hcached
    refine congrArg Host.Outcome.next ?_
    rw [if_pos (by simp [hr, hw])]
    exact if_pos hcached
  case read => exact fun rid c r bad missing out s ha hr hw hst => congrArg _ (dramReturn_of_line out ha hr hw hst)
  case degraded =>
    exact fun rid c n r bad missing out s hr hst hw hn => congrArg _ (degradedReturn_of_line out hr hw hst hn)
  case write =>
    exact fun rid minor f ovl r s ha hr hst hopen hhost => congrArg _ (writeAccepted_of_host ha hr hst hopen hhost)
  case retireLine =>
    intro c k rest s hc hrep hretry hk hkey
    rw [exec_retryBufferRetire_of_not_replaying hc hrep, retireRetry_of_cons hretry, hk, if_neg (Nat.not_le.2 hkey)]
    rfl
  case retireRead =>
    intro c k rest s hc hrep hretry hk
    rw [exec_retryBufferRetire_of_not_replaying hc hrep, retireRetry_of_cons hretry, if_pos hk]
  case retireChunk =>
    intro c k rest s hc hrep hretry hk hkey
    rw [exec_retryBufferRetire_of_not_replaying hc hrep, retireRetry_of_cons hretry, hk, if_pos hkey]
    rfl
  case resume =>
    intro page s hroom
    exact congrArg (fun u => Host.Outcome.next (wakeWaiting page u)) (if_pos hroom)
  case biRsp =>
    intro head line rsp x s h hx hremote
    refine onUnit_eq_next h ?_
    simp [headRsp, hx, hremote]
  case snoopLate =>
    intro head line x s h hx hlate
    refine onUnit_eq_next h ?_
    rw [hx]
    exact if_pos hlate

end Sys2Proof.Machine
end

section
/-! PROOF. Coherence messages between devices, at the home and at the visitor. -/

namespace Sys2Proof.Machine

/-! ### Taking a message from the receive buffer (13 R346) -/

section
variable (p : Nat) (f : Frame) (s : State)

@[simp] theorem consume_chain : (consume p f s).chain = s.chain := by
  obtain ⟨k, x, h⟩ := consume_outside p f s
  rw [h]

@[simp] theorem consume_time : (consume p f s).time = s.time := by
  obtain ⟨k, x, h⟩ := consume_outside p f s
  rw [h]

@[simp] theorem consume_req : (consume p f s).req = s.req := by
  obtain ⟨k, x, h⟩ := consume_outside p f s
  rw [h]

@[simp] theorem consume_free : (consume p f s).free = s.free := by
  obtain ⟨k, x, h⟩ := consume_outside p f s
  rw [h]

@[simp] theorem consume_boot : (consume p f s).boot = s.boot := by
  obtain ⟨k, x, h⟩ := consume_outside p f s
  rw [h]

@[simp] theorem exportAdmits_consume (src line : Nat) :
    exportAdmits (consume p f s) src line = exportAdmits s src line := by
  simp [exportAdmits]

end

/-- The device takes a message: it is not halted, has a chain ID, and the frame is addressed to it. -/
theorem onMsg_of_taken {port : Nat} {f : Frame} {s : State} (own : State → State) (hp : port < 2)
    (ht : s.flt.halted = false ∧ assigned s = true ∧ f.dst = s.chain.id) :
    onMsg port f own s = .next (own (consume port f s)) := by
  obtain ⟨hh, ha, hd⟩ := ht
  exact onUnit_eq_next hp (if_neg (by simp [hh, ha, hd]))

theorem onMsg_of_not_taken {port : Nat} {f : Frame} {s : State} (own : State → State) (hp : port < 2)
    (ht : s.flt.halted = true ∨ assigned s = false ∨ f.dst ≠ s.chain.id) : onMsg port f own s = .next s := by
  refine onUnit_eq_next hp (if_pos ?_)
  simpa [or_assoc] using ht

/-! ### Requests at the home (01 R28; 13 R357, R362) -/

/-- The request that a chain message makes at its home. -/
def chainReq (port : Nat) (kind : ReqKind) (f : Frame) (now : Nat) : Req where
  id := 0
  kind := kind
  mv := .invalid
  head := 8 + port
  cls := f.cls
  line := f.line
  data := f.payload
  mask := if kind = .wrPtl then f.mask else BitVec.allOnes 64
  poison := f.poison && kind.isWrite
  src := f.src
  tag := f.tag
  wtag := f.wtag
  priority := f.priority
  since := now

section
variable {port : Nat} {kind : ReqKind} {f : Frame} {s : State}

/-- A request that its home admits, and a write that is no duplicate, enters the sluice of its port and class. -/
theorem chainRequest_of_admitted
    (hdup : (kind.isWrite && s.chain.dups.any fun d => d.1 == f.src && d.2.1 == f.wtag) = false)
    (ha : exportAdmits s f.src f.line = true) :
    chainRequest port kind f s = arrive (8 * (8 + port) + f.cls % 8) ⟨s.req.next, kind.charge, f.line⟩
      (addReq (chainReq port kind f s.time.elapsed) s) := by
  unfold chainRequest
  simp only [hdup, ha, Bool.not_true, Bool.false_eq_true, if_false]
  rfl

theorem chainRequest_of_not_admitted
    (hdup : (kind.isWrite && s.chain.dups.any fun d => d.1 == f.src && d.2.1 == f.wtag) = false)
    (ha : exportAdmits s f.src f.line = false) :
    chainRequest port kind f s = raiseAddr 307 (64 * f.line) (le 2 f.src ++ le 8 f.line)
      (refuseReq (chainReq port kind f s.time.elapsed) s) := by
  unfold chainRequest
  simp only [hdup, ha, Bool.not_false, Bool.false_eq_true, if_false, if_true]
  rfl

theorem chainRequest_of_duplicate
    (hdup : (kind.isWrite && s.chain.dups.any fun d => d.1 == f.src && d.2.1 == f.wtag) = true) :
    chainRequest port kind f s = respondWack (chainReq port kind f s.time.elapsed) s := by
  unfold chainRequest
  simp only [hdup, if_true]
  rfl

/-! ### Snoops and NAKs at the visitor (07 R216, R217, R221; 13 R359) -/

theorem visitorSnoop_of_read {x : Remote}
    (hx : (s.chain.remotes.find? fun x => !x.isWrite && x.home == f.src && x.line == f.line) = some x) :
    visitorSnoop f s = s.modRemote x.tag fun y => { y with held := some f } := by
  simp only [visitorSnoop, hx]

/-- The operation a NAK names waits for its back-off. -/
def nakRetry (x : Remote) (s : State) : State :=
  { s with free := s.free + 1 }.modRemote x.tag fun y => { y with
    naks := y.naks + 1, retryAt := some (s.time.elapsed + backoff (x.naks + 1) (Config.backoffDraw s.free).toNat) }

theorem chainNak_of_retry {x : Remote}
    (hx : (s.chain.remotes.find? fun x => x.headerTag == f.tag && x.home == f.src && x.line == f.line) = some x)
    (hc : f.code ≠ 3) : chainNak f s = nakRetry x s := by
  simp only [chainNak, hx, if_neg hc, nakRetry]

theorem chainNak_of_rejoin {x : Remote}
    (hx : (s.chain.remotes.find? fun x => x.headerTag == f.tag && x.home == f.src && x.line == f.line) = some x)
    (hc : f.code = 3) :
    chainNak f s = sendTo f.src { vc := 3, opcode := 0x38, pl := true
                                  payload := BitVec.ofNat 512 (s.chain.id + s.boot.bootId.toNat * 2 ^ 32) }
      (visitorLose f.src (nakRetry x s)) := by
  simp only [chainNak, hx, if_pos hc, nakRetry]
  rfl

end

/-- Settles O33: a message that is taken does its own work on the state without its frame, and each clause is one branch
of that work. -/
theorem chainMessages : Obligations.ChainMessages := by
  refine ⟨?rds, ?rda, ?rdcur, ?evict, ?wr, ?wrptl, ?refused, ?duplicate, ?sinv, ?sdown, ?scur, ?sfwd, ?sinvHeld, ?data,
    ?noData, ?fwdData, ?wack, ?nak, ?nakRejoin, ?sackNone, ?sackS, ?sackD, ?rejoin, ?notTaken⟩
  case rds | rda | rdcur | evict =>
    intro port f s hp ht ha
    refine (onMsg_of_taken _ hp ht).trans (congrArg _ ?_)
    rw [chainRequest_of_admitted rfl (by simpa using ha)]
    simp [chainReq, ReqKind.charge, ReqKind.isWrite]
  case wr | wrptl =>
    intro port f s hp ht hdup ha
    refine (onMsg_of_taken _ hp ht).trans (congrArg _ ?_)
    rw [chainRequest_of_admitted (by simpa [ReqKind.isWrite] using hdup) (by simpa using ha)]
    simp [chainReq, ReqKind.charge, ReqKind.isWrite]
  case refused =>
    intro port f s hp ht ha
    refine (onMsg_of_taken _ hp ht).trans (congrArg _ ?_)
    rw [chainRequest_of_not_admitted rfl (by simpa using ha)]
    simp [chainReq, ReqKind.isWrite]
  case duplicate =>
    intro port f s hp ht hdup
    refine (onMsg_of_taken _ hp ht).trans (congrArg _ ?_)
    rw [chainRequest_of_duplicate (by simpa [ReqKind.isWrite] using hdup)]
    simp [chainReq, ReqKind.isWrite]
  case sinv | sdown | scur | sfwd | sackNone | sackS | sackD =>
    exact fun port f s hp ht => onMsg_of_taken _ hp ht
  case rejoin => exact fun port f s hp ht => (exec_rejoin port f s).trans (onMsg_of_taken _ hp ht)
  case sinvHeld =>
    intro port f x s hp ht hx
    refine (onMsg_of_taken _ hp ht).trans (congrArg _ ?_)
    exact visitorSnoop_of_read (by simpa using hx)
  case data =>
    intro port f x s hp ht hx
    rw [exec_data, onMsg_of_taken _ hp ht]
    simp [takeData, hx]
  case noData =>
    intro port f s hp ht hx
    rw [exec_data, onMsg_of_taken _ hp ht]
    simp [takeData, hx]
  case fwdData =>
    intro port f x s hp ht hx
    rw [exec_fwdData, onMsg_of_taken _ hp ht]
    simp [takeFwdData, hx]
  case wack =>
    intro port f x s hp ht hx
    rw [exec_wack, onMsg_of_taken _ hp ht]
    simp [takeWack, hx]
  case nak =>
    intro port f x s hp ht hx hc
    refine (onMsg_of_taken _ hp ht).trans (congrArg _ ?_)
    rw [chainNak_of_retry (by simpa using hx) hc]
    simp [nakRetry]
  case nakRejoin =>
    intro port f x s hp ht hx hc
    refine (onMsg_of_taken _ hp ht).trans (congrArg _ ?_)
    rw [chainNak_of_rejoin (by simpa using hx) hc]
    simp [nakRetry]
  case notTaken =>
    intro port f s hp ht
    have ignored (own : State → State) : onMsg port f own s = .next s := onMsg_of_not_taken own hp ht
    exact ⟨ignored _, ignored _, ignored _, ignored _, ignored _, ignored _, ignored _, ignored _, ignored _, ignored _,
      ignored _, ignored _, ignored _, ignored (takeData f), ignored (takeFwdData f), ignored (takeWack f), ignored _,
      ignored (takeRejoin f)⟩

end Sys2Proof.Machine
end

section
/-! PROOF. Chain time: ticks, latched reads, TREF, TIME frames and window boundaries. -/

namespace Sys2Proof.Machine

/-! ### One tick (02 R36, R45) -/

theorem tickTime_elapsed (t : TimeState) : (tickTime t).elapsed = wrap64 (t.elapsed + 1) := rfl

theorem tickTime_chain_of_not_slewing {t : TimeState} (h : t.slewLeft = 0) :
    (tickTime t).chain = moved t.chain 1 := by
  simp [tickTime, h]

theorem tickTime_chain_of_slewing {t : TimeState} (h : t.slewLeft ≠ 0) :
    (tickTime t).chain = moved t.chain (1 + slewStep t.slew t.slewLeft) := by
  simp [tickTime, h]

theorem exec_localTick_of_powered {s : State} (h : s.boot.phase ≠ .auxOff) :
    exec .localTick s
      = .next (admitWaiting (sendLate (pmcCount (evOf 0x30 0 0) (refillAll { s with time := tickTime s.time })))) :=
  congrArg Host.Outcome.next (if_neg h)

/-! ### TREF (02 R37, R38) -/

theorem edgeValid_of_outside {t : TimeState} (hf : t.firstEdge = false) (ho : 256 < (edgeOffset t.chain).natAbs) :
    edgeValid t = false := by
  simp only [edgeValid, hf, Bool.false_or, decide_eq_false_iff_not]
  omega

section
variable {s : State} (hp : s.boot.phase ≠ .auxOff) (he : s.time.enTref = true)
include hp he

theorem trefEdge_of_valid (hv : edgeValid s.time = true) :
    trefEdge s = retime (correct (edgeOffset s.time.chain) { s with time := { s.time with
      trefHeld := true, lostAt := none, missed := 0, firstEdge := false, lastEdge := s.time.elapsed
      edgeAt := some s.time.elapsed } }) := by
  rw [trefEdge, if_neg (by simp [hp, he]), if_pos hv]

theorem trefEdge_of_not_valid (hv : edgeValid s.time = false) : trefEdge s = edgeOutside s := by
  rw [trefEdge, if_neg (by simp [hp, he]), if_neg (by simp [hv])]

end

theorem exec_trefLost_of_missed {s : State} (hh : s.time.trefHeld = true) (he : s.time.enTref = true)
    (hm : 3 ≤ missedEdges s.time) : exec .trefLost s = .next (loseTref 3 s) :=
  congrArg Host.Outcome.next (if_pos (by simp [hh, he, hm]))

theorem exec_holdoverExpire_of_lost {s : State} {l : Nat} (hl : s.time.lostAt = some l)
    (hd : l + 2 ^ 30 ≤ s.time.elapsed) :
    exec .holdoverExpire s = .next (retime { s with time := { s.time with lostAt := none } }) := by
  change execHoldoverExpire s = _
  simp only [execHoldoverExpire, hl, if_pos hd]

/-! ### TIME frames (02 R42-R46, R48) -/

/-- A device that follows nobody sends as master, if its rank lets it be one. -/
theorem timeFrameSend_of_unled {s : State} (hp : s.boot.phase ≠ .auxOff) (hh : s.flt.halted = false)
    (hm : atMultiple s.time 14 = true) (hf : s.time.following = false) (hr : s.time.rank ≠ 0) :
    ∃ u, u = retime { s with time := { s.time with following := false, forward := false, master := true } }
      ∧ timeFrameSend s = sendTime 1 u.time.rank u.chain.id 0 (sendTime 0 u.time.rank u.chain.id 0 u) := by
  refine ⟨_, rfl, ?_⟩
  rw [timeFrameSend, if_neg (by simp [hp, hh, hm]), if_pos (.inl hf), if_neg hr]

section
variable {s : State} {port sec frac rank master hops : Nat}

theorem timeFrameReceive_of_follows (hup : (s.port port).st = .up) (he : s.time.enChain = true)
    (hh : s.flt.halted = false) (hy : frameYields s.time = false) (hf : follows s port rank master hops = true) :
    timeFrameReceive port sec frac s.time.w rank master hops s = retime (correct (frameOffset s port sec frac)
      { s with time := { s.time with
        following := true, master := false, upstream := port, hops := hops + 1, masterId := master, masterRank := rank
        lastFrame := s.time.elapsed, forward := true, offset := satSigned 24 (frameOffset s port sec frac)
        yieldAt := if (s.time.master && s.time.rank == 1) = true then some s.time.elapsed else s.time.yieldAt } }) := by
  simp [timeFrameReceive, hup, he, hh, hy, hf]

/-- A frame in the tick of a valid edge is ignored, whether or not the device would listen to its port. -/
theorem timeFrameReceive_of_edge (he : s.time.edgeAt = some s.time.elapsed) :
    timeFrameReceive port sec frac s.time.w rank master hops s = s := by
  have hy : frameYields s.time = true := by simp [frameYields, he]
  unfold timeFrameReceive
  split
  · rfl
  · rw [if_pos rfl, if_pos hy]

end

theorem exec_upstreamLoss_of_silent {s : State} (hf : s.time.following = true)
    (hd : s.time.lastFrame + 2 ^ 16 ≤ s.time.elapsed) :
    exec .upstreamLoss s
      = .next (retime { s with time := { s.time with following := false, forward := false } }) :=
  congrArg Host.Outcome.next (if_pos (by simp only [hf, Bool.true_and, decide_eq_true hd]))

/-! ### The statement -/

/-- Settles O13: each command takes the branch of its meaning that its premises select. -/
theorem chainTime : Obligations.ChainTime := by
  refine ⟨?tick, ?nowRead, ?localRead, ?validEdge, ?outsideEdge, ?trefLost, ?holdover, ?send, ?follow, ?damaged,
    ?yields, ?upstreamLoss, ?boundary⟩
  case tick =>
    exact fun s hp => ⟨exec_localTick_of_powered hp, tickTime_elapsed _, tickTime_chain_of_not_slewing,
      tickTime_chain_of_slewing⟩
  case nowRead | localRead => exact fun head s hh hr => onUnit_eq_next hh (if_pos hr)
  case validEdge => exact fun s hp he hv => congrArg Host.Outcome.next (trefEdge_of_valid hp he hv)
  case outsideEdge =>
    exact fun s hp he hf ho => congrArg Host.Outcome.next (trefEdge_of_not_valid hp he (edgeValid_of_outside hf ho))
  case trefLost => exact fun s hh he hm => ⟨_, exec_trefLost_of_missed hh he hm, _, rfl, rfl⟩
  case holdover => exact fun s l hl hd => exec_holdoverExpire_of_lost hl hd
  case send =>
    intro s hp hh hm hf hr
    obtain ⟨u, hu, ht⟩ := timeFrameSend_of_unled hp hh hm hf hr
    exact ⟨_, rfl, u, hu, ht⟩
  case follow =>
    rintro port sec frac w rank master hops s hport hup he hh rfl hy hf
    exact onUnit_eq_next hport (timeFrameReceive_of_follows hup he hh hy hf)
  case damaged => exact fun port sec frac w rank master hops s hport => onUnit_eq_next hport rfl
  case yields =>
    rintro port sec frac w rank master hops s hport rfl he
    exact onUnit_eq_next hport (timeFrameReceive_of_edge he)
  case upstreamLoss => exact fun s hf hd => exec_upstreamLoss_of_silent hf hd
  case boundary => exact fun s hk hm hl hh => congrArg Host.Outcome.next (if_pos ⟨hk, hm, hl, hh⟩)

end Sys2Proof.Machine
end

section
/-! PROOF. The mailbox commands of chain time and of the sluices. -/

namespace Sys2Proof.Machine

/-! ### What the commands' own work comes to -/

theorem outFits_nil (s : State) (m : Mb) : outFits s m [] = true := by simp [outFits]

/-- A setting of a head that does not manage the device is refused, and goes to CTB_HOSTOFS (02 R40). -/
theorem setTimestamp_of_not_managing {m : Mb} {s : State} (hs : m.src < 8) (hm : isManaging s m.src = false)
    (ns : Nat) :
    setTimestamp m ns s
      = { s with time := { s.time with hostOfs := satSigned 24 ((ofNanos ns : Int) - s.time.chain) } } :=
  if_neg (by simp [hm, Nat.ne_of_lt hs])

theorem setSluice_of_lawful {p : List Byte} {s : State}
    (hp : parsOk (setSluiceCfg p s.slu.next) (byteAt p 0) = true)
    (ha : admissible s (setSluiceCfg p s.slu.next) = true) :
    setSluice p s = .ok [] { s with
      slu := { s.slu with next := setSluiceCfg p s.slu.next }
      time := if bitAt p 2 3 then { s.time with wNext := byteAt p 3 } else s.time } := by
  simp [setSluice, hp, ha]

section
variable {p : List Byte} {s : State}

theorem setMasterAttr_of_lawful (hm : ¬ (byteAt p 1 = 3 ∧ byteAt p 0 = 17 ∧ ofLe p 8 8 = 0))
    (hp : parsOk (setAttrCfg (byteAt p 0) (byteAt p 1) (ofLe p 8 8) s.slu.next) (byteAt p 0) = true)
    (hr : anyRekeyTooSlow s (setAttrCfg (byteAt p 0) (byteAt p 1) (ofLe p 8 8) s.slu.next) = false)
    (ha : admissible s (setAttrCfg (byteAt p 0) (byteAt p 1) (ofLe p 8 8) s.slu.next) = true) :
    setMasterAttr p s = .ok [] { s with
      slu := { s.slu with next := setAttrCfg (byteAt p 0) (byteAt p 1) (ofLe p 8 8) s.slu.next } } := by
  rw [setMasterAttr, if_neg hm, if_neg (by simp [hp]), if_neg (by simp [hr]), if_neg (by simp [ha])]

/-- The berth map of heat decay may not be empty (03 R70). -/
theorem setMasterAttr_of_empty_decay_map (hm : byteAt p 1 = 3 ∧ byteAt p 0 = 17 ∧ ofLe p 8 8 = 0) :
    setMasterAttr p s = .fail 0x0301 8 :=
  if_pos hm

end

/-! ### The statement -/

/-- Settles O14: an accepted command ends as its own work says, which the premises of each clause make a success but for
the empty berth map. -/
theorem timeAndBandwidthCommands : Obligations.TimeAndBandwidthCommands := by
  refine ⟨?setChainTime, ?setTimeSource, ?getChainTime, ?setTimestamp, ?getTimestamp, ?setSluice, ?setGuarantee,
    ?setMasterAttr, ?emptyDecayMap, ?getSluice, ?getBwCounters, ?getFloor⟩
  case setChainTime =>
    exact fun m p s h hs => congrArg Host.Outcome.next (runCrity_fin h (if_pos hs) (outFits_nil s m) rfl)
  case setTimeSource => exact fun m p s h => congrArg Host.Outcome.next (runCrity_fin h rfl (outFits_nil s m) rfl)
  case getChainTime =>
    intro m p s h hl
    have fits : outFits s m (le 8 s.time.chain ++ le 8 s.time.elapsed ++ le 4 (ctbStatus s)
        ++ le 4 (twos 24 s.time.offset)) = true := by
      simpa [outFits, le] using hl
    exact congrArg Host.Outcome.next (runCrity_read h rfl fits rfl)
  case setTimestamp =>
    intro m p s h hl hs hm
    refine congrArg Host.Outcome.next (runStd_ok h ((if_pos hl).trans ?_) (outFits_nil s m))
    rw [setTimestamp_of_not_managing hs hm]
  case getTimestamp =>
    intro m p s h hl
    have fits : outFits s m (le 8 (toNanos s.time.chain)) = true := by simpa [outFits, le] using hl
    exact congrArg Host.Outcome.next (runStd_ok h rfl fits)
  case setSluice =>
    rintro m p c s h rfl hp ha
    exact congrArg Host.Outcome.next (runCrity_fin h (setSluice_of_lawful hp ha) (outFits_nil s m) rfl)
  case setGuarantee =>
    intro m p s h hp ha
    refine congrArg Host.Outcome.next (runCrity_fin h ?_ (outFits_nil s m) rfl)
    exact (if_neg (by simp [hp])).trans (if_neg (by simp [ha]))
  case setMasterAttr =>
    rintro m p c s h rfl hm hp hr ha
    exact congrArg Host.Outcome.next (runCrity_fin h (setMasterAttr_of_lawful hm hp hr ha) (outFits_nil s m) rfl)
  case emptyDecayMap =>
    intro m p s h hm
    refine congrArg Host.Outcome.next ?_
    rw [runCrity_of_accepts h, setMasterAttr_of_empty_decay_map hm]
  case getSluice | getFloor => exact fun m _ s h hf => congrArg Host.Outcome.next (runCrity_read h rfl hf rfl)
  case getBwCounters =>
    rintro m p _ s h rfl hf
    exact congrArg Host.Outcome.next (runCrity_read h rfl hf rfl)

end Sys2Proof.Machine
end

section
/-! PROOF. Commits of movers and barges, berth and cycle boundaries, a step of Keeper firmware, a unit recorded LOST. -/

namespace Sys2Proof.Machine

/-! ### Commits of a move (03 R74, R89) -/

section
variable {s : State} {page : Nat} {l : Lock} {d : MoveDest}

/-- A mover that reads its page already has nothing to begin. -/
theorem beginReads_of_reading (hl : lockOf s page = some l) (hr : l.reading = true) : beginReads page s = s := by
  simp [beginReads, hl, hr]

/-- A commit of a page whose mover reads is the commit of its lock's move. -/
theorem exec_moverCommit_of_reading (hh : s.flt.halted = false) (hl : lockOf s page = some l)
    (hr : l.reading = true) : exec (.moverCommit page d) s = .next (commitMove l d s) := by
  refine congrArg Host.Outcome.next ?_
  rw [moverCommit, if_neg (by simp [hh]), beginReads_of_reading hl hr]
  simp only [hl]

variable (hr : l.reading = true) (hk : (keyRangeOf s (4096 * l.page)).isSome = true)
include hr hk

theorem commitMove_of_dredge (hkind : l.kind = .dredge) (hb : blockReady s l d = true) :
    commitMove l d s = afterCommit l (s.page l.page) (commitCopy l d s) := by
  rw [commitMove, if_neg (by simp [hr, Option.isSome_iff_ne_none.1 hk]), hkind]
  exact if_pos hb

section
variable (hd : l.kind ≠ .dredge) (hb : l.kind ≠ .rebuild) (hw : overlayWrites s l.page = false)
include hd hb hw

theorem commitMove_of_zeroResult (hz : zeroResult s l = true) :
    commitMove l d s = afterCommit l (s.page l.page) (commitZero l (if l.tier = 0 then 0 else l.wm) s) := by
  rw [commitMove, if_neg (by simp [hr, Option.isSome_iff_ne_none.1 hk])]
  split
  case h_1 hkind => exact absurd hkind hd
  case h_2 hkind => exact absurd hkind hb
  all_goals rw [if_neg (by simp [hw]), if_pos hz]

/-- A block that is ready stands in a barge, so its move does not end in Tier H. -/
theorem commitMove_of_blockReady (hz : zeroResult s l = false) (hready : blockReady s l d = true) :
    commitMove l d s = afterCommit l (s.page l.page) (commitBlock l d s) := by
  have tier : l.tier ≠ 0 := by
    simp only [blockReady, Bool.and_eq_true, decide_eq_true_eq] at hready
    omega
  rw [commitMove, if_neg (by simp [hr, Option.isSome_iff_ne_none.1 hk])]
  split
  case h_1 hkind => exact absurd hkind hd
  case h_2 hkind => exact absurd hkind hb
  all_goals rw [if_neg (by simp [hw]), if_neg (by simp [hz]), if_neg tier, if_pos hready]

end

end

/-! ### Commits of a barge (04 R110; 11 R308) -/

section
variable {s : State} {t b : Nat} {w : BargeWrite} {blocks : List BlockPut} (hh : s.flt.halted = false)
  (hw : (s.drives.writes.find? fun w => w.tier == t && w.barge == b) = some w) (hdone : w.waiting = [])
include hh hw hdone

/-- A barge whose chunks have all been written leaves the table of barge writes, and commits unless it was abandoned. -/
theorem bargeCommit_of_written : bargeCommit t b blocks s
    = if w.abandoned then
        { s with drives := { s.drives with writes := s.drives.writes.filter (· != w) } }
      else commitBarge t b blocks
        { s with drives := { s.drives with writes := s.drives.writes.filter (· != w) } } := by
  simp only [bargeCommit, hh, hw, hdone, Bool.false_eq_true, if_false, List.isEmpty_nil, Bool.not_true]

end

/-! ### Berth and cycle boundaries (02 R52; 03 R92) -/

theorem berthBoundary_of_new_berth {s : State} (plan : BerthPlan) (hp : s.boot.phase = .ready)
    (hh : s.flt.halted = false) (hn : s.time.chain / 262144 ≠ s.time.lastBerth / 262144) :
    berthBoundary plan s = berthWork plan { s with time := { s.time with lastBerth := s.time.chain } } :=
  if_neg (by simp [hp, hh, hn])

theorem berthBoundary_of_same_berth {s : State} (plan : BerthPlan)
    (hs : s.time.chain / 262144 = s.time.lastBerth / 262144) : berthBoundary plan s = s :=
  if_pos (.inr (.inr hs))

theorem cycleBoundary_of_new_second {s : State} (polls : List DrivePoll) (hp : s.boot.phase = .ready)
    (hh : s.flt.halted = false) (hn : seconds s.time.chain ≠ seconds s.time.lastCycle) :
    cycleBoundary polls s = cycleWork polls { s with time := { s.time with lastCycle := s.time.chain } } :=
  if_neg (by simp [hp, hh, hn])

/-! ### A unit is recorded LOST (04 R113) -/

theorem isDrive_eq_false {slot : Nat} (h : slot < 32) : isDrive slot = false :=
  decide_eq_false (Nat.not_le.2 h)

theorem exec_unitRecordLost_of_running {s : State} {slot : Nat} (h : slot < 48) (hoff : keeperOff s = false)
    (hpause : keeperPaused s = false) : exec (.unitRecordLost slot) s = .next (recordLost slot s) :=
  onUnit_eq_next h (if_neg (by simp [hoff, hpause]))

/-- A fenced DIMM in service becomes LOST, and re-protection starts unless a replacement defers it. -/
theorem recordLost_of_dimm {s : State} {slot : Nat} (h : slot < 32) (hf : (s.unit slot).fenced = true)
    (hu : (s.unit slot).health = .healthy) (hs : (s.slot slot).st ≠ .fetShort) :
    ∃ u, recordLost slot s = (if deferred u slot then refreshHolds u else reprotect slot u)
      ∧ u = failUnitOutings slot (raise 322 0 0xFF .all (le 1 slot ++ le 1 (s.unit slot).cause)
        (s.modUnit slot fun u => { u with health := .lost, catchUp := [], hotMark := 0, warmMark := 0 })) := by
  refine ⟨_, ?_, rfl⟩
  have slotGood : ((s.slot slot).st == SlotSt.fetShort) = false := beq_false_of_ne hs
  rw [recordLost, if_neg (by simp [hf, hu])]
  simp only [slotGood, isDrive_eq_false h, Bool.false_eq_true, if_false, raiseAll]

/-! ### The statement -/

/-- Settles O15: each command takes the branch of its meaning that its premises select. -/
theorem moversAndBerths : Obligations.MoversAndBerths := by
  refine ⟨?zero, ?block, ?copy, ?barge, ?abandoned, ?berth, ?sameBerth, ?cycle, ?keeper, ?lost⟩
  case zero =>
    intro page d l s hh hl hr hk hd hb hw hz
    rw [exec_moverCommit_of_reading hh hl hr, commitMove_of_zeroResult hr hk hd hb hw hz]
  case block =>
    intro page d l s hh hl hr hk hd hb hw hz hready
    rw [exec_moverCommit_of_reading hh hl hr, commitMove_of_blockReady hr hk hd hb hw hz hready]
  case copy =>
    intro page d l s hh hl hr hk hd hready
    rw [exec_moverCommit_of_reading hh hl hr, commitMove_of_dredge hr hk hd hready]
  case barge =>
    exact fun t b blocks w s hh hw hdone ha => congrArg Host.Outcome.next
      ((bargeCommit_of_written hh hw hdone).trans (if_neg (by simp [ha])))
  case abandoned =>
    exact fun t b blocks w s hh hw hdone ha => congrArg Host.Outcome.next
      ((bargeCommit_of_written hh hw hdone).trans (if_pos ha))
  case berth => exact fun plan s hp hh hn => congrArg Host.Outcome.next (berthBoundary_of_new_berth plan hp hh hn)
  case sameBerth => exact fun plan s hs => congrArg Host.Outcome.next (berthBoundary_of_same_berth plan hs)
  case cycle => exact fun polls s hp hh hn => congrArg Host.Outcome.next (cycleBoundary_of_new_second polls hp hh hn)
  case keeper => exact fun s hoff hpause => congrArg Host.Outcome.next (if_neg (by simp [hoff, hpause]))
  case lost =>
    rintro slot s h ⟨hoff, hpause⟩ hf hu hs
    exact ⟨_, exec_unitRecordLost_of_running (by omega) hoff hpause, recordLost_of_dimm h hf hu hs⟩

end Sys2Proof.Machine
end

section
/-! PROOF. The mailbox commands of the geometry, of pins and hints, and of stages. -/

namespace Sys2Proof.Machine

/-! ### What the commands' own work comes to -/

section
variable {p : List Byte} {s : State}

theorem setTierGeometry_of_policy_alone (hg : bitAt p 3 0 = false) (hp : bitAt p 3 1 = true)
    (ho : s.map.geo.offeredGib = 0) :
    setTierGeometry p s = .ok [] { s with map := { s.map with polNext := some (policyOf p) } } := by
  simp [setTierGeometry, hg, hp, ho]

theorem setTierGeometry_of_geometry_alone {g : Geometry} (hg : bitAt p 3 0 = true) (hp : bitAt p 3 1 = false)
    (hgeo : g = geometryOf s (byteAt p 0) (byteAt p 1) (byteAt p 2)) (hz : allZero s = true)
    (hdrives : byteAt p 1 + byteAt p 2 ≤ (healthyDrives s).length) (hpop : populationOk s = true)
    (hres : reserveOk s g (s.map.polNext.getD s.map.pol).ovlSoft = true) :
    setTierGeometry p s = .ok [] (commitGeometry g s) := by
  subst hgeo
  simp [setTierGeometry, hg, hp, hz, Nat.not_lt.2 hdrives, hpop, hres]

/-- A PIN is set where the pins fit, and unlimited commands do not ask. -/
theorem pinCommand_of_fits {v : Nat} {limited : Bool}
    (h : limited = true → pinsFit s (setPin (ofLe p 0 8) (ofLe p 8 8) v s.map.pins) = true) :
    pinCommand p v limited s = .ok [] (repin (ofLe p 0 8) (ofLe p 8 8)
      { s with map := { s.map with pins := setPin (ofLe p 0 8) (ofLe p 8 8) v s.map.pins } }) := by
  refine if_neg ?_
  simpa [spanOf] using h

theorem stagePages_of_room {m : Mb} {work : List Nat}
    (hroom : (s.crity.outings.countP fun o => o.open_ && o.kind == 0x0A) < 64)
    (hwork : work = (s.map.pages.filter fun x => decide ((spanOf p).1 ≤ x.1)
      && decide (x.1 < (spanOf p).1 + (spanOf p).2) && x.2.outside (byteAt p 16)
      && pinAllows (pinOf s x.1) (byteAt p 16)).map (·.1)) :
    stagePages m p s = .ok (le 4 s.crity.nextOuting) (refreshHolds
      ((openOuting 0x0A m.src 0xFFFFFFFF (spanOf p).2 work
        (countOverrides 0 (forbidden s.map.pins (spanOf p).1 (spanOf p).2 (byteAt p 16)) s)).modOuting
          s.crity.nextOuting fun o => { o with
            tier := byteAt p 16, done := (spanOf p).2 - work.length
            percent := openPercent ((spanOf p).2 - work.length) (spanOf p).2 })) := by
  subst hwork
  exact if_neg (Nat.not_le.2 hroom)

end

/-- The number of an outing fits a mailbox that takes 4 bytes. -/
theorem outFits_le_four {s : State} {m : Mb} (h : 4 ≤ limitOf s m.src) (id : Nat) : outFits s m (le 4 id) = true := by
  simpa [outFits, le] using h

/-! ### The statement -/

/-- Settles O16: an accepted command ends as its own work says, which the premises of each clause make a success. -/
theorem placementCommands : Obligations.PlacementCommands := by
  refine ⟨?policy, ?geometry, ?getCapacity, ?placeHint, ?pinPages, ?unpinPages, ?stagePages, ?getHeat⟩
  case policy =>
    exact fun m p s h hg hp ho => congrArg Host.Outcome.next
      (runCrity_fin h (setTierGeometry_of_policy_alone hg hp ho) (outFits_nil s m) rfl)
  case geometry =>
    exact fun m p g s h hg hp hgeo hz hdrives hpop hres => congrArg Host.Outcome.next
      (runCrity_fin h (setTierGeometry_of_geometry_alone hg hp hgeo hz hdrives hpop hres) (outFits_nil s m) rfl)
  case getCapacity | getHeat => exact fun m _ s h hf => congrArg Host.Outcome.next (runCrity_read h rfl hf rfl)
  case placeHint | pinPages =>
    exact fun m p s h hfit => congrArg Host.Outcome.next
      (runCrity_fin h (pinCommand_of_fits fun _ => hfit) (outFits_nil s m) rfl)
  case unpinPages =>
    exact fun m p s h => congrArg Host.Outcome.next
      (runCrity_fin h (pinCommand_of_fits (by simp)) (outFits_nil s m) rfl)
  case stagePages =>
    exact fun m p work s h hroom hl hwork => congrArg Host.Outcome.next
      (runCrity_fin h (stagePages_of_room hroom hwork) (outFits_le_four hl _) rfl)

end Sys2Proof.Machine
end

section
/-! PROOF. Replacing a unit, the grace and the HELD partner of a DIMM's replacement, and the loss list. -/

namespace Sys2Proof.Machine

/-! ### Replacements (04 R123-R126) -/

/-- Marking a replacement leaves every unit's record alone. -/
@[simp] theorem State.modRepl_unit (s : State) (slot i : Nat) (f : Replacement → Replacement) :
    (s.modRepl slot f).unit i = s.unit i := rfl

/-- By force, a drive is fenced, recorded and taken down, under the replacement open on its slot or a new one. -/
theorem beginReplace_of_forced_drive {p : List Byte} {s v : State} (hd : 32 ≤ byteAt p 0) (hf : bitAt p 1 0 = true)
    (hv : v = recordLost (byteAt p 0) (fenceUnit (byteAt p 0) 3 s)) :
    ∃ u, beginReplace p s = .ok [] (refreshHolds (slotOff (byteAt p 0) 1 3 u))
      ∧ (u = v ∨ ∃ r, u = { v with dur := { v.dur with repl := v.dur.repl ++ [r] } }
        ∧ r.slot = byteAt p 0 ∧ r.expired = true) := by
  subst hv
  have drive : isDrive (byteAt p 0) = true := decide_eq_true hd
  refine ⟨_, (if_neg (by simp [hf])).trans (if_pos drive), ?_⟩
  split
  case isTrue => exact .inl rfl
  case isFalse => exact .inr ⟨_, rfl, rfl, drive⟩

theorem endReplace_of_off {p : List Byte} {s : State} {r : Replacement} (hr : replOf s (byteAt p 0) = some r)
    (he : r.ending = false) (hp : (s.slot (byteAt p 0)).present = true) (ho : (s.slot (byteAt p 0)).st = .off) :
    endReplace p s = .bg (.endReplace (byteAt p 0)) (powerUp (byteAt p 0)
      (s.modRepl (byteAt p 0) fun r => { r with ending := true, trained := false })) := by
  simp [endReplace, hr, he, hp, ho]

/-- Once the grace of a DIMM's replacement is over, a healthy partner is kept. -/
theorem graceExpire_of_healthy_partner {slot : Nat} {r : Replacement} {s : State} (h : slot < 32)
    (hr : replOf s slot = some r) (he : r.expired = false) (hg : r.grace ≤ s.time.elapsed)
    (hp : (s.unit (otherSlot slot)).health = .healthy) :
    graceExpire slot s = if r.reprotect ∨ (s.unit slot).health ≠ .lost
      then s.modRepl slot fun r => { r with expired := true }
      else reprotect slot (s.modRepl slot fun r => { r with expired := true }) := by
  have due : ¬ (r.expired ∨ isDrive slot ∨ s.time.elapsed < r.grace) := by
    simp [he, isDrive_eq_false h, hg]
  simp only [graceExpire, hr, if_neg due]
  simp [hp]

theorem exec_graceExpire_of_running {slot : Nat} {s : State} (h : slot < 32)
    (hrun : s.flt.halted = false ∧ s.boot.phase.keeper = true) :
    exec (.graceExpire slot) s = .next (graceExpire slot s) :=
  onUnit_eq_next (by omega) (if_neg (by simp [hrun]))

/-- No replacement and no outing stands in the way of the HELD DIMM's catch-up. -/
theorem heldRestore_of_awake {slot : Nat} {s : State}
    (hu : (s.unit slot).health = .held ∧ (s.unit slot).fenced = false)
    (hd : (s.dom (domDC (slotChannel slot))).st = .on ∧ (s.dom (domDC (slotChannel slot))).padsHeld = false)
    (hr : s.dur.repl = []) (ho : s.crity.outings = []) :
    heldRestore slot s = startRefills
      (startOuting 5 0xFF slot (s.unit slot).catchUp.length (s.unit slot).catchUp s) := by
  simp [heldRestore, replOf, hu, hd, hr, ho]

/-! ### The loss list (04 R118-R121) -/

/-- The managing head may clear every entry, and one that is not a remote line's needs no answer from a home. -/
theorem clearLossEntry_of_local {src : Nat} {p : List Byte} {e : LossEntry} {s : State}
    (hf : s.dur.loss.find? (·.seq == ofLe p 0 4) = some e) (hm : isManaging s src = true) (hc : e.cause ≠ 5) :
    clearLossEntry src p s = .ok [] (zeroEntry e s) := by
  simp [clearLossEntry, hf, hm, hc]

/-! ### The statement -/

/-- Settles O17: an accepted command ends as its own work says, and each event takes the branch of its meaning that its
premises select. -/
theorem replacements : Obligations.Replacements := by
  refine ⟨?beginDrive, ?endReplace, ?graceKept, ?graceReprotect, ?heldRestore, ?getLossList, ?clearLossEntry⟩
  case beginDrive =>
    intro m p s h hd hf
    obtain ⟨u, own, hu⟩ := beginReplace_of_forced_drive hd hf rfl
    exact ⟨_, congrArg Host.Outcome.next (runCrity_fin h own (outFits_nil s m) rfl), _, u, rfl, rfl, hu⟩
  case endReplace =>
    exact fun m p r s h hr he hp ho hb => congrArg Host.Outcome.next (runCrity_bg h (endReplace_of_off hr he hp ho) hb)
  case graceKept =>
    intro slot r s h hrun hr he hre hg hp
    rw [exec_graceExpire_of_running h hrun, graceExpire_of_healthy_partner h hr he hg hp, if_pos (.inl hre)]
  case graceReprotect =>
    intro slot r s h hrun hr he hre hg hp hl
    rw [exec_graceExpire_of_running h hrun, graceExpire_of_healthy_partner h hr he hg hp,
      if_neg (by simp [hre, hl])]
  case heldRestore =>
    intro slot s h hh hk hu hd hr ho
    exact onUnit_eq_next h ((if_neg (by simp [hh, hk])).trans (heldRestore_of_awake hu hd hr ho))
  case getLossList => exact fun m p s h hf => congrArg Host.Outcome.next (runCrity_read h rfl hf rfl)
  case clearLossEntry =>
    exact fun m p e s h hf hm hc => congrArg Host.Outcome.next
      (runCrity_fin h (clearLossEntry_of_local hf hm hc) (outFits_nil s m) rfl)

end Sys2Proof.Machine
end

section
/-! PROOF. Codec engines: items that end, sizes of blocks, watchdogs and self-tests. -/

namespace Sys2Proof.Machine

/-! ### Items that end (05 R137-R142) -/

section
variable {e : Nat} {i : Item} {s : State} (hs : stalled s e = false) (hn : (s.engine e).now = some i)
include hs hn

theorem itemComplete_compressed_of_unarmed (hd : i.dec = false)
    (ha : armedFor 0x0B e i.page (freeEngine e s) = none) :
    itemComplete e .compressed s = compressed e i.page (freeEngine e s) := by
  simp only [itemComplete, hs, hn, hd, ha, Bool.false_eq_true, if_false]

/-- An injected verify failure fails the check of a compression that ended (19 R482). -/
theorem itemComplete_compressed_of_armed {a : Armed} (hd : i.dec = false)
    (ha : armedFor 0x0B e i.page (freeEngine e s) = some a) :
    itemComplete e .compressed s = mismatch e i.page (useArmed a (freeEngine e s)) := by
  simp only [itemComplete, hs, hn, hd, ha, Bool.false_eq_true, if_false]

theorem itemComplete_verifyMismatch (hd : i.dec = false) :
    itemComplete e .verifyMismatch s = mismatch e i.page (freeEngine e s) := by
  simp only [itemComplete, hs, hn, hd, Bool.false_eq_true, if_false]

theorem itemComplete_decoded (hd : i.dec = true) :
    itemComplete e .decoded s
      = if streamDecodes s i.page then decoded e i (freeEngine e s) else decodeFail e i (freeEngine e s) := by
  simp only [itemComplete, hs, hn, hd, Bool.false_eq_true, if_false]

theorem itemComplete_decodeFail (hd : i.dec = true) :
    itemComplete e .decodeFail s = decodeFail e i (freeEngine e s) := by
  simp only [itemComplete, hs, hn, hd, Bool.false_eq_true, if_false]

end

/-! ### Sizes of blocks (05 R137, R138) -/

@[simp] theorem rawBlock_size (s : State) (e page : Nat) : (rawBlock s e page).size = 16 := rfl

/-- A stream and its header of 32 bytes fill whole sectors of 256 bytes. -/
theorem blockSize_of_fits {n : Nat} (h : n ≤ 3808) : blockSize n = (n + 32 + 255) / 256 := by
  rw [blockSize, if_pos h, Nat.add_comm 32 n]

theorem blockSize_of_too_long {n : Nat} (h : 3808 < n) : blockSize n = 16 := if_neg (Nat.not_le.2 h)

/-! ### Watchdogs (05 R133) -/

section
variable {e : Nat} {s : State}

theorem watchdog_of_item {i : Item} (hst : (s.engine e).st = .inService) (hn : (s.engine e).now = some i) :
    watchdog e s = makeSuspect e (raise (srcCodec e 1) 0 0xFF (.addr (4096 * i.page))
      (le 1 (if i.dec then 0 else 1) ++ le 8 i.page) s) := by
  simp only [watchdog, hst, hn, ne_eq, not_true_eq_false, if_false, raiseAddr]

theorem watchdog_of_segment {j : Nat} (hst : (s.engine e).st = .inService) (hn : (s.engine e).now = none)
    (hj : (s.engine e).seg = some j) :
    watchdog e s = makeSuspect e (raiseAll (srcCodec e 1) 0 (le 1 2 ++ le 8 j) s) := by
  simp only [watchdog, hst, hn, hj, ne_eq, not_true_eq_false, if_false]

/-- Whether it is in service or not, an idle engine has nothing to time. -/
theorem watchdog_of_idle (hn : (s.engine e).now = none) (hj : (s.engine e).seg = none) : watchdog e s = s := by
  simp only [watchdog, hn, hj, ite_self]

end

/-! ### Self-tests (05 R132) -/

theorem setEngine_testing_of_suspect {e : Nat} {s : State} (h : (s.engine e).st = .suspect) :
    setEngine e .testing s = raiseAll (srcCodec e 2) 2 (le 1 1 ++ le 1 2)
      (s.modEngine e fun x => { x with st := .testing }) := by
  rw [setEngine, h]
  exact if_neg (by decide)

/-! ### The statement -/

/-- Settles O18: each event takes the branch of its meaning that its premises select, and the sizes of blocks follow from
the 32 bytes of the header. -/
theorem codecEngines : Obligations.CodecEngines := by
  refine ⟨?compressed, ?injected, ?mismatch, ?decompression, ?sizes, ?watchItem, ?watchSegment, ?watchIdle, ?testStart,
    ?testDone⟩
  case compressed =>
    exact fun e i s he hs hn hd ha => onUnit_eq_next he (itemComplete_compressed_of_unarmed hs hn hd ha)
  case injected =>
    exact fun e i a s he hs hn hd ha => onUnit_eq_next he (itemComplete_compressed_of_armed hs hn hd ha)
  case mismatch => exact fun e i s he hs hn hd => onUnit_eq_next he (itemComplete_verifyMismatch hs hn hd)
  case decompression =>
    exact fun e i s he hs hn hd =>
      ⟨onUnit_eq_next he (itemComplete_decoded hs hn hd), onUnit_eq_next he (itemComplete_decodeFail hs hn hd)⟩
  case sizes =>
    exact fun e page s => ⟨rawBlock_size s e page, fun n => blockSize_of_fits, fun n => blockSize_of_too_long⟩
  case watchItem => exact fun e i s he hst hn => onUnit_eq_next he (watchdog_of_item hst hn)
  case watchSegment => exact fun e j s he hst hn hj => onUnit_eq_next he (watchdog_of_segment hst hn hj)
  case watchIdle => exact fun e s he hn hj => onUnit_eq_next he (watchdog_of_idle hn hj)
  case testStart =>
    exact fun e s he hst hk => onUnit_eq_next he ((if_pos ⟨hst, hk⟩).trans (setEngine_testing_of_suspect hst))
  case testDone => exact fun e s he hst => ⟨onUnit_eq_next he (if_pos hst), onUnit_eq_next he (if_pos hst)⟩

end Sys2Proof.Machine
end

section
/-! PROOF. Bulk jobs: submission, segments, records, and the commands on a job. -/

namespace Sys2Proof.Machine

/-! ### Submission (05 R148) -/

/-- The counter's value is the job's number, but for 0xFFFF_FFFF, which is skipped. -/
theorem submitJob_of_admitted {m : Mb} {p : List Byte} {s : State}
    (hb : hamperBad s m.src (hamperOf p s.codec.nextJob s.time.chain) = none) (hn : s.codec.nextJob ≠ 0xFFFFFFFF) :
    submitJob m p s = .ok (le 4 s.codec.nextJob) (keepVotes { s with codec := { s.codec with
      jobs := s.codec.jobs ++ [hamperOf p s.codec.nextJob s.time.chain]
      nextJob := wrap 32 (s.codec.nextJob + 1) } }) := by
  simp only [submitJob, if_neg hn, hb]

/-! ### Segments (05 R129, R149, R150) -/

section
variable {e id : Nat} {j : Job} {s : State} (hj : s.job? id = some j)
include hj

/-- Nothing stops the job, the engine is free for it, the sluice passes its source and every source line is at hand. -/
theorem segmentDispatch_of_ready (hst : j.st = .running ∨ j.st = .queued) (hc : j.cancel = none)
    (hd : j.denied = false) (hrun : jobOnEngine s id = false) (hh : s.flt.halted = false) (hstop : jobStop j = none)
    (hmay : mayRunBulk s e = true) (hpass : sluicePassesAt s j.sluice (spanSum j.srcSpans) = true)
    (hbusy : ((linesOf j.srcSpans).filter fun l => !(importOf s l).isSome && jobHeld s false l) = [])
    (hmiss : ((linesOf j.srcSpans).filter fun l => (importOf s l).isSome && (aget s.codec.fetched l).isNone) = [])
    {u : State} (hu : u = (beginWork e ((chargeSluiceAt j.sluice (spanSum j.srcSpans) s).modEngine e fun x =>
      { x with seg := some id })).modJob id fun j => { j with engine := e }) :
    segmentDispatch e id s = if j.st = .running then u else moveJob id .running u := by
  subst hu
  have goesOn : ¬ ((j.st ≠ .queued ∧ j.st ≠ .running) ∨ jobOnEngine s id = true ∨ s.flt.halted = true) := by
    rcases hst with hst | hst <;> simp [hst, hrun, hh]
  simp only [segmentDispatch, hj, if_neg goesOn, hc, hd, hstop, hmay, hpass, hbusy, hmiss, Option.isSome_none,
    Bool.not_true, Bool.or_self, List.isEmpty_nil, Bool.false_eq_true, if_false]

/-- A source line that reads as poison fails the job. -/
theorem segmentDone_of_poison (hs : stalled s e = false) (hseg : (s.engine e).seg = some id)
    (hp : (linesOf j.srcSpans).any (jobPoison s) = true) :
    segmentDone e s = stopJob id .failed 0x0704 (dropFetched (linesOf j.srcSpans)
      (startItem e (s.modEngine e fun x => { x with seg := none }))) := by
  simp only [segmentDone, hs, hseg, hj, hp, Option.map_some, Option.getD_some, Bool.false_eq_true, if_false, if_true]

/-- No source line is poisoned, nobody holds a destination line and the sluice passes the segment's bytes. -/
theorem segmentDone_of_clear {x : Job} {ws : List (Nat × List Byte)} (hs : stalled s e = false)
    (hseg : (s.engine e).seg = some id) (hp : (linesOf j.srcSpans).any (jobPoison s) = false)
    (hadv : segAdvance s j = some (x, ws))
    (hbusy : ((linesOf (ws.map fun y => (y.1, y.2.length))).filter fun l =>
      (importOf s l).isNone && jobHeld s true l) = [])
    (hpass : sluicePassesAt s j.sluice (spanSum (ws.map fun y => (y.1, y.2.length))) = true) :
    segmentDone e s = afterSegment e id (endJob id ((ws.foldl (fun t y => jobWrite j y t)
      (chargeSluiceAt j.sluice (spanSum (ws.map fun y => (y.1, y.2.length)))
        (dropFetched (linesOf j.srcSpans)
          (startItem e (s.modEngine e fun x => { x with seg := none }))))).modJob id fun _ => x)) := by
  simp only [segmentDone, hs, hseg, hj, hp, hadv, hbusy, hpass, Option.map_some, Option.getD_some, List.isEmpty_nil,
    Bool.not_true, Bool.false_eq_true, if_false]

end

theorem exec_jobSegmentDone_of_seg {e id : Nat} {s : State} (he : e < 32) (hseg : (s.engine e).seg = some id) :
    exec (.jobSegmentDone e id) s = .next (segmentDone e s) :=
  onUnit_eq_next he (if_pos hseg)

/-- A job that neither carries a stream nor codes shards is of a CRC function, and writes nothing. -/
theorem segAdvance_of_crc {j : Job} (s : State) (h : j.isStream = false ∧ j.isRs = false) :
    segAdvance s j = some ({ j with
      result := crcNext j (j.srcSpans.map (spanBytes s)).flatten
      used := j.used + ((j.srcSpans.map (spanBytes s)).flatten).length }, []) := by
  obtain ⟨hstream, hrs⟩ := h
  simp only [segAdvance, hstream, hrs, Bool.false_eq_true, if_false]

/-! ### Records (05 R154) -/

theorem exec_jobRecordExpire_of_stopped {id : Nat} {j : Job} {s : State} (hj : s.job? id = some j)
    (ho : j.open_ = false) (ht : j.stopped + 67108864 ≤ s.time.elapsed) :
    exec (.jobRecordExpire id) s
      = .next { s with codec := { s.codec with jobs := s.codec.jobs.filter (·.id != id) } } := by
  have due : (!j.open_ && decide (j.stopped + 2 ^ 26 ≤ s.time.elapsed)) = true := by simp [ho, ht]
  exact congrArg Host.Outcome.next (by simp only [hj, due, if_true])

/-- A little-endian field has the length it is written with. -/
@[simp] theorem length_le (n v : Nat) : (le n v).length = n := by simp [le]

@[simp] theorem length_zeros (n : Nat) : (zeros n).length = n := by simp [zeros]

theorem length_jobBytes (j : Job) (sb : Bool) : (jobBytes j sb).length = 64 := by
  simp [jobBytes]

theorem getJob_of_record {m : Mb} {p : List Byte} {j : Job} {s : State} (hj : s.job? (ofLe p 0 4) = some j)
    (hid : ofLe p 0 4 ≠ 0xFFFFFFFF) : getJob m p s = .ok (jobBytes j (m.src == 8)) s := by
  simp only [getJob, if_neg hid, hj]

/-! ### Resuming and cancelling (05 R151, R153) -/

theorem resumeJob_of_resumable {p : List Byte} {j : Job} {s : State} (hj : s.job? (ofLe p 0 4) = some j)
    (hst : j.st = .resumable)
    (hd : dstBad s { j with dstAddr := ofLe p 8 8, dstLen := ofLe p 16 8, outSeg := 0 } 8 = none) :
    resumeJob p s = .ok [] (moveJob (ofLe p 0 4) .queued (s.modJob (ofLe p 0 4) fun _ =>
      { j with dstAddr := ofLe p 8 8, dstLen := ofLe p 16 8, outSeg := 0 })) := by
  simp only [resumeJob, hj, if_neg (not_not_intro hst), hd]

theorem cancelJob_of_idle {m : Mb} {p : List Byte} {j : Job} {s : State} (hj : s.job? (ofLe p 0 4) = some j)
    (ho : j.open_ = true) (hrun : jobOnEngine s (ofLe p 0 4) = false) :
    cancelJob m p s = .ok [] (stopJob (ofLe p 0 4) .cancelled 0 s) := by
  simp only [cancelJob, hj, ho, hrun, Bool.not_true, Bool.false_eq_true, if_false]

/-! ### The statement -/

/-- Settles O19: an accepted command ends as its own work says, each event takes the branch of its meaning that its
premises select, and a record's 64 bytes fit a mailbox that takes as many. -/
theorem bulkJobs : Obligations.BulkJobs := by
  refine ⟨?submit, ?dispatch, ?segment, ?crc, ?poison, ?expire, ?getJob, ?resume, ?cancel⟩
  case submit =>
    exact fun m p s h hb hn hl => congrArg Host.Outcome.next
      (runCrity_fin h (submitJob_of_admitted hb hn) (outFits_le_four hl _) rfl)
  case dispatch =>
    intro e id j u s he hj hst hc hd hrun hh hstop hmay hpass hbusy hmiss hu
    exact onUnit_eq_next he (segmentDispatch_of_ready hj hst hc hd hrun hh hstop hmay hpass hbusy hmiss hu)
  case segment =>
    intro e id j x ws s he hs hseg hj hp hadv hbusy hpass
    rw [exec_jobSegmentDone_of_seg he hseg, segmentDone_of_clear hj hs hseg hp hadv hbusy hpass]
  case crc => exact fun j s h => segAdvance_of_crc s h
  case poison =>
    intro e id j s he hs hseg hj hp
    rw [exec_jobSegmentDone_of_seg he hseg, segmentDone_of_poison hj hs hseg hp]
  case expire => exact fun id j s hj ho ht => exec_jobRecordExpire_of_stopped hj ho ht
  case getJob =>
    intro m p j s h hl hj hid
    have fits : outFits s m (jobBytes j (m.src == 8)) = true := by simpa [outFits, length_jobBytes] using hl
    exact congrArg Host.Outcome.next (runCrity_read h (getJob_of_record hj hid) fits rfl)
  case resume =>
    exact fun m p j s h hj hst hd => congrArg Host.Outcome.next
      (runCrity_fin h (resumeJob_of_resumable hj hst hd) (outFits_nil s m) rfl)
  case cancel =>
    exact fun m p j s h hj ho hrun => congrArg Host.Outcome.next
      (runCrity_fin h (cancelJob_of_idle hj ho hrun) (outFits_nil s m) rfl)

end Sys2Proof.Machine
end

section
/-! PROOF. Key ranges: the commands on them, Secure Erase and Sanitize, and the key-use limits. -/

namespace Sys2Proof.Machine

/-! ### SET_KEY_RANGE (06 R161-R163) -/

/-- Another valid range overlaps range `r` with the span of `n` (06 R161). -/
def overlapsOther (r : Nat) (n : KeyRange) (s : State) : Bool :=
  (List.range 16).any fun j => j != r && (s.range j).valid
    && decide (n.baseGib < (s.range j).baseGib + (s.range j).sizeGib)
    && decide ((s.range j).baseGib < n.baseGib + n.sizeGib)

/-- Without KEY_SOURCE there is no key to carry. -/
theorem transportOk_of_own_key {src : Nat} {p : List Byte} {s : State} (h : bitAt p 1 5 = false) :
    transportOk s src p = true := by
  simp [transportOk, h]

/-- A change that is not structural moves no page in or out of the range. -/
theorem withAttrs_span_of_not_structural {p : List Byte} {k : KeyRange} (h : structural p k = false) :
    (withAttrs p k).span = k.span := by
  simp only [structural, Bool.or_eq_false_iff, bne_eq_false_iff_eq] at h
  obtain ⟨⟨⟨⟨⟨-, hbase⟩, hsize⟩, -⟩, -⟩, -⟩ := h
  simp only [KeyRange.span, hbase, hsize]

section
variable {src : Nat} {p : List Byte} {k : KeyRange} {s : State} (hk : s.range (byteAt p 0 % 16) = k)
  (hdel : k.deleted = false)
include hk hdel

section
variable (hset : bitAt p 1 0 = true)
  (hcap : (withAttrs p k).baseGib + (withAttrs p k).sizeGib ≤ s.map.geo.offeredGib)
  (hpriv : (withAttrs p k).priv = true → oneBit (byteAt p 2) = true)
  (hover : overlapsOther (byteAt p 0 % 16) (withAttrs p k) s = false)
  (hrate : rekeyTooSlow s s.slu.next ((withAttrs p k).sizeGib * gib) = false)
include hset hcap hpriv hover hrate

/-- The premises stand against the refusals of SET_KEY_RANGE in the order in which it makes them. -/
theorem setKeyRange_of_unused (hv : k.valid = false) (hr : k.rekey = none)
    (hbyp : bitAt p 1 5 = true → (withAttrs p k).bypass = false)
    (hheld : heldOut s (withAttrs p k).baseGib (withAttrs p k).sizeGib = false) (hkey : transportOk s src p = true) :
    setKeyRange src p s = .ok [] ((denyJobs (4096 * k.span.1) (4096 * (k.span.2 - k.span.1))
      (newRoot (hostKey p) s).2).modRange (byteAt p 0 % 16) fun k =>
        { freshKey (newRoot (hostKey p) s).1 true (withAttrs p k) with eraseFresh := [] }) := by
  unfold overlapsOther at hover
  rw [setKeyRange, hk, if_neg (by simp [hdel]), if_neg (by simp [hset]), if_neg (Nat.not_lt.2 hcap),
    if_neg (by simpa using hpriv), if_neg (by simpa using hbyp), if_neg (by simp [hover]), if_neg (by simp [hheld]),
    if_neg (by simp [hv]), if_neg (by simp [hkey]), if_neg (by simp [hrate]), if_pos (by simp [hv]), hr]
  exact if_neg (by simp [hv])

/-- A change of mask or codec mode alone needs neither a range without data nor a new root key (06 R162), so what is
refused of those does not reach it. -/
theorem setKeyRange_of_attributes (hv : k.valid = true) (herase : bitAt p 1 4 = false) (hsrc : bitAt p 1 5 = false)
    (hstruct : structural p k = false) (hnew : withAttrs p k ≠ k) :
    setKeyRange src p s = .ok [] (denyJobs (4096 * k.span.1) (4096 * (k.span.2 - k.span.1))
      (s.modRange (byteAt p 0 % 16) fun k => { withAttrs p k with histP := 0, histG := 0 })) := by
  unfold overlapsOther at hover
  rw [setKeyRange, hk, if_neg (by simp [hdel]), if_neg (by simp [hset]), if_neg (Nat.not_lt.2 hcap),
    if_neg (by simpa using hpriv), if_neg (by simp [hsrc]), if_neg (by simp [hover]),
    if_neg (by simp [hv, withAttrs_span_of_not_structural hstruct]), if_neg (by simp [hstruct]),
    if_neg (by simp [transportOk_of_own_key hsrc]), if_neg (by simp [hrate]),
    if_neg (by simp [hv, hstruct, herase]), if_neg hnew]

end

theorem setKeyRange_of_erasing_delete (hv : k.valid = true) (hclear : bitAt p 1 0 = false)
    (herase : bitAt p 1 4 = true) (hsrc : bitAt p 1 5 = false) :
    setKeyRange src p s = .ok [] (cryptoErase (byteAt p 0 % 16) src none [k.span]
      (s.modRange (byteAt p 0 % 16) fun k => { k with valid := false, deleted := true })) := by
  rw [setKeyRange, hk, if_neg (by simp [hdel]), if_pos (by simp [hclear]), if_pos hv, deleteRange, hk,
    if_neg (by simp [hsrc]), if_neg (by simp [herase]), if_neg (by simp [transportOk_of_own_key hsrc]), if_pos herase]

end

/-! ### REKEY_RANGE and CRYPTO_ERASE (06 R185, R187) -/

/-- A new root key starts no outing. -/
@[simp] theorem newRoot_crity (host : Option (BitVec 256)) (s : State) : (newRoot host s).2.crity = s.crity := by
  cases host <;> rfl

section
variable {src : Nat} {p : List Byte} {k : KeyRange} {s : State} (hk : s.range (byteAt p 0) = k) (hv : k.valid = true)
include hk hv

theorem rekeyRange_of_one_epoch (hl : k.live = 1) (he : k.erase = none) (hn : k.epoch < 0xF00000) :
    rekeyRange src p s = .bgDone (.rekey (byteAt p 0) s.crity.nextOuting) (le 4 s.crity.nextOuting)
      (refreshHolds (openEpoch (byteAt p 0) src s)) := by
  rw [rekeyRange, hk, if_neg (by simp [hl, he]), if_neg (by simp [hv]), if_neg (Nat.not_le.2 hn)]

theorem eraseRange_of_valid (hbyp : bitAt p 1 5 = true → k.bypass = false) (hkey : transportOk s src p = true) :
    eraseRange src p s = .bgDone (.erase (byteAt p 0) s.crity.nextOuting) (le 4 s.crity.nextOuting)
      (cryptoErase (byteAt p 0) src (some (newRoot (hostKey p) s).1) [k.span] (newRoot (hostKey p) s).2) := by
  rw [eraseRange, hk, if_neg (by simp [hv]), if_neg (by simpa using hbyp), if_neg (by simp [hkey])]
  simp only [newRoot_crity]

end

/-! ### Sanitize (06 R188) -/

theorem sanitize_starts (src : Nat) (s : State) : ∃ op u, sanitize src s = .bg op u ∧ u.mem = [] := by
  refine ⟨_, _, rfl, ?_⟩
  have cleared : (clearAll (secureErase src s)).mem = [] := rfl
  simp [cleared]

/-! ### The statements -/

/-- Settles O20: the premises of each clause lead the command's own work past its refusals, and an accepted command ends
as its own work says; every byte of memory is gone when Sanitize starts (log 35). -/
theorem keyRangeCommands : Obligations.KeyRangeCommands := by
  refine ⟨?setUnused, ?setAttributes, ?delete, ?rekey, ?erase, ?get, ?secureErase, ?sanitize⟩
  case setUnused =>
    intro m p s h hv hdel hr hset hcap hpriv hbyp hover hheld hkey hrate
    have own := setKeyRange_of_unused rfl hdel hset hcap hpriv hover hrate hv hr hbyp hheld hkey
    exact congrArg Host.Outcome.next (runCrity_fin h own (outFits_nil s m) rfl)
  case setAttributes =>
    intro m p s h hv hdel ⟨hset, herase, hsrc⟩ hstruct hnew hcap hpriv hover hrate
    have own := setKeyRange_of_attributes (src := m.src) rfl hdel hset hcap hpriv hover hrate hv herase hsrc hstruct hnew
    exact congrArg Host.Outcome.next (runCrity_fin h own (outFits_nil s m) rfl)
  case delete =>
    exact fun m p s h hv hdel ⟨hclear, herase, hsrc⟩ => congrArg Host.Outcome.next (runCrity_fin h
      (setKeyRange_of_erasing_delete rfl hdel hv hclear herase hsrc) (outFits_nil s m) rfl)
  case rekey =>
    exact fun m p s h hv hl he hn hb => congrArg Host.Outcome.next
      (runCrity_bgDone h (rekeyRange_of_one_epoch rfl hv hl he hn) hb)
  case erase =>
    exact fun m p s h hv hbyp hkey hb => congrArg Host.Outcome.next
      (runCrity_bgDone h (eraseRange_of_valid rfl hv hbyp hkey) hb)
  case get => exact fun m p s h hf => congrArg Host.Outcome.next (runCrity_read h rfl hf rfl)
  case secureErase =>
    exact fun m s h hh => congrArg Host.Outcome.next (runStd_ok h (if_neg (ne_true_of_eq_false hh)) (outFits_nil s m))
  case sanitize =>
    intro m s h hh hidle hb
    obtain ⟨op, u, hu, hmem⟩ := sanitize_starts m.src s
    refine ⟨_, congrArg Host.Outcome.next (runStd_bg h ?_ hb), op, u, hu, rfl, hmem⟩
    exact (if_neg (ne_true_of_eq_false hh)).trans ((if_neg (by rw [hidle]; decide)).trans hu)

/-- Settles O21: each clause is the branch of its event that its premises select. -/
theorem keyUseLimits : Obligations.KeyUseLimits := by
  refine ⟨?soft, ?hard, ?late⟩
  case soft => exact fun r s hr hh hv hl hu => onUnit_eq_next hr (if_pos ⟨hh, hv, hl, hu⟩)
  case hard => exact fun r s hr hh hv hl hu => onUnit_eq_next hr (if_pos ⟨hh, hv, hl, hu⟩)
  case late => exact fun r s hr hh hv hl hlate hu => onUnit_eq_next hr (if_pos ⟨hh, hv, hl, hlate, hu⟩)

end Sys2Proof.Machine
end

section
/-! PROOF. Time limits of coherence, of remote writes and of tandem writes. -/

namespace Sys2Proof.Machine

section
variable {rid : Nat} {x : Remote} {s : State} (hx : s.remote? rid = some x)
include hx

/-! ### An operation that may be sent again, and one that may not (07 R218; 13 R362) -/

theorem nakBackoffRetry_of_due {e : Nat} (hretry : x.retryAt = some e) (hdue : e ≤ s.time.elapsed)
    (hmay : mayResend s x = true) (hh : s.flt.halted = false) :
    execNakBackoffRetry rid s = .next (sendRemote rid (s.modRemote rid fun y => { y with retryAt := none })) := by
  rw [execNakBackoffRetry, hx]
  simp only [hretry, if_pos (And.intro hdue (And.intro hmay hh))]

theorem remoteResendWindowEnd_of_ended (hmay : mayResend s x = false) :
    execRemoteResendWindowEnd rid s = .next (s.modRemote rid fun y => { y with retryAt := none }) := by
  simp [execRemoteResendWindowEnd, hx, hmay]

/-! ### An operation without its acknowledgement 2^15 ticks after its acceptance (13 R364, R368) -/

section
variable (hlate : x.since + 2 ^ 15 ≤ s.time.elapsed) (hh : s.flt.halted = false)
include hlate hh

theorem undeliveredWrite_of_host {r : Req} (hwhy : x.why = .req r) (hw : x.isWrite = true) :
    execUndeliveredWrite rid s = .next (undeliver x s) := by
  rw [execUndeliveredWrite, hx]
  simp only [hwhy, if_pos (And.intro hw (And.intro hlate hh))]

theorem tandemAckTimeout_of_tandem {range q : Nat} (hwhy : x.why = .tandem range q) :
    execTandemAckTimeout rid s = .next (goSolo range 1 s) := by
  rw [execTandemAckTimeout, hx]
  simp only [hwhy, if_pos (And.intro hlate hh)]

theorem tandemAckTimeout_of_resync {range page : Nat} (hwhy : x.why = .resync range page) :
    execTandemAckTimeout rid s = .next (markPage range page (s.modChain fun c => { c with
      remotes := c.remotes.filter fun y => y.why != .resync range page })) := by
  rw [execTandemAckTimeout, hx]
  simp only [hwhy, if_pos (And.intro hlate hh)]

end
end

/-! ### CLEAR_LOSS_ENTRY and a snoop that wait too long (07 R221; 13 R365) -/

theorem clearLossWackTimeout_of_late {m : Mb} {p : List Byte} {since : Nat} {s : State}
    (hwait : s.crity.waiting = some (m, 0xC208, p, since)) (hlate : since + 2 ^ 15 ≤ s.time.elapsed) :
    execClearLossWackTimeout s = .next (endClear (ofLe p 0 4) 0x0508 s) := by
  rw [execClearLossWackTimeout, hwait]
  exact congrArg Host.Outcome.next (if_pos ⟨rfl, hlate⟩)

/-- The device whose snoop went unanswered is reported, fenced for coherence, and holds no line any more. -/
theorem chainSnoopTimeout_of_late {dev line : Nat} {x : ChainSnoop} {s t : State}
    (hx : (s.dir.chSnoops.find? fun x => x.dev == dev && x.line == line) = some x)
    (hlate : x.since + 2 ^ 23 ≤ s.time.elapsed) (hroute : (direction s dev).isSome = true)
    (ht : t = raiseAddr 133 (64 * line) (le 2 dev ++ le 8 line ++ le 1 x.opcode) s) :
    execChainSnoopTimeout dev line s = .next (dropDevice dev (failSnoops dev (t.modChain fun c => { c with
      fenced := if c.fenced.contains dev then c.fenced else dev :: c.fenced }))) := by
  subst ht
  rw [execChainSnoopTimeout, hx]
  exact congrArg Host.Outcome.next (if_pos ⟨hlate, hroute⟩)

/-! ### The statement -/

/-- Settles O34: each event finds what it names and takes the branch that its premises select; a duplicate-write entry
and a reservation are filtered out by their age alone. TANDEM_SOLO gives cause 1 (log 39). -/
theorem chainLimits : Obligations.ChainLimits := by
  refine ⟨?retry, ?resendWindowEnd, ?dupWrite, ?undelivered, ?tandem, ?resync, ?clearLoss, ?snoop, ?reservation⟩
  case retry => exact fun rid e x s hx hretry hdue hmay hh => nakBackoffRetry_of_due hx hretry hdue hmay hh
  case resendWindowEnd => exact fun rid x s hx hmay => remoteResendWindowEnd_of_ended hx hmay
  case dupWrite => exact fun src wtag s => rfl
  case undelivered =>
    exact fun rid x r s hx hwhy hw hlate hh => undeliveredWrite_of_host hx hlate hh hwhy hw
  case tandem => exact fun rid range q x s hx hwhy hlate hh => tandemAckTimeout_of_tandem hx hlate hh hwhy
  case resync => exact fun rid range page x s hx hwhy hlate hh => tandemAckTimeout_of_resync hx hlate hh hwhy
  case clearLoss => exact fun m p since s hwait hlate => clearLossWackTimeout_of_late hwait hlate
  case snoop => exact fun dev line x s hx hlate hroute => chainSnoopTimeout_of_late hx hlate hroute rfl
  case reservation => exact fun line s => rfl

end Sys2Proof.Machine
end

section
/-! PROOF. Host ports: resets of a head, its link and its power states. -/

namespace Sys2Proof.Machine

/-! ### Resets and links of a head (09 R245, R264-R266) -/

section
variable {h cause : Nat} {s : State}

theorem convReset_of_up (hup : (s.head h).up = true) :
    convReset h cause s = raiseHead h 1 (le 1 cause) (resetHead true h s) :=
  if_pos hup

theorem convReset_of_down (hdown : (s.head h).up = false) : convReset h cause s = resetHead true h s :=
  if_neg (ne_true_of_eq_false hdown)

theorem headDown_of_up (hup : (s.head h).up = true) :
    headDown h cause s = raiseHead h 1 (le 1 cause) ((dropJobs h (dropHead h s)).modHead h fun x => { x with
      up := false, width := 0, rate := 0, pme := false
      ide := x.ide.map fun i => { i with keyed := false, secure := false } }) :=
  if_pos hup

end

/-- The head as its link comes up: PME_Turn_Off is over, and Memory_Active stands once the media are ready, unless a
device reset is under way (log 50). -/
def linkedUp (h width rate : Nat) (s : State) : State :=
  (s.modHead h fun x => { x with
    up := true, width := width, rate := rate, pme := false
    memActive := s.boot.mediaReady && s.boot.devReset.isNone }).emit (.credits h)

/-- A link that is up carries 256-byte flits at 64 GT/s alone. -/
theorem linkedUp_flit256 {h : Nat} {s : State} (hlen : h < s.host.heads.length) (width rate : Nat) :
    ((linkedUp h width rate s).head h).flit256 = (rate == 64) := by
  simp [linkedUp, hlen, Head.flit256]

/-- LINK_UP is raised on the head as it comes up, and LINK_DEGRADED after it at less than the port can carry. -/
theorem headLinkUp_of_mayTrain {h width rate full : Nat} {u s : State} (hmay : mayTrain s h = true)
    (hdown : (s.head h).up = false) (hfull : full = if s.host.bifur.getD (portOf h) false then 8 else 16)
    (hshape : linkShape full width rate = true) (hlen : h < s.host.heads.length)
    (hu : u = raiseHead h 2 (le 1 width ++ le 1 rate ++ le 1 (b2n (rate == 64))) (linkedUp h width rate s)) :
    headLinkUp h width rate s
      = if width < full ∨ rate < 64 then raiseHead h 3 (le 1 width ++ le 1 full ++ le 1 rate ++ le 1 64) u else u := by
  subst hfull
  have trains : ¬ ((!mayTrain s h || (s.head h).up
      || !linkShape (if s.host.bifur.getD (portOf h) false then 8 else 16) width rate) = true) := by
    simp only [hmay, hdown, hshape, Bool.not_true, Bool.or_self, Bool.false_eq_true, not_false_eq_true]
  rw [hu, ← linkedUp_flit256 hlen width rate]
  exact if_neg trains

/-! ### The statement -/

/-- Settles O23: each command takes the branch of its meaning that its premises select. Memory_Active and what may train
are those of log 50; a function-level reset keeps the back-invalidate bits no more than the rest (log 53). -/
theorem headLinks : Obligations.HeadLinks := by
  refine ⟨?flr, ?cxlReset, ?hotUp, ?disableUp, ?hotDown, ?perstAssert, ?perstDeassert, ?linkUp, ?linkDown, ?d3hot, ?d0,
    ?pme, ?viral, ?ide⟩
  case flr | cxlReset | d3hot | d0 | pme | viral => exact fun head s hh hup => onUnit_eq_next hh (if_pos hup)
  case hotUp | disableUp =>
    exact fun head s hh hp hup => onUnit_eq_next hh ((if_pos hp).trans (convReset_of_up hup))
  case hotDown => exact fun head s hh hp hdown => onUnit_eq_next hh ((if_pos hp).trans (convReset_of_down hdown))
  case perstAssert => exact fun port s hp => ⟨_, onUnit_eq_next hp rfl, _, rfl, rfl⟩
  case perstDeassert => exact fun port bifur s hp hasserted => ⟨_, onUnit_eq_next hp (if_pos hasserted), _, rfl, rfl⟩
  case linkUp =>
    exact fun head width rate full u s hh hmay hdown hfull hshape hu hlen =>
      onUnit_eq_next hh (headLinkUp_of_mayTrain hmay hdown hfull hshape hlen hu)
  case linkDown => exact fun head cause s hh hup => onUnit_eq_next hh (headDown_of_up hup)
  case ide => exact fun head stream sub s hh hup => onUnit_eq_next hh (if_pos hup)

end Sys2Proof.Machine
end

section
/-! PROOF. The standard commands of a mailbox that read. -/

namespace Sys2Proof.Machine

/-! ### Lengths of what is answered -/

@[simp] theorem length_openBytes (opcode a n : Nat) : (openBytes opcode a n).length = n := by simp [openBytes]

@[simp] theorem length_be (n v : Nat) : (be n v).length = n := by simp [be]

theorem outFits_of_length {s : State} {m : Mb} {out : List Byte} {n : Nat} (h : n ≤ limitOf s m.src)
    (hlen : out.length = n) : outFits s m out = true := by
  simpa [outFits, hlen] using h

/-! ### Identify Memory Device (09 R258) -/

/-- What Identify Memory Device answers: the capacity stands twice, in all and volatile. -/
def memoryIdentity (s : State) : List Byte :=
  openBytes 0x4000 0 16 ++ le 8 (4 * s.map.geo.offeredGib) ++ le 8 (4 * s.map.geo.offeredGib) ++ le 8 0 ++ le 8 0
    ++ le 2 1024 ++ le 2 1024 ++ le 2 1024 ++ le 2 1024 ++ le 4 0 ++ openBytes 0x4000 60 3 ++ le 2 1024
    ++ openBytes 0x4000 65 4

theorem length_memoryIdentity (s : State) : (memoryIdentity s).length = 69 := by simp [memoryIdentity]

theorem memoryIdentity_capacity (s : State) :
    ((memoryIdentity s).drop 16).take 16 = le 8 (4 * s.map.geo.offeredGib) ++ le 8 (4 * s.map.geo.offeredGib) := by
  simp [memoryIdentity, List.take_append]

/-! ### The input of a command, and the span of a log -/

section
variable {spec : StdSpec} {s : State} {m : Mb} {p out : List Byte} (h : acceptsStd spec s m = true)
include h

/-- A command whose input has its one length answers what its own work gives. -/
theorem runStd_of_needLen {t : State} {n : Nat} {own : State → CmdRes} (hp : p.length = n) (ho : own s = .ok out t)
    (hf : outFits s m out = true) :
    runStd spec m p (fun s => needLen p n (own s)) s = reply m spec.opcode .success 0 out t :=
  runStd_ok h ((if_pos hp).trans ho) hf

/-- A read command without input changes nothing but the mailbox. -/
theorem runStd_read_of_noInput {read : State → List Byte} (hf : outFits s m (read s) = true) :
    runStd spec m [] (fun s => needLen [] 0 (.ok (read s) s)) s = reply m spec.opcode .success 0 (read s) s :=
  runStd_of_needLen h rfl rfl hf

end

theorem exec_getLog_of_span {m : Mb} {p l : List Byte} {s : State} (h : acceptsStd { opcode := 0x0401 } s m = true)
    (hf : outFits s m ((l.drop (ofLe p 16 4)).take (ofLe p 20 4)) = true) (hp : p.length = 24)
    (hl : logByUuid s (p.take 16) = some l) (hspan : ofLe p 16 4 + ofLe p 20 4 ≤ l.length) :
    exec (.getLog m p) s
      = .next (reply m 0x0401 .success 0 ((l.drop (ofLe p 16 4)).take (ofLe p 20 4)) s) := by
  refine congrArg Host.Outcome.next (runStd_of_needLen h hp ?_ hf)
  simp only [hl, if_neg (Nat.not_lt.2 hspan)]

/-! ### The statement -/

/-- Settles O24: an accepted command of the right input length answers what it reads, and the output fits by the premise
of its clause or by its length. The layouts are those of log 8, open bytes those of log 57. -/
theorem standardReads : Obligations.StandardReads := by
  refine ⟨?identify, ?background, ?getLimit, ?events, ?policy, ?fwInfo, ?logs, ?log, ?features, ?memory, ?health, ?alerts,
    ?poison⟩
  case identify | health => exact fun m s h hf => congrArg Host.Outcome.next (runStd_read_of_noInput h hf)
  case background | getLimit | logs | alerts =>
    exact fun m s h hl => congrArg Host.Outcome.next (runStd_read_of_noInput h (outFits_of_length hl (by simp)))
  case events =>
    exact fun m p s h hf hp hi => congrArg Host.Outcome.next (runStd_of_needLen h hp (if_neg (Nat.not_lt.2 hi)) hf)
  case policy => exact fun m s h hl => congrArg Host.Outcome.next (runStd_read_of_noInput h (outFits_of_length hl rfl))
  case fwInfo =>
    exact fun m p s h hl => congrArg Host.Outcome.next (runStd_ok h rfl (outFits_of_length hl (by simp)))
  case log => exact fun m p l s h hf hp hu hspan => exec_getLog_of_span h hf hp hu hspan
  case features =>
    exact fun m p s h hl hp => congrArg Host.Outcome.next
      (runStd_of_needLen h hp rfl (outFits_of_length hl (length_zeros 8)))
  case memory =>
    intro m s h hl
    have fits := outFits_of_length hl (length_memoryIdentity s)
    exact ⟨_, congrArg Host.Outcome.next (runStd_read_of_noInput h fits), memoryIdentity s, rfl, length_memoryIdentity s,
      memoryIdentity_capacity s⟩
  case poison => exact fun m p s h hf hp => congrArg Host.Outcome.next (runStd_of_needLen h hp rfl hf)

end Sys2Proof.Machine
end

section
/-! PROOF. The standard commands of a mailbox that change state. -/

namespace Sys2Proof.Machine

/-! ### Event records (18 R465) -/

section
variable {src : Nat} {p : List Byte} {s : State} (hp : p.length = 6 + 2 * byteAt p 2) (hi : byteAt p 0 ≤ 3)
include hp hi

theorem clearEvents_of_all (hall : bitAt p 1 0 = true) :
    clearEvents src p s = .ok [] (s.modHead src fun x => { x with
      logs := x.logs.modify (byteAt p 0) fun l => l.keep fun _ => false }) := by
  rw [clearEvents, if_neg (not_not_intro hp), if_neg (Nat.not_lt.2 hi), if_pos hall]

/-- Handles that all name a record of the log. -/
theorem clearEvents_of_handles (hall : bitAt p 1 0 = false)
    (hknown : (((List.range (byteAt p 2)).map fun k => ofLe p (6 + 2 * k) 2).any fun x =>
      !(((s.head src).logs.getD (byteAt p 0) {}).records.any fun r => eventHandle r == x)) = false) :
    clearEvents src p s = .ok [] (s.modHead src fun x => { x with
      logs := x.logs.modify (byteAt p 0) fun l => l.keep fun r =>
        !((List.range (byteAt p 2)).map fun k => ofLe p (6 + 2 * k) 2).contains (eventHandle r) }) := by
  rw [clearEvents, if_neg (not_not_intro hp), if_neg (Nat.not_lt.2 hi), if_neg (ne_true_of_eq_false hall),
    if_neg (ne_true_of_eq_false hknown)]

end

/-! ### Firmware (17 R443, R444) -/

/-- The first part opens the transfer over a slot whose image it marks invalid. -/
theorem transferPart_of_first {path : Nat} {part : FwPart} {s : State}
    (hkind : part.first = true ∧ part.last = false ∧ part.abort = false) (hidle : s.lm.transfer = none)
    (hslot : ((part.slot == 1) == s.lm.activeB && !(s.boot.phase == .recovery)) = false) :
    transferPart path part s = (.success, { s with lm := {
      (s.lm.setImage (part.slot == 1)
        { (s.lm.image (part.slot == 1)) with valid := false, romOk := false, lmOk := false }) with
      transfer := some ⟨path, part.slot == 1⟩ } }) := by
  obtain ⟨hfirst, hlast, habort⟩ := hkind
  simp only [transferPart, transferPart.finish, hfirst, hlast, habort, hidle, hslot, Bool.not_true, Bool.not_false,
    Bool.false_eq_true, if_false, if_true]

/-- A part that need not wait is answered with the return code of its own work. -/
theorem exec_transferFw_of_ready {m : Mb} {part : FwPart} {s : State}
    (h : acceptsStd { opcode := 0x0201, managing := true, lmOwn := true } s m = true) (hwait : mustWait s = false) :
    exec (.transferFw m part) s = .next (reply m 0x0201 (transferPart 0 part s).1 0 [] (transferPart 0 part s).2) :=
  congrArg Host.Outcome.next ((if_neg (by simp [hwait])).trans (runStd_done h rfl))

theorem activateFw_of_cold_reset {m : Mb} {p : List Byte} {s : State} (hp : p.length = 2) (haction : byteAt p 0 = 1)
    (hslot : byteAt p 1 = 1 ∨ byteAt p 1 = 2) (hvalid : (s.lm.image (byteAt p 1 == 2)).valid = true)
    (hidle : s.lm.activation = none) : activateFw m p s = .ok [] (activateNext (byteAt p 1 == 2) s) := by
  have lawful : ¬ (2 ≤ byteAt p 0 ∨ byteAt p 1 = 0 ∨ 3 ≤ byteAt p 1
      ∨ (s.lm.image (byteAt p 1 == 2)).valid = false) := by
    simp only [hvalid, Bool.true_eq_false, or_false]
    omega
  rw [activateFw, if_neg (not_not_intro hp), if_neg lawful, if_neg (by simp [hidle]), if_pos haction]

/-! ### Poison (09 R260) -/

section
variable {src : Nat} {p : List Byte} {s : State} (hh : s.flt.halted = false)
  (hcap : ofLe p 0 8 < s.map.geo.offeredGib * gib) (hrange : (rangeAt s (ofLe p 0 8)).isSome = true)
  (hadm : (isManaging s src || admits s src (ofLe p 0 8)) = true)
include hh hcap hrange hadm

/-- An address of the offered capacity, in a key range that admits the issuer. -/
theorem poisonAddr_of_admitted (k : Nat → CmdRes) : poisonAddr src p s k = k (ofLe p 0 8 / 64) := by
  have inside : ¬ (s.map.geo.offeredGib * gib ≤ ofLe p 0 8 ∨ (rangeAt s (ofLe p 0 8)).isNone = true) := by
    simp only [Option.isNone_eq_false_iff.2 hrange, Bool.false_eq_true, or_false, Nat.not_le, hcap]
  rw [poisonAddr, if_neg (ne_true_of_eq_false hh), if_neg inside, if_neg (by simp [hadm])]

theorem injectPoison_of_admitted (hroom : s.dur.loss.countP (·.cause == 6) < 1024) :
    injectPoison src p s = .ok [] (abortMove (ofLe p 0 8 / 64 / 64) false
      ((lose 6 0 false 0xFF (ofLe p 0 8 / 64 / 64) (BitVec.ofNat 64 (2 ^ (ofLe p 0 8 / 64 % 64)))
        (writeLineNow (ofLe p 0 8 / 64) (zeros 64) true s)).modPage (ofLe p 0 8 / 64 / 64) fun e =>
          { e with loss := true })) := by
  rw [injectPoison, poisonAddr_of_admitted hh hcap hrange hadm, if_neg (Nat.not_le.2 hroom)]

end

/-! ### The statement -/

/-- Settles O25: an accepted command ends as its own work says, which the premises of each clause lead past its
refusals. Layouts and handles are those of log 8; the exponents of a response limit are those of log 41. -/
theorem standardWrites : Obligations.StandardWrites := by
  refine ⟨?limit, ?alerts, ?clearAll, ?clearNamed, ?policy, ?firstPart, ?part, ?activate, ?inject, ?clearPoison,
    ?unlisted⟩
  case limit =>
    rintro m p s h hp ⟨hmin, hmax⟩ hhead hl
    have notSideband : m.src ≠ 8 := Nat.ne_of_lt hhead
    have inRange : ¬ (byteAt p 0 < (if m.src = 8 then 12 else 8) ∨ 16 < byteAt p 0) := by
      rw [if_neg notSideband]; omega
    refine congrArg Host.Outcome.next (runStd_of_needLen h hp ?_ (outFits_of_length hl (length_le 1 (byteAt p 0))))
    exact (if_neg inRange).trans (by rw [if_neg notSideband])
  case alerts =>
    exact fun m p s h hp hmax => congrArg Host.Outcome.next
      (runStd_of_needLen h hp (if_neg (Nat.not_lt.2 hmax)) (outFits_nil s m))
  case clearAll =>
    intro m p s h hp hn hi hall
    have length_of_none : p.length = 6 + 2 * byteAt p 2 := by rw [hp, hn]
    exact congrArg Host.Outcome.next (runStd_ok h (clearEvents_of_all length_of_none hi hall) (outFits_nil s m))
  case clearNamed =>
    exact fun m p s h hp hi hall hknown => congrArg Host.Outcome.next
      (runStd_ok h (clearEvents_of_handles hp hi hall hknown) (outFits_nil s m))
  case policy =>
    intro m p s h hp hmodes
    refine congrArg Host.Outcome.next (runStd_ok h ?_ (outFits_nil s m))
    exact (if_neg (by omega)).trans (if_neg (ne_true_of_eq_false hmodes))
  case firstPart =>
    intro m part s h hwait hkind hidle hslot
    rw [exec_transferFw_of_ready h hwait, transferPart_of_first hkind hidle hslot]
  case part => exact fun m part s h hwait => exec_transferFw_of_ready h hwait
  case activate =>
    exact fun m p s h hp haction hslot hvalid hidle => congrArg Host.Outcome.next
      (runStd_ok h (activateFw_of_cold_reset hp haction hslot hvalid hidle) (outFits_nil s m))
  case inject =>
    exact fun m p s h hp hh hcap hrange hadm hroom => congrArg Host.Outcome.next
      (runStd_of_needLen h hp (injectPoison_of_admitted hh hcap hrange hadm hroom) (outFits_nil s m))
  case clearPoison =>
    exact fun m p s h hp hh hcap hrange hadm => congrArg Host.Outcome.next
      (runStd_of_needLen h hp (poisonAddr_of_admitted hh hcap hrange hadm _) (outFits_nil s m))
  case unlisted =>
    exact fun m opcode p s hu h => congrArg Host.Outcome.next
      ((if_neg (ne_true_of_eq_false hu)).trans (runStd_std h rfl))

end Sys2Proof.Machine
end

section
/-! PROOF. SPDM, IDE key management and the DOE mailbox. -/

namespace Sys2Proof.Machine

/-! ### Responders and sessions (09 R261; 17 R449) -/

section
variable {who : Nat} {s : State} (hr : responds s who = true)
include hr

/-- A responder that answers takes what a request asks beyond that. -/
theorem ite_not_responds {t : State} : (if !responds s who then s else t) = t :=
  if_neg (by simp [hr])

theorem spdmReady_of_algs (ha : (spdmOf s who).algs = true) (k : State) : spdmReady who k s = k :=
  (ite_not_responds hr).trans (if_pos ha)

theorem spdmReady_of_no_algs (ha : (spdmOf s who).algs = false) (k : State) :
    spdmReady who k s = s.emit (.doe who 0x7F [0x04#8]) :=
  (ite_not_responds hr).trans (if_neg (ne_true_of_eq_false ha))

theorem inSession_of_open {session : Nat} (ho : sessionOpen s who session = true) (k : State) :
    inSession who session k s = k :=
  (ite_not_responds hr).trans (if_pos ho)

theorem inSession_of_closed {session : Nat} (ho : sessionOpen s who session = false) (k : State) :
    inSession who session k s = s.emit (.doe who 0x7F [0x02#8]) :=
  (ite_not_responds hr).trans (if_neg (ne_true_of_eq_false ho))

end

theorem measurements_of_index {who i nonce : Nat} {s : State} (hi : 1 ≤ i ∧ i ≤ 6) :
    measurements who i nonce s = spdmSay who 0x60 nonce (measurement s i) s := by
  rw [measurements, if_neg (by omega), if_neg (by omega), if_pos hi.2]

/-! ### IDE streams (06 R190) -/

section
variable {n : Nat} {kind : IdeKind} {x : Head}

/-- A head has room for one stream of CXL.cachemem, one link and four selective streams. -/
theorem ideRoom_eq (x : Head) (kind : IdeKind) :
    ideRoom x kind = decide ((x.ide.countP fun y => y.kind == kind) < if kind = .selective then 4 else 1) := by
  cases kind <;> rfl

theorem ideStep_program_of_new {skid : Bool} (hnew : (x.ide.any fun y => y.stream == n && y.kind == kind) = false)
    (hroom : (x.ide.countP fun y => y.kind == kind) < if kind = .selective then 4 else 1) :
    ideStep (.program n kind skid) x = some { x with ide := x.ide ++ [⟨n, kind, skid, true, false⟩] } := by
  have room : ideRoom x kind = true := by rw [ideRoom_eq]; exact decide_eq_true hroom
  exact (if_neg (ne_true_of_eq_false hnew)).trans (if_pos room)

theorem ideStep_go_of_keyed (hk : (x.ide.any fun y => (y.stream == n && y.kind == kind) && y.keyed) = true) :
    ideStep (.go n kind) x = some { x with ide := x.ide.map fun y =>
      if y.stream == n && y.kind == kind then { y with secure := true } else y } :=
  if_pos hk

theorem ideStep_stop_of_known (hk : (x.ide.any fun y => y.stream == n && y.kind == kind) = true) :
    ideStep (.stop n kind) x = some { x with ide := x.ide.filter fun y => !(y.stream == n && y.kind == kind) } :=
  if_pos hk

end

section
variable {head session : Nat} {op : IdeOp} {s : State} (hh : head < 8) (hr : responds s head = true)
  (ho : sessionOpen s head session = true)
include hh hr ho

theorem exec_ideKm_of_some {x : Head} (hop : ideStep op (s.head head) = some x) :
    exec (.ideKm head session op) s
      = .next (spdmSay head (ideRsp op) session [] (s.modHead head fun _ => x)) :=
  onUnit_eq_next hh ((inSession_of_open hr ho _).trans (by rw [hop]))

theorem exec_ideKm_of_none (hop : ideStep op (s.head head) = none) :
    exec (.ideKm head session op) s = .next (s.emit (.doe head 0x7F [0x01#8])) :=
  onUnit_eq_next hh ((inSession_of_open hr ho _).trans (by rw [hop]; rfl))

end

/-! ### DOE discovery and CDAT (09 R261, R262) -/

section
variable {head : Nat} {s : State} (hh : head < 8) (hr : responds s head = true)
include hh hr

theorem exec_doeDiscovery_of_protocol {index v t : Nat} (hi : doeProtocols[index]? = some (v, t)) :
    exec (.doeDiscovery head index) s = .next (s.emit (.doe head 0x200
      (le 2 v ++ le 1 t ++ le 1 (if index = 3 then 0 else index + 1)))) :=
  onUnit_eq_next hh ((ite_not_responds hr).trans (by rw [hi]))

theorem exec_cxlTableAccess_of_entry {entry : Nat} {b : List Byte} (he : (cdat s head)[entry]? = some b) :
    exec (.cxlTableAccess head entry) s = .next (s.emit (.doe head 0x201
      (le 2 (if entry = 5 then 0xFFFF else entry + 1) ++ b))) :=
  onUnit_eq_next hh ((ite_not_responds hr).trans (by rw [he]))

end

/-- The last CDAT entry, a DSEMTS: eight bytes of header and no DPA offset before the capacity. -/
theorem cdat_capacity (s : State) (head : Nat) :
    ∃ b, (cdat s head)[5]? = some b ∧ b.length = 24 ∧ b.drop 16 = le 8 (s.map.geo.offeredGib * gib) :=
  ⟨_, rfl, rfl, rfl⟩

/-! ### The statement -/

/-- Settles O37: a responder that answers takes the branch of each request that the premises select. The message codes
are those of log 8, and what a response carries beyond the bytes shown is free (log 7). -/
theorem spdmAndIde : Obligations.SpdmAndIde := by
  refine ⟨?version, ?capabilities, ?algorithms, ?digestsEarly, ?digests, ?certificate, ?challenge, ?measurements,
    ?keyExchange, ?keyExchangeFull, ?finish, ?endSession, ?keyUpdate, ?heartbeat, ?closed, ?ideKm, ?program, ?go, ?stop,
    ?ideKmRefused, ?discovery, ?table, ?capacity⟩
  case version => exact fun who s hw hr => onUnit_eq_next hw (if_pos hr)
  case capabilities | algorithms =>
    exact fun who s hw hr hstep => onUnit_eq_next hw ((ite_not_responds hr).trans (if_pos hstep))
  case digestsEarly => exact fun who s hw hr ha => onUnit_eq_next hw (spdmReady_of_no_algs hr ha _)
  case digests => exact fun who s hw hr ha => onUnit_eq_next hw (spdmReady_of_algs hr ha _)
  case certificate => exact fun who slot s hw hr ha => onUnit_eq_next hw (spdmReady_of_algs hr ha _)
  case challenge => exact fun who slot nonce s hw hr ha => onUnit_eq_next hw (spdmReady_of_algs hr ha _)
  case measurements =>
    exact fun who i nonce s hw hr ha hi =>
      onUnit_eq_next hw ((spdmReady_of_algs hr ha _).trans (measurements_of_index hi))
  case keyExchange =>
    exact fun who session s hw hr ha hnew hroom => onUnit_eq_next hw ((spdmReady_of_algs hr ha _).trans
      ((if_neg (ne_true_of_eq_false hnew)).trans (if_neg (Nat.not_le.2 hroom))))
  case keyExchangeFull =>
    exact fun who session s hw hr ha hnew hfull => onUnit_eq_next hw ((spdmReady_of_algs hr ha _).trans
      ((if_neg (ne_true_of_eq_false hnew)).trans (if_pos hfull)))
  case finish =>
    exact fun who session s hw hr ha hhalf => onUnit_eq_next hw ((spdmReady_of_algs hr ha _).trans (if_pos hhalf))
  case endSession | keyUpdate | heartbeat =>
    exact fun who session s hw hr ho => onUnit_eq_next hw (inSession_of_open hr ho _)
  case closed =>
    exact fun who session s hw hr ho => ⟨onUnit_eq_next hw (inSession_of_closed hr ho _),
      onUnit_eq_next hw (inSession_of_closed hr ho _), onUnit_eq_next hw (inSession_of_closed hr ho _)⟩
  case ideKm => exact fun head session op x s hh hr ho hop => exec_ideKm_of_some hh hr ho hop
  case program =>
    exact fun head session n kind skid s hh hr ho hnew hroom =>
      exec_ideKm_of_some hh hr ho (ideStep_program_of_new hnew hroom)
  case go => exact fun head session n kind s hh hr ho hk => exec_ideKm_of_some hh hr ho (ideStep_go_of_keyed hk)
  case stop => exact fun head session n kind s hh hr ho hk => exec_ideKm_of_some hh hr ho (ideStep_stop_of_known hk)
  case ideKmRefused => exact fun head session op s hh hr ho hop => exec_ideKm_of_none hh hr ho hop
  case discovery => exact fun head index v t s hh hr hi => exec_doeDiscovery_of_protocol hh hr hi
  case table => exact fun head entry b s hh hr he => exec_cxlTableAccess_of_entry hh hr he
  case capacity =>
    intro head s hh hr
    obtain ⟨b, hb, hlen, hcap⟩ := cdat_capacity s head
    exact ⟨_, exec_cxlTableAccess_of_entry hh hr hb, b, rfl, hlen, hcap⟩

end Sys2Proof.Machine
end

section
/-! PROOF. DDR5 channels: alerts and replays, refresh, idle self-refresh, delays, temperatures and training. -/

namespace Sys2Proof.Machine

/-! ### Alerts and replays (10 R291-R294) -/

/-- An alert of a channel as its counter and its event report it, after `n` replays. -/
def reportAlert (c n : Nat) (wcrc : Bool) (s : State) : State :=
  let u := s.modChan c fun x =>
    if wcrc then { x with wcrc := addSat 24 x.wcrc 1 } else { x with capar := addSat 24 x.capar 1 }
  raiseAll (srcChannel c (b2n wcrc)) 0 (le 1 n ++ le 1 (u.chan c).retry.length) u

/-- The counters of alerts are no part of the retry buffer, whose length the event reports. -/
theorem reportAlert_eq {c : Nat} {s : State} (hlen : c < s.ddr.chans.length) (n : Nat) (wcrc : Bool) :
    reportAlert c n wcrc s = raiseAll (srcChannel c (b2n wcrc)) 0 (le 1 n ++ le 1 (s.chan c).retry.length)
      (s.modChan c fun x =>
        if wcrc then { x with wcrc := addSat 24 x.wcrc 1 } else { x with capar := addSat 24 x.capar 1 }) := by
  rw [reportAlert, chan_modChan_self s c _ hlen]
  cases wcrc <;> rfl

section
variable {c : Nat} {s : State}

/-- An alert is reported with the replays so far, which decide between one replay more and the fence. -/
theorem dramAlert_eq (c : Nat) (wcrc : Bool) (s : State) :
    dramAlert c wcrc s = if 3 ≤ (s.chan c).replays then
        fenceChannel c (s.chan c).replays (reportAlert c (s.chan c).replays wcrc
          (if (s.chan c).replays = 0 then useChanInject c wcrc s else s))
      else startReplay c (reportAlert c (s.chan c).replays wcrc
        (if (s.chan c).replays = 0 then useChanInject c wcrc s else s)) := rfl

/-- An armed inversion is used up by the first alert alone. -/
theorem dramAlert_of_first (hn : (s.chan c).replays = 0) (wcrc : Bool) :
    dramAlert c wcrc s = startReplay c (reportAlert c 0 wcrc (useChanInject c wcrc s)) := by
  rw [dramAlert_eq, hn, if_neg (by decide), if_pos rfl]

theorem dramAlert_of_further (hpos : 0 < (s.chan c).replays) (hn : (s.chan c).replays < 3) (wcrc : Bool) :
    dramAlert c wcrc s = startReplay c (reportAlert c (s.chan c).replays wcrc s) := by
  rw [dramAlert_eq, if_neg (Nat.not_le.2 hn), if_neg (Nat.ne_of_gt hpos)]

theorem dramAlert_of_third_replay (hn : 3 ≤ (s.chan c).replays) (wcrc : Bool) :
    dramAlert c wcrc s = fenceChannel c (s.chan c).replays (reportAlert c (s.chan c).replays wcrc s) := by
  rw [dramAlert_eq, if_pos hn, if_neg (by omega)]

/-! ### Refresh (10 R284) -/

theorem refreshDue_of_blocked {k : Nat} (hn : (s.chan c).postponed.getD k 0 < 4) :
    refreshDue c k true s = s.modChan c fun x => { x with
      postponed := x.postponed.set k ((s.chan c).postponed.getD k 0 + 1) } :=
  if_pos ⟨rfl, hn⟩

theorem refreshDue_of_free (c k : Nat) (s : State) :
    refreshDue c k false s = s.modChan c fun x => { x with
      postponed := x.postponed.set k 0
      refreshes := x.refreshes.set k (x.refreshes.getD k 0 + (s.chan c).postponed.getD k 0 + 1) } := by
  rw [refreshDue, if_neg (by simp)]

theorem execRefreshDue_of_runs (hc : c < 16) (hr : chanRuns s c = true) (hsr : (s.chan c).sr = false) (k : Nat)
    (blocked : Bool) : exec (.refreshDue c k blocked) s = .next (refreshDue c k blocked s) :=
  onUnit_eq_next hc (if_pos (by rw [hr, hsr]; rfl))

/-! ### Idle self-refresh (10 R286) -/

/-- Once a channel without work or a forced refresh has been idle for its time, its votes alone decide. -/
theorem srIdleExpire_of_idle (hon : s.power.srIdle ≠ 0)
    (hrest : (s.chan c).sr = false ∧ (s.chan c).training = false ∧ (s.chan c).replaying = false)
    (hitems : chanItems s c = 0) (hidle : (s.chan c).idleAt + 2 ^ s.power.srIdle ≤ s.time.elapsed)
    (howed : (s.chan c).postponed.any (4 ≤ ·) = false) :
    srIdleExpire c s = if (s.dom (domDC c)).votes &&& ~~~ (BitVec.ofNat 12 (2 ^ 10)) ≠ 0 then
        countOverride 3 (s.modChan c fun x => { x with idleAt := s.time.elapsed })
      else s.modChan c fun x => { x with sr := true, srCount := addSat 24 x.srCount 1 } := by
  obtain ⟨hsr, htraining, hreplaying⟩ := hrest
  exact if_neg (by simp only [hon, hsr, htraining, hreplaying, hitems, howed, Nat.not_lt.2 hidle]; decide)

/-! ### Temperatures and module faults (10 R274, R285) -/

theorem tempPoll_of_due (hr : chanRuns s c = true) (hdue : (s.chan c).lastPoll + 2 ^ 14 ≤ s.time.elapsed)
    (t0 t1 : Option Nat) :
    tempPoll c t0 t1 none none s = refreshHolds (pollPos c 1 t1 (pollPos c 0 t0
      (s.modChan c fun x => { x with lastPoll := s.time.elapsed }))) :=
  if_neg (by rw [hr]; simpa using hdue)

theorem pollPos_of_first_miss {pos : Nat} (hp : (s.slot (2 * c + pos)).pgood = true)
    (hm : (s.chan c).missed.getD pos 0 = 0) :
    pollPos c pos none s = s.modChan c fun x => { x with missed := x.missed.set pos 1 } := by
  rw [pollPos, if_neg (by simp [hp]), hm]
  rfl

/-! ### Training at power-up (20 R491-R493) -/

/-- Keeper firmware runs in bring-up, so a training that ends then is one at power-up. -/
theorem trainingDone_of_bringup (hr : chanRuns s c = true) (hk : keeperPaused s = false)
    (hb : s.boot.phase = .bringup) (ht : (s.chan c).training = true) (res : TrainResult) (spd : Option SpdRead) :
    trainingDone c res spd s = trainedAtPowerUp c res s := by
  rw [trainingDone, if_neg (by rw [hr, hk, hb, ht]; decide), if_pos hb]

theorem trainedAtPowerUp_of_verified {t : TrainingSet} (hf : s.lm.training.find? (setMatches s c) = some t) :
    trainedAtPowerUp c .verified s = channelUp c (loadDelays c t.delays s) := by
  simp only [trainedAtPowerUp, hf]

theorem trainedAtPowerUp_of_failed {pos : Nat} (hpos : pos < 2) (ho : (s.unit (2 * c + pos)).spd.occupied = true)
    (hl : (s.unit (2 * c + pos)).health ≠ .lost) (k stage : Nat) :
    trainedAtPowerUp c (.fullFailed pos k stage) s
      = trainLost c pos (raiseAll (srcChannel c 12) 0 (le 1 pos ++ le 1 k ++ le 1 stage) s) :=
  if_neg (by simp [Nat.not_le.2 hpos, ho, hl])

end

/-! ### The statements -/

/-- Settles O26: each event takes the branch of its meaning that its premises select; the alert that follows the third
replay fences the channel (10 R294). -/
theorem dramChannels : Obligations.DramChannels := by
  refine ⟨?further, ?fenced, ?first, ?replayed, ?refresh, ?selfRefresh, ?override, ?delays⟩
  case further =>
    intro c wcrc s hc hr ⟨hpos, hn⟩ hlen
    refine ⟨_, onUnit_eq_next hc ((if_pos hr).trans (dramAlert_of_further hpos hn wcrc)), _, rfl, ?_⟩
    exact reportAlert_eq hlen _ wcrc
  case fenced =>
    intro c wcrc s hc hr hn hlen
    rw [← reportAlert_eq hlen]
    exact onUnit_eq_next hc ((if_pos hr).trans (dramAlert_of_third_replay hn wcrc))
  case first =>
    rintro c wcrc _ s hc hr hn rfl
    exact onUnit_eq_next hc ((if_pos hr).trans (dramAlert_of_first hn wcrc))
  case replayed =>
    rintro c _ s hc hreplaying rfl
    exact onUnit_eq_next hc (if_pos hreplaying)
  case refresh =>
    exact fun c k s hc hr hsr hn =>
      ⟨(execRefreshDue_of_runs hc hr hsr k true).trans (congrArg Host.Outcome.next (refreshDue_of_blocked hn)),
        (execRefreshDue_of_runs hc hr hsr k false).trans (congrArg Host.Outcome.next (refreshDue_of_free c k s))⟩
  case selfRefresh =>
    exact fun c s hc hr hon hrest hitems hidle howed hvotes => onUnit_eq_next hc ((if_pos hr).trans
      ((srIdleExpire_of_idle hon hrest hitems hidle howed).trans (if_neg (not_not_intro hvotes))))
  case override =>
    exact fun c s hc hr hon hrest hitems hidle howed hvotes => onUnit_eq_next hc ((if_pos hr).trans
      ((srIdleExpire_of_idle hon hrest hitems hidle howed).trans (if_pos hvotes)))
  case delays => exact fun c k s hc hk hr => onUnit_eq_next hc (if_neg (by simp [hr, hk]))

/-- Settles O27: a poll or a fault of a powered position takes the branch that its premises select, and a training that
ends in bring-up is one at power-up. -/
theorem dimmsAndTraining : Obligations.DimmsAndTraining := by
  refine ⟨?poll, ?firstMiss, ?pmic, ?trained, ?verified, ?failed⟩
  case poll => exact fun c t0 t1 s hc hr hdue => onUnit_eq_next hc (tempPoll_of_due hr hdue t0 t1)
  case firstMiss => exact fun c pos s hp hm => pollPos_of_first_miss hp hm
  case pmic => exact fun c pos st s hc hpos hr hp => onUnit_eq_next hc ((if_pos ⟨hr, hpos⟩).trans (if_pos hp))
  case trained =>
    exact fun c d s hc hr hk hb ht => onUnit_eq_next hc (trainingDone_of_bringup hr hk hb ht _ none)
  case verified =>
    exact fun c t s hc hr hk hb ht hf => onUnit_eq_next hc
      ((trainingDone_of_bringup hr hk hb ht _ none).trans (trainedAtPowerUp_of_verified hf))
  case failed =>
    exact fun c pos k stage s hc hr hk hb ht hpos ho hl => onUnit_eq_next hc
      ((trainingDone_of_bringup hr hk hb ht _ none).trans (trainedAtPowerUp_of_failed hpos ho hl k stage))

end Sys2Proof.Machine
end

section
/-! PROOF. Drive ports: how a drive's commands end, a drive's bring-up, its presence and its sanitize. -/

namespace Sys2Proof.Machine

section
variable {d cid : Nat} {c : NvmeCmd} {s : State}

/-! ### Commands that end (11 R306-R310, R313) -/

theorem nvmeCompletion_of_success (hc : cmdOf s d cid = some c) (hw : c.waiting = false) (ha : c.abort = none)
    (out : ReadOutcome) {u : State}
    (hu : u = (noteLatency d c (latencyUs s c) (endCmd d cid s)).modDrive d fun x => { x with errors := 0 }) :
    nvmeCompletion d cid 0 out s = match c.why with
      | .read rid _ => originalEnds rid out u
      | .tag rid => tagEnds rid out u
      | .chunk b again => chunkEnds d b c.lba again true u
      | .hedge _ | .mover _ | .dealloc => u := by
  subst hu
  have good : ((0 : Nat) != 0) = false := rfl
  cases hwhy : c.why <;>
    simp only [nvmeCompletion, hc, hw, ha, hwhy, good, Option.isSome_none, Bool.not_false, Bool.false_eq_true, if_false]

/-- Whatever a read was for, its failure has the barge dredged (11 R309). -/
theorem nvmeCompletion_of_error (hc : cmdOf s d cid = some c) (hw : c.waiting = false) (ha : c.abort = none)
    {st : Nat} (hst : st ≠ 0) (out : ReadOutcome) {u : State}
    (hu : u = raiseAll (srcDrive d 1) 0 (le 1 (nvmeOpcode c.why) ++ le 2 st ++ le 8 c.lba)
      (noteLatency d c (latencyUs s c) (endCmd d cid s))) :
    nvmeCompletion d cid st out s = driveError d (match c.why with
      | .read rid _ => originalEnds rid .mediaError (dredgeFailed d c.lba u)
      | .tag rid => tagEnds rid .mediaError (dredgeFailed d c.lba u)
      | .hedge _ => dredgeFailed d c.lba u
      | .mover p => moverFailed d p (dredgeFailed d c.lba u)
      | .chunk b again => chunkEnds d b c.lba again false u
      | .dealloc => u) := by
  subst hu
  have bad : (st != 0) = true := bne_iff_ne.2 hst
  cases hwhy : c.why <;>
    simp only [nvmeCompletion, hc, hw, ha, hwhy, bad, Option.isSome_none, Bool.not_true, Bool.false_eq_true, if_false,
      if_true]

/-- The completion of an aborted command is discarded. -/
theorem nvmeCompletion_of_aborted (hc : cmdOf s d cid = some c) (hw : c.waiting = false) {at_ : Nat}
    (ha : c.abort = some at_) (st : Nat) (out : ReadOutcome) : nvmeCompletion d cid st out s = endCmd d cid s := by
  simp [nvmeCompletion, hc, hw, ha]

@[simp] theorem ms100_eq : ms100 = 1677721 := rfl

theorem nvmeTimeout_of_due (hc : cmdOf s d cid = some c) (hw : c.waiting = false) (ha : c.abort = none)
    (hdue : c.since + 1677721 ≤ s.time.elapsed) {u : State}
    (hu : u = raiseAll (srcDrive d 2) 0 (le 1 (nvmeOpcode c.why) ++ le 1 c.qp ++ le 8 c.lba)
      ((noteLatency d c 100000 (s.modCmd d cid fun c => { c with abort := some s.time.elapsed })).emit
        (.nvme d cid 0x08 0 0))) :
    nvmeTimeout d cid s = driveError d (match c.why with
      | .read rid _ => originalEnds rid .mediaError u
      | .tag rid => tagEnds rid .mediaError u
      | .chunk b again => chunkEnds d b c.lba again false u
      | .mover p => moverFailed d p u
      | .hedge _ | .dealloc => u) := by
  subst hu
  have running : ¬ (c.waiting ∨ c.abort.isSome ∨ s.time.elapsed < c.since + ms100) := by
    simpa [hw, ha] using hdue
  simp only [nvmeTimeout, hc]
  exact (if_neg running).trans rfl

theorem abortTimeout_of_due (hc : cmdOf s d cid = some c) {at_ : Nat} (ha : c.abort = some at_)
    (hdue : at_ + 1677721 ≤ s.time.elapsed) : abortTimeout d cid s = fenceUnit (32 + d) 0x0A s := by
  simp [abortTimeout, hc, ha, hdue]

/-- A host-path read is hedged once, in its drive's count of hedges or of probes' hedges. -/
theorem hedgeExpire_of_due {rid : Nat} {probe : Bool} (hc : cmdOf s d cid = some c) (hwhy : c.why = .read rid probe)
    (hw : c.waiting = false) (hh : c.hedged = false) (ha : c.abort = none)
    (hdue : c.since + hedgeDelay (s.drive d) ≤ s.time.elapsed) {u : State}
    (hu : u = (s.modCmd d cid fun c => { c with hedged := true }).modDrive d fun x =>
      if probe then { x with probeHedges := x.probeHedges + 1 } else { x with hedges := x.hedges + 1 }) :
    hedgeExpire d cid s = match s.req? rid with
      | some r => (match r.st with
        | .block 0 missing checked _ => advanceBlock r 1 missing checked true u
        | _ => u)
      | none => u := by
  subst hu
  have running : ¬ (c.waiting ∨ c.hedged ∨ c.abort.isSome ∨
      s.time.elapsed < c.since + hedgeDelay (s.drive d)) := by
    simpa [hw, hh, ha] using hdue
  simp only [hedgeExpire, hc, hwhy]
  exact (if_neg running).trans rfl

/-! ### Presence (11 R305) -/

/-- No slot of a drive is powered before its batch, so presence raises no event then (20 R489). -/
theorem pastBringup_of_before_batches (hb : s.boot.phase = .bringup) (hbatch : s.boot.driveBatch = 0) (d : Nat) :
    pastBringup s d = false := by
  simp [pastBringup, hb, hbatch]

theorem presenceStable_of_before_batches (hp : (s.slot (32 + d)).present = false) (hb : s.boot.phase = .bringup)
    (hbatch : s.boot.driveBatch = 0) :
    presenceStable d s = (s.modSlot (32 + d) fun x => { x with present := true }).modDrive d fun x =>
      { x with since := s.time.elapsed, inserted := false } := by
  simp only [presenceStable, hp, Bool.not_false, if_true]
  exact if_neg (by simp [pastBringup_of_before_batches, hb, hbatch])

/-! ### The bring-up (11 R300-R305) -/

theorem exec_driveBringupStepDone_of_running (hd : d < 16) (hoff : keeperOff s = false)
    (hpause : keeperPaused s = false) (hstep : (s.drive d).step ≠ 0) {res : DriveStep} {u : State}
    (hu : bringupStep d res s = u) : exec (.driveBringupStepDone d res) s = .next u :=
  onUnit_eq_next hd ((if_neg (by simp [hoff, hpause, hstep])).trans hu)

theorem stepLate_of_unlimited {x : Drive} (h : stepLimit x.step = none) : stepLate s x = false := by
  simp [stepLate, h]

theorem bringupStep_of_late (hlate : stepLate s (s.drive d) = true) (res : DriveStep) :
    bringupStep d res s
      = driveUnsuitable d (s.drive d).step (if (s.drive d).step = 5 then 9 else 0) s := by
  simp only [bringupStep, hlate, if_true]

theorem bringupStep_failed (hlate : stepLate s (s.drive d) = false) (k : Nat) :
    bringupStep d (.failed k) s = driveUnsuitable d (s.drive d).step k s := by
  simp only [bringupStep, hlate, Bool.false_eq_true, if_false]

/-- A step whose end alone counts is followed by the next one. -/
theorem bringupStep_ok_of_middle (hlate : stepLate s (s.drive d) = false)
    (hstep : (s.drive d).step = 4 ∨ (s.drive d).step = 5 ∨ (s.drive d).step = 7 ∨ (s.drive d).step = 8) :
    bringupStep d .ok s
      = s.modDrive d fun y => { y with step := (s.drive d).step + 1, stepAt := s.time.elapsed } := by
  simp only [bringupStep, hlate, Bool.false_eq_true, if_false]
  rw [if_neg (by omega), if_pos hstep]

theorem bringupStep_ok_of_last (hlate : stepLate s (s.drive d) = false) (hstep : (s.drive d).step = 9) :
    bringupStep d .ok s = driveReady d s := by
  simp [bringupStep, hlate, hstep]

/-- A drive that meets every requirement is formatted where it needs it. -/
theorem bringupStep_identified_of_suitable {lbas queues entries : Nat}
    {format needs dealloc sanitize version crypto : Bool} (hlate : stepLate s (s.drive d) = false)
    (hstep : (s.drive d).step = 6)
    (hmet : requirementMissed s d lbas queues entries format dealloc sanitize version = none) :
    bringupStep d (.identified lbas queues entries format needs dealloc sanitize version crypto) s
      = (s.modDrive d fun y => { y with lbas := lbas, cryptoErase := crypto }).modDrive d fun y =>
        { y with step := if needs then 7 else 8, stepAt := s.time.elapsed } := by
  simp only [bringupStep, hlate, hstep, hmet, modDrive_time, ne_eq, not_true, Bool.false_eq_true, if_false]

/-! ### Sanitize (11 R316) -/

theorem exec_sanitizeDriveDone_of_sanitizing (hd : d < 16) (hs : (s.drive d).sanitizing = true)
    (hh : s.flt.halted = false) (ok : Bool) :
    exec (.sanitizeDriveDone d ok) s = .next (if ok then (sanitizeUnit d s).emit (.nvme d 0 0x09 0 (s.drive d).lbas)
      else fenceUnit (32 + d) 0x0C s) :=
  onUnit_eq_next hd (if_neg (by simp [hs, hh]))

end

/-! ### The statements -/

/-- Settles O28: a command's end, its timeout, its abort's timeout and its hedge each take the branch of their meaning
that its premises select. -/
theorem driveCommands : Obligations.DriveCommands := by
  refine ⟨?success, ?error, ?aborted, ?timeout, ?abortTimeout, ?hedge⟩
  case success =>
    exact fun d cid out c u s hd hc hw ha hu => onUnit_eq_next hd (nvmeCompletion_of_success hc hw ha out hu)
  case error =>
    exact fun d cid st out c u s hd hc hw ha hst hu => onUnit_eq_next hd (nvmeCompletion_of_error hc hw ha hst out hu)
  case aborted =>
    exact fun d cid st _ out c s hd hc hw ha => onUnit_eq_next hd (nvmeCompletion_of_aborted hc hw ha st out)
  case timeout => exact fun d cid c u s hd hc hw ha hdue hu => onUnit_eq_next hd (nvmeTimeout_of_due hc hw ha hdue hu)
  case abortTimeout => exact fun d cid _ c s hd hc ha hdue => onUnit_eq_next hd (abortTimeout_of_due hc ha hdue)
  case hedge =>
    exact fun d cid rid probe c u s hd hc hwhy hw hh ha hdue hu =>
      onUnit_eq_next hd (hedgeExpire_of_due hc hwhy hw hh ha hdue hu)

/-- Settles O29: steps 4, 6 and 8 of a bring-up have no limit, so they cannot end late; each other clause takes the
branch of its meaning that its premises select. -/
theorem driveBringUp : Obligations.DriveBringUp := by
  refine ⟨?lost, ?stable, ?fatal, ?identified, ?middle, ?last, ?failed, ?late, ?sanitized, ?notSanitized⟩
  case lost => exact fun d s hd => onUnit_eq_next hd rfl
  case stable =>
    exact fun d s hd hp hb hbatch => onUnit_eq_next hd (presenceStable_of_before_batches hp hb hbatch)
  case fatal => exact fun d _ s hd hstep => onUnit_eq_next hd (if_neg (not_not_intro hstep))
  case identified =>
    intro d lbas queues entries format needs dealloc sanitize version crypto s hd hoff hpause hstep hmet
    have inTime : stepLate s (s.drive d) = false := stepLate_of_unlimited (by rw [hstep]; rfl)
    exact exec_driveBringupStepDone_of_running hd hoff hpause (by omega)
      (bringupStep_identified_of_suitable inTime hstep hmet)
  case middle =>
    intro d s hd hoff hpause hstep
    have inTime : stepLate s (s.drive d) = false :=
      stepLate_of_unlimited (by obtain h | h := hstep <;> rw [h] <;> rfl)
    exact exec_driveBringupStepDone_of_running hd hoff hpause (by omega)
      (bringupStep_ok_of_middle inTime (by omega))
  case last =>
    exact fun d s hd hoff hpause hstep hlate =>
      exec_driveBringupStepDone_of_running hd hoff hpause (by omega) (bringupStep_ok_of_last hlate hstep)
  case failed =>
    exact fun d k s hd hoff hpause hstep hlate =>
      exec_driveBringupStepDone_of_running hd hoff hpause hstep (bringupStep_failed hlate k)
  case late =>
    exact fun d res s hd hoff hpause hstep hlate =>
      exec_driveBringupStepDone_of_running hd hoff hpause hstep (bringupStep_of_late hlate res)
  case sanitized => exact fun d s hd hs hh => exec_sanitizeDriveDone_of_sanitizing hd hs hh true
  case notSanitized => exact fun d s hd hs hh => exec_sanitizeDriveDone_of_sanitizing hd hs hh false

end Sys2Proof.Machine
end

section
/-! PROOF. The queue of waiting commands over one command. -/

namespace Sys2Proof.Machine

/-! ### Mailbox commands and writes to BAR2 leave the queue as their own work does -/

theorem runCrity_pending {spec : CmdSpec} {m : Mb} {p : List Byte} {own : State → CmdRes} {s : State}
    (h : (own s).All (·.pending = s.pending)) : (runCrity spec m p own s).pending = s.pending := by
  refine runCrity_keeps (·.pending = s.pending) (fun a b hab _ hb => hab.trans hb) rfl ?_ ?_ ?_ ?_ ?_ <;>
    intros <;> simp_all

theorem runStd_pending {spec : StdSpec} {m : Mb} {p : List Byte} {own : State → CmdRes} {s : State}
    (h : (own s).All (·.pending = s.pending)) : (runStd spec m p own s).pending = s.pending := by
  refine runStd_keeps (·.pending = s.pending) (fun a b hab _ hb => hab.trans hb) rfl ?_ ?_ ?_ ?_ ?_ <;>
    intros <;> simp_all

theorem bar2Write_pending {h addr : Nat} {own : State → State} {s : State} (ho : (own s).pending = s.pending) :
    (bar2Write h addr own s).pending = s.pending := by
  unfold bar2Write
  (repeat' split) <;> simp [ho]

theorem unlockOutcome_all_pending (p : List Byte) (bad : Option (Nat × Nat)) (s : State) :
    (unlockOutcome p bad s).All (·.pending = s.pending) := by
  cases bad <;> rfl

theorem deleteRange_all_pending (r src : Nat) (p : List Byte) (s : State) :
    (deleteRange r src p s).All (·.pending = s.pending) := by
  unfold deleteRange
  dsimp only
  (repeat' split) <;> simp

theorem setKeyRange_all_pending (src : Nat) (p : List Byte) (s : State) :
    (setKeyRange src p s).All (·.pending = s.pending) := by
  unfold setKeyRange
  extract_lets r k n others
  refine CmdRes.all_ite CmdRes.all_fail (CmdRes.all_ite (CmdRes.all_ite (deleteRange_all_pending r src p s) rfl) ?_)
  repeat refine CmdRes.all_ite CmdRes.all_fail ?_
  refine CmdRes.all_ite ?newKey (CmdRes.all_ite rfl (by simp))
  dsimp only
  refine CmdRes.all_ite (by simp) ?_
  cases k.rekey <;> simp

/-! ### One command -/

/-- By the unit, the mailbox or the message that carries a command, what its meaning does is a chain of operations that
leave the queue alone. -/
theorem exec_pending (c : Instr) (s : State) : NextAll (·.pending = s.pending) (exec c s) := by
  cases c
  -- Crity commands, by what their own work hands on
  case getChainTime | setChainTime | setTimeSource | getLossList | setHopLimit | getLinkStatus | castVote
      | withdrawVote | getDomainState | getWakeRecord | setPowerMode | slotConfig | slotStatus | identifyWalben
      | getHealthSummary | setManagingHead | getKeyRange | getCapacity | getHeat | getSluice | setGuarantee
      | getBwCounters | getDeliverableFloor | listOutings | getOuting | getFaultState | clearFault | getHistory
      | setReaction | setPerturb =>
    refine nextAll_next (runCrity_pending ?_)
    (repeat' split) <;> simp [apply_ite (CmdRes.All _)]
  case submitJob | getJob | resumeJob | cancelJob | endReplace | setTandem | setRemoteWindow | slotClearLatch
      | rekeyRange | cryptoErase | setTierGeometry | pinPages | unpinPages | placeHint | stagePages | setSluice
      | setMasterAttr | inject | beginReplace | clearLossEntry | retrainLink | slotPower =>
    refine nextAll_next (runCrity_pending ?_)
    simp only [submitJob, getJob, readNotice, resumeJob, cancelJob, endReplace, setTandem, setRemoteWindow,
      slotClearLatch, rekeyRange, eraseRange, setTierGeometry, pinCommand, stagePages, setSluice, setMasterAttr,
      inject, beginReplace, clearLossEntry, retrainLink, slotPower]
    (repeat' split) <;> simp
  case pauseOuting | resumeOuting | abortOuting =>
    exact nextAll_next (runCrity_pending (CmdRes.all_onOuting fun o => by simp [apply_ite (CmdRes.All _)]))
  case setKeyRange m p => exact nextAll_next (runCrity_pending (setKeyRange_all_pending m.src p s))
  case testUnlock m p =>
    exact nextAll_next (runCrity_pending (CmdRes.all_ite rfl (unlockOutcome_all_pending p _ s)))
  case chainDiscover m p =>
    have ht : (runCrity chainDiscoverSpec m p (chainDiscover p) s).pending = s.pending := by
      refine runCrity_pending ?_
      unfold chainDiscover
      (repeat' split) <;> simp
    refine nextAll_next ?_
    split <;> simp [ht]
  -- standard commands, in the same way
  case setTimestamp | getTimestamp | identify | backgroundOperationStatus | getResponseMessageLimit
      | setResponseMessageLimit | getEventRecords | getEventInterruptPolicy | setEventInterruptPolicy | getFwInfo
      | getSupportedLogs | getLog | getSupportedFeatures | identifyMemoryDevice | getHealthInfo | getAlertConfig
      | setAlertConfig | getPoisonList | secureErase =>
    refine nextAll_next (runStd_pending ?_)
    (repeat' split) <;> simp [apply_ite (CmdRes.All _), CmdRes.all_needLen]
  case clearEventRecords | activateFw | sanitize =>
    refine nextAll_next (runStd_pending ?_)
    simp only [clearEvents, activateFw, sanitize]
    (repeat' split) <;> simp
  case injectPoison | clearPoison =>
    refine nextAll_next (runStd_pending (CmdRes.all_needLen (CmdRes.all_poisonAddr fun l => ?_)))
    simp [apply_ite (CmdRes.All _)]
  case transferFw | unsupportedCommand =>
    refine nextAll_next ?_
    split <;> simp [runStd_pending]
  -- messages of the chain
  case rds | rda | rdcur | wr | wrptl | evict | sinv | sdown | scur | sfwd | chainNak | sackNone | sackS | sackD =>
    exact nextAll_onMsg rfl (by simp)
  case data port f =>
    refine exec_data port f s ▸ nextAll_onMsg rfl ?_
    unfold takeData
    split <;> simp
  case fwdData port f =>
    refine exec_fwdData port f s ▸ nextAll_onMsg rfl ?_
    unfold takeFwdData
    split <;> simp
  case wack port f =>
    refine exec_wack port f s ▸ nextAll_onMsg rfl ?_
    unfold takeWack
    split <;> simp
  case rejoin port f => exact exec_rejoin port f s ▸ nextAll_onMsg rfl (by simp [takeRejoin])
  case probe | probeEnd | topo | neighbour | routeCut | routeJoin | windowCheck | windowRsp =>
    refine nextAll_onMaint rfl ?_
    simp [apply_ite State.pending]
  -- at the device
  case schedulerDispatch | pendingQueueGrant | setWaitRetry | mapWalkComplete | dramReadReturn | degradedFetchReturn
      | dramWriteAccepted | waitingWriteResume | jobRecordExpire | trefEdge | trefLost | holdoverExpire
      | timeFrameSend | upstreamLoss | regulationWindowBoundary | berthBoundary | berthCycleBoundary | moverCommit
      | bargeWriteCommit | keeperStep | clearLossWackTimeout | tandemAckTimeout | chainSnoopTimeout
      | reservationExpire | nakBackoffRetry | remoteResendWindowEnd | dupWriteExpire | undeliveredWrite
      | windowCheckTimeout | braceSettleEnd | brownoutRecovery | auxWarn | logCommit | logRead | mctpControl
      | mctpMessageDiscard | pldmFwUpdate | pldmActivateFirmware | setSensorThresholds | getSensorReading
      | deviceResetRequest | deviceResetResume | lengthsmanRestartDone | keeperTakeoverDone | keeperTakeoverTimeout
      | nonceExpire | unlockExpire | auxPowerOn | mainSequenceStart | railGood | railTimeout | sequenceBackoffEnd
      | keeperStart | bringupBatchDone | geometryCommitDefault | skrefLost | mgmtrefLost | mrefInRestored | pllUnlock
      | auxPowerLoss | localTick | sensorThresholdCrossing | dynamicAddressAssignment =>
    refine nextAll_next ?_
    (repeat' split) <;> simp
  -- at a unit: writes to BAR2, then SPDM requests that need the algorithms agreed, or a session
  case registerWrite | pmcCntWrite | pmcOvfClear | pmcFreezeWrite | pmcClearAll =>
    refine nextAll_onUnit ?_
    (repeat' split) <;> simp [bar2Write_pending]
  case spdmKeyExchange =>
    refine nextAll_onUnit (spdmReady_pending _ _ _ ?_)
    simp [apply_ite State.pending]
  case spdmGetDigests | spdmGetCertificate | spdmChallenge | spdmGetMeasurements | spdmFinish | spdmEndSession
      | spdmKeyUpdate | spdmHeartbeat | ideKm =>
    refine nextAll_onUnit ?_
    (repeat' split) <;> simp [spdmReady_pending, inSession_pending]
  -- every other command at a unit
  all_goals
    refine nextAll_onUnit ?_
    (repeat' split) <;> simp [apply_ite State.pending]

/-- Settles O7: no operation that a command's meaning is made of touches the queue. -/
theorem queueUntouched : Obligations.QueueUntouched := fun c s t ht => exec_pending c s t ht

end Sys2Proof.Machine
end

section
/-! PROOF. What raising an event leaves alone, and what it does to fault collection. -/

namespace Sys2Proof.Machine

/-! ### What answers, deliveries and log records leave alone -/

/-- A fold of steps that leave a view of the state alone leaves it alone. -/
theorem foldl_keeps {α β : Type} (view : State → β) {g : State → α → State} (h : ∀ t x, view (g t x) = view t)
    (l : List α) (s : State) : view (l.foldl g s) = view s := by
  induction l generalizing s with
  | nil => rfl
  | cons x l ih => exact (ih _).trans (h s x)

/-- A state without the parts that telling heads, issuers and the log of an event may change. -/
def sansNews (s : State) : State :=
  { s with tx := [], host := {}, crity := {}, codec := {}, req := {}, slu := {}, dir := {}, lm := {} }

section
variable {s t : State} (h : sansNews t = sansNews s)
include h

theorem flt_of_sansNews : t.flt = s.flt := (congrArg State.flt h :)
theorem skl_of_sansNews : t.skl = s.skl := (congrArg State.skl h :)
theorem time_of_sansNews : t.time = s.time := (congrArg State.time h :)

end

section
variable (s : State)

theorem sansNews_fire (h v : Nat) : sansNews (fire h v s) = sansNews s := by
  unfold fire
  split <;> rfl

theorem sansNews_fireAll (hs : List Nat) (v : Nat) : sansNews (fireAll hs v s) = sansNews s :=
  foldl_keeps sansNews (fun t h => sansNews_fire t h v) hs s

theorem sansNews_logTo (r : EventRec) (h : Nat) : sansNews (logTo r h s) = sansNews s := by
  unfold logTo
  dsimp only
  split
  · split
    · exact sansNews_fire _ _ _
    · rfl
  · rfl

theorem sansNews_deliver (r : EventRec) (sc : Scope) (first enters : Bool) :
    sansNews (deliver r sc first enters s) = sansNews s := by
  have logged (hs : List Nat) (t : State) : sansNews (hs.foldl (fun t h => logTo r h t) t) = sansNews t :=
    foldl_keeps sansNews (fun t h => sansNews_logTo t r h) hs t
  unfold deliver
  simp only [apply_ite sansNews, sansNews_fireAll, logged, ite_self]

theorem sansNews_stage (type cls source count : Nat) (detail : List Byte) :
    sansNews (stage type cls source count detail s) = sansNews s := rfl

theorem sansNews_stageEvent (r : EventRec) (first : Bool) : sansNews (stageEvent r first s) = sansNews s := by
  unfold stageEvent
  (repeat' split) <;> rfl

/-- The record of an event: the next ESEQ, the class in force, the time. -/
def eventRec (inj : Bool) (src kind hd : Nat) (body : List Byte) (s : State) : EventRec where
  eseq := s.flt.eseq
  source := src
  cls := classOf s src
  injected := inj
  kind := kind
  head := hd
  time := s.time.chain
  contents := body.take 28

/-- Without the halt, an event changes fault collection, and tells of it. -/
theorem sansNews_report (inj : Bool) (src kind hd : Nat) (sc : Scope) (body : List Byte) :
    sansNews (report inj src kind hd sc body s) = sansNews { s with
      flt := fltRecord (eventRec inj src kind hd body s) s.time.windowStart s.time.elapsed s.flt } :=
  (sansNews_stageEvent _ _ _).trans (sansNews_deliver _ _ _ _ _)

theorem sansNews_endOuting (id st wsc : Nat) : sansNews (endOuting id st wsc s) = sansNews s := by
  unfold endOuting
  split
  · split
    · exact sansNews_fireAll _ _ _
    · rfl
  · rfl

theorem sansNews_failOutings : sansNews (failOutings s) = sansNews s :=
  foldl_keeps sansNews (fun (t : State) (o : Outing) => sansNews_endOuting t o.id 4 0x0006) _ s

theorem sansNews_signalViral : sansNews (signalViral s) = sansNews s := by
  refine foldl_keeps sansNews (fun t h => ?_) _ s
  split <;> rfl

theorem sansNews_haltAnswer (r : Req) : sansNews (haltAnswer s r) = sansNews s := by
  unfold haltAnswer
  (repeat' split) <;> rfl

theorem sansNews_haltRequests : sansNews (haltRequests s) = sansNews s :=
  foldl_keeps sansNews sansNews_haltAnswer s.req.reqs s

theorem sansNews_notifyJob (j : Job) (st : JobSt) : sansNews (notifyJob j st s) = sansNews s := by
  unfold notifyJob
  dsimp only
  split
  · rfl
  · split
    · exact sansNews_fire _ _ _
    · rfl

theorem sansNews_haltNotices : sansNews (haltNotices s) = sansNews s :=
  foldl_keeps sansNews (fun t j => sansNews_notifyJob t j .failed) _ s

theorem sansNews_haltCommands : sansNews (haltCommands s) = sansNews s := by
  unfold haltCommands
  dsimp only
  split
  · split <;> rfl
  · rfl

end

/-! ### The halt (18 R467, R468) -/

/-- A port stops at the halt. -/
def haltPort (now : Nat) (x : Port) : Port :=
  match x.st with
  | .off | .absent | .down => x
  | _ => { x with st := .down, retraining := false, downAt := now, downs := addSat 8 x.downs 1 }

theorem haltPort_count (now : Nat) (x : Port) : (haltPort now x).count = x.count := by
  unfold haltPort
  split <;> rfl

theorem haltUnits_flt (s : State) : (haltUnits s).flt = s.flt := rfl

theorem haltUnits_skl (s : State) :
    (haltUnits s).skl = { s.skl with ports := s.skl.ports.map (haltPort s.time.elapsed) } := rfl

/-- The halt as fault collection notes it. -/
def haltMark (src : Nat) (s : State) : State :=
  { s with flt := { s.flt with
    halted := true, haltSource := src, haltTime := s.time.chain, haltElapsed := s.time.elapsed
    colls := s.flt.colls.modify (src / 32) fun c => { c with haltCause := true } } }

/-- Keys are zeroized, and a test unlock ends. -/
def haltSecrets (s : State) : State := relock { s with keys := zeroizeKeys s.keys }

theorem haltSecrets_flt (s : State) : (haltSecrets s).flt = s.flt := rfl
theorem haltSecrets_skl (s : State) : (haltSecrets s).skl = s.skl := rfl
theorem haltSecrets_time (s : State) : (haltSecrets s).time = s.time := rfl

theorem sansNews_haltSecrets (s : State) : sansNews (haltSecrets s) = haltSecrets (sansNews s) := rfl

/-- What the halt does before units stop. -/
def haltWork (src : Nat) (s : State) : State :=
  haltNotices (haltRequests (failOutings (haltSecrets (signalViral (haltMark src s)))))

section
variable (src : Nat) (body : List Byte) (s : State)

theorem haltDevice_eq : haltDevice src body s = stage 0x05 4 src 1
    (le 4 (wrap 32 ((haltCommands (haltUnits (haltWork src s))).flt.eseq + 2 ^ 32 - 1)) ++ body.take 28)
    (haltCommands (haltUnits (haltWork src s))) := by
  unfold haltDevice haltWork haltSecrets haltMark
  rfl

theorem sansNews_haltWork : sansNews (haltWork src s) = sansNews (haltSecrets (haltMark src s)) := by
  unfold haltWork
  rw [sansNews_haltNotices, sansNews_haltRequests, sansNews_failOutings, sansNews_haltSecrets, sansNews_signalViral,
    sansNews_haltSecrets]

theorem sansNews_haltDevice : sansNews (haltDevice src body s) = sansNews (haltUnits (haltWork src s)) := by
  rw [haltDevice_eq]
  generalize haltUnits (haltWork src s) = t
  exact (sansNews_stage _ _ _ _ _ _).trans (sansNews_haltCommands t)

theorem haltDevice_flt : (haltDevice src body s).flt = (haltMark src s).flt := by
  rw [flt_of_sansNews (sansNews_haltDevice src body s), haltUnits_flt, flt_of_sansNews (sansNews_haltWork src s),
    haltSecrets_flt]

theorem haltDevice_skl : (haltDevice src body s).skl
    = { s.skl with ports := s.skl.ports.map (haltPort s.time.elapsed) } := by
  rw [skl_of_sansNews (sansNews_haltDevice src body s), haltUnits_skl, skl_of_sansNews (sansNews_haltWork src s),
    time_of_sansNews (sansNews_haltWork src s), haltSecrets_skl, haltSecrets_time]
  rfl

end

/-! ### One event (18 R453-R461) -/

section
variable (inj : Bool) (src kind hd : Nat) (sc : Scope) (body : List Byte) (s : State)

theorem report_flt : (report inj src kind hd sc body s).flt
    = fltRecord (eventRec inj src kind hd body s) s.time.windowStart s.time.elapsed s.flt :=
  flt_of_sansNews (sansNews_report s inj src kind hd sc body)

theorem report_skl : (report inj src kind hd sc body s).skl = s.skl :=
  (skl_of_sansNews (sansNews_report s inj src kind hd sc body)).trans rfl

end

section
variable (r : EventRec) (window now : Nat) (f : FaultState)

theorem fltRecord_eseq : (fltRecord r window now f).eseq = wrap 32 (f.eseq + 1) := by
  unfold fltRecord
  dsimp only
  split <;> rfl

theorem fltRecord_colls_of_halted (h : f.halted = true) : (fltRecord r window now f).colls = f.colls := by
  simp [fltRecord, h]

theorem fltRecord_colls_of_none (h : r.cls = 0) : (fltRecord r window now f).colls = f.colls := by
  simp only [fltRecord, h, if_true]
  split <;> rfl

theorem fltRecord_colls_of_class (hh : f.halted = false) (h : r.cls ≠ 0) :
    (fltRecord r window now f).colls = f.colls.modify (r.source / 32) (collEnter r now) := by
  simp [fltRecord, hh, h]

/-- While the device is halted, only counts of a group change. -/
theorem fltRecord_entries_of_halted (h : f.halted = true) :
    (fltRecord r window now f).groups.map (·.entries) = f.groups.map (·.entries) := by
  simp only [fltRecord, h, if_true]
  refine List.ext_getElem? fun i => ?_
  simp only [List.getElem?_map, List.getElem?_modify]
  split <;> cases f.groups[i]? <;> rfl

theorem collEnter_fault (c : Collector) : (collEnter r now c).fault = true := by
  unfold collEnter
  dsimp only
  split
  · assumption
  · rfl

theorem collEnter_pend (c : Collector) :
    (collEnter r now c).pend = c.pend ||| BitVec.ofNat 32 (2 ^ (r.source % 32)) := by
  unfold collEnter
  dsimp only
  split <;> rfl

theorem collEnter_pend_source (c : Collector) : (collEnter r now c).pend.getLsbD (r.source % 32) = true := by
  have : r.source % 32 < 32 := Nat.mod_lt _ (by decide)
  simp only [collEnter_pend, BitVec.getLsbD_or, BitVec.getLsbD_ofNat, Nat.testBit_two_pow_self, this, decide_true,
    Bool.and_self, Bool.or_true]

end

/-- An event of the newest entry's source, kind and window is merged into it. -/
theorem histEnter_of_same {r : EventRec} {window : Nat} {g : Group} {e : HistEntry} {rest : List HistEntry}
    (hg : g.entries = e :: rest) (h : e.source = r.source ∧ e.kind = r.kind ∧ e.window = window) :
    (histEnter r window g).entries = { e with count := addSat 24 e.count 1 } :: rest := by
  simp [histEnter, hg, h]

theorem histEnter_of_other {r : EventRec} {window : Nat} {g : Group} {e : HistEntry} {rest : List HistEntry}
    (hg : g.entries = e :: rest) (h : ¬ (e.source = r.source ∧ e.kind = r.kind ∧ e.window = window)) :
    (histEnter r window g).entries = (⟨r.eseq, r.source, r.cls, r.injected, r.kind, r.head, 1,
      r.time / 2 ^ 10 % 2 ^ 24, window⟩ :: e :: rest).take 8 := by
  simp only [histEnter, hg, if_neg h]

/-- An event of class FT halts a device that is not halted (18 R467). -/
theorem raise_of_fatal {src : Nat} {s : State} (hc : classOf s src = 4) (hh : s.flt.halted = false) (kind hd : Nat)
    (sc : Scope) (body : List Byte) :
    raise src kind hd sc body s = haltDevice src body (report false src kind hd sc body s) :=
  if_pos ⟨hc, hh⟩

theorem getD_map_haltPort_count (now : Nat) (l : List Port) (p : Nat) :
    ((l.map (haltPort now)).getD p {}).count = (l.getD p {}).count := by
  simp only [List.getD_eq_getElem?_getD, List.getElem?_map]
  cases l[p]? with
  | none => rfl
  | some x => exact haltPort_count now x

/-- An event leaves a port's count of replays as it was, a halt too. -/
theorem raiseI_port_count (inj : Bool) (src kind hd : Nat) (sc : Scope) (body : List Byte) (s : State) (p : Nat) :
    ((raiseI inj src kind hd sc body s).port p).count = (s.port p).count := by
  unfold raiseI State.port
  dsimp only
  split
  · rw [haltDevice_skl, report_skl]
    exact getD_map_haltPort_count _ _ p
  · rw [report_skl]

/-- Settles O10: an event's record enters fault collection, which a halt freezes, and telling of it changes neither that
nor memory. -/
theorem eventRecording : Obligations.EventRecording := by
  refine ⟨?report, ?history, ?fatal⟩
  case report =>
    intro inj src kind hd sc body s
    rw [State.coll, report_flt]
    refine ⟨fltRecord_eseq .., report_mem .., fun hh => ?colls, fun hh => ?entries, fun hc => ?none,
      fun hh hc hlen => ?fault⟩
    case colls => exact fltRecord_colls_of_halted _ _ _ _ hh
    case entries => exact fltRecord_entries_of_halted _ _ _ _ hh
    case none => exact fltRecord_colls_of_none _ _ _ _ hc
    case fault =>
      have entered : (fltRecord (eventRec inj src kind hd body s) s.time.windowStart s.time.elapsed s.flt).colls.getD
          (src / 32) {} = collEnter (eventRec inj src kind hd body s) s.time.elapsed (s.coll (src / 32)) := by
        rw [fltRecord_colls_of_class _ _ _ _ hh hc]
        simp [eventRec, hlen, State.coll]
      rw [entered]
      exact ⟨collEnter_fault _ _ _, collEnter_pend_source _ _ _⟩
  case history =>
    intro r window g e rest hg
    refine ⟨fun hs hk hw => histEnter_of_same hg ⟨hs, hk, hw⟩, fun hne _ => ?_⟩
    rw [histEnter_of_other hg hne]
    exact ⟨List.length_take_le _ _, rfl, rfl⟩
  case fatal =>
    intro src kind hd sc body s hc hh
    rw [raise_of_fatal hc hh, haltDevice_flt]
    exact ⟨rfl, rfl⟩

end Sys2Proof.Machine
end

section
/-! PROOF. The count of replays of a Stechaisk port (12 R337). -/

namespace Sys2Proof.Machine

/-! ### What leaves the counts of replays alone -/

/-- The count of replays of each port. -/
def replayCounts (s : State) (p : Nat) : Nat := (s.port p).count

section
variable {s : State}

theorem replayCounts_modPort (p : Nat) {f : Port → Port} (hf : ∀ x, (f x).count = x.count) :
    replayCounts (s.modPort p f) = replayCounts s := by
  funext q
  simp only [replayCounts, port_modPort]
  split
  · exact hf _
  · rfl

theorem replayCounts_portEvent (p k : Nat) (body : List Byte) :
    replayCounts (portEvent p k body s) = replayCounts s :=
  funext fun q => raiseI_port_count _ _ _ _ _ _ _ q

theorem replayCounts_raiseAll (src kind : Nat) (body : List Byte) :
    replayCounts (raiseAll src kind body s) = replayCounts s :=
  funext fun q => raiseI_port_count _ _ _ _ _ _ _ q

theorem replayCounts_spillEvents (p : Nat) : replayCounts (spillEvents p s) = replayCounts s := by
  unfold spillEvents
  dsimp only
  simp only [apply_ite replayCounts, replayCounts_portEvent, replayCounts_modPort, implies_true, ite_self]

theorem replayCounts_countDram (port bytes : Nat) : replayCounts (countDram port bytes s) = replayCounts s := rfl

theorem replayCounts_take (p : Nat) (f : Frame) : replayCounts (take p f s) = replayCounts s := by
  unfold take
  simp only [apply_ite replayCounts, replayCounts_spillEvents, replayCounts_modPort, replayCounts_countDram,
    implies_true, ite_self]

theorem replayCounts_hold (p : Nat) (f : Frame) : replayCounts (hold p f s) = replayCounts s := by
  unfold hold
  simp only [apply_ite replayCounts, replayCounts_take, replayCounts_modPort, implies_true, ite_self]

theorem replayCounts_takeBacklog (p : Nat) : replayCounts (takeBacklog p s) = replayCounts s :=
  (foldl_keeps replayCounts (fun _ f => replayCounts_take p f) _ _).trans (replayCounts_modPort p fun _ => rfl)

theorem replayCounts_control (p : Nat) (c : CtlFrame) : replayCounts (control p c s) = replayCounts s := rfl

theorem replayCounts_flowState (p : Nat) : replayCounts (flowState p s) = replayCounts s := by
  unfold flowState
  simp only [apply_ite replayCounts, replayCounts_control, replayCounts_modPort, implies_true, ite_self]

theorem replayCounts_sendCredits (p : Nat) : replayCounts (sendCredits p s) = replayCounts s :=
  replayCounts_modPort p fun _ => rfl

theorem replayCounts_freeTracker (p v : Nat) : replayCounts (freeTracker p v s) = replayCounts s := by
  unfold freeTracker
  simp only [apply_ite replayCounts, replayCounts_sendCredits, replayCounts_modPort, implies_true, ite_self]

theorem replayCounts_consume (p : Nat) (f : Frame) : replayCounts (consume p f s) = replayCounts s := by
  unfold consume
  simp only [apply_ite replayCounts, replayCounts_flowState, replayCounts_freeTracker, replayCounts_modPort,
    implies_true, ite_self]

theorem replayCounts_forwardFrame (p : Nat) (f : Frame) : replayCounts (forwardFrame p f s) = replayCounts s := by
  have dropped (t : Tx) : replayCounts (s.emit t) = replayCounts s := rfl
  unfold forwardFrame
  simp only [apply_ite replayCounts, replayCounts_consume, replayCounts_hold, replayCounts_raiseAll, dropped, ite_self]

theorem replayCounts_resumePort (p : Nat) : replayCounts (resumePort p s) = replayCounts s :=
  (foldl_keeps replayCounts (fun _ f => replayCounts_forwardFrame (1 - p) f) _ _).trans (replayCounts_takeBacklog p)

/-- What follows an acknowledgement leaves the count that it cleared. -/
theorem ackFrames_count {p n : Nat} (hn : 0 < n) (hp : p < s.skl.ports.length) :
    ((ackFrames p n s).port p).count = 0 := by
  unfold ackFrames
  rw [if_neg (Nat.ne_of_gt hn)]
  refine (congrFun (replayCounts_resumePort p) p).trans ?_
  rw [replayCounts, port_modPort_self _ _ _ hp]

end

/-! ### A replay -/

section
variable {p : Nat} {s : State}

theorem portCount_of_unselected (h : (s.pmc.sel.all fun v => v == 0) = true) (event seq : Nat) :
    portCount p event seq s = s :=
  if_pos (.inr h)

theorem damageSent_of_none_armed (h : s.pmc.armed = []) (c : Nat) : damageSent c p s = s := by
  simp [damageSent, armedFor_of_none_armed h]

/-- With no counter selected and no injection armed, sending frames again sends them, and nothing else. -/
theorem resend_eq (ha : s.pmc.armed = []) (hs : (s.pmc.sel.all fun v => v == 0) = true) (l : List HeldFrame) :
    l.foldl (fun t h => damageSent 0x08 p (portCount p 0x20 h.frame.seq (t.emit (.frame p h.frame)))) s
      = { s with tx := (l.map fun h => Tx.frame p h.frame).reverse ++ s.tx } := by
  induction l generalizing s with
  | nil => rfl
  | cons h l ih =>
    have sent : damageSent 0x08 p (portCount p 0x20 h.frame.seq (s.emit (.frame p h.frame)))
        = s.emit (.frame p h.frame) := by
      rw [portCount_of_unselected (s := s.emit _) hs, damageSent_of_none_armed (s := s.emit _) ha]
    rw [List.foldl_cons, sent, ih (s := s.emit _) ha hs, List.map_cons, List.reverse_cons, List.append_assoc]
    rfl

/-- The state that a replay counts in, before it sends. -/
def replayCounted (p : Nat) (s : State) : State :=
  countDram 1 (128 * ((s.port p).held.length - 1024))
    ((s.modPort p fun x => { x with count := x.count + 1 }).modPort p fun x => { x with
      replays := addSat 24 x.replays 1, timerAt := s.time.elapsed })

variable (hx : (s.port p).xoffHeld = false)
include hx

theorem replayFrames_of_fourth (hn : (s.port p).count + 1 = 4) :
    replayFrames p s = startRetrain p 0 (s.modPort p fun x => { x with count := x.count + 1 }) := by
  simp only [replayFrames, hx, Bool.false_eq_true, if_false, if_pos hn]

theorem replayFrames_of_eighth (hn : 8 ≤ (s.port p).count + 1) :
    replayFrames p s = enterDown p 1 (s.modPort p fun x => { x with count := x.count + 1 }) := by
  have h4 : (s.port p).count + 1 ≠ 4 := by omega
  simp only [replayFrames, hx, Bool.false_eq_true, if_false, if_neg h4, if_pos hn]

/-- Any other replay counts and sends every unacknowledged frame again. -/
theorem replayFrames_of_other (h4 : (s.port p).count + 1 ≠ 4) (h8 : (s.port p).count + 1 < 8)
    (ha : s.pmc.armed = []) (hs : (s.pmc.sel.all fun v => v == 0) = true) :
    replayFrames p s = { replayCounted p s with
      tx := ((s.port p).outstanding.map fun h => Tx.frame p h.frame).reverse ++ s.tx } := by
  simp only [replayFrames, hx, Bool.false_eq_true, if_false, if_neg h4, if_neg (Nat.not_le.2 h8)]
  exact resend_eq (s := replayCounted p s) ha hs _

omit hx in
theorem replayCounted_port (hp : p < s.skl.ports.length) : (replayCounted p s).port p
    = { s.port p with
      count := (s.port p).count + 1, replays := addSat 24 (s.port p).replays 1, timerAt := s.time.elapsed } := by
  have once (f : Port → Port) : (s.modPort p f).port p = f (s.port p) := port_modPort_self s p f hp
  have twice (f g : Port → Port) : ((s.modPort p f).modPort p g).port p = g ((s.modPort p f).port p) :=
    port_modPort_self _ p g (by simpa [State.modPort] using hp)
  exact (twice _ _).trans (by rw [once])

end

/-- Settles O53: the replay timer's replay takes the branch that the count selects, and the count is cleared by what an
acknowledgement does to its port before anything that follows it. -/
theorem replayCount : Obligations.ReplayCount := by
  refine ⟨?replay, fun port n s hn hp => ackFrames_count hn hp, fun x now absent => rfl⟩
  intro port s hport hup hout htimer hx u
  have replays {t : State} (h : replayFrames port s = t) : exec (.replayTimerExpire port) s = .next t :=
    onUnit_eq_next hport ((if_pos ⟨hup, hout, htimer⟩).trans h)
  refine ⟨fun h4 => replays (replayFrames_of_fourth hx h4), fun h8 => replays (replayFrames_of_eighth hx h8), ?_⟩
  intro h4 h8 ha hs hlen
  refine ⟨_, replays (replayFrames_of_other hx h4 h8 ha hs), ?_, ?_, rfl⟩
  · exact (congrArg Port.count (replayCounted_port hlen) :)
  · exact (congrArg Port.held (replayCounted_port hlen) :)

end Sys2Proof.Machine
end

section
/-! PROOF. Mailbox commands: what an answer leaves as it was, commands that fail, and the hand-over of the
managing role. -/

namespace Sys2Proof.Machine

/-! ### What an answer leaves unchanged -/

/-- A head without what an answer writes: its mailboxes and its pending vectors. -/
def Head.sansMail (h : Head) : Head := { h with mb0 := {}, mb1 := {}, msiPend := 0 }

/-- A state without what an answer to a command writes. -/
def sansReply (s : State) : State :=
  { s with
    tx := []
    host := { s.host with heads := s.host.heads.map Head.sansMail }
    crity := { s.crity with sb := {} } }

theorem sansReply_modHead {f : Head → Head} (hf : ∀ h, (f h).sansMail = h.sansMail) (s : State) (i : Nat) :
    sansReply (s.modHead i f) = sansReply s := by
  have heads : (s.host.heads.modify i f).map Head.sansMail = s.host.heads.map Head.sansMail := by
    refine List.ext_getElem? fun j => ?_
    rw [List.getElem?_map, List.getElem?_map, List.getElem?_modify]
    by_cases h : i = j <;> cases s.host.heads[j]? <;> simp [h, hf]
  unfold sansReply State.modHead
  rw [heads]

theorem sansReply_fire (h v : Nat) (s : State) : sansReply (fire h v s) = sansReply s := by
  unfold fire
  split
  · exact sansReply_modHead (fun _ => by rfl) s h
  · rfl

theorem sansReply_modMailbox (s : State) (m : Mb) (f : Mailbox → Mailbox) :
    sansReply (s.modMailbox m f) = sansReply s := by
  unfold State.modMailbox
  split
  · rfl
  split
  · exact sansReply_modHead (fun _ => by rfl) s m.src
  · exact sansReply_modHead (fun _ => by rfl) s m.src

section
variable (m : Mb) (o : Nat) (rc : Rc) (w : Nat) (out : List Byte) (s : State)

/-- An answer writes mailboxes, vectors and what is transmitted, nothing else. -/
theorem sansReply_reply : sansReply (reply m o rc w out s) = sansReply s := by
  unfold reply
  split
  · rfl
  dsimp only
  split
  · rw [sansReply_fire, sansReply_modMailbox]
  · exact sansReply_modMailbox s m _

theorem reply_chain : (reply m o rc w out s).chain = s.chain :=
  (congrArg State.chain (sansReply_reply m o rc w out s) :)

theorem reply_keys : (reply m o rc w out s).keys = s.keys := (congrArg State.keys (sansReply_reply m o rc w out s) :)

theorem reply_slu : (reply m o rc w out s).slu = s.slu := (congrArg State.slu (sansReply_reply m o rc w out s) :)

theorem reply_managing : (reply m o rc w out s).crity.managing = s.crity.managing :=
  (congrArg (·.crity.managing) (sansReply_reply m o rc w out s) :)

theorem reply_heads_length : (reply m o rc w out s).host.heads.length = s.host.heads.length := by
  simpa only [sansReply, List.length_map] using
    congrArg (·.host.heads.length) (sansReply_reply m o rc w out s)

theorem head_sansReply (s : State) (h : Nat) : (sansReply s).head h = (s.head h).sansMail := by
  unfold sansReply State.head
  simp only [List.getD_eq_getElem?_getD, List.getElem?_map]
  cases s.host.heads[h]? <;> rfl

theorem bgOf_sansReply (s : State) (h : Nat) : bgOf (sansReply s) h = bgOf s h := by
  unfold bgOf
  rw [head_sansReply]
  rfl

theorem bgOf_reply (h : Nat) : bgOf (reply m o rc w out s) h = bgOf s h := by
  rw [← bgOf_sansReply, sansReply_reply, bgOf_sansReply]

end

theorem bgOf_logCommand (o i : Nat) (rc : Rc) (w q : Nat) (s : State) (h : Nat) :
    bgOf (logCommand o i rc w q s) h = bgOf s h := by
  simp only [bgOf, logCommand, State.head]

theorem logCommand_managing (o i : Nat) (rc : Rc) (w q : Nat) (s : State) :
    (logCommand o i rc w q s).crity.managing = s.crity.managing := by
  simp only [logCommand]

/-! ### A background slot that a command takes -/

theorem bgOf_modBg_self {s : State} {src : Nat} (hsrc : src = 8 ∨ src < s.host.heads.length) (f : BgSlot → BgSlot) :
    bgOf (s.modBg src f) src = f (bgOf s src) := by
  unfold bgOf State.modBg
  by_cases h8 : src = 8
  · simp only [h8, if_true]
  · simp only [if_neg h8, head_modHead_self s src _ (hsrc.resolve_left h8)]

theorem modBg_chain (s : State) (src : Nat) (f : BgSlot → BgSlot) : (s.modBg src f).chain = s.chain := by
  unfold State.modBg
  split <;> rfl

theorem bgOf_started {m : Mb} {s : State} (hsrc : m.src = 8 ∨ m.src < s.host.heads.length) (o : Nat) (op : BgOp) :
    (bgOf (started o m op s) m.src).op = some op :=
  congrArg BgSlot.op (bgOf_modBg_self (by rwa [reply_heads_length]) _)

theorem started_chain (o : Nat) (m : Mb) (op : BgOp) (s : State) : (started o m op s).chain = s.chain := by
  rw [started, modBg_chain, reply_chain]

/-! ### Commands that fail (14 R372) -/

/-- An accepted Crity command whose own work fails. -/
theorem runCrity_fail {spec : CmdSpec} {s : State} {m : Mb} {p : List Byte} {own : State → CmdRes} {w d : Nat}
    (h : accepts spec s m p = true) (ho : own s = .fail w d) : runCrity spec m p own s = failCmd spec m w d s := by
  rw [runCrity_of_accepts h, ho]

/-- A command of a head that fails at a check. -/
theorem runCrity_of_precheck {spec : CmdSpec} {s : State} {m : Mb} {p : List Byte} {w d : Nat}
    (hcan : canIssue s m = true) (h8 : m.src ≠ 8) (hwait : mustWait s = false) (hp : precheck spec s m p = some (w, d))
    (own : State → CmdRes) : runCrity spec m p own s = failCmd spec m w d s := by
  unfold runCrity
  rw [if_neg (by simp [hcan]), if_neg fun h => h8 h.1, if_neg (by simp [hwait]), hp]

theorem failCmd_of_read {spec : CmdSpec} (h : spec.read = true) (m : Mb) (w d : Nat) (s : State) :
    failCmd spec m w d s = reply m spec.opcode (rcOf w) w (le 2 w ++ le 2 d) s := if_pos h

theorem failCmd_of_logged {spec : CmdSpec} (h : spec.read = false) (m : Mb) (w d : Nat) (s : State) :
    failCmd spec m w d s = logCommand spec.opcode m.src (rcOf w) w 0xFFFFFFFF
      (reply m spec.opcode (rcOf w) w (le 2 w ++ le 2 d) s) := if_neg (ne_true_of_eq_false h)

/-- A failing command writes its answer and, unless it is a read command, its record in the Command Log. -/
theorem failCmd_eq (spec : CmdSpec) (m : Mb) (w d : Nat) (s : State) :
    ∃ q l, failCmd spec m w d s = let t := reply m spec.opcode (rcOf w) w (le 2 w ++ le 2 d) s
      { t with crity := { t.crity with cmdSeq := q, cmdLog := l } } := by
  cases h : spec.read with
  | true => exact ⟨_, _, failCmd_of_read h m w d s⟩
  | false => exact ⟨_, _, failCmd_of_logged h m w d s⟩

/-! ### The answer in the issuer's mailbox -/

section
variable {m : Mb} {s : State} (h8 : m.src ≠ 8)
include h8

omit h8 in
/-- A head keeps what a change of some head does not write. -/
theorem head_modHead_keeps {α : Type} {g : Head → α} {f : Head → Head} (hg : ∀ x, g (f x) = g x) (i j : Nat) :
    g ((s.modHead i f).head j) = g (s.head j) := by
  rw [head_modHead]
  split
  · exact hg _
  · rfl

theorem mailboxOf_fire (h v : Nat) : mailboxOf (fire h v s) m = mailboxOf s m := by
  unfold fire
  split
  · unfold mailboxOf
    rw [if_neg h8, if_neg h8, head_modHead_keeps (g := Head.mb0) fun _ => by rfl,
      head_modHead_keeps (g := Head.mb1) fun _ => by rfl]
  · rfl

theorem mailboxOf_modMailbox (hl : m.src < s.host.heads.length) (f : Mailbox → Mailbox) :
    mailboxOf (s.modMailbox m f) m = f (mailboxOf s m) := by
  unfold mailboxOf State.modMailbox
  rw [if_neg h8, if_neg h8, if_neg h8]
  cases m.sec <;> simp [hl]

theorem mailboxOf_reply (hl : m.src < s.host.heads.length) (hup : headUp s m.src = true) (o : Nat) (rc : Rc) (w : Nat)
    (out : List Byte) :
    mailboxOf (reply m o rc w out s) m = { mailboxOf s m with opcode := o, rc := rc, wsc := w, out := out } := by
  have linked : ¬ (m.src < 8 ∧ headUp s m.src = false) := fun h => Bool.noConfusion (hup.symm.trans h.2)
  unfold reply
  rw [if_neg linked]
  dsimp only
  split
  · rw [mailboxOf_fire h8, mailboxOf_modMailbox h8 hl]
  · exact mailboxOf_modMailbox h8 hl _

omit h8 in
theorem fire_crity (h v : Nat) (s : State) : (fire h v s).crity = s.crity := by
  unfold fire
  split <;> rfl

theorem reply_crity (o : Nat) (rc : Rc) (w : Nat) (out : List Byte) : (reply m o rc w out s).crity = s.crity := by
  have mail : ∀ f, (s.modMailbox m f).crity = s.crity := fun f => by
    unfold State.modMailbox
    rw [if_neg h8]
    split <;> rfl
  unfold reply
  split
  · rfl
  dsimp only
  split
  · rw [fire_crity, mail]
  · exact mail _

end

/-- Settles O58: such a command ends in `failCmd`, whose answer reaches the mailbox and which writes nothing else but
the Command Log. -/
theorem commandFailure : Obligations.CommandFailure := by
  intro spec m p own w d s hcan hup h8 hl hwait hp t
  have ht : t = failCmd spec m w d s := runCrity_of_precheck hcan h8 hwait hp own
  obtain ⟨q, l, he⟩ := failCmd_eq spec m w d s
  have mail : mailboxOf t m = mailboxOf (reply m spec.opcode (rcOf w) w (le 2 w ++ le 2 d) s) m := by
    rw [ht, he]
    rfl
  rw [mail, mailboxOf_reply h8 hl hup]
  refine ⟨rfl, rfl, rfl, ?_, ?_, ?_, ?_, ?_, fun hr => ?_⟩
  · rw [ht, he]
    exact reply_managing ..
  · rw [ht, he]
    exact reply_mem ..
  · rw [ht, he]
    exact reply_keys ..
  · rw [ht, he]
    exact reply_slu ..
  · rw [ht, he]
    exact reply_chain ..
  · rw [ht, failCmd_of_read hr, reply_crity h8]

/-! ### The managing role (14 R371, R378-R380) -/

/-- A command that only the managing head may issue fails at another head. -/
theorem precheck_of_not_managing {spec : CmdSpec} {s : State} {m : Mb} {p : List Byte} (h8 : m.src ≠ 8)
    (hmgt : spec.mgt = true) (hany : spec.any = false) (hadm : spec.adm s m.src p = false)
    (hlen : spec.len p.length = true) (hm : isManaging s m.src = false) :
    precheck spec s m p = some (0x0001, 0xFFFF) := by
  have refused : permitted spec s m p = false := by simp [permitted, h8, hany, hadm, hm]
  have known : ¬ (!spec.len p.length) = true := by simp [hlen]
  unfold precheck
  rw [if_neg known, if_pos (by simp [refused])]
  simp [hmgt, h8]

theorem bgOf_finished (o : Nat) (m : Mb) (out : List Byte) (s t : State) (h : Nat) :
    bgOf (finished o m out s t) h = bgOf t h := by
  unfold finished
  split <;> rw [bgOf_logCommand, bgOf_reply]

theorem finished_managing (o : Nat) (m : Mb) (out : List Byte) (s t : State) :
    (finished o m out s t).crity.managing = t.crity.managing := by
  unfold finished
  split <;> rw [logCommand_managing, reply_managing]

/-- The state with another managing head. -/
def withManaging (h : Nat) (s : State) : State := { s with crity := { s.crity with managing := some h } }

theorem exec_setManagingHead_of_up {m : Mb} {p : List Byte} {s : State} (h : accepts managingSpec s m p = true)
    (hpr : (s.head (byteAt p 0)).present = true) (hup : headUp s (byteAt p 0) = true) :
    exec (.setManagingHead m p) s = .next (finished 0xC002 m [] s (withManaging (byteAt p 0) s)) :=
  congrArg Host.Outcome.next (runCrity_fin h (if_pos (by simp [hpr, hup])) (outFits_nil s m) rfl)

theorem exec_setManagingHead_of_down {m : Mb} {p : List Byte} {s : State} (h : accepts managingSpec s m p = true)
    (hd : (s.head (byteAt p 0)).present = false ∨ headUp s (byteAt p 0) = false) :
    exec (.setManagingHead m p) s = .next (failCmd managingSpec m 0x0005 0 s) := by
  refine congrArg Host.Outcome.next (runCrity_fail h (if_neg ?_))
  obtain hd | hd := hd <;> simp [hd]

theorem stage_crity (ty c src n : Nat) (b : List Byte) (s : State) : (stage ty c src n b s).crity = s.crity := rfl

/-- Settles O56: the role changes hands in `withManaging`; neither an answer nor the log writes a background slot. -/
theorem managingHandover : Obligations.ManagingHandover := by
  refine ⟨?up, ?down, ?other, ?mgt, fun _ _ _ => rfl, ?cold⟩
  case up =>
    intro m p s h hpr hup
    refine ⟨_, exec_setManagingHead_of_up h hpr hup, ?_, fun i => ?_⟩
    · rw [finished_managing]
      rfl
    · rw [bgOf_finished]
      rfl
  case down => exact fun m p s h hd => exec_setManagingHead_of_down h hd
  case other =>
    intro m p s h8 hcan hwait hlen hm
    exact congrArg Host.Outcome.next (runCrity_of_precheck hcan h8 hwait
      (precheck_of_not_managing h8 rfl rfl rfl (by simp [outingSpec, hlen]) hm) _)
  case mgt => exact fun spec m p s h8 hmgt hany hadm hlen hm => precheck_of_not_managing h8 hmgt hany hadm hlen hm
  case cold =>
    intro st f s
    unfold coldReset
    dsimp only
    split
    · rw [stage_crity]
    · rfl

end Sys2Proof.Machine
end

section
/-! PROOF. Stechaisk ports: training, frames, limits and commands. -/

namespace Sys2Proof.Machine

section
variable {p : Nat} {s : State}

/-! ### Training (12 R322-R324, R330-R332) -/

theorem signalDetect_of_absent (hst : (s.port p).st = .absent) (hh : s.flt.halted = false) :
    signalDetect p s = s.modPort p fun x => { x.beginTraining s.time.elapsed true with
      lanes := x.lanes.map fun l => { l with signal := true } } :=
  if_pos ⟨hst, hh⟩

/-- The lanes of a port as their alignment leaves them. -/
def alignLanes (p : Nat) (res : List LaneResult) (s : State) : State :=
  s.modPort p fun x => { x with lanes := x.lanes.mapIdx fun i l => { l with
    slips := (res.getD i ⟨0, false, 0⟩).slips, invert := (res.getD i ⟨0, false, 0⟩).invert
    failed := (res.getD i ⟨0, false, 0⟩).fail != 0 } }

theorem alignDone_of_aligned {res : List LaneResult} (hst : (s.port p).st = .align)
    (hf : ((List.range 16).find? fun i => (res.getD i ⟨0, false, 0⟩).fail != 0) = none) :
    alignDone p res s = (alignLanes p res s).modPort p fun x => { x with st := .deskew } := by
  rw [alignDone, if_neg (not_not_intro hst)]
  simp only [hf]
  rfl

theorem alignDone_of_failed {res : List LaneResult} {i : Nat} (hst : (s.port p).st = .align)
    (hf : ((List.range 16).find? fun i => (res.getD i ⟨0, false, 0⟩).fail != 0) = some i) :
    alignDone p res s = enterDown p 2 (portEvent p 4 (le 1 i ++ le 1 (res.getD i ⟨0, false, 0⟩).fail)
      (alignLanes p res s)) := by
  rw [alignDone, if_neg (not_not_intro hst)]
  simp only [hf]
  rfl

theorem deskewDone_of_shallow {depths : List Nat} (hst : (s.port p).st = .deskew)
    (hd : depths.all (· ≤ 32) = true) :
    deskewDone p depths true s = sendHello p (s.modPort p fun x => { x with
      st := .handshake, lanes := x.lanes.mapIdx fun i l => { l with depth := depths.getD i 0 } }) := by
  rw [deskewDone, if_neg (not_not_intro hst), if_pos ⟨rfl, hd⟩]

/-- The partner's first HELLO starts the eight echoes. -/
theorem trainHello_of_first (hst : (s.port p).st = .handshake) (hrx : (s.port p).helloRx = false) :
    trainHello p true 1 s = (List.range 8).foldl (fun t i => t.emit
      (.ctl p (.echoReq (symbolClock (s.modPort p fun x => { x with helloRx := true })) i)))
      (s.modPort p fun x => { x with helloRx := true }) := by
  simp only [trainHello, hst, hrx]
  rfl

theorem trainHello_of_up (hst : (s.port p).st = .up) (ready : Bool) (version : Nat) :
    trainHello p ready version s = startRetrain p 1 s :=
  if_pos hst

/-- An echo's answer as the port keeps it: its round, and its round trip added to the sum. -/
def noteEcho (p sendTime round turnaround now : Nat) (s : State) : State :=
  s.modPort p fun x => { x with
    rounds := round :: x.rounds, roundSum := x.roundSum + ((now + 2 ^ 32 - sendTime % 2 ^ 32) % 2 ^ 32 - turnaround) }

section
variable {sendTime round turnaround now : Nat} (hst : (s.port p).st = .handshake)
  (hnew : round < 8 ∧ (s.port p).rounds.contains round = false)
include hst hnew

theorem echoRsp_of_new : echoRsp p sendTime round turnaround now s
    = if ((noteEcho p sendTime round turnaround now s).port p).rounds.length < 8 then
        noteEcho p sendTime round turnaround now s
      else sendAccepted p ((noteEcho p sendTime round turnaround now s).modPort p fun x => { x with
        delay := min (delayOf x.roundSum) (2 ^ 24 - 1) }) := by
  obtain ⟨hround, hrounds⟩ := hnew
  exact if_neg (by rintro (h | h | h); exacts [h hst, Nat.not_lt.2 h hround, ne_true_of_eq_false hrounds h])

/-- Whether or not the device has the port, fewer than eight echoes are answered after one of fewer than seven. -/
theorem echoRsp_of_earlier (hlen : (s.port p).rounds.length < 7) :
    echoRsp p sendTime round turnaround now s = noteEcho p sendTime round turnaround now s := by
  rw [echoRsp_of_new hst hnew]
  refine if_pos ?_
  rw [noteEcho, port_modPort]
  split
  · exact Nat.succ_lt_succ hlen
  · omega

theorem echoRsp_of_eighth (hp : p < s.skl.ports.length) (hlen : (s.port p).rounds.length = 7) :
    echoRsp p sendTime round turnaround now s
      = sendAccepted p ((noteEcho p sendTime round turnaround now s).modPort p fun x => { x with
        delay := min (delayOf x.roundSum) (2 ^ 24 - 1) }) := by
  rw [echoRsp_of_new hst hnew]
  refine if_neg ?_
  rw [noteEcho, port_modPort_self _ _ _ hp]
  exact Nat.not_lt.2 (Nat.succ_le_succ hlen.ge)

end

section
variable (hst : (s.port p).st = .handshake)
include hst

theorem trainFrame_of_handshake (f : Port → Port) : trainFrame p f s = tryReady p (s.modPort p f) := by
  rw [trainFrame, if_neg (by simp [hst]), if_pos hst]

/-- The partner's READY after the port's own brings the port UP. -/
theorem tryReady_of_readySent (hp : p < s.skl.ports.length) (hr : (s.port p).readySent = true) :
    tryReady p (s.modPort p fun x => { x with readyRx := true })
      = enterUp p (s.modPort p fun x => { x with readyRx := true }) := by
  have noted : (s.modPort p fun x => { x with readyRx := true }).port p = { s.port p with readyRx := true } :=
    port_modPort_self _ _ _ hp
  simp [tryReady, noted, hst, hr]

end

theorem exec_helloResend_of_due (hp : p < 2) (hst : (s.port p).st = .handshake)
    (hdue : (s.port p).helloAt + 33 ≤ s.time.elapsed) : exec (.helloResend p) s = .next (sendHello p s) :=
  onUnit_eq_next hp (if_pos ⟨hst, hdue⟩)

theorem exec_trainEchoReq_of_handshake (hp : p < 2) (hst : (s.port p).st = .handshake)
    (sendTime round turnaround : Nat) :
    exec (.trainEchoReq p sendTime round turnaround) s
      = .next (s.emit (.ctl p (.echoRsp sendTime round turnaround))) :=
  onUnit_eq_next hp ((if_neg (by simp [hst])).trans (if_pos hst))

theorem exec_trainEchoRsp_of_handshake (hp : p < 2) (hst : (s.port p).st = .handshake)
    (sendTime round turnaround now : Nat) :
    exec (.trainEchoRsp p sendTime round turnaround now) s = .next (echoRsp p sendTime round turnaround now s) :=
  onUnit_eq_next hp (if_neg (by simp [hst]))

theorem exec_loopbackQuietEnd_of_due {e : Nat} (hp : p < 2) (hq : (s.port p).quiet = some e)
    (hdue : e ≤ s.time.elapsed) (errors : List Nat) :
    exec (.loopbackQuietEnd p errors) s = .next (leaveLoop p errors s) := by
  refine onUnit_eq_next hp ?_
  simp only [hq, if_pos hdue]

end

/-- Settles O30: each frame and event of a training takes the branch that its port's state selects. -/
theorem linkTraining : Obligations.LinkTraining := by
  refine ⟨?signal, ?aligned, ?failed, ?deskew, ?resend, ?hello, ?helloUp, ?echoReq, ?echo, ?lastEcho, ?accepted,
    ?credits, ?ready, ?loopback, ?quiet⟩
  case signal => exact fun port s hp hst hh => onUnit_eq_next hp (signalDetect_of_absent hst hh)
  case aligned => exact fun port res s hp hst hf => onUnit_eq_next hp (alignDone_of_aligned hst hf)
  case failed => exact fun port i res s hp hst hf => onUnit_eq_next hp (alignDone_of_failed hst hf)
  case deskew => exact fun port depths s hp hst hd => onUnit_eq_next hp (deskewDone_of_shallow hst hd)
  case resend => exact fun port s hp hst hdue => exec_helloResend_of_due hp hst hdue
  case hello => exact fun port _ _ s hp hst hrx => onUnit_eq_next hp (trainHello_of_first hst hrx)
  case helloUp => exact fun port version _ _ ready s hp hst => onUnit_eq_next hp (trainHello_of_up hst ready version)
  case echoReq =>
    exact fun port sendTime round turnaround s hp hst =>
      exec_trainEchoReq_of_handshake hp hst sendTime round turnaround
  case echo =>
    exact fun port _ _ _ _ s hp hst hnew hlen =>
      (exec_trainEchoRsp_of_handshake hp hst _ _ _ _).trans
        (congrArg Host.Outcome.next (echoRsp_of_earlier hst hnew hlen))
  case lastEcho =>
    exact fun port _ _ _ _ s hp hlen hst hnew h7 =>
      (exec_trainEchoRsp_of_handshake hp hst _ _ _ _).trans
        (congrArg Host.Outcome.next (echoRsp_of_eighth hst hnew hlen h7))
  case accepted => exact fun port seq valid s hp hst => onUnit_eq_next hp (trainFrame_of_handshake hst _)
  case credits => exact fun port _ _ _ _ s hp hst => onUnit_eq_next hp (trainFrame_of_handshake hst _)
  case ready =>
    exact fun port s hp hlen hst hr => onUnit_eq_next hp
      ((trainFrame_of_handshake hst _).trans (tryReady_of_readySent hst hlen hr))
  case loopback => exact fun port s hp hst => onUnit_eq_next hp (if_pos ⟨rfl, hst⟩)
  case quiet => exact fun port e errors s hp hq hdue => exec_loopbackQuietEnd_of_due hp hq hdue errors

/-! ### Frames of a port that is UP (12 R334-R344) -/

section
variable {p : Nat} {s : State} (hst : (s.port p).st = .up)

section
variable {i : Nat} {f : Frame} (hnext : (s.port p).nextUnsent = some i)
  (hf : ((s.port p).held.getD i { frame := {} }).frame = f)
include hnext hf

/-- A port stops before a frame whose credit is not there. -/
theorem frameSend_of_no_credit (hneed : needsCredit s p f = true) (hav : (s.port p).avail.getD f.vc 0 = 0) :
    frameSend p s = s := by
  unfold frameSend
  dsimp only
  split
  · rfl
  · simp only [hnext, hf, hneed, hav, and_self, or_true, if_true]

/-- The next frame goes out with the port's next SEQ. -/
theorem frameSend_of_sendable (hst : (s.port p).st = .up) (hx : (s.port p).xoffHeld = false)
    (hcredit : needsCredit s p f = true → (s.port p).avail.getD f.vc 0 ≠ 0)
    (hroom : (s.port p).seqs + seqSpan f ≤ 2047) :
    frameSend p s = damageSent 0x08 p (((if i + 1024 < (s.port p).held.length then countDram 1 128 s else s).modPort p
      fun x => { x with
        held := x.held.set i { frame := { f with seq := (s.port p).txNext }, sent := true, credit := needsCredit s p f }
        txNext := (x.txNext + seqSpan f) % 4096
        avail := if needsCredit s p f then x.avail.modify f.vc (· - 1) else x.avail
        timerAt := if (s.port p).outstanding.isEmpty then s.time.elapsed else x.timerAt }).emit
      (.frame p { f with seq := (s.port p).txNext })) := by
  have open_ : ¬ ((s.port p).st ≠ .up ∨ (s.port p).xoffHeld = true) := by simp [hst, hx]
  have allowed : ¬ (2047 < (s.port p).seqs + seqSpan f ∨
      (needsCredit s p f = true ∧ (s.port p).avail.getD f.vc 0 = 0)) := by
    rintro (h | ⟨hn, h⟩)
    exacts [Nat.not_lt.2 hroom h, hcredit hn h]
  simp only [frameSend, if_neg open_, hnext, hf, if_neg allowed]
  rfl

end

/-! What the port does with a frame that arrives (12 R334, R335, R340). -/

section
variable {f : Frame} {crc : FrameCrc}
include hst

theorem frameReceive_of_bad_crc (hcrc : frameCrcOk f crc = false) :
    frameReceive p f crc s = sendNak p (s.modPort p fun x => { x with crcErr := addSat 24 x.crcErr 1 }) :=
  (if_neg (not_not_intro hst)).trans (if_pos hcrc)

variable (hcrc : frameCrcOk f crc = true)
include hcrc

theorem frameReceive_of_good_crc : frameReceive p f crc s
    = if seqDiff f.seq (s.port p).rxExpected = 0 then
        if frameBytes f ≤ (s.port p).free then acceptFrame p f s
        else sendNak p (if (s.port p).overflow then s else
          portEvent p 8 (le 4 (s.port p).free ++ le 1 (s.port p).headroom)
            (s.modPort p fun x => { x with overflow := true }))
      else if seqDiff f.seq (s.port p).rxExpected ≤ 2048 then sendNak p s
      else sendAck p s :=
  (if_neg (not_not_intro hst)).trans (if_neg (by simp [hcrc]))

theorem frameReceive_of_fits (hseq : seqDiff f.seq (s.port p).rxExpected = 0)
    (hfits : frameBytes f ≤ (s.port p).free) : frameReceive p f crc s = acceptFrame p f s :=
  (frameReceive_of_good_crc hst hcrc).trans ((if_pos hseq).trans (if_pos hfits))

theorem frameReceive_of_no_space (hseq : seqDiff f.seq (s.port p).rxExpected = 0)
    (hfull : (s.port p).free < frameBytes f) :
    frameReceive p f crc s = sendNak p (if (s.port p).overflow then s else
      portEvent p 8 (le 4 (s.port p).free ++ le 1 (s.port p).headroom)
        (s.modPort p fun x => { x with overflow := true })) :=
  (frameReceive_of_good_crc hst hcrc).trans ((if_pos hseq).trans (if_neg (Nat.not_le.2 hfull)))

theorem frameReceive_of_ahead (hpos : 0 < seqDiff f.seq (s.port p).rxExpected)
    (hle : seqDiff f.seq (s.port p).rxExpected ≤ 2048) : frameReceive p f crc s = sendNak p s :=
  (frameReceive_of_good_crc hst hcrc).trans ((if_neg (Nat.ne_of_gt hpos)).trans (if_pos hle))

theorem frameReceive_of_duplicate (hgt : 2048 < seqDiff f.seq (s.port p).rxExpected) :
    frameReceive p f crc s = sendAck p s :=
  (frameReceive_of_good_crc hst hcrc).trans ((if_neg (by omega)).trans (if_neg (Nat.not_le.2 hgt)))

end

theorem ackSeq_of_found {seq i : Nat} (hfound : (s.port p).find seq = some i) :
    ackSeq p seq s = ackFrames p
      (if lastSeq (((s.port p).held.getD i { frame := {} }).frame) = seq then i + 1 else i) s := by
  simp only [ackSeq, hfound, beq_iff_eq]

theorem ackSeq_of_none {seq : Nat} (hnone : (s.port p).find seq = none) : ackSeq p seq s = s := by
  simp only [ackSeq, hnone]

theorem exec_linkNak_of_found {seq i : Nat} (hp : p < 2) (hst : (s.port p).st = .up)
    (hfound : (s.port p).find seq = some i) :
    exec (.linkNak p seq) s = .next (replayFrames p (ackFrames p i s)) := by
  refine onUnit_eq_next hp ((if_neg (not_not_intro hst)).trans ?_)
  simp only [hfound]

theorem exec_creditReturnTimer_of_due {e : Nat} (hp : p < 2) (hst : (s.port p).st = .up)
    (hr : (s.port p).returnAt = some e) (hdue : e + 2 ≤ s.time.elapsed) :
    exec (.creditReturnTimer p) s = .next (damageSent 0x09 p (sendCredits p s)) := by
  refine onUnit_eq_next hp ?_
  simp only [hr, if_pos (And.intro hst hdue)]

/-! Control frames that are dropped (12 R344). -/

/-- A dropped control frame in its port's counts. -/
def countDrop (p : Nat) (s : State) : State :=
  s.modPort p fun x => { x with leak := addSat 24 x.leak 1, ctrlDrop := addSat 24 x.ctrlDrop 1 }

theorem exec_controlFrameDrop_of_mismatch {crc : Nat} {bytes : List Byte} (hp : p < 2)
    (hst : (s.port p).st = .up ∨ (s.port p).st = .handshake) (hcrc : crc16 bytes ≠ crc) {t : State}
    (ht : controlDrop p s = t) : exec (.controlFrameDrop ⟨p, bytes, crc⟩) s = .next t := by
  refine onUnit_eq_next hp (Eq.trans ?_ ht)
  obtain hst | hst := hst <;> simp only [hst, if_neg hcrc]

theorem controlDrop_of_below (hbelow : ((countDrop p s).port p).leak ≠ ((countDrop p s).port p).leakLimit) :
    controlDrop p s = countDrop p s :=
  if_neg hbelow

/-- At LEAK_LIMIT the event is raised, and Keeper firmware has the port retrain where LEAK_RETRAIN is set. -/
theorem controlDrop_of_limit (hp : p < s.skl.ports.length) (hr : (s.port p).leakRetrain = true)
    (hlimit : addSat 24 (s.port p).leak 1 = (s.port p).leakLimit) :
    controlDrop p s = startRetrain p 4 (portEvent p 7
      (le 4 (s.port p).leakLimit ++ ((s.port p).avail.map fun n => le 2 n).flatten) (countDrop p s)) := by
  have counted : (countDrop p s).port p = { s.port p with
      leak := addSat 24 (s.port p).leak 1, ctrlDrop := addSat 24 (s.port p).ctrlDrop 1 } :=
    port_modPort_self _ _ _ hp
  unfold controlDrop
  rw [← countDrop]
  simp only [counted, hlimit, hr, if_true]

end

/-- Settles O31: each frame and timer of a port that is UP takes the branch that its premises select. -/
theorem linkFrames : Obligations.LinkFrames := by
  refine ⟨?send, ?noCredit, ?accept, ?badCrc, ?duplicate, ?ahead, ?noSpace, ?ack, ?ackUnknown, ?nak, ?replay, ?xon,
    ?xoff, ?credit, ?ackTimer, ?creditTimer, ?flow, ?drop, ?below, ?limit⟩
  case send =>
    exact fun port i s hp ⟨hst, hx⟩ hnext hcredit hroom =>
      onUnit_eq_next hp (frameSend_of_sendable hnext rfl hst hx hcredit hroom)
  case noCredit =>
    exact fun port i s hp hnext hneed hav => onUnit_eq_next hp (frameSend_of_no_credit hnext rfl hneed hav)
  case accept =>
    exact fun port f crc s hp hst hcrc hseq hfits => onUnit_eq_next hp (frameReceive_of_fits hst hcrc hseq hfits)
  case badCrc => exact fun port f crc s hp hst hcrc => onUnit_eq_next hp (frameReceive_of_bad_crc hst hcrc)
  case duplicate =>
    exact fun port f crc s hp hst hcrc hgt => onUnit_eq_next hp (frameReceive_of_duplicate hst hcrc hgt)
  case ahead =>
    exact fun port f crc s hp hst hcrc ⟨hpos, hle⟩ => onUnit_eq_next hp (frameReceive_of_ahead hst hcrc hpos hle)
  case noSpace =>
    exact fun port f crc s hp hst hcrc hseq hfull =>
      onUnit_eq_next hp (frameReceive_of_no_space hst hcrc hseq hfull)
  case ack => exact fun port seq i s hp hst hfound => onUnit_eq_next hp ((if_pos hst).trans (ackSeq_of_found hfound))
  case ackUnknown => exact fun port seq s hp hst hnone => onUnit_eq_next hp ((if_pos hst).trans (ackSeq_of_none hnone))
  case nak => exact fun port seq i s hp hst hfound => exec_linkNak_of_found hp hst hfound
  case replay => exact fun port s hp hst hout hdue => onUnit_eq_next hp (if_pos ⟨hst, hout, hdue⟩)
  case xon | xoff | flow => exact fun port s hp hst => onUnit_eq_next hp (if_pos hst)
  case credit => exact fun port _ _ _ _ s hp hst => onUnit_eq_next hp (if_pos hst)
  case ackTimer => exact fun port s hp hst hun hdue => onUnit_eq_next hp (if_pos ⟨hst, hun, hdue⟩)
  case creditTimer => exact fun port e s hp hst hr hdue => exec_creditReturnTimer_of_due hp hst hr hdue
  case drop => exact fun port crc bytes s hp hst hcrc => exec_controlFrameDrop_of_mismatch hp hst hcrc rfl
  case below =>
    exact fun port crc bytes s hp hst hcrc hbelow =>
      exec_controlFrameDrop_of_mismatch hp hst hcrc (controlDrop_of_below hbelow)
  case limit =>
    exact fun port crc bytes s hp hlen hst hcrc hr hlimit =>
      exec_controlFrameDrop_of_mismatch hp (.inl hst) hcrc (controlDrop_of_limit hlen hr hlimit)

/-! ### Limits and commands (12 R330, R331, R333, R345) -/

section
variable {p : Nat} {s : State}

theorem exec_laneErrorBurst_of_lane {lane : Nat} (hp : p < 2) (hl : lane < 16) (lost : Bool) :
    exec (.laneErrorBurst p lane lost) s = .next (startRetrain p 2 (s.modPort p fun x => { x with
      lanes := x.lanes.modify lane fun l =>
        if lost then { l with signal := false } else { l with errors := addSat 24 l.errors 33 } })) :=
  onUnit_eq_next hp (if_pos hl)

theorem allLost_of_up (hst : (s.port p).st = .up) : allLost p s = enterDown p 5 (s.modPort p fun x => { x with
    lanes := x.lanes.map fun l => { l with signal := false } }) := by
  simp only [allLost, hst]

end

section
variable {p : List Byte} {s : State}

/-- The action that RETRAIN_LINK asks for is allowed in the port's state: 0 no, 1 busy, 2 yes. -/
theorem retrainLink_of_allowed (h : actionAllowed (s.port (byteAt p 0)).st (byteAt p 1) = 2) :
    retrainLink p s = .ok [] (linkAction (byteAt p 0) (byteAt p 1) (flowState (byteAt p 0)
      (s.modPort (byteAt p 0) fun x => { x with
        headroom := if byteAt p 2 = 0 then x.headroom else byteAt p 2
        leakLimit := if byteAt p 3 = 0 then x.leakLimit else byteAt p 3
        leakRetrain := if bitAt p 4 1 then bitAt p 4 0 else x.leakRetrain }))) := by
  simp only [retrainLink, h, OfNat.ofNat_ne_zero, if_false, OfNat.ofNat_ne_one]

theorem retrainLink_of_busy (h : actionAllowed (s.port (byteAt p 0)).st (byteAt p 1) = 1) :
    retrainLink p s = .fail 0x0502 1 := by
  simp only [retrainLink, h, one_ne_zero, if_false, if_true]

theorem retrainLink_of_not_allowed (h : actionAllowed (s.port (byteAt p 0)).st (byteAt p 1) = 0) :
    retrainLink p s = .fail 0x0501 1 := by
  simp only [retrainLink, h, if_true]

end

/-- Settles O32: the events of a port's limits take the branch that its state selects, and RETRAIN_LINK ends as
the port's state admits its action. -/
theorem linkLimitsAndCommands : Obligations.LinkLimitsAndCommands := by
  refine ⟨?burst, ?misalign, ?timeout, ?loss, ?hold, ?status, ?retrain, ?busy, ?refused⟩
  case burst => exact fun port lane lost s hp hl => exec_laneErrorBurst_of_lane hp hl lost
  case misalign => exact fun port s hp => onUnit_eq_next hp rfl
  case timeout => exact fun port s hp hr hdue => onUnit_eq_next hp (if_pos ⟨hr, hdue⟩)
  case loss => exact fun port s hp hst => onUnit_eq_next hp (allLost_of_up hst)
  case hold => exact fun port s hp hst hd hh hdue => onUnit_eq_next hp (if_pos ⟨hst, hd, hh, hdue⟩)
  case status => exact fun m p s h hf => congrArg Host.Outcome.next (runCrity_read h rfl hf rfl)
  case retrain =>
    exact fun m p s h ha => congrArg Host.Outcome.next
      (runCrity_fin h (retrainLink_of_allowed ha) (outFits_nil s m) rfl)
  case busy => exact fun m p s h ha => congrArg Host.Outcome.next (runCrity_fail h (retrainLink_of_busy ha))
  case refused => exact fun m p s h ha => congrArg Host.Outcome.next (runCrity_fail h (retrainLink_of_not_allowed ha))

end Sys2Proof.Machine
end

section
/-! PROOF. The chain: the hop limit, routes and discovery, windows and tandem settings. -/

namespace Sys2Proof.Machine

/-! ### Maintenance messages -/

section
variable (p o : Nat) (s : State)

theorem consumeOp_chain : (consumeOp p o s).chain = s.chain := by
  obtain ⟨k, x, h⟩ := consumeOp_outside p o s
  rw [h]

theorem consumeOp_dur : (consumeOp p o s).dur = s.dur := by
  obtain ⟨k, x, h⟩ := consumeOp_outside p o s
  rw [h]

theorem consumeOp_crity : (consumeOp p o s).crity = s.crity := by
  obtain ⟨k, x, h⟩ := consumeOp_outside p o s
  rw [h]

theorem consumeOp_boot : (consumeOp p o s).boot = s.boot := by
  obtain ⟨k, x, h⟩ := consumeOp_outside p o s
  rw [h]

theorem consumeOp_range (r : Nat) : (consumeOp p o s).range r = s.range r := by
  obtain ⟨k, x, h⟩ := consumeOp_outside p o s
  rw [h]
  rfl

theorem tandemGib_consumeOp (r : Nat) : tandemGib (consumeOp p o s) r = tandemGib s r := by
  simp only [tandemGib, consumeOp_dur, consumeOp_range]

theorem chainUsed_consumeOp : chainUsed (consumeOp p o s) = chainUsed s := by
  rw [chainUsed, consumeOp_chain, consumeOp_dur]
  rfl

theorem assigned_consumeOp : assigned (consumeOp p o s) = assigned s := by
  rw [assigned, consumeOp_chain]
  rfl

end

/-- A device that is not halted takes a maintenance message. -/
theorem onMaint_of_running {port o : Nat} {own : State → State} {s t : State} (hp : port < 2)
    (hh : s.flt.halted = false) (ht : own (consumeOp port o s) = t) : onMaint port o own s = .next t :=
  onUnit_eq_next hp ((if_neg (ne_true_of_eq_false hh)).trans ht)

/-! ### The hop limit (13 R353) -/

/-- An accepted command has passed every field check. -/
theorem good_of_accepts {spec : CmdSpec} {s : State} {m : Mb} {p : List Byte} (h : accepts spec s m p = true)
    {c : Check} (hc : c ∈ spec.checks p s) : c.good = true := by
  obtain ⟨-, hnone⟩ := (Bool.and_eq_true _ _).mp h
  unfold precheck at hnone
  split at hnone
  · cases hnone
  split at hnone
  · cases hnone
  split at hnone
  · cases hnone
  split at hnone
  · cases hnone
  · simp only [Option.isNone_map, Option.isNone_iff_eq_none, List.find?_eq_none] at hnone
    simpa using hnone c hc

theorem hopLimit_pos_of_accepts {m : Mb} {p : List Byte} {s : State} (h : accepts setHopLimitSpec s m p = true) :
    1 ≤ byteAt p 0 :=
  of_decide_eq_true (good_of_accepts h (List.mem_singleton.2 rfl))

theorem topoBytes_hopLimit (c : ChainState) : byteAt (topoBytes c) 5 = c.hopLimit % 256 := by
  simp [topoBytes, byteAt, le]

/-- A TOPO of the device's own generation with another limit is taken and passed on. -/
theorem topo_of_limit {port : Nat} {msg : TopoMsg} {s : State} (ha : assigned s = true)
    (hg : s.chain.gen = msg.gen) (hl : s.chain.hopLimit ≠ msg.hopLimit) :
    topo port msg s = maintain (1 - port) 0x32 (topoBytes { s.chain with hopLimit := msg.hopLimit })
      (s.modChain fun c => { c with hopLimit := msg.hopLimit }) := by
  have same : (assigned s && s.chain.gen == msg.gen) = true := by simp [ha, hg]
  have other : (s.chain.hopLimit == msg.hopLimit) = false := beq_false_of_ne hl
  simp only [topo, same, other, Bool.and_false, Bool.false_eq_true, if_false, if_true]
  rfl

theorem withinHops_iff {s : State} {x : Nat} :
    withinHops s x = true ↔ ∀ d, d < 2 → routeIn s x d = true → (hopsTo s x d).getD 0 ≤ s.chain.hopLimit := by
  simp only [withinHops, List.all_eq_true, List.mem_range, Bool.or_eq_true, Bool.not_eq_true', decide_eq_true_eq]
  exact forall₂_congr fun d _ => by cases routeIn s x d <;> simp

/-- A peer that a route leads to is refused for the hop limit alone. -/
theorem peerCheck_of_route {s : State} {peer : Nat} (ha : assigned s = true) (hd : (direction s peer).isSome = true) :
    peerCheck s peer = if withinHops s peer then 0 else 0x0509 := by
  have route : (!assigned s || (direction s peer).isNone) = false := by
    rw [ha, ← Option.not_isSome, hd]
    rfl
  rw [peerCheck, if_neg (ne_true_of_eq_false route)]
  cases withinHops s peer <;> rfl

/-! ### SET_REMOTE_WINDOW (13 R354, R355, R358) -/

section
variable {p : List Byte} {s : State}

/-- The window that an import asks for. -/
def importOfBytes (p : List Byte) : Window := ⟨ofLe p 4 4, ofLe p 8 4, ofLe p 12 2, ofLe p 16 4, false, false⟩

/-- An import over a good unused span, in a free place, waits for its check unless its peer is refused. -/
theorem setRemoteWindow_of_import (hon : bitAt p 2 0 = true) (himport : byteAt p 1 = 0)
    (hspan : spanOk s (ofLe p 4 4) (ofLe p 8 4) = true)
    (hused : spanUsed s (ofLe p 4 4 * 2 ^ 18) (ofLe p 8 4 * 2 ^ 18) = false)
    (hfree : aget s.chain.imports (byteAt p 0) = none)
    (hover : ((s.chain.imports ++ s.chain.exports).any fun x => x.2.overlaps (ofLe p 4 4) (ofLe p 8 4)) = false) :
    setRemoteWindow p s = if peerCheck s (ofLe p 12 2) ≠ 0 then .fail (peerCheck s (ofLe p 12 2)) 0xFFFF
      else .wait (sendCheck (.window (byteAt p 0) (importOfBytes p)) (ofLe p 12 2) (ofLe p 16 4) (ofLe p 8 4) s) := by
  have notExport : (byteAt p 1 == 1) = false := by simp [himport]
  simp only [setRemoteWindow, hon, notExport, hspan, hused, hfree, hover, Bool.not_true, Bool.not_false, Bool.and_false,
    Bool.false_and, Bool.or_false, Option.isSome_none, Bool.false_eq_true, if_false]
  rfl

theorem setRemoteWindow_of_export (hon : bitAt p 2 0 = true) (hexport : byteAt p 1 = 1)
    (hspan : spanOk s (ofLe p 4 4) (ofLe p 8 4) = true) (hfree : aget s.chain.exports (byteAt p 0) = none)
    (hover : ((s.chain.exports ++ s.chain.imports).any fun x => x.2.overlaps (ofLe p 4 4) (ofLe p 8 4)) = false)
    (hpeer : ofLe p 12 2 = 0xFFF ∨ peerCheck s (ofLe p 12 2) = 0) :
    setRemoteWindow p s = .ok [] (s.modChain fun c => { c with
      exports := aset c.exports (byteAt p 0) ⟨ofLe p 4 4, ofLe p 8 4, ofLe p 12 2, 0, false, false⟩ }) := by
  have isExport : (byteAt p 1 == 1) = true := by simp [hexport]
  have allowed : (if (ofLe p 12 2 == 0xFFF) = true then 0 else peerCheck s (ofLe p 12 2)) = 0 := by
    obtain h | h := hpeer <;> simp [h]
  simp only [setRemoteWindow, hon, isExport, hspan, hfree, hover, allowed, Bool.not_true, Bool.true_and, Bool.false_and,
    Bool.or_false, Option.isSome_none, Bool.false_eq_true, if_false, if_true, ne_eq, not_true]

theorem setRemoteWindow_of_export_delete {x : Window} (hoff : bitAt p 2 0 = false) (hexport : byteAt p 1 = 1)
    (hx : aget s.chain.exports (byteAt p 0) = some x) :
    setRemoteWindow p s = .ok [] (closeExport x (s.modChain fun c => { c with
      exports := adel c.exports (byteAt p 0) })) := by
  have isExport : (byteAt p 1 == 1) = true := by simp [hexport]
  simp only [setRemoteWindow, hoff, isExport, hx, Bool.not_false, if_true]

/-! ### SET_TANDEM (13 R366) -/

theorem setTandem_of_clear (hoff : bitAt p 1 0 = false) : setTandem p s = .ok [] (clearTandem (byteAt p 0) s) :=
  if_pos (by simp [hoff])

theorem setTandem_of_reachable {b : Nat} (hon : bitAt p 1 0 = true) (hv : (s.range (byteAt p 0)).valid = true)
    (he : eastOf s.chain = some b) (hd : (direction s b).isSome = true) :
    setTandem p s
      = .wait (sendCheck (.tandem (byteAt p 0) (ofLe p 4 4)) b (ofLe p 4 4) (s.range (byteAt p 0)).sizeGib s) := by
  have route : (direction s b).isNone = false := by rw [← Option.not_isSome, hd]; rfl
  simp only [setTandem, hon, hv, he, route, Bool.not_true, Bool.false_eq_true, if_false]

end

/-! ### WINDOW_RSP and its timeout (13 R356, R367) -/

section
variable {v : WindowWait} {m : Mb} {op at_ : Nat} {p : List Byte} {s : State} (hw : s.chain.wait = some v)
  (hc : s.crity.waiting = some (m, op, p, at_))
include hw hc

theorem windowRsp_of_refused {result : Nat} (hr : result ≠ 0) (bootId : Nat) :
    windowRsp result bootId s = finishWaiting m op 0x050A (s.modChain fun c => { c with wait := none }) := by
  simp only [windowRsp, hw, hc, if_pos hr]

theorem windowRsp_of_window {idx : Nat} {x : Window} (hv : v.why = .window idx x) (bootId : Nat) :
    windowRsp 0 bootId s = finishWaiting m op 0 ((s.modChain fun c => { c with wait := none }).modChain fun c =>
      { c with imports := aset c.imports idx x, lost := c.lost.filter (· != idx) }) := by
  simp only [windowRsp, hw, hc, hv, ne_eq, not_true, if_false]

/-- A tandem setting that fits is refused for a buddy beyond the hop limit. -/
theorem windowRsp_of_far_buddy {r base : Nat} (hv : v.why = .tandem r base)
    (hfit : tandemGib s r + (s.range r).sizeGib ≤ 16384)
    (hfar : withinHops (s.modChain fun c => { c with wait := none }) v.peer = false) (bootId : Nat) :
    windowRsp 0 bootId s = finishWaiting m op 0x0509 (s.modChain fun c => { c with wait := none }) := by
  have fits : ¬ 16384 < tandemGib (s.modChain fun c => { c with wait := none }) r
      + ((s.modChain fun c => { c with wait := none }).range r).sizeGib := Nat.not_lt.2 hfit
  simp only [windowRsp, hw, hc, hv, ne_eq, not_true, if_false, if_neg fits, hfar, Bool.not_false, if_true]

theorem exec_windowCheckTimeout_of_late (hdue : v.since + 2 ^ 15 ≤ s.time.elapsed) :
    exec .windowCheckTimeout s
      = .next (finishWaiting m op 0x0508 (s.modChain fun c => { c with wait := none })) := by
  refine congrArg Host.Outcome.next ?_
  simp only [hw, hc, if_pos hdue]

end

/-! ### Routes (13 R351) -/

section
variable {port chainId cutPort : Nat} {s : State} (ha : assigned s = true) (hid : chainId ≠ s.chain.id)
include ha hid

theorem routeCut_of_new (hnew : (s.chain.cuts.any fun c => c.2 == (chainId, cutPort)) = false) :
    routeCut port chainId cutPort s = afterRoutes s (raiseAll 309 0 (le 1 port ++ le 2 chainId)
      (maintain (1 - port) 0x34 (le 2 chainId ++ le 1 cutPort) (s.modChain fun c => { c with
        cuts := (port, chainId, cutPort) :: c.cuts }))) := by
  have unknown : ¬ (chainId = s.chain.id ∨ (s.chain.cuts.any fun c => c.2 == (chainId, cutPort)) = true) := by
    simp [hid, hnew]
  simp only [routeCut, if_neg unknown, ha, if_true]

theorem routeJoin_of_known (hcut : (s.chain.cuts.any fun c => c.2 == (chainId, cutPort)) = true) :
    routeJoin port chainId cutPort s = afterRoutes s (raiseAll 310 0 (le 1 port)
      (maintain (1 - port) 0x35 (le 2 chainId ++ le 1 cutPort) (s.modChain fun c => { c with
        cuts := c.cuts.filter fun x => x.2 != (chainId, cutPort) }))) := by
  have known : ((s.chain.cuts.any fun c => c.2 == (chainId, cutPort)) && chainId != s.chain.id) = true := by
    simp [hid, hcut]
  simp only [routeJoin, if_pos known, ha, if_true]

end

/-! ### NEIGHBOUR (13 R347) -/

/-- The neighbour of a port, as its NEIGHBOUR names it. -/
def knowNeighbour (port chainId gen bootId partner : Nat) (s : State) : State :=
  s.modChain fun c => { c with neighbours := c.neighbours.set port (some ⟨chainId, gen, bootId, partner⟩) }

/-- What a device does, once `s` knows of the neighbour, about the route to it; `old` is the state before. -/
def meetNeighbour (port chainId gen : Nat) (old s : State) : State :=
  if assigned s && chainId != 0xFFF && gen == s.chain.gen && (s.port port).st == .up then
    let t := afterRoutes old (sendJoin port s)
    (t.dur.tandem.filter fun x => x.buddy == chainId).foldl (fun u x => startResync x.range u) t
  else s

theorem buddyBoot_of_known {chainId bootId : Nat} {s : State}
    (hb : (s.dur.tandem.filter fun t => t.buddy == chainId && t.bootId != bootId) = []) :
    buddyBoot chainId bootId s = s := by
  rw [buddyBoot, hb]
  rfl

/-- A BOOT_ID that is no news leaves the tandem ranges alone. -/
theorem neighbour_of_known {port chainId gen bootId partner : Nat} {s : State}
    (hb : (s.dur.tandem.filter fun t => t.buddy == chainId && t.bootId != bootId) = []) :
    neighbour port chainId gen bootId partner s
      = meetNeighbour port chainId gen s (knowNeighbour port chainId gen bootId partner s) :=
  congrArg (meetNeighbour port chainId gen s)
    (buddyBoot_of_known (s := knowNeighbour port chainId gen bootId partner s) hb)

section
variable {port chainId gen bootId : Nat} {s : State}
  (hb : (s.dur.tandem.filter fun t => t.buddy == chainId && t.bootId != bootId) = [])
include hb

theorem neighbour_of_other (hn : assigned s = false ∨ chainId = 0xFFF ∨ gen ≠ s.chain.gen) (partner : Nat) :
    neighbour port chainId gen bootId partner s = knowNeighbour port chainId gen bootId partner s := by
  refine (neighbour_of_known hb).trans (if_neg ?_)
  change ¬ (assigned s && chainId != 0xFFF && gen == s.chain.gen && (s.port port).st == .up) = true
  obtain h | h | h := hn <;> simp [h]

theorem neighbour_of_agreeing (ha : assigned s = true) (hid : chainId ≠ 0xFFF) (hg : gen = s.chain.gen)
    (hup : (s.port port).st = .up) (partner : Nat) :
    neighbour port chainId gen bootId partner s
      = let t := afterRoutes s (sendJoin port (knowNeighbour port chainId gen bootId partner s))
        (t.dur.tandem.filter fun x => x.buddy == chainId).foldl (fun u x => startResync x.range u) t := by
  refine (neighbour_of_known hb).trans (if_pos ?_)
  change (assigned s && chainId != 0xFFF && gen == s.chain.gen && (s.port port).st == .up) = true
  simp [ha, hid, hg, hup]

end

/-! ### Discovery (13 R348, R349) -/

section
variable {port : Nat} {msg : ProbeMsg} {s : State}

theorem probe_of_other {q : Nat × Nat} (hport : port = if msg.west then 0 else 1) (hd : s.chain.discovery = none)
    (hq : s.chain.probed = some q) (ho : q.1 ≠ msg.initiator) :
    probe port msg s = maintain port 0x31 (probeBytes { msg with busy := true }) s := by
  have other : (q.1 != msg.initiator) = true := bne_iff_ne.2 ho
  simp only [probe, ne_eq, hport, not_true, if_false, hd, hq, other, if_true]

/-- A PROBE of mode 0 at an unused device takes NEXT_ID. -/
theorem probe_of_fresh (hport : port = if msg.west then 0 else 1) (hd : s.chain.discovery = none)
    (hq : s.chain.probed = none) (hm : msg.mode = 0) (hu : chainUsed s = false) (hn : msg.nextId ≤ 0xFFE) :
    probe port msg s
      = let t := s.modChain fun c => { c with probed := some (msg.initiator, msg.nextId) }
        if (s.port (1 - port)).st = .up
        then maintain (1 - port) 0x30 (probeBytes { msg with nextId := msg.nextId + 1 }) t
        else maintain port 0x31 (probeBytes { msg with nextId := msg.nextId + 1 }) t := by
  have here : ¬ port ≠ if msg.west then 0 else 1 := fun h => h hport
  have room : ¬ 0xFFE < msg.nextId := Nat.not_lt.2 hn
  simp only [probe, if_neg here, hd, hq, hm, hu, Bool.false_eq_true, and_false, if_false, if_true, if_neg room,
    Nat.zero_ne_one, false_and, port_modChain]

theorem probeEnd_of_passing (hd : s.chain.discovery = none)
    (hok : msg.busy = false ∧ msg.conflict = false ∧ msg.nextId ≤ 0xFFF) :
    probeEnd port msg s = maintain (1 - port) 0x31 (probeBytes msg) s := by
  obtain ⟨hb, hc, hn⟩ := hok
  have passes : (msg.busy || msg.conflict || decide (0xFFF < msg.nextId)) = false := by simp [hb, hc, hn]
  simp only [probeEnd, hd, passes, Bool.false_eq_true, if_false]

theorem probeEnd_of_busy {d : Discovery} (hd : s.chain.discovery = some d) (hb : msg.busy = true) :
    probeEnd port msg s = discoveryResult d 0x0506 [] s := by
  simp only [probeEnd, hd, hb, if_true]

end

section
variable {port : Nat} {msg : TopoMsg} {s : State}

theorem topo_of_known (ha : assigned s = true) (hg : s.chain.gen = msg.gen) (hl : s.chain.hopLimit = msg.hopLimit) :
    topo port msg s = s := if_pos (by simp [ha, hg, hl])

/-- An unassigned device takes the topology under the ID it was probed with. -/
theorem topo_of_unassigned {q : Nat × Nat} (ha : assigned s = false) (hq : s.chain.probed = some q) :
    topo port msg s
      = let t := s.modChain fun c => { c with
          id := q.2, gen := msg.gen, n := msg.n, ring := msg.ring, forwarding := msg.forwarding
          hopLimit := msg.hopLimit, lowest := msg.lowest, highest := msg.highest, eastEnd := msg.eastEnd
          westEnd := msg.westEnd, probed := none, cuts := [] }
        raiseChanged (maintain (1 - port) 0x32 (topoBytes t.chain) t) := by
  have hid : s.chain.id = 0xFFF := by simpa [assigned] using ha
  simp only [topo, ha, Bool.false_and, Bool.false_eq_true, if_false, hq, hid, if_true]

end

/-- CHAIN_DISCOVER with EXTEND starts a discovery where none is known. -/
theorem exec_chainDiscover_of_extend {m : Mb} {p : List Byte} {s : State} (h : accepts chainDiscoverSpec s m p = true)
    (hb : (bgOf s m.src).busy = false) (hd : s.chain.discovery = none) (hq : s.chain.probed = none)
    (hp : byteAt p 0 = 1) (hsrc : m.src = 8 ∨ m.src < s.host.heads.length) :
    exec (.chainDiscover m p) s = .next (startDiscovery (discoveryOf m p s) (started 0xC400 m .discover s)) := by
  have own : chainDiscover p s = .bg .discover s := by simp [chainDiscover, hd, hq, hp]
  have run : runCrity chainDiscoverSpec m p (chainDiscover p) s = started 0xC400 m .discover s := runCrity_bg h own hb
  refine congrArg Host.Outcome.next ?_
  rw [run]
  refine if_pos ?_
  rw [hb, bgOf_started hsrc, started_chain, hd]
  rfl

/-- Settles O55: SET_HOP_LIMIT's check keeps the limit from 0, a peer with a route is refused for the hop limit alone,
and a frame at the limit goes no further. -/
theorem hopLimit : Obligations.HopLimit := by
  refine ⟨rfl, ?set, ?zero, topoBytes_hopLimit, ?topo, ?peer, ?importer, ?tandem, ?forward⟩
  case set =>
    exact fun m p s h => ⟨hopLimit_pos_of_accepts h, Nat.le_of_lt_succ (byteAt_lt p 0),
      congrArg Host.Outcome.next (runCrity_fin h rfl (outFits_nil s m) rfl)⟩
  case zero =>
    intro m p s h0
    cases h : accepts setHopLimitSpec s m p with
    | false => rfl
    | true => exact absurd (hopLimit_pos_of_accepts h) (by omega)
  case topo =>
    intro port msg s hp hh ha hg hl t
    refine onMaint_of_running hp hh (topo_of_limit ?_ ?_ ?_)
    · rw [assigned_consumeOp, ha]
    · rw [consumeOp_chain, hg]
    · rw [consumeOp_chain]
      exact hl
  case peer =>
    intro s peer ha hd
    rw [peerCheck_of_route ha hd, ← withinHops_iff]
    cases withinHops s peer <;> simp
  case importer =>
    intro m p s h hon himport hspan hused hfree hover hpeer
    exact congrArg Host.Outcome.next (runCrity_fail h
      ((setRemoteWindow_of_import hon himport hspan hused hfree hover).trans (if_pos hpeer)))
  case tandem =>
    intro port r base peer since bootId at_ m p s hp hh hw hc hfit t hfar
    refine onMaint_of_running hp hh (windowRsp_of_far_buddy (v := ⟨.tandem r base, peer, since⟩)
      (p := p) (at_ := at_) ?_ ?_ rfl ?_ hfar _)
    · rw [consumeOp_chain, hw]
    · rw [consumeOp_crity, hc]
    · rwa [tandemGib_consumeOp, consumeOp_range]
  case forward => exact fun p f s hf => if_pos hf.ge

/-- Settles O35: each message takes the branch of its handler that the device's chain state selects. -/
theorem chainRoutes : Obligations.ChainRoutes := by
  refine ⟨?cut, ?join, ?neighbour, ?agreeing, ?probe, ?probeBack, ?busy, ?pass, ?ended, ?topo, ?known, ?discover,
    ?limit⟩
  case cut =>
    intro port chainId cutPort s hp ⟨hh, ha⟩ ⟨hid, hnew⟩ t
    refine onMaint_of_running hp hh (routeCut_of_new ?_ ?_ ?_)
    · rwa [assigned_consumeOp]
    · rwa [consumeOp_chain]
    · rwa [consumeOp_chain]
  case join =>
    intro port chainId cutPort s hp ⟨hh, ha⟩ ⟨hid, hcut⟩ t
    refine onMaint_of_running hp hh (routeJoin_of_known ?_ ?_ ?_)
    · rwa [assigned_consumeOp]
    · rwa [consumeOp_chain]
    · rwa [consumeOp_chain]
  case neighbour =>
    intro port chainId gen bootId partner s hp hh hb hn
    refine onMaint_of_running hp hh (neighbour_of_other ?_ ?_ _)
    · rwa [consumeOp_dur]
    · rwa [assigned_consumeOp, consumeOp_chain]
  case agreeing =>
    intro port chainId gen bootId partner s hp ⟨hh, ha⟩ hb ⟨hid, hg⟩ hup t
    refine onMaint_of_running hp hh (neighbour_of_agreeing ?_ ?_ hid ?_ hup _)
    · rwa [consumeOp_dur]
    · rwa [assigned_consumeOp]
    · rwa [consumeOp_chain]
  case probe =>
    intro port msg s hp hh hport ⟨hd, hq⟩ ⟨hm, hu⟩ hn hup
    refine onMaint_of_running hp hh ((probe_of_fresh hport ?_ ?_ hm ?_ hn).trans (if_pos hup))
    · rwa [consumeOp_chain]
    · rwa [consumeOp_chain]
    · rwa [chainUsed_consumeOp]
  case probeBack =>
    intro port msg s hp hh hport ⟨hd, hq⟩ ⟨hm, hu⟩ hn hup
    refine onMaint_of_running hp hh ((probe_of_fresh hport ?_ ?_ hm ?_ hn).trans (if_neg hup))
    · rwa [consumeOp_chain]
    · rwa [consumeOp_chain]
    · rwa [chainUsed_consumeOp]
  case busy =>
    intro port msg q s hp hh hport hd hq ho
    refine onMaint_of_running hp hh (probe_of_other hport ?_ ?_ ho)
    · rwa [consumeOp_chain]
    · rwa [consumeOp_chain]
  case pass =>
    intro port msg s hp hh hd hok
    exact onMaint_of_running hp hh (probeEnd_of_passing (by rwa [consumeOp_chain]) hok)
  case ended =>
    intro port msg d s hp hh hd hb
    exact onMaint_of_running hp hh (probeEnd_of_busy (by rwa [consumeOp_chain]) hb)
  case topo =>
    intro port msg q s hp hh ha hq t
    refine onMaint_of_running hp hh (topo_of_unassigned ?_ ?_)
    · rwa [assigned_consumeOp]
    · rwa [consumeOp_chain]
  case known =>
    intro port msg s hp hh ha ⟨hg, hl⟩
    refine onMaint_of_running hp hh (topo_of_known ?_ ?_ ?_)
    · rwa [assigned_consumeOp]
    · rwa [consumeOp_chain]
    · rwa [consumeOp_chain]
  case discover => exact fun m p s h hb ⟨hd, hq⟩ hp hsrc => exec_chainDiscover_of_extend h hb hd hq hp hsrc
  case limit => exact fun m p s h => congrArg Host.Outcome.next (runCrity_fin h rfl (outFits_nil s m) rfl)

/-- Settles O36: windows are entered, closed or made to wait by their own work, and the answers at the home and at the
asking device follow from the exports and from what waits. -/
theorem chainWindows : Obligations.ChainWindows := by
  refine ⟨?entered, ?importer, ?deleted, ?cleared, ?tandem, ?check, ?window, ?refused, ?late⟩
  case entered =>
    intro m p s h ⟨hon, hexport⟩ hspan hfree hover hpeer
    exact congrArg Host.Outcome.next (runCrity_fin h
      (setRemoteWindow_of_export hon hexport hspan hfree hover hpeer) (outFits_nil s m) rfl)
  case importer =>
    intro m p s h ⟨hon, himport⟩ hspan hused hfree hover hpeer w t
    exact congrArg Host.Outcome.next (runCrity_wait h
      ((setRemoteWindow_of_import hon himport hspan hused hfree hover).trans (if_neg (not_not_intro hpeer))))
  case deleted =>
    intro m p x s h ⟨hoff, hexport⟩ hx
    exact congrArg Host.Outcome.next (runCrity_fin h
      (setRemoteWindow_of_export_delete hoff hexport hx) (outFits_nil s m) rfl)
  case cleared =>
    exact fun m p s h hoff =>
      congrArg Host.Outcome.next (runCrity_fin h (setTandem_of_clear hoff) (outFits_nil s m) rfl)
  case tandem =>
    exact fun m p b s h hon hv he hd =>
      congrArg Host.Outcome.next (runCrity_wait h (setTandem_of_reachable hon hv he hd))
  case check =>
    intro port src line sizeGib s hp ⟨hh, ha⟩
    refine onMaint_of_running hp hh ((if_pos ?_).trans ?_)
    · rwa [assigned_consumeOp]
    · unfold windowCheck
      rw [consumeOp_chain, consumeOp_boot]
  case window =>
    intro port bootId idx since peer at_ x m p s hp hh hw hc t
    refine onMaint_of_running hp hh
      (windowRsp_of_window (v := ⟨.window idx x, peer, since⟩) (p := p) (at_ := at_) ?_ ?_ rfl _)
    · rwa [consumeOp_chain]
    · rwa [consumeOp_crity]
  case refused =>
    intro port result bootId idx since peer at_ x m p s hp hr hh hw hc t
    refine onMaint_of_running hp hh
      (windowRsp_of_refused (v := ⟨.window idx x, peer, since⟩) (p := p) (at_ := at_) ?_ ?_ hr _)
    · rwa [consumeOp_chain]
    · rwa [consumeOp_crity]
  case late => exact fun v m op at_ p s hw hc hdue => exec_windowCheckTimeout_of_late hw hc hdue

end Sys2Proof.Machine
end

section
/-! PROOF. What reset leaves; power domains, votes and modes; supply monitors. -/

namespace Sys2Proof.Machine

/-- Settles O3: the reset state is closed, and its memory holds no entry. -/
theorem resetState : Obligations.ResetState := by
  refine ⟨rfl, rfl, rfl, rfl, rfl, rfl, rfl, rfl, rfl, rfl, rfl, rfl, ?ports, ?heads, fun _ => rfl⟩
  case ports => decide
  case heads => decide

/-! ### Domain transitions (15 R396-R404) -/

section
variable {dom : Nat} {s : State}

theorem handshakeReply_of_accept (hst : (s.dom dom).st = .asking) (hd : (s.dom dom).delayEnd = none)
    (hb : blockRefuses s dom = false) (block : Nat) :
    handshakeReply dom block .accept s
      = s.modDom dom fun x => { x with st := .draining, drainAt := s.time.elapsed } := by
  simp [handshakeReply, hst, hd, hb]

theorem handshakeReply_of_refuse {reply : HsReply} (hst : (s.dom dom).st = .asking) (hd : (s.dom dom).delayEnd = none)
    (hr : reply = .refuse ∨ (reply = .accept ∧ blockRefuses s dom = true)) (block : Nat) :
    handshakeReply dom block reply s = refuseOff dom block s := by
  have refused : (if reply = .accept ∧ blockRefuses s dom = true then HsReply.refuse else reply) = .refuse := by
    obtain rfl | h := hr
    · simp
    · exact if_pos h
  simp [handshakeReply, hst, hd, refused]

/-- One of the delays that R399 bounds. -/
theorem handshakeReply_of_delay {n : Nat} (hst : (s.dom dom).st = .asking) (hd : (s.dom dom).delayEnd = none)
    (hn : 1 ≤ n ∧ n ≤ 2 ^ 16) (block : Nat) :
    handshakeReply dom block (.delay n) s = if 3 ≤ (s.dom dom).delays then refuseOff dom block s
      else s.modDom dom fun x => { x with delays := x.delays + 1, delayEnd := some (s.time.elapsed + n) } := by
  have bounded : ¬ (n = 0 ∨ 2 ^ 16 < n) := by omega
  simp only [handshakeReply, hst, hd, ne_eq, not_true, Option.isSome_none, Bool.false_eq_true, or_false, if_false,
    reduceCtorEq, false_and, if_neg bounded]

theorem exec_handshakeDelayExpire_of_due {e : Nat} (hdom : dom < 44) (hst : (s.dom dom).st = .asking)
    (hd : (s.dom dom).delayEnd = some e) (he : e ≤ s.time.elapsed) (block : Nat) :
    exec (.handshakeDelayExpire dom block) s = .next (s.modDom dom fun x => { x with delayEnd := none }) := by
  refine onUnit_eq_next hdom ?_
  simp only [hd, if_pos (And.intro hst he)]

/-- A failed wake leaves the domain Off with its event. -/
def wakeFailed (dom step : Nat) (s : State) : State :=
  raiseAll 1472 0 (le 1 dom ++ le 1 step)
    (s.modDom dom fun x => { x with st := .off, failed := true, noRetry := true, offAt := s.time.elapsed })

theorem wakeFail_of_other (h : dom < 6 ∨ 38 ≤ dom) (step : Nat) :
    wakeFail dom step s = settleMode (wakeFailed dom step s) := by
  have notChannel : ¬ (6 ≤ dom ∧ dom < 22) := by omega
  have notDrive : ¬ (22 ≤ dom ∧ dom < 38) := by omega
  simp only [wakeFail, if_neg notChannel, if_neg notDrive]
  rfl

theorem wakeFail_of_channel {d : Nat} (hd : d < 16) (step : Nat) :
    wakeFail (6 + d) step s
      = settleMode (fenceUnit (2 * d + 1) 8 (fenceUnit (2 * d) 8 (wakeFailed (6 + d) step s))) := by
  have channel : 6 ≤ 6 + d ∧ 6 + d < 22 := by omega
  simp only [wakeFail, if_pos channel, Nat.add_sub_cancel_left]
  rfl

theorem wakeFail_of_drive {d : Nat} (hd : d < 16) (step : Nat) :
    wakeFail (22 + d) step s = settleMode (fenceUnit (32 + d) 8 (wakeFailed (22 + d) step s)) := by
  have notChannel : ¬ (6 ≤ 22 + d ∧ 22 + d < 22) := by omega
  have drive : 22 ≤ 22 + d ∧ 22 + d < 38 := by omega
  simp only [wakeFail, if_neg notChannel, if_pos drive, Nat.add_sub_cancel_left]
  rfl

end

/-- Settles O39: each event of a domain in the state it needs does what its branch says. -/
theorem domainTransitions : Obligations.DomainTransitions := by
  refine ⟨?drained, ?timeout, ?accept, ?refuse, ?delay, ?fourth, ?expire, ?woken, ?failed, ?channel, ?drive, ?pads⟩
  case drained => exact fun dom s hdom hst hu => onUnit_eq_next hdom (if_pos ⟨hst, hu⟩)
  case timeout => exact fun dom s hdom hst hdue => onUnit_eq_next hdom (if_pos ⟨hst, hdue⟩)
  case accept =>
    exact fun dom block s hdom hst hd hb => onUnit_eq_next hdom (handshakeReply_of_accept hst hd hb block)
  case refuse =>
    exact fun dom block reply s hdom hst hd hr => onUnit_eq_next hdom (handshakeReply_of_refuse hst hd hr block)
  case delay =>
    exact fun dom block n s hdom hst hd h3 hn =>
      onUnit_eq_next hdom ((handshakeReply_of_delay hst hd hn block).trans (if_neg (Nat.not_le.2 h3)))
  case fourth =>
    exact fun dom block n s hdom hst hd h3 hn =>
      onUnit_eq_next hdom ((handshakeReply_of_delay hst hd hn block).trans (if_pos h3))
  case expire => exact fun dom block e s hdom hst hd he => exec_handshakeDelayExpire_of_due hdom hst hd he block
  case woken => exact fun dom s hdom hst => onUnit_eq_next hdom (if_pos hst)
  case failed =>
    exact fun dom step s hdom h hst => onUnit_eq_next hdom ((if_pos hst).trans (wakeFail_of_other h step))
  case channel =>
    exact fun d step s hd hst => onUnit_eq_next (by omega) ((if_pos hst).trans (wakeFail_of_channel hd step))
  case drive =>
    exact fun d step s hd hst => onUnit_eq_next (by omega) ((if_pos hst).trans (wakeFail_of_drive hd step))
  case pads => exact fun dom s hdom hst hp hk => onUnit_eq_next hdom (if_pos ⟨hst, hp, hk⟩)

/-! ### Votes and modes (15 R393-R403) -/

section
variable {p : List Byte} {s : State}

theorem setPowerMode_of_mode (h : byteAt p 0 ≠ 0xFF ∧ byteAt p 1 = 0xFF ∧ byteAt p 2 = 0xFF) :
    setPowerMode p s = settleMode { s with power := { s.power with modeNext := some (byteAt p 0 == 1) } } := by
  obtain ⟨h0, h1, h2⟩ := h
  simp only [setPowerMode, if_neg h0, h1, h2, if_true, true_or]

theorem setPowerMode_of_srIdle (h : byteAt p 0 = 0xFF ∧ byteAt p 1 ≠ 0xFF ∧ byteAt p 2 = 0xFF) :
    setPowerMode p s = { s with power := { s.power with srIdle := byteAt p 1 } } := by
  obtain ⟨h0, h1, h2⟩ := h
  simp only [setPowerMode, h0, if_neg h1, h2, if_true, true_or]

theorem setPowerMode_of_skPower
    (h : byteAt p 0 = 0xFF ∧ byteAt p 1 = 0xFF ∧ byteAt p 2 ≠ 0xFF ∧ bitAt p 2 7 = true) :
    setPowerMode p s = setVote 43 9 (bitAt p 2 1) (setVote 42 9 (bitAt p 2 0)
      { s with power := { s.power with skPower := BitVec.ofNat 2 (byteAt p 2) } }) := by
  obtain ⟨h0, h1, h2, h7⟩ := h
  have given : ¬ (byteAt p 2 = 0xFF ∨ bitAt p 2 7 = false) := by simp [h2, h7]
  simp only [setPowerMode, h0, h1, if_true, if_neg given]
  rfl

end

/-- Settles O40: each command is accepted and its own work is the effect named. -/
theorem votesAndModes : Obligations.VotesAndModes := by
  refine ⟨?cast, ?withdraw, ?mode, ?next, ?srIdle, ?skPower, ?domains, ?record⟩
  case cast => exact fun m p s h => congrArg Host.Outcome.next (runCrity_fin h rfl (outFits_nil s m) rfl)
  case withdraw => exact fun m p s h => congrArg Host.Outcome.next (runCrity_fin h rfl (outFits_nil s m) rfl)
  case mode => exact fun m p s h => congrArg Host.Outcome.next (runCrity_fin h rfl (outFits_nil s m) rfl)
  case next =>
    exact fun m p s h hp => congrArg Host.Outcome.next
      (runCrity_fin h (congrArg (CmdRes.ok []) (setPowerMode_of_mode hp)) (outFits_nil s m) rfl)
  case srIdle =>
    exact fun m p s h hp => congrArg Host.Outcome.next
      (runCrity_fin h (congrArg (CmdRes.ok []) (setPowerMode_of_srIdle hp)) (outFits_nil s m) rfl)
  case skPower =>
    exact fun m p s h hp => congrArg Host.Outcome.next
      (runCrity_fin h (congrArg (CmdRes.ok []) (setPowerMode_of_skPower hp)) (outFits_nil s m) rfl)
  case domains =>
    exact fun m p s h hl => congrArg Host.Outcome.next
      (runCrity_read h rfl (outFits_of_length hl (by simp [length_le, length_zeros])) rfl)
  case record =>
    exact fun m p s h hl => congrArg Host.Outcome.next
      (runCrity_read h rfl (outFits_of_length hl (by simp [wakeRecord, length_le])) rfl)

/-! ### Supply monitors (15 R406-R409) -/

section
variable {r sample : Nat} {s : State}

theorem supplyWarning_of_first (hd : (s.mon r).dipped = false) :
    supplyWarning r sample s
      = let t := s.modMon r fun x => { x with
          now := sample, below := true, dipped := true, min := sample, dipStart := s.time.elapsed }
        raise (srcMonitor r) 0 0xFF .all (le 1 0 ++ le 4 sample)
          (refreshHolds (shedBulk { t with power := { t.power with brace := true } })) := by
  simp only [supplyWarning, hd, Bool.not_false, if_true]

theorem supplyWarning_of_further (hd : (s.mon r).dipped = true) :
    supplyWarning r sample s
      = let t := s.modMon r fun x => { x with
          now := sample, below := true, dipped := true, min := Nat.min x.min sample }
        refreshHolds (shedBulk { t with power := { t.power with brace := true } }) := by
  simp only [supplyWarning, hd, Bool.not_true, Bool.false_eq_true, if_false]

/-- A brownout resets the device as it was, or with its record staged. -/
theorem brownout_eq (r sample : Nat) (s : State) :
    ∃ u, brownout r sample s = brownoutReset r sample u ∧ u.time = s.time ∧ u.free = s.free ∧ u.boot = s.boot := by
  unfold brownout
  cases lmRuns s with
  | true => exact ⟨_, rfl, rfl, rfl, rfl⟩
  | false => exact ⟨_, rfl, rfl, rfl, rfl⟩

/-- Every domain but DOM_AON starts Off. -/
theorem domains_start_off {d : Nat} (h1 : 1 ≤ d) (hd : d < 44) :
    ∃ x, ({} : PowerState).doms[d]? = some x ∧ x.st = .off := by
  obtain ⟨k, rfl⟩ := Nat.exists_eq_add_of_le' h1
  have inside : k < 43 := by omega
  exact ⟨{}, (List.getElem?_cons_succ ..).trans (List.getElem?_replicate_of_lt inside), rfl⟩

theorem brownoutReset_doms (r sample : Nat) (s : State) : (brownoutReset r sample s).power.doms = brownDoms s := by
  simp only [brownoutReset]

theorem brownoutReset_dom_off (r sample : Nat) (s : State) {d : Nat} (h1 : 1 ≤ d) (hd : d < 44) :
    ((brownoutReset r sample s).dom d).st = .off := by
  obtain ⟨x, hx, hoff⟩ := domains_start_off h1 hd
  have fresh : ∃ y, (freshDoms s.host.perst)[d]? = some y ∧ y.st = .off := by
    unfold freshDoms
    rw [List.getElem?_mapIdx, hx]
    refine ⟨_, rfl, ?_⟩
    dsimp only
    split <;> exact hoff
  obtain ⟨y, hy, hyoff⟩ := fresh
  rw [State.dom, brownoutReset_doms, brownDoms, List.getD_eq_getElem?_getD, List.getElem?_mapIdx, hy]
  simpa only [Option.map_some, Option.getD_some] using hyoff

end

/-- Settles O41: each event does what its branch says, and `brownoutReset` writes every field that a brownout clears. -/
theorem supplyMonitors : Obligations.SupplyMonitors := by
  refine ⟨?first, ?further, ?recover, ?settled, ?brownout, ?recovery, ?aux, ?staged⟩
  case first =>
    exact fun r sample s hr hm hlow hd => onUnit_eq_next hr ((if_pos ⟨hlow, hm⟩).trans (supplyWarning_of_first hd))
  case further =>
    exact fun r sample s hr hm hlow hd => onUnit_eq_next hr ((if_pos ⟨hlow, hm⟩).trans (supplyWarning_of_further hd))
  case recover => exact fun r sample s hr hb hhigh => onUnit_eq_next hr (if_pos ⟨hb, hhigh⟩)
  case settled => exact fun s h => congrArg Host.Outcome.next (if_pos h)
  case brownout =>
    intro r sample s hr hm hlow
    obtain ⟨u, hu, ht, hf, hb⟩ := brownout_eq r sample s
    refine ⟨_, onUnit_eq_next hr ((if_pos ⟨hm, hlow⟩).trans hu), rfl, rfl, rfl, rfl, rfl, rfl, rfl, rfl, ?_, ?_, ?_, ?_⟩
    · exact (congrArg TimeState.elapsed ht :)
    · exact (congrArg Config.bootId hf :)
    · exact (congrArg (fun b => some b.mgmtHead) hb :)
    · exact fun d h1 hd => brownoutReset_dom_off r sample u h1 hd
  case recovery => exact fun s hb hg hm => congrArg Host.Outcome.next (if_pos ⟨hb, hg, hm⟩)
  case aux => exact fun sample s hp hlow => congrArg Host.Outcome.next (if_pos ⟨hp, hlow⟩)
  case staged => exact fun sample s hp hlow => ⟨_, congrArg Host.Outcome.next (if_pos ⟨hp, hlow⟩), rfl⟩

end Sys2Proof.Machine
end

section
/-! PROOF. Crity commands of identity, health, the managing head and outings. -/

namespace Sys2Proof.Machine

section
variable {p : List Byte} {o : Outing} {s : State}

theorem onOuting_of_open (ho : findOuting s (ofLe p 0 4) = some o) (hopen : o.open_ = true) (k : Outing → CmdRes) :
    onOuting p k s = k o := by
  simp only [onOuting, ho, hopen, if_true]

theorem setOutingState_of_ne {st : Nat} (h : o.state ≠ st) :
    setOutingState o st s
      = outingVector o (s.modOuting o.id fun x => { x with state := st, last := s.time.chain }) := if_neg h

end

/-- A start phase whose background command is a re-key delivers its result. -/
theorem startPhaseEnd_of_rekey {src : Nat} {rc : Rc} {wsc : Nat} {out : List Byte} {r id : Nat} {s : State}
    (hop : (bgOf s src).op = some (.rekey r id)) (hbusy : (bgOf s src).busy = true)
    (hres : (bgOf s src).result = some (rc, wsc, out)) :
    startPhaseEnd src s = endBackground src rc wsc out (bgOuting (bgOf s src) out) s := by
  have deliver : startPhaseEnd src s = deliverBg src s := by simp only [startPhaseEnd, hop]
  rw [deliver]
  simp only [deliverBg, hbusy, hres, Bool.not_true, Bool.false_eq_true, if_false]

/-- Settles O38: each command is accepted and its own work is the answer or the change named. -/
theorem crityCommands : Obligations.CrityCommands := by
  refine ⟨?identify, ?health, ?managing, ?get, ?list, ?pause, ?resume, ?abort, ?phase⟩
  case identify => exact fun m p s h hf => congrArg Host.Outcome.next (runCrity_read h rfl hf rfl)
  case health => exact fun m p s h hf => congrArg Host.Outcome.next (runCrity_read h rfl hf rfl)
  case managing => exact fun m p s h hpr hup => exec_setManagingHead_of_up h hpr hup
  case get =>
    intro m p o s h hf ho
    refine congrArg Host.Outcome.next (runCrity_read h ?_ hf rfl)
    simp only [ho]
  case list => exact fun m p s h hf => congrArg Host.Outcome.next (runCrity_read h rfl hf rfl)
  case pause =>
    intro m p o s h ho hopen hp h0
    refine congrArg Host.Outcome.next (runCrity_fin h ?_ (outFits_nil s m) rfl)
    rw [onOuting_of_open ho hopen, if_pos hp, setOutingState_of_ne (by omega)]
  case resume =>
    intro m p o s h ho hopen h1
    refine congrArg Host.Outcome.next (runCrity_fin h ?_ (outFits_nil s m) rfl)
    rw [onOuting_of_open ho hopen, setOutingState_of_ne (by omega)]
  case abort =>
    intro m p o s h ho hopen ha
    refine congrArg Host.Outcome.next (runCrity_fin h ?_ (outFits_nil s m) rfl)
    rw [onOuting_of_open ho hopen, if_pos ha]
  case phase =>
    exact fun src rc wsc out r id s hsrc hop hbusy hres => onUnit_eq_next hsrc (startPhaseEnd_of_rekey hop hbusy hres)

end Sys2Proof.Machine
end

section
/-! PROOF. Hot-plug slots. -/

namespace Sys2Proof.Machine

/-! ### A late start (16 R417) -/

theorem startLate_of_ramp {x : Slot} (h : x.st = .ramp) (now : Nat) :
    startLate x now = decide (x.entered + 2 * x.rampTicks + 167772 ≤ now) := by
  have other : (SlotSt.ramp == SlotSt.qualify) = false := rfl
  simp only [startLate, h, other, beq_self_eq_true, Bool.true_and, Bool.false_and, Bool.or_false]
  rfl

theorem startLate_of_qualify {x : Slot} (h : x.st = .qualify) (now : Nat) :
    startLate x now = decide (x.entered + 335544 ≤ now) := by
  have other : (SlotSt.qualify == SlotSt.ramp) = false := rfl
  simp only [startLate, h, other, beq_self_eq_true, Bool.true_and, Bool.false_and, Bool.false_or]
  rfl

theorem startLate_of_other {x : Slot} (hr : x.st ≠ .ramp) (hq : x.st ≠ .qualify) (now : Nat) :
    startLate x now = false := by
  simp [startLate, hr, hq]

section
variable {slot : Nat} {s : State} (hs : slot < 48)
include hs

theorem exec_slotStartFailure_of_late (h : startLate (s.slot slot) s.time.elapsed = true) :
    exec (.slotStartFailure slot) s = .next (trip slot 4 (s.slot slot).sense s) := onUnit_eq_next hs (if_pos h)

theorem exec_slotStartFailure_of_early (h : startLate (s.slot slot) s.time.elapsed = false) :
    exec (.slotStartFailure slot) s = .next s := onUnit_eq_next hs (if_neg (ne_true_of_eq_false h))

end

/-- Settles O57: `startLate` reads the two times in RAMP and QUALIFY and is false in every other state. -/
theorem startFailure : Obligations.StartFailure := by
  intro slot s hs
  refine ⟨fun hst hlate => ?_, fun hst hlate => ?_, fun hst hearly => ?_, fun hst hearly => ?_, fun hr hq => ?_⟩
  · exact exec_slotStartFailure_of_late hs ((startLate_of_ramp hst _).trans (decide_eq_true hlate))
  · exact exec_slotStartFailure_of_late hs ((startLate_of_qualify hst _).trans (decide_eq_true hlate))
  · exact exec_slotStartFailure_of_early hs ((startLate_of_ramp hst _).trans (decide_eq_false (Nat.not_le.2 hearly)))
  · exact exec_slotStartFailure_of_early hs ((startLate_of_qualify hst _).trans (decide_eq_false (Nat.not_le.2 hearly)))
  · exact exec_slotStartFailure_of_early hs (startLate_of_other hr hq _)

/-! ### Power-up and trips (16 R414-R424) -/

section
variable {slot : Nat} {s : State}

theorem slotQualified_eq (slot : Nat) (s : State) :
    slotQualified slot s
      = let t := raiseSlot slot 0 (le 1 (s.slot slot).attempt) (s.modSlot slot fun x => { x with
          st := .on, changeTime := s.time.chain, entered := s.time.elapsed, pgood := true, attempt := 0 })
        replaceWake slot (slotPowered slot (if 32 ≤ slot then setVote (22 + (slot - 32)) 9 true t else t)) := by
  simp only [slotQualified, pgoodVote, isDrive, decide_eq_true_eq]
  rfl

/-- A trip in QUALIFY of the first of more attempts goes to BACKOFF. -/
theorem trip_of_first_qualify (hst : (s.slot slot).st = .qualify) (h0 : (s.slot slot).attempt = 0)
    (hr : (s.slot slot).cfg.retries = 3) (cause sense : Nat) :
    trip slot cause sense s
      = let u := raiseSlot slot 2 (le 1 cause ++ le 1 4 ++ le 1 0 ++ le 4 (max sense (s.slot slot).sense)) s
        u.modSlot slot fun y => { y with
          st := .backoff, changeTime := u.time.chain, entered := u.time.elapsed, limited := false, timer := false
          warn := false, gateDrive := 0, discharging := some u.time.elapsed, cause := cause, sense := sense
          trips := addSat 24 y.trips 1, tripsThisUp := y.tripsThisUp + 1, tripTime := s.time.chain
          attempt := y.attempt + 1 } := by
  have again : ¬ (0 : Nat) = 3 := by decide
  simp only [trip, hst, h0, hr, if_neg again]
  rfl

theorem limitReached_of_starting (hst : (s.slot slot).st = .ramp ∨ (s.slot slot).st = .qualify) (sense : Nat) :
    limitReached slot sense s = s.modSlot slot fun x => { x with
      limited := true, timer := true, sense := sense, timerAt := if x.timer then x.timerAt else s.time.elapsed } := by
  refine if_neg ?_
  obtain h | h := hst <;> simp [h]

theorem limitReached_of_on (hst : (s.slot slot).st = .on) (ht : (s.slot slot).timer = false) (sense : Nat) :
    limitReached slot sense s
      = let t := (s.modSlot slot fun x => { x with
            limited := true, timer := true, sense := sense, timerAt := if x.timer then x.timerAt else s.time.elapsed })
          |>.modSlot slot fun x => { x with warn := true, warned := true, warnings := addSat 24 x.warnings 1 }
        if (s.slot slot).warned then t else raiseSlot slot 4 (le 4 sense) t := if_pos ⟨hst, ht⟩

theorem enterStarting_eq (slot : Nat) (s : State) :
    enterStarting slot s = s.modSlot slot fun x => { x with
      st := .starting, changeTime := s.time.chain, entered := s.time.elapsed, cfg := x.staged
      pwrdis := if 32 ≤ slot then false else x.pwrdis } := by
  simp only [enterStarting, isDrive, decide_eq_true_eq]

theorem slots_length_modSlot (s : State) (i : Nat) (f : Slot → Slot) :
    (s.modSlot i f).slots.slots.length = s.slots.slots.length := List.length_modify ..

/-- The output of a discharging slot is low: the interval ends, and STOPPING is left for OFF. -/
theorem exec_slotDischargeEnd_of_off (hs : slot < 48) (hl : slot < s.slots.slots.length)
    (hd : (s.slot slot).discharges s.time.elapsed = true) (hst : (s.slot slot).st = .off) :
    exec (.slotDischargeEnd slot) s = .next (s.modSlot slot fun x => { x with discharging := none }) := by
  refine onUnit_eq_next hs ((if_pos hd).trans (if_neg ?_))
  rw [slot_modSlot_self _ _ _ hl]
  simp [hst]

theorem exec_slotDischargeEnd_of_stopping (hs : slot < 48) (hl : slot < s.slots.slots.length)
    (hd : (s.slot slot).discharges s.time.elapsed = true) (hst : (s.slot slot).st = .stopping)
    (hc : (s.slot slot).commanded = false) :
    exec (.slotDischargeEnd slot) s
      = .next ((s.modSlot slot fun x => { x with discharging := none }).modSlot slot fun x => { x with
        st := .off, changeTime := s.time.chain, entered := s.time.elapsed }) := by
  refine onUnit_eq_next hs ((if_pos hd).trans ((if_pos ?_).trans (if_neg ?_)))
  · rw [slot_modSlot_self _ _ _ hl]
    exact hst
  · rw [slot_modSlot_self _ _ _ (by rwa [slots_length_modSlot]), slot_modSlot_self _ _ _ hl]
    simp [Slot.enter, hc]

theorem exec_slotFetShort_of_off (hs : slot < 48) (hst : (s.slot slot).st = .off)
    (hd : (s.slot slot).discharging = none) {vout : Nat} (hv : 1000000 < vout) :
    exec (.slotFetShort slot vout) s = .next (fetShort slot vout s) := by
  refine onUnit_eq_next hs (if_pos ⟨?_, ?_, ?_, ?_, hv⟩)
  · rw [hst]
    rfl
  · simp [hst]
  · simp [hst]
  · rw [hd]
    rfl

end

/-- Settles O42: each event of a slot in the state it needs does what its branch says. -/
theorem slotPowerUp : Obligations.SlotPowerUp := by
  refine ⟨?starting, ?ramp, ?qualified, ?late, ?trip, ?limit, ?warned, ?reset, ?timer, ?fast, ?backoff, ?waiting, ?off,
    ?stopping, ?short⟩
  case starting => exact fun slot vout vin s hs hst hdue hv => onUnit_eq_next hs (if_pos ⟨hst, hdue, hv⟩)
  case ramp => exact fun slot s hs hst hdue => onUnit_eq_next hs (if_pos ⟨hst, hdue⟩)
  case qualified =>
    exact fun slot s hs hst ht hdue => onUnit_eq_next hs ((if_pos ⟨hst, ht, hdue⟩).trans (slotQualified_eq slot s))
  case late => exact fun slot s hs h => exec_slotStartFailure_of_late hs h
  case trip =>
    exact fun slot cause sense s hst h0 hr => ⟨_, rfl, _, rfl, trip_of_first_qualify hst h0 hr cause sense⟩
  case limit =>
    intro slot sense s hs hst hv
    refine onUnit_eq_next hs ((if_pos ⟨?_, Or.inl hv⟩).trans (limitReached_of_starting hst _))
    obtain h | h := hst <;> rw [h] <;> rfl
  case warned =>
    intro slot sense s hs hst ht
    refine onUnit_eq_next hs ((if_pos ⟨?_, Or.inr hst⟩).trans (limitReached_of_on hst ht _))
    rw [hst]
    rfl
  case reset => exact fun slot s hs ht hg => onUnit_eq_next hs (if_pos ⟨ht, hg⟩)
  case timer => exact fun slot sense s hs ht hg hdue => onUnit_eq_next hs (if_pos ⟨ht, hg, hdue⟩)
  case fast => exact fun slot sense s hs hg hv => onUnit_eq_next hs (if_pos ⟨hg, hv⟩)
  case backoff =>
    intro slot s hs hst hdue hb
    exact onUnit_eq_next hs
      ((if_pos ⟨hst, hdue⟩).trans ((if_neg (ne_true_of_eq_false hb)).trans (enterStarting_eq slot s)))
  case waiting =>
    exact fun slot s hs hst hdue hb => onUnit_eq_next hs ((if_pos ⟨hst, hdue⟩).trans (if_pos hb))
  case off => exact fun slot s hs hd hst hl => exec_slotDischargeEnd_of_off hs hl hd hst
  case stopping => exact fun slot s hs hl hd hst hc => exec_slotDischargeEnd_of_stopping hs hl hd hst hc
  case short => exact fun slot vout s hs hst hd hv => exec_slotFetShort_of_off hs hst hd hv

/-! ### Slot commands (16 R410-R430) -/

section
variable {p : List Byte} {s : State}

/-- SLOT_POWER on of an OFF slot. -/
theorem slotPower_of_on (hon : byteAt p 1 = 1) (hp : byteAt p 0 < 32 ∨ (s.slot (byteAt p 0)).present = true)
    (hst : (s.slot (byteAt p 0)).st = .off) : slotPower p s = .ok [] (powerUp (byteAt p 0) s) := by
  have here : ¬ (isDrive (byteAt p 0) = true ∧ (s.slot (byteAt p 0)).present = false) := by
    rintro ⟨hd, habs⟩
    obtain h | h := hp
    · have : 32 ≤ byteAt p 0 := of_decide_eq_true hd
      omega
    · simp [habs] at h
  simp [slotPower, hon, if_neg here, hst, SlotSt.powering]

theorem slotPower_of_off (hoff : byteAt p 1 ≠ 1) (hl : losesData s [byteAt p 0] = false) :
    slotPower p s = .ok [] (slotOff (byteAt p 0) 1 3 s) := by
  simp [slotPower, hoff, hl]

theorem configSlot_of_volatile (h : bitAt p 1 1 = false) (i : Nat) :
    configSlot p s i = s.modSlot i fun x => { x with
      staged := slotCfgOf p, cfg := { x.cfg with rsense := (slotCfgOf p).rsense } } := by
  simp only [configSlot, h, Bool.false_eq_true, if_false]

theorem slotStatus_length (s : State) (i : Nat) : (slotStatus s i).length = 64 := by
  unfold slotStatus
  simp only [List.length_append, length_le]

theorem cfgSlots_of_one (h : bitAt p 1 0 = false) : cfgSlots p = [byteAt p 0] := if_neg (ne_true_of_eq_false h)

end

/-- Settles O43: each command is accepted and its own work is the effect named. -/
theorem slotCommands : Obligations.SlotCommands := by
  refine ⟨?on, ?off, ?config, ?one, ?clear, ?status⟩
  case on =>
    exact fun m p s h hon hp hst => congrArg Host.Outcome.next
      (runCrity_fin h (slotPower_of_on hon hp hst) (outFits_nil s m) rfl)
  case off =>
    exact fun m p s h hoff hl => congrArg Host.Outcome.next
      (runCrity_fin h (slotPower_of_off hoff hl) (outFits_nil s m) rfl)
  case config => exact fun m p s h => congrArg Host.Outcome.next (runCrity_fin h rfl (outFits_nil s m) rfl)
  case one =>
    intro m p s h hone hvolatile
    refine congrArg Host.Outcome.next (runCrity_ok h (congrArg (CmdRes.ok []) ?_) (outFits_nil s m) rfl rfl)
    rw [cfgSlots_of_one hone]
    exact configSlot_of_volatile hvolatile _
  case clear =>
    exact fun m p s h hst => congrArg Host.Outcome.next (runCrity_fin h (if_pos hst) (outFits_nil s m) rfl)
  case status =>
    exact fun m p s h hl => congrArg Host.Outcome.next
      (runCrity_read h rfl (outFits_of_length hl (slotStatus_length s (byteAt p 0))) rfl)

end Sys2Proof.Machine
end

section
/-! PROOF. The lengthsman: sensors, the log ring, sideband messages, firmware activation and Keeper cores. -/

namespace Sys2Proof.Machine

/-! ### Sensors and the log ring (17 R434-R442) -/

section
variable {s : State} (hp : s.boot.phase ≠ .auxOff)
include hp

theorem exec_logCommit_of_staged (hst : s.lm.staged ≠ []) (ok : Bool) :
    exec (.logCommit ok) s = .next (if ok then commitLog s
      else raiseAll 1514 0 (le 2 ((s.lm.staged.getLast?.map (·.seq)).getD 0 / 1024 % 768)
        ++ le 2 s.lm.staged.length) s) := by
  refine congrArg Host.Outcome.next (if_neg ?_)
  simp [hp, hst]

theorem exec_mctpControl_of_awake (hr : s.lm.restarting = false) (cmd arg : Nat) :
    exec (.mctpControl cmd arg) s
      = .next (if cmd = 1 then
          ({ s with lm := { s.lm with eid := wrap 8 arg } }.emit (.mctp 0 (le 1 1 ++ le 1 (wrap 8 arg))))
        else s.emit (.mctp 0 (le 1 cmd ++ le 1 s.lm.eid))) := by
  have awake : ¬ (s.boot.phase = .auxOff ∨ s.lm.restarting = true) := by simp [hp, hr]
  refine congrArg Host.Outcome.next ((if_neg awake).trans ?_)
  by_cases hc : cmd = 1 <;> simp [hc]

theorem exec_mctpMessageDiscard_of_unknown {t : Nat} (ht : t ∉ mctpTypes) :
    exec (.mctpMessageDiscard t) s = .next (s.emit (.drop 0x4D t)) := by
  refine congrArg Host.Outcome.next (if_neg ?_)
  simp [hp, ht]

end

section
variable {sensor : Nat} {r : Int} {s : State} (hl : lmRuns s = true) (he : sensorExists sensor = true)
include hl he

theorem lmRuns_and_sensorExists : (lmRuns s && sensorExists sensor) = true := by rw [hl, he]; rfl

theorem exec_sensorThresholdCrossing_of_crossed {t : SensorThr}
    (ht : s.lm.thresholds.find? (·.sensor == sensor) = some t) (hr : thrLevel t r ≠ 0) :
    exec (.sensorThresholdCrossing sensor r) s
      = .next ((noteSample sensor r s).emit (.pldmEvent sensor r (thrLevel t r))) := by
  refine congrArg Host.Outcome.next ((if_pos (lmRuns_and_sensorExists hl he)).trans ?_)
  simp only [ht, if_neg hr]

theorem exec_sensorThresholdCrossing_of_unset (ht : s.lm.thresholds.find? (·.sensor == sensor) = none) :
    exec (.sensorThresholdCrossing sensor r) s = .next (noteSample sensor r s) := by
  refine congrArg Host.Outcome.next ((if_pos (lmRuns_and_sensorExists hl he)).trans ?_)
  simp only [ht]

end

/-- Settles O44: each message or sample takes the branch that the sensor, the ring and the phase select. -/
theorem sensors : Obligations.Sensors := by
  refine ⟨?die, ?commit, ?failed, ?read, ?control, ?discard, ?address, ?thresholds, ?reading, ?crossing, ?fatal, ?unset⟩
  case die =>
    intro point temp frozen s hp hl hf
    refine onUnit_eq_next hp (if_pos ?_)
    obtain h | h := hf <;> simp [hl, h]
  case commit => exact fun s hp hst => exec_logCommit_of_staged hp hst true
  case failed => exact fun s hp hst => exec_logCommit_of_staged hp hst false
  case read => exact fun start n s hl hn => congrArg Host.Outcome.next (if_pos ⟨hl, hn⟩)
  case control => exact fun cmd arg s hp hr => exec_mctpControl_of_awake hp hr cmd arg
  case discard => exact fun t s hp ht => exec_mctpMessageDiscard_of_unknown hp ht
  case address => exact fun addr entdaa s hi hp => congrArg Host.Outcome.next (if_pos ⟨hi, hp⟩)
  case thresholds =>
    exact fun sensor wh ch fh wl cl fl s hl he => congrArg Host.Outcome.next (if_pos (lmRuns_and_sensorExists hl he))
  case reading => exact fun sensor s hl he => congrArg Host.Outcome.next (if_pos (lmRuns_and_sensorExists hl he))
  case crossing => exact fun sensor r t s hl he ht hr => exec_sensorThresholdCrossing_of_crossed hl he ht hr
  case fatal => exact fun t r h => if_pos h
  case unset => exact fun sensor r s hl he ht => exec_sensorThresholdCrossing_of_unset hl he ht

/-! ### Firmware activation (17 R443-R448) -/

section
variable {b : Bool} {s : State} (hl : lmRuns s = true) (hv : (s.lm.image b).valid = true) (ha : s.lm.activation = none)
include hl hv ha

/-- A request to activate a valid image while no activation is under way. -/
theorem exec_pldmActivateFirmware_of_valid (online : Bool) :
    exec (.pldmActivateFirmware online b) s = .next (if online = false then (activateNext b s).emit (.mctp 1 (le 1 0))
      else if onlineOk s b && s.boot.phase.keeper then (startActivation b none s).emit (.mctp 1 (le 1 0))
      else s.emit (.mctp 1 (le 1 0x8C))) := by
  have runs : ¬ lmRuns s = false := by simp [hl]
  have valid : ¬ (s.lm.image b).valid = false := by simp [hv]
  have free : ¬ s.lm.activation.isSome = true := by simp [ha]
  exact congrArg Host.Outcome.next ((if_neg runs).trans ((if_neg valid).trans (if_neg free)))

theorem exec_pldmActivateFirmware_of_online (hrom : (s.lm.image b).romDigest = s.lm.romDigest)
    (hh : s.flt.halted = false) (hk : s.boot.phase.keeper = true) :
    exec (.pldmActivateFirmware true b) s = .next (if Config.handoverOk s.lm.handover (s.lm.image b).handover
      then (startActivation b none s).emit (.mctp 1 (le 1 0)) else s.emit (.mctp 1 (le 1 0x8C))) := by
  rw [exec_pldmActivateFirmware_of_valid hl hv ha]
  simp [onlineOk, hv, hrom, hh, hk]

end

section
variable {a : Activation} {s : State} (ha : s.lm.activation = some a)
include ha

theorem exec_lengthsmanRestartDone_of_step (hst : a.step = .lengthsman) :
    exec .lengthsmanRestartDone s = .next (measure 3 (s.lm.image a.slotB).keeperVer { s with lm := { s.lm with
      restarting := false, lmVer := (s.lm.image a.slotB).lmVer
      activation := some { a with step := .keeper, pauseAt := s.time.elapsed } } }) := by
  refine congrArg Host.Outcome.next ?_
  simp only [ha, if_pos hst]

/-- The image that took over runs; a reload ends there. -/
theorem takeoverDone_of_keeper (hst : a.step = .keeper) :
    takeoverDone s
      = let t : State := { s with lm := { s.lm with
          cores := ~~~ s.lm.coresOut, keeperVer := (s.lm.image a.slotB).keeperVer
          handover := (s.lm.image a.slotB).handover } }
        if a.reload then { t with lm := { t.lm with activation := none } } else rollFrom a 0 t := by
  simp only [takeoverDone, ha, hst]

theorem takeoverDone_of_restoring (hst : a.step = .restoring) (hr : a.reload = false) :
    takeoverDone s = endActivation a 2 (raiseAll 1507 0 (le 4 (s.time.elapsed - a.pauseAt))
      { s with lm := { s.lm with cores := ~~~ s.lm.coresOut } }) := by
  simp only [takeoverDone, ha, hst, hr, Bool.false_eq_true, if_false]

theorem exec_keeperTakeoverTimeout_of_late (hst : a.step = .keeper) (hdue : a.pauseAt + 20132659 ≤ s.time.elapsed) :
    exec .keeperTakeoverTimeout s = .next (measure 3 (s.lm.image s.lm.activeB).keeperVer
      { s with lm := { s.lm with activation := some { a with step := .restoring } } }) := by
  refine congrArg Host.Outcome.next ?_
  simp only [ha, if_pos (And.intro hst hdue)]

theorem exec_clusterRollDone_of_rolling {c : Nat} (hc : c < 4) (hst : a.step = .rolling c) (pass : BitVec 8) :
    exec (.clusterRollDone c pass) s = .next (rollFrom a (c + 1) (rollDone c pass
      { s with lm := { s.lm with clusterVer := s.lm.clusterVer.set c (s.lm.image a.slotB).codecVer } })) := by
  refine onUnit_eq_next hc ?_
  simp only [ha, if_pos hst]

end

/-- Settles O45: each event of an activation takes the branch of the step it is in. -/
theorem firmwareActivation : Obligations.FirmwareActivation := by
  refine ⟨?coldReset, ?online, ?restarted, ?reloaded, ?taken, ?late, ?restored, ?rolled, ?core⟩
  case coldReset => exact fun b s hl hv ha => exec_pldmActivateFirmware_of_valid hl hv ha false
  case online => exact fun b s hl hv ha hrom hh hk => exec_pldmActivateFirmware_of_online hl hv ha hrom hh hk
  case restarted => exact fun a s ha hst => exec_lengthsmanRestartDone_of_step ha hst
  case reloaded =>
    exact fun a s ha hst hr => congrArg Host.Outcome.next ((takeoverDone_of_keeper ha hst).trans (if_pos hr))
  case taken =>
    exact fun a s ha hst hr =>
      congrArg Host.Outcome.next ((takeoverDone_of_keeper ha hst).trans (if_neg (ne_true_of_eq_false hr)))
  case late => exact fun a s ha hst hdue => exec_keeperTakeoverTimeout_of_late ha hst hdue
  case restored =>
    exact fun a s ha hst hr => congrArg Host.Outcome.next (takeoverDone_of_restoring ha hst hr)
  case rolled => exact fun c pass a s hc ha hst => exec_clusterRollDone_of_rolling ha hc hst pass
  case core => exact fun core last s hc hrun => onUnit_eq_next hc (if_pos hrun)

end Sys2Proof.Machine
end

section
/-! PROOF. Fault collectors, performance counters, test unlock, perturbation and injection. -/

namespace Sys2Proof.Machine

/-! ### Collectors (18 R456-R461) -/

theorem modify_eq_set_getD {α : Type} {l : List α} {i : Nat} (h : i < l.length) (f : α → α) (d : α) :
    l.modify i f = l.set i (f (l.getD i d)) := by
  rw [List.modify_eq_set_getElem?, List.getElem?_eq_getElem h, List.getD_eq_getElem l d h]
  rfl

theorem exec_quietTimerExpire_of_due {coll : Nat} {s : State} (hc : coll < 48) (hh : s.flt.halted = false)
    (hdue : quietDue s.time.elapsed (s.flt.colls.getD coll {}) = true) (hl : coll < s.flt.colls.length) :
    exec (.quietTimerExpire coll) s = .next { s with flt := { s.flt with
      colls := s.flt.colls.set coll (collNormal true (s.flt.colls.getD coll {})) } } := by
  refine onUnit_eq_next hc ((if_neg (ne_true_of_eq_false hh)).trans ?_)
  rw [modify_eq_set_getD hl _ {}]
  simp only [hdue, if_true]

/-- Settles O46: each command is accepted and its own work is the answer or the change named. -/
theorem faultCollectors : Obligations.FaultCollectors := by
  refine ⟨?quiet, ?state, ?clear, ?history, ?reaction⟩
  case quiet => exact fun coll s hc hh hdue hl => exec_quietTimerExpire_of_due hc hh hdue hl
  case state => exact fun m p s h hf => congrArg Host.Outcome.next (runCrity_read h rfl hf rfl)
  case clear => exact fun m p s h => congrArg Host.Outcome.next (runCrity_ok h rfl (outFits_nil s m) rfl rfl)
  case history => exact fun m p s h hf => congrArg Host.Outcome.next (runCrity_read h rfl hf rfl)
  case reaction => exact fun m p s h => congrArg Host.Outcome.next (runCrity_ok h rfl (outFits_nil s m) rfl rfl)

/-! ### Counter registers (19 R471-R474) -/

section
variable {n : Nat} {s : State} (ev : PmcEvent) (fuel inc : Nat)

theorem addCount_of_room (h : s.pmc.cnt.getD n 0 + inc < 2 ^ 24) :
    addCount ev (fuel + 1) n inc s
      = { s with pmc := { s.pmc with cnt := s.pmc.cnt.set n (s.pmc.cnt.getD n 0 + inc) } } := if_pos h

/-- A counter that neither carries nor samples reloads and sets its overflow bit. -/
theorem addCount_of_overflow (h : 2 ^ 24 ≤ s.pmc.cnt.getD n 0 + inc) (hc : selChain (s.pmc.sel.getD n 0) = false)
    (hs : selSample (s.pmc.sel.getD n 0) = false) :
    addCount ev (fuel + 1) n inc s = { s with pmc := { s.pmc with
      cnt := s.pmc.cnt.set n ((s.pmc.rld.getD n 0 + (s.pmc.cnt.getD n 0 + inc - 2 ^ 24)) % 2 ^ 24)
      ovf := s.pmc.ovf.modify (n / 16) fun o => o ||| BitVec.ofNat 16 (2 ^ (n % 16)) } } := by
  have full : ¬ s.pmc.cnt.getD n 0 + inc < 2 ^ 24 := Nat.not_lt.2 h
  simp only [addCount, if_neg full, hc, hs, Bool.false_eq_true, if_false]
  rfl

end

section
variable {h : Nat} {s : State} (hup : headUp s h = true) (ha : (s.head h).d3 = false ∧ (s.head h).resetting = false)
include hup ha

/-- A write of a head that can reach the registers. -/
theorem bar2Write_of_reachable (addr : Nat) (own : State → State) :
    bar2Write h addr own s = if isManaging s h then own s else raiseHead h 6 (le 4 addr) s := by
  obtain ⟨hd, hr⟩ := ha
  exact if_neg (by simp [hup, hd, hr])

theorem bar2Write_of_managing (hm : isManaging s h = true) (addr : Nat) (own : State → State) :
    bar2Write h addr own s = own s := (bar2Write_of_reachable hup ha addr own).trans (if_pos hm)

theorem bar2Write_of_other (hm : isManaging s h = false) (addr : Nat) (own : State → State) :
    bar2Write h addr own s = raiseHead h 6 (le 4 addr) s :=
  (bar2Write_of_reachable hup ha addr own).trans (if_neg (ne_true_of_eq_false hm))

end

/-- The state with a counter written. -/
def withCount (n v : Nat) (s : State) : State := { s with pmc := { s.pmc with cnt := s.pmc.cnt.set n v } }

theorem count_withCount {n : Nat} {s : State} (h : n < s.pmc.cnt.length) (v : Nat) :
    (withCount n v s).pmc.cnt.getD n 0 = v := by
  simp [withCount, h]

section
variable {head n k : Nat} {value : BitVec 32} {s : State} (hh : head < 8) (hn : n < 192) (hup : headUp s head = true)
  (ha : (s.head head).d3 = false ∧ (s.head head).resetting = false) (hm : isManaging s head = true)
  (hl : n < s.pmc.cnt.length)
include hh hn hup ha hm

/-- The managing head's write of a counter, and the increments of its cycle. -/
theorem exec_pmcCntWrite_of_managing :
    exec (.pmcCntWrite head n value k) s = .next (addCount (evOf (selEvent (s.pmc.sel.getD n 0)) 0 0) 16 n k
      (withCount n (value.toNat % 2 ^ 24) s)) :=
  onUnit_eq_next hh ((if_pos hn).trans (bar2Write_of_managing hup ha hm _ _))

include hl

theorem exec_pmcCntWrite_of_room (hroom : value.toNat % 2 ^ 24 + k < 2 ^ 24) :
    exec (.pmcCntWrite head n value k) s = .next { s with pmc := { s.pmc with
      cnt := s.pmc.cnt.set n (value.toNat % 2 ^ 24 + k) } } := by
  have written := count_withCount hl (value.toNat % 2 ^ 24)
  rw [exec_pmcCntWrite_of_managing hh hn hup ha hm, addCount_of_room _ _ _ (by rwa [written]), written]
  simp only [withCount, List.set_set]

theorem exec_pmcCntWrite_of_overflow (hfull : 2 ^ 24 ≤ value.toNat % 2 ^ 24 + k)
    (hc : selChain (s.pmc.sel.getD n 0) = false) (hs : selSample (s.pmc.sel.getD n 0) = false) :
    exec (.pmcCntWrite head n value k) s = .next { s with pmc := { s.pmc with
      cnt := s.pmc.cnt.set n ((s.pmc.rld.getD n 0 + (value.toNat % 2 ^ 24 + k - 2 ^ 24)) % 2 ^ 24)
      ovf := s.pmc.ovf.modify (n / 16) fun o => o ||| BitVec.ofNat 16 (2 ^ (n % 16)) } } := by
  have written := count_withCount hl (value.toNat % 2 ^ 24)
  rw [exec_pmcCntWrite_of_managing hh hn hup ha hm,
    addCount_of_overflow (s := withCount n (value.toNat % 2 ^ 24) s) _ _ _ (by rwa [written]) hc hs, written]
  simp only [withCount, List.set_set]

end

theorem exec_counterOverflow_of_counting {n inc : Nat} {ev : PmcEvent} {s : State} (hn : n < 192)
    (hself : countsSelf s.pmc n = true) (hev : selMatches (s.pmc.sel.getD n 0) ev = true)
    (hfull : 2 ^ 24 ≤ s.pmc.cnt.getD n 0 + inc) :
    exec (.counterOverflow n inc ev) s = .next (addCount ev 16 n inc s) :=
  onUnit_eq_next hn (if_pos (by rw [hself, hev, decide_eq_true hfull]; rfl))

/-- The sample that an event captures. -/
def sampleFor (n : Nat) (ev : PmcEvent) (s : State) : Option PendSample :=
  s.pmc.pend.find? fun y => y.top == n && y.master == ev.master && samePoint y.event ev.event
    && (sampleKind ev.event != 3 || y.unit == ev.unit) && decide (y.skid ≤ 63)

theorem exec_sampleCapture_of_pending {n : Nat} {ev : PmcEvent} {x : PendSample} {s : State} (hn : n < 192)
    (hx : sampleFor n ev s = some x) :
    exec (.sampleCapture n ev) s
      = .next (capture n x.skid x.event ev { s with pmc := { s.pmc with pend := s.pmc.pend.erase x } }) := by
  unfold sampleFor at hx
  refine onUnit_eq_next hn ?_
  rw [hx]

theorem exec_sampleCapture_of_none {n : Nat} {ev : PmcEvent} {s : State} (hn : n < 192)
    (hx : sampleFor n ev s = none) : exec (.sampleCapture n ev) s = .next s := by
  unfold sampleFor at hx
  refine onUnit_eq_next hn ?_
  rw [hx]

/-- Settles O47: a write reaches the registers from the managing head alone, and what a counter then does is
`addCount`. -/
theorem counterRegisters : Obligations.CounterRegisters := by
  refine ⟨?write, ?full, ?denied, ?ovf, ?freeze, ?clear, ?overflow, ?capture, ?nothing, ?abandon⟩
  case write =>
    exact fun head n value k s hh hn hup ha hm hl hroom => exec_pmcCntWrite_of_room hh hn hup ha hm hl hroom
  case full =>
    exact fun head n value k s hh hn hup ha hm hl hfull hc hs =>
      exec_pmcCntWrite_of_overflow hh hn hup ha hm hl hfull hc hs
  case denied =>
    exact fun head n value k s hh hn hup ha hm =>
      onUnit_eq_next hh ((if_pos hn).trans (bar2Write_of_other hup ha hm _ _))
  case ovf =>
    exact fun head bank value k s hh hb hup ha hm =>
      onUnit_eq_next hh ((if_pos hb).trans (bar2Write_of_managing hup ha hm _ _))
  case freeze =>
    exact fun head freeze s hh hup ha hm => onUnit_eq_next hh (bar2Write_of_managing hup ha hm _ _)
  case clear => exact fun head s hh hup ha hm => onUnit_eq_next hh (bar2Write_of_managing hup ha hm _ _)
  case overflow =>
    exact fun n inc ev s hn hself hev hfull hc hs =>
      (exec_counterOverflow_of_counting hn hself hev hfull).trans
        (congrArg Host.Outcome.next (addCount_of_overflow ev 15 inc hfull hc hs))
  case capture => exact fun n ev x s hn hx => exec_sampleCapture_of_pending hn hx
  case nothing => exact fun n ev s hn hx => exec_sampleCapture_of_none hn hx
  case abandon => exact fun n s hn => onUnit_eq_next hn rfl

/-! ### Test unlock (19 R476, R477) -/

/-- A command whose own work ends it with a return code and a change. -/
theorem runCrity_done {spec : CmdSpec} {s t : State} {m : Mb} {p : List Byte} {own : State → CmdRes} {rc : Rc}
    {w : Nat} {out : List Byte} (h : accepts spec s m p = true) (ho : own s = .done rc w out t)
    (hr : spec.read = false) :
    runCrity spec m p own s = logCommand spec.opcode m.src rc w 0xFFFFFFFF (reply m spec.opcode rc w out t) := by
  rw [runCrity_of_accepts h, ho]
  exact if_neg (ne_true_of_eq_false hr)

section
variable {p : List Byte} {n : BitVec 256} {t : Nat} {s : State} (hn : s.pmc.nonce = some (n, t))
include hn

/-- A reply to the standing nonce, in range, fails for its signature alone. -/
theorem replyBad_of_fresh
    (hfresh : n.toNat = ofLe p 0 32 ∧ s.time.elapsed < t + 60 * Config.second ∧ ofLe p 32 8 = s.boot.serial)
    (hrange : 1 ≤ ofLe p 40 4 ∧ ofLe p 40 4 ≤ 3 ∧ 1 ≤ ofLe p 44 4 ∧ ofLe p 44 4 ≤ 86400) :
    replyBad p s = if Config.verifyUnlock (p.take 64) (p.drop 64) then none else some (0x0A02, 64) := by
  obtain ⟨hnonce, htime, hserial⟩ := hfresh
  have inScope : ¬ (replyScope p = 0 ∨ 4 ≤ replyScope p) := by unfold replyScope; omega
  have timed : ¬ (replySeconds p = 0 ∨ 86400 < replySeconds p) := by unfold replySeconds; omega
  have fresh : (n.toNat == ofLe p 0 32 && decide (s.time.elapsed < t + 60 * Config.second)) = true := by
    rw [Bool.and_eq_true, beq_iff_eq, decide_eq_true_eq]
    exact ⟨hnonce, htime⟩
  have mine : ¬ ofLe p 32 8 ≠ s.boot.serial := not_not_intro hserial
  simp only [replyBad, hn, if_neg inScope, if_neg timed, fresh, if_neg mine, Bool.not_true, Bool.false_eq_true,
    if_false]
  cases Config.verifyUnlock (p.take 64) (p.drop 64) <;> rfl

theorem exec_nonceExpire_of_due (hdue : t + 60 * 2 ^ 24 ≤ s.time.elapsed) :
    exec .nonceExpire s = .next { s with pmc := { s.pmc with nonce := none } } := by
  refine congrArg Host.Outcome.next ?_
  rw [hn]
  exact if_pos hdue

end

/-! ### Perturbation and injection (19 R478, R482) -/

theorem exec_perturbExpire_of_due {entry t : Nat} {s : State} (he : entry < 16)
    (ht : (s.pmc.ptb.getD entry {}).ends = some t) (hdue : t ≤ s.time.elapsed) :
    exec (.perturbExpire entry) s = .next { s with pmc := { s.pmc with ptb := s.pmc.ptb.set entry {} } } := by
  refine onUnit_eq_next he ?_
  rw [ht]
  exact if_pos hdue

section
variable {p : List Byte} {s : State} (hs : s.pmc.scope.getLsbD 1 = true)
include hs

theorem inject_of_event (h0 : byteAt p 0 = 0) :
    inject p s = .ok [] (raiseI true (ofLe p 4 2) (byteAt p 2) (byteAt p 3)
      (imitationScope (ofLe p 4 2) ((p.drop 8).take 8 ++ zeros 8)) ((p.drop 8).take 8) s) := by
  simp only [inject, hs, Bool.true_eq_false, if_false, if_pos h0]

theorem inject_of_arm (h1 : byteAt p 0 = 1) : inject p s = .ok [] { s with pmc := arm (armOf p) s.pmc } := by
  simp only [inject, hs, h1, Bool.true_eq_false, if_false, if_true, one_ne_zero]

theorem inject_of_disarm (h2 : byteAt p 0 = 2) :
    inject p s = .ok [] { s with pmc := { s.pmc with armed := [] } } := by
  simp [inject, hs, h2]

end

/-- Settles O48: each command is accepted and its own work takes the branch that the scope and the nonce select. -/
theorem testUnlocks : Obligations.TestUnlocks := by
  refine ⟨?challenge, ?reply, ?nonce, ?unlock, ?write, ?clear, ?relock, ?locked, ?expire, ?arm, ?event, ?disarm,
    ?closed⟩
  case challenge =>
    intro m s h hl
    have len : outFits s m (le 32 (Config.nonce s.free).toNat ++ le 8 s.boot.serial ++ le 4 s.boot.bootId.toNat
        ++ zeros 20) = true := outFits_of_length hl (by simp only [List.length_append, length_le, length_zeros])
    exact congrArg Host.Outcome.next (runCrity_ok h rfl len rfl rfl)
  case reply =>
    intro m p n t s h hp hn hfresh hrange
    have own : (if p.isEmpty then challenge s else unlockReply p s) = unlockOutcome p (replyBad p s) s :=
      if_neg (by simpa using hp)
    refine congrArg Host.Outcome.next ?_
    rw [replyBad_of_fresh hn hfresh hrange] at own
    cases hv : Config.verifyUnlock (p.take 64) (p.drop 64) with
    | true =>
      rw [hv, if_pos rfl] at own
      exact runCrity_ok h own (outFits_nil s m) rfl rfl
    | false =>
      rw [hv, if_neg Bool.false_ne_true] at own
      exact runCrity_done h own rfl
  case nonce => exact fun n t s hn hdue => exec_nonceExpire_of_due hn hdue
  case unlock => exact fun s hs hdue => congrArg Host.Outcome.next (if_pos ⟨hs, hdue⟩)
  case write =>
    intro m p s h hr hs hk
    refine congrArg Host.Outcome.next (runCrity_ok h ?_ (outFits_nil s m) rfl rfl)
    simp only [hr, hs, Bool.false_eq_true, Bool.true_eq_false, if_false, if_neg hk]
    rfl
  case clear =>
    intro m p s h hr hs hk
    refine congrArg Host.Outcome.next (runCrity_ok h ?_ (outFits_nil s m) rfl rfl)
    simp only [hr, hs, Bool.false_eq_true, Bool.true_eq_false, if_false, if_pos hk]
  case relock =>
    exact fun m p s h hr => congrArg Host.Outcome.next (runCrity_ok h (if_pos hr) (outFits_nil s m) rfl rfl)
  case locked =>
    exact fun m p s h hr hs => congrArg Host.Outcome.next
      (runCrity_fail h ((if_neg (ne_true_of_eq_false hr)).trans (if_pos hs)))
  case expire => exact fun entry t s he ht hdue => exec_perturbExpire_of_due he ht hdue
  case arm =>
    exact fun m p s h hs h1 => congrArg Host.Outcome.next
      (runCrity_ok h (inject_of_arm hs h1) (outFits_nil s m) rfl rfl)
  case event =>
    exact fun m p s h hs h0 => congrArg Host.Outcome.next (runCrity_fin h (inject_of_event hs h0) (outFits_nil s m) rfl)
  case disarm =>
    exact fun m p s h hs h2 => congrArg Host.Outcome.next
      (runCrity_ok h (inject_of_disarm hs h2) (outFits_nil s m) rfl rfl)
  case closed => exact fun m p s h hs => congrArg Host.Outcome.next (runCrity_fail h (if_pos hs))

end Sys2Proof.Machine
end

section
/-! PROOF. Power-up, bring-up, references and the device reset. -/

namespace Sys2Proof.Machine

/-! ### Cold reset (20 R483-R487) -/

theorem bootSlot_of_active {f : FlashImage} (h : imageIntact (if f.activeB then f.slotB else f.slotA) = true) :
    bootSlot f = some f.activeB := if_pos h

theorem bootSlot_of_none {f : FlashImage} (ha : imageIntact f.slotA = false) (hb : imageIntact f.slotB = false) :
    bootSlot f = none := by
  unfold bootSlot
  cases f.activeB <;> simp [ha, hb]

theorem exec_auxPowerOn_of_off {s : State} (hp : s.boot.phase = .auxOff) (st : Straps) (f : FlashImage) :
    exec (.auxPowerOn st f) s = .next (coldReset st f s) := congrArg Host.Outcome.next (if_pos hp)

theorem exec_sequenceBackoffEnd_of_due {e : Nat} {s : State} (he : s.boot.backoff = some e)
    (hm : maySequence s = true) (hdue : e ≤ s.time.elapsed) :
    exec .sequenceBackoffEnd s = .next (startSequence s) := by
  refine congrArg Host.Outcome.next ?_
  rw [he]
  exact if_pos ⟨hm, hdue⟩

/-- A rail of a step under way is good. -/
theorem exec_railGood_of_step {step : Nat} {s : State} (hp : s.boot.phase = .sequence step) :
    exec (.railGood step) s = .next (if step < 6 then
      { s with boot := { s.boot with
        phase := .sequence (step + 1), supEn := s.boot.supEn ||| BitVec.ofNat 6 (2 ^ step) } } else railsGood s) :=
  congrArg Host.Outcome.next (if_neg (not_not_intro hp))

/-- Settles O49: each event of the power sequence takes the branch of its phase, and `coldReset` writes
every field named. -/
theorem mainSequence : Obligations.MainSequence := by
  refine ⟨?on, ?recovery, ?loss, ?start, ?rail, ?last, ?timeout, ?backoff⟩
  case on =>
    intro st f s hp hi
    refine ⟨_, exec_auxPowerOn_of_off hp st f, ?_⟩
    unfold coldReset
    rw [bootSlot_of_active hi]
    exact ⟨rfl, rfl, rfl, rfl, rfl, rfl, rfl, rfl, rfl, rfl, rfl, rfl, rfl, rfl⟩
  case recovery =>
    intro st f s hp ⟨ha, hb⟩
    refine ⟨_, exec_auxPowerOn_of_off hp st f, ?_⟩
    unfold coldReset
    rw [bootSlot_of_none ha hb]
    exact ⟨rfl, rfl⟩
  case loss =>
    exact fun s hp =>
      ⟨_, congrArg Host.Outcome.next (if_neg hp), rfl, rfl, rfl, rfl, rfl, rfl, rfl, rfl, rfl, rfl, rfl, rfl⟩
  case start => exact fun s hm hb ho hdue => congrArg Host.Outcome.next (if_pos ⟨hm, hb, ho, hdue⟩)
  case rail =>
    exact fun step s hs hp => (exec_railGood_of_step hp).trans (congrArg Host.Outcome.next (if_pos hs.2))
  case last => exact fun s hp => exec_railGood_of_step hp
  case timeout => exact fun step s hp => congrArg Host.Outcome.next (if_neg (not_not_intro hp))
  case backoff => exact fun e s he hm hdue => exec_sequenceBackoffEnd_of_due he hm hdue

/-! ### Bring-up (20 R487-R495) -/

/-- Keeper firmware is loaded, measured and started, before it powers a slot. -/
def keeperLoaded (s : State) : State :=
  State.modDom { s with
    boot := { s.boot with phase := .bringup, mbReady := true, keeperAt := s.time.elapsed }
    lm := { s.lm with
      keeperVer := (runningImage s).keeperVer, handover := (runningImage s).handover
      meas := s.lm.meas.set 2 (runningImage s).keeperVer, cores := ~~~ s.lm.coresOut } } 1
    fun x => { x with padsHeld := false }

theorem keeperStart_eq (s : State) :
    keeperStart s = keepVotes (arbitrateAll (startBatch true (startBatch false (keeperLoaded s)))) := rfl

/-- A batch of drive slots or of DIMM slots whose slots have all ended. -/
theorem batchDone_of_ended {drives : Bool} {s : State} (hp : s.boot.phase = .bringup) (hh : s.flt.halted = false)
    (hbusy : (if drives then s.boot.driveBusy else s.boot.dimmBusy) = true)
    (hend : (batchSlots s drives ((if drives then s.boot.driveBatch else s.boot.dimmBatch) - 1)).all (slotEnded s)
      = true)
    (spds : List SpdRead) :
    batchDone drives spds s = if drives then
        (if (if drives then s.boot.driveBatch else s.boot.dimmBatch) < 2 then startBatch true s
          else { s with boot := { s.boot with driveBusy := false } })
      else dimmBatchDone spds s := if_pos ⟨hp, hbusy, hh, hend⟩

/-- Settles O50: each event of the bring-up takes the branch that the batches, the steps and the population select. -/
theorem bringUp : Obligations.BringUp := by
  refine ⟨?start, ?second, ?first, ?dimms, ?late, ?geometry⟩
  case start =>
    exact fun s hp hd hl hh => ⟨_, congrArg Host.Outcome.next ((if_pos ⟨hp, hd, hl, hh⟩).trans (keeperStart_eq s)),
      keeperLoaded s, rfl, rfl, rfl, rfl, rfl, rfl⟩
  case second =>
    intro spds s hp hh hbusy hb hend
    have ended : (batchSlots s true (s.boot.driveBatch - 1)).all (slotEnded s) = true := by rw [hb]; exact hend
    have done : ¬ s.boot.driveBatch < 2 := by omega
    exact congrArg Host.Outcome.next ((batchDone_of_ended (drives := true) hp hh hbusy ended spds).trans (if_neg done))
  case first =>
    intro spds s hp hh hbusy hb hend
    have ended : (batchSlots s true (s.boot.driveBatch - 1)).all (slotEnded s) = true := by rw [hb]; exact hend
    have more : s.boot.driveBatch < 2 := by omega
    exact congrArg Host.Outcome.next ((batchDone_of_ended (drives := true) hp hh hbusy ended spds).trans (if_pos more))
  case dimms =>
    exact fun spds s hp hh hbusy hend =>
      congrArg Host.Outcome.next (batchDone_of_ended (drives := false) hp hh hbusy hend spds)
  case late => exact fun d s hd hp hh hs hdue => onUnit_eq_next hd (if_pos ⟨hp, hh, hs, hdue⟩)
  case geometry => exact fun s hp hb hpop => congrArg Host.Outcome.next (if_pos ⟨hp, hb, hpop⟩)

/-! ### References and the device reset (20 R497, R498; 21 R508, R509) -/

/-- The request that the device answers: effecter 1, state 2. -/
theorem exec_deviceResetRequest_of_running {s : State} (hl : lmRuns s = true) :
    exec (.deviceResetRequest 1 2) s = .next (if resetRefused s then s.emit (.mctp 1 (le 1 0x04))
      else (deviceReset s).emit (.mctp 1 (le 1 0))) :=
  congrArg Host.Outcome.next (if_neg (by simp [hl]))

theorem pldmUpdate_of_running {s : State} (hp : s.boot.phase ≠ .recovery) (part : FwPart) :
    pldmUpdate part s = pldmTransfer part s := if_neg fun h => hp h.1

/-- Settles O51: each event takes the branch that the power, the clock and the refusals of R497 select. -/
theorem referencesAndReset : Obligations.ReferencesAndReset := by
  refine ⟨?skref, ?mgmtref, ?restored, ?pll, ?refused, ?refusals, ?reset, ?resume, ?update⟩
  case skref => exact fun s hp => congrArg Host.Outcome.next (if_pos hp)
  case mgmtref => exact fun s hp ho => congrArg Host.Outcome.next (if_neg (by simp [hp, ho]))
  case restored => exact fun s ho => congrArg Host.Outcome.next (if_pos ho)
  case pll => exact fun pll s hp => congrArg Host.Outcome.next (if_pos hp)
  case refused =>
    exact fun s hl hr => (exec_deviceResetRequest_of_running hl).trans (congrArg Host.Outcome.next (if_pos hr))
  case refusals =>
    intro s
    have dimm : (fun r : Replacement => !isDrive r.slot) = fun r => decide (r.slot < 32) := by
      funext r
      rw [isDrive, ← decide_not, decide_eq_decide]
      exact Nat.not_le
    rw [resetRefused, dimm]
  case reset =>
    exact fun s hl hr => (exec_deviceResetRequest_of_running hl).trans
      (congrArg Host.Outcome.next (if_neg (ne_true_of_eq_false hr)))
  case resume => exact fun s hd hh hl => congrArg Host.Outcome.next (if_pos ⟨hd, hh, hl⟩)
  case update =>
    exact fun part s hl hp => congrArg Host.Outcome.next ((if_pos (Or.inl hl)).trans (pldmUpdate_of_running hp part))

end Sys2Proof.Machine
end
